-- ==== Sys2Proof/Word.lean ====
section
/-!
DEFINITION. The word and byte types of the ES7100 and the closed sets of names its commands carry:
statuses (R11), agents and owners (R92, R494), blocks (chapter Scope), severities (R545).
-/

namespace Sys2Proof

/-- A 32-bit register or memory word (R3). -/
abbrev Word := BitVec 32

/-- A byte. -/
abbrev Byte := BitVec 8

/-- The place of a value in a command where the chip itself holds or computes that value: it carries nothing. -/
abbrev Known := Unit

/-- The status codes of R11, in the order of their values 0x00 to 0x0E. -/
inductive Status where
  | ok | estate | eauth | ebasic | efenced | ebusy | erange | etimeout
  | enack | earb | eproto | eabort | esuperseded | eretracted | efull
  deriving DecidableEq, Repr

/-- The byte a status is returned as (R11). -/
def Status.code : Status → Nat
  | .ok => 0x00 | .estate => 0x01 | .eauth => 0x02 | .ebasic => 0x03
  | .efenced => 0x04 | .ebusy => 0x05 | .erange => 0x06 | .etimeout => 0x07
  | .enack => 0x08 | .earb => 0x09 | .eproto => 0x0A | .eabort => 0x0B
  | .esuperseded => 0x0C | .eretracted => 0x0D | .efull => 0x0E

/-- The owner of a strand, a bundle, a program region or a loop slot (R92, R115). -/
inductive Owner where
  | vendor | host | svc
  deriving DecidableEq, Repr

/-- Who performs an access to the address space: a port, a strand, the policy firmware
(boot included), or a library strand applying a profile (R16). -/
inductive Agent where
  | host | svc
  | strand (k : Fin 256)
  | fw
  | lib
  deriving DecidableEq, Repr

/-- The function blocks that have a LEVEL field (R16 to R19). -/
inductive Blk where
  | seq | lay | cle | acq | pol | cnv | brn | bat | est | ptn | twb
  | slk | hst | thm | flt | spl | rcd | upd
  deriving DecidableEq, Repr

/-- The twelve power domains of R51, in index order. -/
inductive Dom where
  | aon | sec | nvm | pa | pb | lay | cle | acq | pwm | lnk | hst | svc
  deriving DecidableEq, Repr

/-- A policy pair (R497). -/
inductive Pair where
  | a | b
  deriving DecidableEq, Repr

/-- A converter stage (R297): the battery converter and the auxiliary converter. -/
inductive Stage where
  | bcv | axc
  deriving DecidableEq, Repr

/-- When HCS_N rises in an irregular host frame (R491): within the request, between a good request and the start byte (of
a new frame or of one whose access is held), or after the start byte of a READ. -/
inductive HostAbort where
  | request
  | write (addr : BitVec 24) (data : Word)
  | read (addr : BitVec 24)
  | held
  | answered (addr : BitVec 24)
  deriving DecidableEq, Repr

/-- A HELLO's content (R585). -/
structure Hello where
  role : Bool
  acting : Bool
  state : Nat
  digest : Nat
  bundle : Nat
  safe : Bool
  ack : Nat
  deriving DecidableEq, Repr

/-- A journal item (R588): its kind, the unit it names, and the numbers it carries in the order of the table. -/
structure JItem where
  kind : Nat
  unit : Nat
  vals : List Nat
  deriving DecidableEq, Repr

end Sys2Proof
end

