-- ==== Sys2Proof/Syntax.lean ====
section
/-!
DEFINITION. The commands: one constructor for each row of spec/opcode_table.json, in its order, with the operands the
command carries. An index is bounded by its type; a time, a measured value or a list is bounded in WellFormed.lean.

The operands that no register names are what the command brings from outside the chip:
- `ag` is the agent that makes an access; `k` the strand that issues an instruction; `us` and `delay` times in µs and ns.
- `raw`, `sub`: a conversion result and the fraction of its stamp in 5 ns units; `offs`, `gain`: what a calibration computed.
- `cur` of STAGE_BOUNDARY: the phases' current codes; a `k : Fin 8 × …` is a phase with the value its comparator or meter shows:
  the current sense code, or the switch node's code and the point of the period. `per`: ticks between edges.
- `cur`, `v`, `want`, `gfb` of a branch meter: its codes, its commanded current and its gate feedback; `n : Fin 24 × Int`: the
  channel and its trip comparator's code. `n : Fin 4 × Bool`: the string and whether its switch never closed.
- `act`, `rol`: the check of R638 that the active and the rollback image fail, 0 when they verify, `rol` with the blocks a copy
  gets done; `welded`: strings whose switch still conducts; `out`: how a transfer ended (data, NACK, PEC); `good`, `crcOk`: a CRC.
- `vbus`, `iload`: a mirrored bus voltage and load; `t`, `bad`: a temperature in 0.1 °C and an open or shorted sensor.
- `seq`, `tag`: a service frame's number and tag.
- `sel` of TRANSACTION_START: how the mux select ends that it may need (0 well, 1 not acknowledged, 2 another value read back, 3 arbitration
  lost), or that another controller's START (4) or STOP (5) is seen on the bus instead. `lines`: 0 SDA low, 1 both high, 2 SCL low.
- An operand of type Known: a value of the row that the chip holds or computes itself, so that the command carries nothing for it.
-/

namespace Sys2Proof

/-- A command of the ES7100. -/
inductive Instr where
  /-- A port or strand write to a register or window word that has no row of its own acts according to its field types
  (R6). -/
  | registerWrite (ag : Agent) (addr : BitVec 24) (d : Word)
  /-- An access held while its power domain woke takes effect once the domain is usable (R35). -/
  | heldAccessComplete
  /-- The device returns a domain to Sleep or Gated once no work, held access, event or mailbox word for it remains
  (R53). -/
  | domainSleep (dom : Dom)
  /-- A lockstep mismatch within a policy pair raises LOCKSTEP_A or LOCKSTEP_B (R23). -/
  | lockstepMismatch (p : Pair)
  /-- A heartbeat missing for 3 consecutive 10 ms periods raises POLICY_HEARTBEAT (R23). -/
  | policyHeartbeat
  /-- A supply falls below its power-on threshold outside SHIP and power-on reset is entered (R55). -/
  | supplyLoss
  /-- VKEEP falls below its power-on threshold and the device goes to OFF (R46). -/
  | vkeepLoss
  /-- Power-on reset is released after all supplies pass their rising thresholds, straps are sampled and BOOT begins
  (R679). -/
  | powerOnResetRelease (role : Bool) (refsel : Bool)
  /-- RST_IN_N held low for at least 1 µs causes a warm reset into BOOT (R60). -/
  | warmReset
  /-- Boot finishes image selection, verification, loading and parameter application and enters STANDBY, SHADOW or
  LOCKDOWN (R65). -/
  | bootComplete (us : Nat) (act : Fin 8) (rol : Fin 8 × Nat)
  /-- An AUTOSTART at entry from BOOT decides SOURCE, HOLDUP or STANDBY once the source condition holds or 1 s has
  passed (R269). -/
  | autostartDecision
  /-- PWRM_CMD START moves STANDBY to SOURCE or HOLDUP according to AC qualification and strings (R46). -/
  | start (ag : Agent)
  /-- PWRM_CMD STOP ramps converters to zero, deasserts all GEN and requests the sequencer OFF (R46). -/
  | stop (ag : Agent)
  /-- PWRM_CMD SHIP opens strings, commits state and powers down every domain but AON (R392). -/
  | ship (ag : Agent) (welded : BitVec 4 × Bool)
  /-- PWRM_CMD SAFE_EXIT clears COND_SAFE when no SAFE fault is uncleared (R46). -/
  | safeExit (ag : Agent)
  /-- PWRM_CMD SERVICE_ENTER from the service port sets COND_SVC (R46). -/
  | serviceEnter (ag : Agent)
  /-- PWRM_CMD SERVICE_EXIT clears COND_SVC (R46). -/
  | serviceExit (ag : Agent)
  /-- PWRM_CMD LOCK_EXIT from the service port with presence clears COND_LOCK when no alarm is uncleared (R572). -/
  | lockExit (ag : Agent)
  /-- PWRM_CMD RESET causes a warm reset with cause 0x3 (R60). -/
  | resetCmd (ag : Agent)
  /-- The early collapse detector fires and abandons every uncommitted MRAM write (R58). -/
  | ecdFire
  /-- The early collapse detector re-arms without a reset and covering GAP records and store rewrites follow (R700).
  -/
  | ecdRearm
  /-- After 8 missing XT32 cycles AON runs from LFRC and raises XT32_LOSS (R63). -/
  | xt32Loss
  /-- After the crystal has run 1 s without a missing cycle AON returns to XT32 (R63). -/
  | xt32Return
  /-- After 4 missing reference cycles the PLL moves to the wake RC and raises REF_LOSS (R64). -/
  | refLoss
  /-- After the reference has run 10 ms without a missing cycle the PLL returns to it with slewed frequency (R64). -/
  | refReturn
  /-- PWRM_OPSEC is committed to MRAM every 600 s (R70). -/
  | opsecCommit
  /-- SEQ_CMD ON sets the on request and starts or resumes the up sequence per the sequencer state table (R80). -/
  | seqOn (ag : Agent)
  /-- SEQ_CMD OFF clears the on request and starts the down sequence (R80). -/
  | seqOff (ag : Agent)
  /-- A write of SEQ_STEPn_CTL or SEQ_STEPn_TMO is judged against the step's type and time limits (R72). -/
  | seqStepWrite (ag : Agent) (n : Fin 64) (tmo : Bool) (d : Word)
  /-- A transition of a rail's PG restarts its qualification time and counts toward chatter (R75). -/
  | seqPgChange (rail : Fin 24) (level : Bool)
  /-- A WAIT_GOOD step completes when PG has stayed active for the qualification time (R75). -/
  | seqQualified
  /-- A DELAY step completes when its duration has elapsed (R71). -/
  | seqDelayElapsed
  /-- A rail is seen discharged and a WAIT_DISCH step, down-sequence wait or retry wait proceeds (R81). -/
  | seqDischarged
  /-- A WAIT_GOOD or RESET_RELEASE step's timeout passes and RAIL_TIMEOUT is raised with the step's policy applied
  (R76). -/
  | railTimeout
  /-- PG makes more than LIMIT transitions within WINDOW during WAIT_GOOD and RAIL_CHATTER is raised (R76). -/
  | railChatter
  /-- RDELAY of a retry elapses, SEQ_EN is reasserted and the step restarts (R77). -/
  | seqRetryDelayElapsed
  /-- A discharge wait reaches its timeout and RAIL_NODISCHARGE is raised (R78). -/
  | railNodischarge
  /-- A rail's PG inactive for 50 µs while ON raises RAIL_PG_LOST and asserts watching reset outputs (R79). -/
  | railPgLost (rail : Fin 24)
  /-- A reset output rises once STRETCH has elapsed after its release step ran and its watched rails were good (R83).
  -/
  | rstStretchElapsed (n : Fin 4)
  /-- LAY_CMD START takes a FREE allocated strand to READY with a fresh context (R93). -/
  | strandStart (ag : Agent) (k : Fin 256)
  /-- LAY_CMD HALT halts a strand at its next instruction boundary (R94). -/
  | strandHalt (ag : Agent) (k : Fin 256)
  /-- LAY_CMD RESUME makes a HALTED strand READY, re-executing a halted wait (R94). -/
  | strandResume (ag : Agent) (k : Fin 256)
  /-- LAY_CMD RESTART reinitialises a HALTED strand and makes it READY (R93). -/
  | strandRestart (ag : Agent) (k : Fin 256)
  /-- LAY_CMD FREE returns a strand to FREE, discarding its token results (R123). -/
  | strandFree (ag : Agent) (k : Fin 256)
  /-- LAY_CMD UNFENCE moves a FENCED strand to HALTED once its fault flag has been read (R94). -/
  | strandUnfence (ag : Agent) (k : Fin 256)
  /-- LAY_CMD HALT_OWNER halts every READY, RUNNING and WAITING strand of one owner (R138). -/
  | haltOwner (ag : Agent) (o : Owner)
  /-- LAY_BLD_CTL BEGIN erases the port's program region and opens a bundle load (R131). -/
  | bundleBegin (ag : Agent)
  /-- A write of LAY_BLD_DATA appends one bundle word, ending the load with EFULL past the region (R133). -/
  | bundleData (ag : Agent) (d : Word)
  /-- LAY_BLD_CTL COMMIT checks the bundle, allocates contexts and starts AUTOSTART entries (R134). -/
  | bundleCommit (ag : Agent)
  /-- LAY_BLD_CTL CANCEL ends a bundle load and leaves the region empty (R130). -/
  | bundleCancel (ag : Agent)
  /-- At an instruction boundary the highest-priority READY strands take lanes, displacing lower ones (R95). -/
  | strandDispatch
  /-- A strand that has issued SLICE instructions yields its lane to a READY strand of equal priority (R96). -/
  | sliceEnd (k : Fin 256)
  /-- An instruction that would exceed the activation budget is not issued and the strand halts with STRAND_BUDGET
  (R121). -/
  | strandBudget (k : Fin 256)
  /-- A waiting strand's condition is met and it becomes READY with results written (R94). -/
  | waitWake (k : Fin 256)
  /-- A wait's timeout expires and the strand becomes READY with ETIMEOUT, consuming nothing (R108). -/
  | waitTimeout (k : Fin 256)
  /-- A strand's periodic timer ticks, holding one tick pending and counting missed ticks (R110). -/
  | strandTimerTick (k : Fin 256)
  /-- nop does nothing (R141). -/
  | nop (k : Fin 256)
  /-- halt puts the strand in HALTED with WHY 0x1 (R94). -/
  | halt (k : Fin 256)
  /-- yield ends the activation and puts the strand at the back of its queue (R120). -/
  | yieldK (k : Fin 256)
  /-- fault raises STRAND_USER with an 8-bit code (R122). -/
  | faultK (k : Fin 256) (code : BitVec 8)
  /-- sysr returns a system value selected by its selector (R150). -/
  | sysr (k : Fin 256) (d : Fin 16) (sel : Fin 9)
  /-- add writes A + B and sets Z N C V (R146). -/
  | add (k : Fin 256) (d : Fin 16) (a : Fin 16) (b : Fin 16)
  /-- adc writes A + B + C and sets Z N C V (R146). -/
  | adc (k : Fin 256) (d : Fin 16) (a : Fin 16) (b : Fin 16)
  /-- sub writes A − B and sets Z N C V (R146). -/
  | sub (k : Fin 256) (d : Fin 16) (a : Fin 16) (b : Fin 16)
  /-- sbc writes A − B − C and sets Z N C V (R146). -/
  | sbc (k : Fin 256) (d : Fin 16) (a : Fin 16) (b : Fin 16)
  /-- and writes A & B and sets Z N (R146). -/
  | andK (k : Fin 256) (d : Fin 16) (a : Fin 16) (b : Fin 16)
  /-- or writes A | B and sets Z N (R146). -/
  | orK (k : Fin 256) (d : Fin 16) (a : Fin 16) (b : Fin 16)
  /-- xor writes A ^ B and sets Z N (R146). -/
  | xorK (k : Fin 256) (d : Fin 16) (a : Fin 16) (b : Fin 16)
  /-- bic writes A & ~B and sets Z N (R146). -/
  | bic (k : Fin 256) (d : Fin 16) (a : Fin 16) (b : Fin 16)
  /-- shl shifts A left by B[4:0] and sets Z N C (R146). -/
  | shl (k : Fin 256) (d : Fin 16) (a : Fin 16) (b : Fin 16)
  /-- shr shifts A right with zero fill and sets Z N C (R146). -/
  | shr (k : Fin 256) (d : Fin 16) (a : Fin 16) (b : Fin 16)
  /-- sar shifts A right with sign fill and sets Z N C (R146). -/
  | sar (k : Fin 256) (d : Fin 16) (a : Fin 16) (b : Fin 16)
  /-- mul writes the low 32 bits of A × B (R146). -/
  | mul (k : Fin 256) (d : Fin 16) (a : Fin 16) (b : Fin 16)
  /-- mulh writes the high 32 bits of the signed product (R146). -/
  | mulh (k : Fin 256) (d : Fin 16) (a : Fin 16) (b : Fin 16)
  /-- cmp sets flags from A − B (R146). -/
  | cmp (k : Fin 256) (a : Fin 16) (b : Fin 16)
  /-- mov copies A to D (R141). -/
  | mov (k : Fin 256) (d : Fin 16) (a : Fin 16)
  /-- not writes ~A and sets Z N (R146). -/
  | notK (k : Fin 256) (d : Fin 16) (a : Fin 16)
  /-- neg writes 0 − A and sets Z N C V (R146). -/
  | neg (k : Fin 256) (d : Fin 16) (a : Fin 16)
  /-- clz writes the count of leading zero bits of A (R146). -/
  | clz (k : Fin 256) (d : Fin 16) (a : Fin 16)
  /-- min writes the signed minimum of A and B (R146). -/
  | minK (k : Fin 256) (d : Fin 16) (a : Fin 16) (b : Fin 16)
  /-- max writes the signed maximum of A and B (R146). -/
  | maxK (k : Fin 256) (d : Fin 16) (a : Fin 16) (b : Fin 16)
  /-- tst sets flags from A & B (R146). -/
  | tst (k : Fin 256) (a : Fin 16) (b : Fin 16)
  /-- sadd writes the saturated signed sum (R151). -/
  | sadd (k : Fin 256) (d : Fin 16) (a : Fin 16) (b : Fin 16)
  /-- ssub writes the saturated signed difference (R151). -/
  | ssub (k : Fin 256) (d : Fin 16) (a : Fin 16) (b : Fin 16)
  /-- qmul writes the rounded, saturated Q8.24 product (R151). -/
  | qmul (k : Fin 256) (d : Fin 16) (a : Fin 16) (b : Fin 16)
  /-- divu writes the unsigned quotient, substituting on division by zero (R151). -/
  | divu (k : Fin 256) (d : Fin 16) (a : Fin 16) (b : Fin 16)
  /-- div writes the signed quotient truncated toward zero, substituting on overflow (R151). -/
  | divK (k : Fin 256) (d : Fin 16) (a : Fin 16) (b : Fin 16)
  /-- movi writes the sign-extended 20-bit immediate (R141). -/
  | movi (k : Fin 256) (d : Fin 16) (imm : BitVec 20)
  /-- movhi places the immediate in the high half of D (R141). -/
  | movhi (k : Fin 256) (d : Fin 16) (imm : BitVec 16)
  /-- addi adds a sign-extended immediate and sets Z N C V (R146). -/
  | addi (k : Fin 256) (d : Fin 16) (a : Fin 16) (imm : BitVec 16)
  /-- andi ands a zero-extended immediate (R146). -/
  | andi (k : Fin 256) (d : Fin 16) (a : Fin 16) (imm : BitVec 16)
  /-- ori ors a zero-extended immediate (R146). -/
  | ori (k : Fin 256) (d : Fin 16) (a : Fin 16) (imm : BitVec 16)
  /-- xori xors a zero-extended immediate (R146). -/
  | xori (k : Fin 256) (d : Fin 16) (a : Fin 16) (imm : BitVec 16)
  /-- shli shifts left by an immediate (R146). -/
  | shli (k : Fin 256) (d : Fin 16) (a : Fin 16) (n : Fin 32)
  /-- shri shifts right by an immediate with zero fill (R146). -/
  | shri (k : Fin 256) (d : Fin 16) (a : Fin 16) (n : Fin 32)
  /-- sari shifts right by an immediate with sign fill (R146). -/
  | sari (k : Fin 256) (d : Fin 16) (a : Fin 16) (n : Fin 32)
  /-- cmpi sets flags from A minus a sign-extended immediate (R146). -/
  | cmpi (k : Fin 256) (a : Fin 16) (imm : BitVec 16)
  /-- extu extracts a bit field zero-extended (R152). -/
  | extu (k : Fin 256) (d : Fin 16) (a : Fin 16) (pos : Fin 32) (wm1 : Fin 32)
  /-- exts extracts a bit field sign-extended (R152). -/
  | exts (k : Fin 256) (d : Fin 16) (a : Fin 16) (pos : Fin 32) (wm1 : Fin 32)
  /-- ins inserts the low bits of A into a field of D (R152). -/
  | ins (k : Fin 256) (d : Fin 16) (a : Fin 16) (pos : Fin 32) (wm1 : Fin 32)
  /-- ldl loads a 32-bit local word (R153). -/
  | ldl (k : Fin 256) (d : Fin 16) (a : Fin 16) (imm : BitVec 16)
  /-- ldlh loads a 16-bit local halfword (R153). -/
  | ldlh (k : Fin 256) (d : Fin 16) (a : Fin 16) (imm : BitVec 16)
  /-- ldlb loads a local byte (R153). -/
  | ldlb (k : Fin 256) (d : Fin 16) (a : Fin 16) (imm : BitVec 16)
  /-- stl stores a 32-bit local word (R153). -/
  | stl (k : Fin 256) (d : Fin 16) (a : Fin 16) (imm : BitVec 16)
  /-- stlh stores a local halfword (R153). -/
  | stlh (k : Fin 256) (d : Fin 16) (a : Fin 16) (imm : BitVec 16)
  /-- stlb stores a local byte (R153). -/
  | stlb (k : Fin 256) (d : Fin 16) (a : Fin 16) (imm : BitVec 16)
  /-- ldc loads a 32-bit commons word (R153). -/
  | ldc (k : Fin 256) (d : Fin 16) (a : Fin 16) (imm : BitVec 16)
  /-- ldch loads a commons halfword (R153). -/
  | ldch (k : Fin 256) (d : Fin 16) (a : Fin 16) (imm : BitVec 16)
  /-- ldcb loads a commons byte (R153). -/
  | ldcb (k : Fin 256) (d : Fin 16) (a : Fin 16) (imm : BitVec 16)
  /-- stc stores a commons word, refused with EAUTH in the vendor area for non-vendor strands (R154). -/
  | stc (k : Fin 256) (d : Fin 16) (a : Fin 16) (imm : BitVec 16)
  /-- stch stores a commons halfword (R154). -/
  | stch (k : Fin 256) (d : Fin 16) (a : Fin 16) (imm : BitVec 16)
  /-- stcb stores a commons byte (R154). -/
  | stcb (k : Fin 256) (d : Fin 16) (a : Fin 16) (imm : BitVec 16)
  /-- ldd reads a device-space word judged as the owner's port, possibly held for a wake (R154). -/
  | ldd (k : Fin 256) (d : Fin 16) (a : Fin 16) (imm : BitVec 16)
  /-- std writes a device-space word judged as the owner's port, possibly held for a wake (R154). -/
  | std (k : Fin 256) (d : Fin 16) (a : Fin 16) (imm : BitVec 16)
  /-- cas compares and swaps a commons word indivisibly (R105). -/
  | cas (k : Fin 256) (d : Fin 16) (a : Fin 16) (b : Fin 16) (c : Fin 16)
  /-- fadd adds to a commons word indivisibly and returns the old value (R105). -/
  | fadd (k : Fin 256) (d : Fin 16) (a : Fin 16) (b : Fin 16)
  /-- xchg exchanges a commons word indivisibly (R155). -/
  | xchg (k : Fin 256) (d : Fin 16) (a : Fin 16) (b : Fin 16)
  /-- A conditional branch moves the PC when its condition holds (R156). -/
  | bcc (k : Fin 256) (cond : Fin 11) (off : BitVec 20)
  /-- bl saves the return link in S15 and branches (R143). -/
  | bl (k : Fin 256) (off : BitVec 20)
  /-- jr jumps to the offset held in a register (R143). -/
  | jr (k : Fin 256) (a : Fin 16)
  /-- ret jumps to S15 (R143). -/
  | ret (k : Fin 256)
  /-- delay waits an immediate number of microseconds (R158). -/
  | delay (k : Fin 256) (n : BitVec 20)
  /-- delayv waits a register-held number of microseconds (R158). -/
  | delayv (k : Fin 256) (a : Fin 16)
  /-- timer arms or stops the strand timer with an immediate period (R110). -/
  | timer (k : Fin 256) (n : BitVec 20)
  /-- timerv arms or stops the strand timer with a register period (R110). -/
  | timerv (k : Fin 256) (a : Fin 16)
  /-- waitt waits for a timer tick and returns missed ticks (R110). -/
  | waitt (k : Fin 256) (d : Fin 16) (c : Option (Fin 16))
  /-- waite waits until an event line count differs from the operand (R109). -/
  | waite (k : Fin 256) (d : Fin 16) (line : Fin 4) (a : Fin 16) (c : Option (Fin 16))
  /-- waitk waits for a token's completion and releases its entry (R113). -/
  | waitk (k : Fin 256) (d : Fin 16) (a : Fin 16) (c : Option (Fin 16))
  /-- kpoll collects a completed token or returns EBUSY at once (R157). -/
  | kpoll (k : Fin 256) (d : Fin 16) (a : Fin 16)
  /-- kdrop releases a token entry at once, discarding the later result (R113). -/
  | kdrop (k : Fin 256) (a : Fin 16)
  /-- send queues a word on a mailbox channel of the strand's group (R126). -/
  | send (k : Fin 256) (b : Fin 16) (ch : Fin 64)
  /-- recv waits for and takes a word from a mailbox channel (R126). -/
  | recv (k : Fin 256) (d : Fin 16) (ch : Fin 64) (c : Option (Fin 16))
  /-- lrd reads a word of a loop slot (R159). -/
  | lrd (k : Fin 256) (d : Fin 16) (a : Fin 16) (w : BitVec 8)
  /-- lwr writes a word of a loop slot judged as a port write (R159). -/
  | lwr (k : Fin 256) (b : Fin 16) (a : Fin 16) (w : BitVec 8)
  /-- lsp writes a slot's setpoint word (R159). -/
  | lsp (k : Fin 256) (b : Fin 16) (a : Fin 16)
  /-- lcmt requests the commit of one block of a slot (R231). -/
  | lcmt (k : Fin 256) (a : Fin 16) (blk : Fin 8)
  /-- pread issues a partner item read and returns a token (R161). -/
  | pread (k : Fin 256) (d : Fin 16) (a : Fin 16) (item : BitVec 12)
  /-- pwrite issues a partner item write and returns a token (R161). -/
  | pwrite (k : Fin 256) (d : Fin 16) (a : Fin 16) (b : Fin 16) (item : BitVec 12)
  /-- pcmd issues a partner command item and returns a token (R161). -/
  | pcmd (k : Fin 256) (d : Fin 16) (a : Fin 16) (item : BitVec 12)
  /-- pblkr issues a partner block read into the commons (R162). -/
  | pblkr (k : Fin 256) (d : Fin 16) (a : Fin 16) (b : Fin 16) (item : BitVec 12)
  /-- pblkw issues a partner block write from the commons (R162). -/
  | pblkw (k : Fin 256) (d : Fin 16) (a : Fin 16) (b : Fin 16) (item : BitVec 12)
  /-- psetp issues a setpoint under a generation PTN assigns (R439). -/
  | psetp (k : Fin 256) (d : Fin 16) (a : Fin 16) (b : Fin 16) (item : BitVec 12)
  /-- rec writes one NOTE record with payload S0–S7 under a rate limit (R127). -/
  | recNote (k : Fin 256) (code : BitVec 16)
  /-- A converter result goes in one fabric cycle to every consumer of its channel (R169). -/
  | conversionResult (n : Fin 4) (c : Fin 95) (raw : BitVec 16) (sub : Fin 200)
  /-- At a running converter's scan boundary pending mask and DIV writes take effect (R167). -/
  | acqScanBoundary (n : Fin 4)
  /-- A read of ACQ_QPOP1 by the queue owner returns word 1 and removes the oldest entry (R178). -/
  | acqQpop1Read (ag : Agent)
  /-- A read of ACQ_RESc returns the latest result and clears NEW and OVR (R185). -/
  | acqResRead (ag : Agent) (c : Fin 95)
  /-- ACQ_CMD CAL starts calibration of an interleaved pair (R174). -/
  | acqCal (ag : Agent) (p : Fin 2)
  /-- A calibration ends, writing trims or raising ACQ_CAL_FAIL (R174). -/
  | acqCalDone (offs : Int) (gain : Int)
  /-- ACQ_CMD QFLUSH discards every queue entry and sets gap flags (R182). -/
  | qflush (ag : Agent)
  /-- After 65,536 sample pairs TRACK moves OFFS by at most 1 (R175). -/
  | acqTrackUpdate (p : Fin 2) (mean0 : Known) (mean1 : Known)
  /-- Phase error above 20° for 40 ms clears LOCK (R192). -/
  | acmUnlock
  /-- Phase error below 5° for 100 ms sets LOCK (R192). -/
  | acmLock
  /-- QDEV consecutive deviating scans move the sag detector to ONSET (R197). -/
  | acmSagOnset (phases : Known)
  /-- VEQ below THR for CONFQ scans confirms the sag (R197). -/
  | acmSagConfirm
  /-- QDEV non-deviating scans with VEQ restored cancel an onset (R197). -/
  | acmSagCancel
  /-- VEQ restored for ENDQ with LOCK set ends a confirmed sag (R197). -/
  | acmSagEnd
  /-- QDEV consecutive swell-deviating scans move the swell detector to ONSET (R198). -/
  | acmSwellOnset (phases : Known)
  /-- VEQ above THR for CONFQ scans confirms the swell (R198). -/
  | acmSwellConfirm
  /-- A swell onset is cancelled (R198). -/
  | acmSwellCancel
  /-- A confirmed swell ends after ENDQ (R198). -/
  | acmSwellEnd
  /-- Writing RUN = 1 validates the chain, commits all blocks, binds the output and arms the slot (R218). -/
  | slotRun (ag : Agent) (s : Fin 64) (ctl : Word)
  /-- Writing RUN = 0 stops an armed slot or releases a read fenced slot (R218). -/
  | slotStop (ag : Agent) (s : Fin 64) (ctl : Word)
  /-- After its running sample finishes a stopping slot enters STOPPED, applies STOPACT and releases its output
  (R218). -/
  | slotStopComplete (s : Fin 64)
  /-- A write to a slot's SP replaces the ramp target without a step (R227). -/
  | loopSpWrite (ag : Agent) (s : Fin 64) (d : Word)
  /-- A CLE_COMMIT write validates and buffers staged block words for a slot (R231). -/
  | cleCommit (ag : Agent) (s : Fin 64) (mask : BitVec 8)
  /-- A write of CLE_KICK triggers a sample of an armed slot (R223). -/
  | cleKick (ag : Agent) (s : Fin 64)
  /-- A slot's trigger source fires its DECIM-th occurrence and a sample becomes pending (R223). -/
  | loopTrigger (s : Fin 64)
  /-- A pending sample is dispatched to a free lane, latches its sources and moves SPACT (R224). -/
  | loopSampleStart (delay : Nat)
  /-- A sample completes its chain and the output block writes or submits its value (R226). -/
  | loopSampleDone (s : Fin 64)
  /-- PLANT's out-of-band count reaching TIME raises PLAUSIBILITY and applies its reaction (R238). -/
  | plausibility (s : Fin 64)
  /-- The confirm window elapsing or a cancel moves PREDICT to RETRACTING and retracts the generation (R242). -/
  | predictConfwElapsed (s : Fin 64)
  /-- Every 10 ms and at each transition the policy strands write RLIM as the least of its three terms (R256). -/
  | rlimWrite
  /-- Every KEEPALIVE the share strand issues the group keep-alive (R260). -/
  | shareKeepalive
  /-- Every PERIOD the share strand reads member currents and writes clamped trims (R261). -/
  | shareTrim (amps : Known)
  /-- A member's deviation or saturated trim lasting SHDEVT raises SHARE_IMBALANCE (R262). -/
  | shareImbalance (e : BitVec 12)
  /-- The source condition holding without break for SRCQ qualifies the source (R268). -/
  | sourceQualified
  /-- BSLOT OUT at or above BACKI for BACKT with the source condition false starts a hand-over (R274). -/
  | hoBackstop
  /-- PWRM_POL_CMD TRANSFER starts a test hand-over from ONSRC (R274). -/
  | transfer (ag : Agent)
  /-- Rectifiers at zero or MAXT elapsed moves HANDOVER to ONBATT (R274). -/
  | hoDone
  /-- DWELL elapsed with the source qualified starts the return (R274). -/
  | retStart
  /-- BSLOT OUT at or below RETDONE for RETDWELL ends the return (R274). -/
  | retDone
  /-- Every 10 ms the capping value is recomputed from PCAP, bus voltage and capacity (R281). -/
  | capRecompute (v : Known)
  /-- BSLOT OUT at or above BACKI for ENTRYT enters CAPPED (R282). -/
  | capEnter
  /-- BSLOT OUT at or below RETDONE for EXITT leaves CAPPED (R282). -/
  | capExit
  /-- Every STEP while a shedding condition holds the policy turns off one shed-mask branch (R285). -/
  | branchShed
  /-- After RESTORE the policy turns its shed branches on again one per STEP (R286). -/
  | shedRestore
  /-- A written LEVEL takes effect at the block's next quiescent point, applying the profile when returning to Basic
  (R18). -/
  | levelChangeApply (b : Blk)
  /-- CNV_x_CMD START moves a stopped stage into SOFTSTART or refuses an invalid configuration (R315). -/
  | stageStart (ag : Agent) (x : Fin 2)
  /-- CNV_x_CMD STOP ramps a stage down in STOPPING or stops it from HICCUP (R315). -/
  | stageStop (ag : Agent) (x : Fin 2)
  /-- CNV_x_CMD UNFENCE_PH returns a fenced phase to the active set at the next START (R336). -/
  | phaseUnfence (ag : Agent) (x : Fin 2) (k : Fin 8)
  /-- CNV_x_CMD UNFENCE returns a FENCED stage to STOPPED once its flag has been read (R315). -/
  | stageUnfence (ag : Agent) (x : Fin 2)
  /-- At each stage boundary the current regulator runs and re-spacing and new commands apply (R302). -/
  | stageBoundary (x : Fin 2) (cur : List Int) (fast : Known) (paused : Known)
  /-- Every ROTP periods each active phase moves one slot later unless deferred (R305). -/
  | phaseRotation (x : Fin 2)
  /-- A soft-start checkpoint judges the check-side voltage, passing to RUN or failing to HICCUP or FENCED (R317). -/
  | softstartCheckpoint (x : Fin 2)
  /-- HICCUP elapsing restarts the stage in SOFTSTART (R319). -/
  | hiccupElapsed (x : Fin 2)
  /-- A quiet stage or 10 ms in STOPPING ends in STOPPED (R320). -/
  | stoppingDone (x : Fin 2)
  /-- 16 × SCCYC consecutive limited periods in RUN below target voltage quick-stop the stage (R318). -/
  | cnvShort (x : Fin 2)
  /-- A phase current crossing FASTLIM ends the active switch's on-time for that period (R312). -/
  | fastLimit (x : Fin 2) (k : Fin 8 × Int)
  /-- A phase current crossing SCLIM turns both switches off and raises PHASE_SC (R313). -/
  | phaseSc (x : Fin 2) (k : Fin 8 × Int)
  /-- After 15 further periods a short-circuited phase resumes in diode emulation (R313). -/
  | phaseScResume (x : Fin 2) (k : Fin 8)
  /-- The slow limit acting for OVLT raises CNV_OVERLOAD (R314). -/
  | cnvOverload (x : Fin 2)
  /-- A phase outside the imbalance threshold for IMBN windows raises PHASE_IMBALANCE (R306). -/
  | phaseImbalance (x : Fin 2) (k : Fin 8) (iavg : Known)
  /-- A zero comparator change during the synchronous interval turns the switch off in diode emulation (R309). -/
  | zeroCrossing (x : Fin 2) (k : Fin 8 × BitVec 12 × BitVec 16)
  /-- DECNT consecutive periods with a zero crossing put a phase in diode emulation (R310). -/
  | deEntry (x : Fin 2) (k : Fin 8)
  /-- DECNT consecutive periods without a crossing take a phase out of diode emulation (R310). -/
  | deExit (x : Fin 2) (k : Fin 8)
  /-- Low current with a LO voltage rise declares battery removal and quick-stops the BCV (R325). -/
  | batteryRemovalDetect
  /-- A SYNCIN rising edge within the window adjusts the stage period toward lock (R327). -/
  | syncinEdge (per : Nat)
  /-- Edge error below 10 ns for 16 periods sets LOCK and raises SYNC_LOCK (R327). -/
  | syncLock (x : Fin 2)
  /-- Two consecutive missing sync edges clear LOCK and slew the period back (R328). -/
  | syncLoss (x : Fin 2)
  /-- A write of CNV_x_VCMD sets the voltage slot's SP and SPSLEW and supersedes any outstanding command (R323). -/
  | cnvVcmd (ag : Agent) (x : Fin 2) (d : Word)
  /-- A read of CNV_x_VDONE returns and removes the oldest completion entry (R324). -/
  | cnvVdoneRead (ag : Agent) (x : Fin 2)
  /-- A tone's new FREQ or AMP takes effect at its next upward zero crossing (R331). -/
  | pertToneChange (t : Fin 8)
  /-- BRN_n_CMD ON takes an OFF branch to INRUSH, retries a TRIPPED one or re-enables a LATCHED one (R358). -/
  | branchOnCmd (ag : Agent) (n : Fin 24)
  /-- BRN_n_CMD OFF takes a branch to OFF with retry count 0 (R358). -/
  | branchOff (ag : Agent) (n : Fin 24)
  /-- BRN_n_CMD UNFENCE returns a FENCED branch to OFF once its flag has been read (R358). -/
  | branchUnfence (ag : Agent) (n : Fin 24)
  /-- BRN_n_CMD ECLR returns the branch energy accumulator to 0 (R351). -/
  | eclr (ag : Agent) (n : Fin 24)
  /-- Every 8 µs the branch meters deliver a result and energy accumulates (R349). -/
  | branchMeterSample (n : Fin 24) (cur : Int) (v : BitVec 16) (want : Int) (gfb : Bool)
  /-- At the end of each AVGWIN the mean current, voltage and power are updated (R353). -/
  | branchAvgWindow (n : Fin 24)
  /-- A read of BRN_n_ELO returns the low energy word and latches the high word (R352). -/
  | brnEloRead (ag : Agent) (n : Fin 24)
  /-- The fast trip comparator deasserts GEN within 250 ns and the branch enters TRIPPED (R357). -/
  | branchTrip (n : Fin 24 × Int)
  /-- INRUSH with the limit not acting for INRQ and VS at VPG moves the branch to ON (R358). -/
  | branchOn (n : Fin 24)
  /-- INRT elapsing in INRUSH trips the branch (R358). -/
  | branchInrushTimeout (n : Fin 24)
  /-- VS below VPG/10 at INSHT trips the branch (R358). -/
  | branchInrushShort (n : Fin 24)
  /-- The limit acting continuously for OLT in ON trips the branch (R358). -/
  | branchOverload (n : Fin 24)
  /-- A gate that fails to rise, drops or fails to fall raises GATE_FAIL (R360). -/
  | gateFail (n : Fin 24) (kind : Fin 3)
  /-- RETRYDLY elapsing in TRIPPED retries the branch in INRUSH (R358). -/
  | branchRetry (n : Fin 24)
  /-- Current above OFFLEAK for 10 ms while off latches the branch (R361). -/
  | branchPassShort (n : Fin 24)
  /-- BRN_STAGGER after the previous branch leaves INRUSH the next AUTOON branch is turned on (R362). -/
  | branchAutoonStagger
  /-- BAT_CMD CONNECT closes an OPEN string or starts MATCHING (R374). -/
  | connect (ag : Agent) (n : Fin 4)
  /-- BAT_CMD CONNECTF closes an OPEN string without matching (R374). -/
  | connectf (ag : Agent) (n : Fin 4)
  /-- BAT_CMD DISCONNECT opens a CLOSED or MATCHING string (R374). -/
  | disconnect (ag : Agent) (n : Fin 4)
  /-- BAT_CMD SUSPEND holds the charger (R384). -/
  | suspend (ag : Agent)
  /-- BAT_CMD RESUME lifts the SUSPEND hold (R384). -/
  | chgResume (ag : Agent)
  /-- BAT_CMD RESTART restarts the charger decision from IDLE (R385). -/
  | chgRestart (ag : Agent)
  /-- V at or above VPRES for INSQ moves an ABSENT string to OPEN and starts the identity read (R374). -/
  | batInserted (n : Fin 4)
  /-- The identity read completes and AUTOCONN and the estimator's insertion start act (R378). -/
  | stringIdentityRead (n : Fin 4) (good : Known) (w : Known)
  /-- A matching string within VMATCH for 1 s closes (R374). -/
  | stringMatched (n : Fin 4)
  /-- MATCHT elapsing returns a matching string to OPEN (R374). -/
  | strMatchTimeout (n : Fin 4)
  /-- Missing switch feedback opens a CLOSED string (R374). -/
  | strSwitchFail (n : Fin 4 × Bool)
  /-- Feedback still active SWT after opening moves the string to STUCK (R374). -/
  | strSwitchWeld (n : Fin 4)
  /-- Switch feedback going inactive moves a STUCK string to OPEN (R374). -/
  | stringUnstuck (n : Fin 4)
  /-- V below VPRES for 100 ms moves an OPEN or MATCHING string to ABSENT (R374). -/
  | stringAbsent (n : Fin 4)
  /-- A CLOSED string below VPRES for 100 µs or after converter removal is removed and frozen (R377). -/
  | batRemoved (mask : Known)
  /-- V below VCUT for 1 s raises STR_UNDERVOLT and may open the string (R376). -/
  | strUndervolt (n : Fin 4)
  /-- Discharge above ISTRMAX for 10 ms raises STR_OVERCURRENT and may open the string (R376). -/
  | strOvercurrent (n : Fin 4)
  /-- Every 100 ms the charger recomputes CB and VREG (R381). -/
  | chargeRecompute
  /-- TREST elapsing in ENTRY chooses TRICKLE, PRECHG or BULK from the rest-end voltage (R385). -/
  | chgEntryRestEnd (v : Known)
  /-- V at or above VLOW for 10 s moves TRICKLE to PRECHG (R385). -/
  | chgTrickleDone
  /-- V at or above VPRE for 10 s moves PRECHG to BULK (R385). -/
  | chgPrechgDone
  /-- TTRK or TPRE elapsing moves the charger to FAULT (R385). -/
  | chgNoaccept
  /-- An ON interval of TON ends and a native rest begins (R386). -/
  | chgOnIntervalEnd
  /-- A native rest ends, is judged valid, reported to EST and may move BULK to TOPOFF (R386). -/
  | chgRestEnd (v : Known) (steady : Known)
  /-- Charge current below the termination threshold ends TOPOFF in DONE or FLOAT (R386). -/
  | chgTermination
  /-- TCHG elapsing since BULK entry moves the charger to FAULT (R385). -/
  | chgTimeout
  /-- V below VRCH in DONE or FLOAT restarts BULK (R385). -/
  | chgRecharge
  /-- V above VOVP for 100 ms moves the charger to FAULT (R385). -/
  | chgOvervolt
  /-- WAKE_N low for WAKET in SHIP wakes the device (R393). -/
  | wakeButton
  /-- SHIP_SRC above its threshold for 100 ms in SHIP wakes the device (R393). -/
  | wakeSource (present : Bool)
  /-- Every 100 ms the estimator advances SOC, VPOL and SIGMA and applies corrections (R408). -/
  | estUpdate
  /-- A correlation window of NCYC cycles ends and writes the impedance if valid (R405). -/
  | estWindowEnd (n : Fin 4) (t : Fin 8) (isum : Known) (icos : Known) (vsum : Known) (vcos : Known) (samples : Known) (clean : Known)
  /-- A qualifying current step yields R0 (R407). -/
  | estStep (n : Fin 4) (di : Known) (dv : Known)
  /-- TSTEP after a step yields RPOL and TAU (R407). -/
  | estStepTstep (n : Fin 4) (dv : Known) (t63 : Known)
  /-- Every 10 s module voltages are read through the module monitor (R415). -/
  | estModuleRead (n : Fin 4) (count : Known)
  /-- WPERIOD elapsing starts a learned-value store write (R421). -/
  | estStorePeriodic
  /-- A store write commits and EST_STORED is raised (R420). -/
  | estStored
  /-- Within 1 s of a re-arm the estimator rewrites an abandoned store write (R422). -/
  | estStoreRetry
  /-- EST_CMD STORE requests a store write (R421). -/
  | estStore (ag : Agent)
  /-- EST_CMD RELEARN restarts a string as an unknown identity (R417). -/
  | relearn (ag : Agent) (n : Fin 4)
  /-- EST_CMD FORGET discards a frozen record (R424). -/
  | forget (ag : Agent) (k : Fin 16)
  /-- A write to a partner table entry is checked and enabling moves the entry to UNKNOWN (R428). -/
  | partnerTableWrite (ag : Agent) (e : BitVec 12) (w : Fin 8) (d : Word)
  /-- A path starts the head transaction of lowest class, selecting a mux where needed (R434). -/
  | transactionStart (p : Fin 20) (sel : Fin 6)
  /-- TMO expiring at the head completes a transaction with ETIMEOUT (R437). -/
  | transactionTimeout (e : BitVec 12)
  /-- A transaction outstanding for QMAX completes with ETIMEOUT in its place (R437). -/
  | qmaxExpiry (e : BitVec 12)
  /-- TPER elapsing issues a class 3 poll or counts a lost poll (R447). -/
  | telemetryPoll (e : BitVec 12)
  /-- GHOLD after a gate opening without a journal releases held generation frames (R446). -/
  | generationHoldEnd (shelf : Bool)
  /-- A class credit at 0 for CRTO with a waiting transaction raises PTN_CREDIT_STALL (R452). -/
  | ptnCreditStall (e : BitVec 12) (cls : Fin 4)
  /-- The ring consumer advances PTN_TEL_RD past entries it has read (R450). -/
  | ptnTelRdWrite (ag : Agent) (d : Word)
  /-- PTN_CMD UNFENCE makes an entry OFFLINE and sends owed restores first (R456). -/
  | partnerUnfence (ag : Agent) (e : BitVec 12)
  /-- PTN_CMD DISCOVER probes a bus, mux channel or segment for partners (R454). -/
  | discover (ag : Agent) (d : Word)
  /-- A discovery ends and PTN_DISCOVERED is raised (R454). -/
  | ptnDiscovered (found : Known)
  /-- PTN_CMD DISC_CLEAR empties the discovery list (R459). -/
  | discClear (ag : Agent)
  /-- A two-wire transfer ends with its status and a STOP, committing read bytes only on OK (R465). -/
  | twTransferEnd (n : Fin 16) (out : Fin 3) (bytes : List Byte)
  /-- SCL held low by a target for STRETCHTO ends the transfer with ETIMEOUT (R465). -/
  | twStretchTimeout (n : Fin 16)
  /-- Lost arbitration withdraws the transfer, requeued or completed with EARB (R466). -/
  | twArbLost (n : Fin 16)
  /-- An unexpected START or STOP in a byte aborts the transfer with EPROTO (R467). -/
  | twProtoError (n : Fin 16)
  /-- SDA low on an idle bus with no SCL edge for 20 µs is taken as a hail (R468). -/
  | twHailDetect (n : Fin 16)
  /-- An ARA read completes and records the hailing partner (R470). -/
  | twHail (n : Fin 16) (ack : Bool) (a : BitVec 7) (b0 : Fin 2)
  /-- SDA low for STUCKTO when needed high starts bus recovery (R471). -/
  | busStuckDetect (n : Fin 16)
  /-- Recovery clocks end with a STOP and BUS_RECOVERED, or the bus is fenced with BUS_STUCK (R471). -/
  | busRecoveryEnd (n : Fin 16) (lines : Fin 3)
  /-- SCL low for STUCKTO fences the bus with BUS_STUCK cause SCL (R472). -/
  | busStuckScl (n : Fin 16)
  /-- TWB_n_CMD RECOVER runs one recovery on an idle enabled bus (R473). -/
  | busRecover (ag : Agent) (n : Fin 16)
  /-- TWB_n_CMD UNFENCE runs a recovery and unfences the bus if both lines go high (R473). -/
  | busUnfence (ag : Agent) (n : Fin 16)
  /-- A code byte written to the bus 15 target sets the mirror pointer or is refused (R478). -/
  | twTargetWrite (code : Byte) (extra : Nat)
  /-- A read from the bus 15 target returns the pointed mirror word (R478). -/
  | twTargetRead (code : Option Byte) (count : Nat)
  /-- Every 100 ms at Basic the library updates mirror words 0 to 7 (R479). -/
  | mirrorUpdate (vbus : Nat) (iload : Int)
  /-- A host WRITE frame performs a register write and returns its status (R488). -/
  | hostWrite (crcOk : Bool) (addr : BitVec 24) (d : Word)
  /-- A host READ frame performs a read at the start byte and returns the data (R488). -/
  | hostRead (crcOk : Bool) (addr : BitVec 24)
  /-- A host SUMMARY frame returns mode, ERR_N, mailbox and IRQ bits (R488). -/
  | hostSummary (crcOk : Bool)
  /-- A host REREAD frame repeats the last READ response (R488). -/
  | hostReread (crcOk : Bool)
  /-- A frame of 0xFF returns the host port to single width (R487). -/
  | widthReset
  /-- HCS_N rising early discards or completes the frame per the irregular-frame table (R491). -/
  | hostFrameAbort (a : HostAbort)
  /-- A write to an authority mask narrows it by AND (R495). -/
  | authMaskWrite (ag : Agent) (o : Fin 3) (d : Word)
  /-- A port write to HST_MBX_c_TX queues a word and rings the receiver's doorbell (R499). -/
  | mbxTxWrite (ag : Agent) (c : Fin 64) (d : Word)
  /-- A port read of HST_MBX_c_RX removes and returns the oldest word (R499). -/
  | mbxRxRead (ag : Agent) (c : Fin 64)
  /-- A firmware ECHO request returns its argument words (R505). -/
  | echo (c : Fin 64)
  /-- A firmware VERSION request returns versions and digest bytes (R505). -/
  | version (c : Fin 64)
  /-- A firmware SNAPSHOT request reads up to 14 registers within 5 µs (R505). -/
  | fwSnapshot (c : Fin 64)
  /-- Arguments missing 10 ms after a request header are answered with EPROTO (R505). -/
  | fwRequestTimeout (c : Fin 64)
  /-- A RESP frame completes the in-flight link transaction with its tag (R510). -/
  | resp (n : Fin 4) (src : Byte) (tag : BitVec 16) (st : Byte) (credit : BitVec 16) (bytes : List Byte)
  /-- A STREAM frame's readings are written to the telemetry ring (R514). -/
  | stream (n : Fin 4) (src : Byte) (credit : BitVec 16) (readings : List (BitVec 16 × Word))
  /-- A partner's reported credits replace PTN's counts (R513). -/
  | credit (n : Fin 4) (src : Byte) (credit : BitVec 16)
  /-- An IDRESP answering an identity request is added to discovery (R514). -/
  | idresp (n : Fin 4) (src : Byte) (credit : BitVec 16)
  /-- A frame of another EtherType, tag, FCS error or illegal type is discarded and counted (R507). -/
  | linkFrameDiscard (n : Fin 4) (kind : Fin 3)
  /-- At its transmit opportunity the device sends queued frames in class order (R515). -/
  | plcaTxOpportunity (n : Fin 4)
  /-- Excess FCS errors, collisions or missing beacons raise LINK_FAULT (R516). -/
  | linkFault (n : Fin 4) (cause : Fin 4)
  /-- SLK_n_CMD UNFENCE resumes transmission with owed restores first (R517). -/
  | segmentUnfence (ag : Agent) (n : Fin 4)
  /-- A neighbour READ of item 0x120 is answered with SLK_SHELFSTAT (R519). -/
  | neighbourRead (n : Fin 4) (src : Byte) (tag : BitVec 16) (want : Byte)
  /-- A neighbour SETP of item 0x121 stores the offer and raises LINK_OFFER (R519). -/
  | neighbourSetp (n : Fin 4) (src : Byte) (tag : BitVec 16) (gen : BitVec 32) (value : Word) (tent : Bool)
  /-- A neighbour RETRACT of item 0x121 is applied by the partner rules (R519). -/
  | neighbourRetract (n : Fin 4) (src : Byte) (tag : BitVec 16) (gen : BitVec 32) (value : Word) (genf : BitVec 32)
  /-- A neighbour FINAL of item 0x121 makes held tentative offers final (R519). -/
  | neighbourFinal (n : Fin 4) (src : Byte) (tag : BitVec 16) (gen : BitVec 32)
  /-- Any other neighbour request is answered with STATUS 0x06 (R519). -/
  | neighbourOther (n : Fin 4) (src : Byte) (tag : BitVec 16) (item : BitVec 16) (cls : Fin 4)
  /-- 1 s with no frame from the offering node stops generation comparison (R519). -/
  | offerHoldExpiry
  /-- A sensor reading updates its state, rate, reductions and clock level (R529). -/
  | thmReading (k : Fin 22) (t : Int) (bad : Bool)
  /-- Once a fault record is readable its event is delivered and ERR_N falls (R557). -/
  | faultEventDelivery
  /-- A read of FLT_FLAGs returns and clears the latch, possibly raising ERR_N and clearing COND_DEGR (R550). -/
  | fltFlagRead (ag : Agent) (src : Fin 192)
  /-- A write to FLT_SRCs sets a source's severity subject to authority, range, lock and level (R548). -/
  | fltSrcWrite (ag : Agent) (src : Fin 192) (d : Word)
  /-- A write of FLT_SWRAISE raises SW_HOST or SW_SERVICE with a code (R558). -/
  | fltSwraise (ag : Agent) (code : Byte)
  /-- A write of EVT_SWSET raises SW_EVTn (R558). -/
  | evtSwset (ag : Agent) (n : Fin 16)
  /-- Writing 1 to EVT_PEND bits acknowledges host events and may release IRQ pins (R556). -/
  | evtAck (ag : Agent) (d : Fin 8) (w : Fin 8) (mask : Word)
  /-- A write of EVT_ROUTEs sets a source's route mask, pair bits kept (R555). -/
  | evtRouteWrite (ag : Agent) (src : Fin 256) (d : Word)
  /-- A tamper input at its alarm level for DEBOUNCE raises the alarm and its response (R566). -/
  | secTamper (k : Fin 4)
  /-- A supply outside its glitch window for 5 ns raises the glitch alarm (R566). -/
  | secGlitch
  /-- A PLL output off nominal or stopped raises the clock monitor alarm (R566). -/
  | secClock
  /-- A write of SEC_ALARM_CFG sets alarm responses, lowering only with presence (R567). -/
  | secAlarmCfgWrite (ag : Agent) (d : Word)
  /-- A read of SEC_ALARM_FLG returns and clears latched alarms (R572). -/
  | secAlarmFlgRead (ag : Agent)
  /-- SEC_KEY_CTL BEGIN opens provisioning of a key slot with presence (R571). -/
  | keyBegin (ag : Agent) (slot : Fin 4)
  /-- A write of SEC_KEY_DATA appends one key word (R571). -/
  | keyData (ag : Agent) (d : Word)
  /-- SEC_KEY_CTL COMMIT checks the key and replaces the slot (R571). -/
  | keyCommit (ag : Agent) (slot : Fin 4)
  /-- SEC_KEY_CTL CANCEL ends provisioning without change (R571). -/
  | keyCancel (ag : Agent) (slot : Fin 4)
  /-- Every 100 µs each chip sends a HELLO (R586). -/
  | peerHelloSend
  /-- A received HELLO updates the twin's state and acknowledges frames (R585). -/
  | hello (good : Bool) (h : Hello)
  /-- A received journal item is applied to the shadow state within 10 µs (R588). -/
  | journal (good : Bool) (seq : BitVec 16) (items : List JItem)
  /-- A received SNAPSHOT sets every journalled item to its carried value (R589). -/
  | snapshot (good : Bool) (seq : BitVec 16) (items : List JItem)
  /-- A received SPLICE_NOTE announces the twin is leaving (R591). -/
  | spliceNote (good : Bool) (seq : BitVec 16) (cause : Byte)
  /-- A received TAKEBACK_REQ is acknowledged and the primary leaves if quiet, else refused (R591). -/
  | takebackReq (good : Bool) (seq : BitVec 16)
  /-- A received TAKEBACK_ACK stops repeated take-back requests (R591). -/
  | takebackAck (good : Bool) (seq : BitVec 16)
  /-- A received TAKEBACK_NAK refuses the take-back for now (R591). -/
  | takebackNak (good : Bool) (seq : BitVec 16)
  /-- A received PWMMARK locks the gated chip's stage boundaries to the twin (R587). -/
  | pwmmark (good : Bool) (x : Fin 2) (ticks : BitVec 32)
  /-- No valid peer frame for 300 µs declares the link lost (R586). -/
  | peerLink
  /-- INTLK_IN deasserted for 1 µs in READY makes the chip take control (R593). -/
  | intlkInFall
  /-- INTLK_IN asserted in LEAVING completes the splice away into SHADOW (R591). -/
  | intlkInRise
  /-- 100 µs in LEAVING without INTLK_IN reasserts INTLK_OUT and raises PEER_INTLK (R591). -/
  | peerIntlk
  /-- Both interlock lines asserted close both gates and one chip deasserts (R597). -/
  | intlkConflict (twinRole : Bool) (higher : Bool)
  /-- INTLK_IN deasserted for TSOLO with the link lost takes control without a journal (R591). -/
  | soloTake
  /-- A primary-strap chip READY for TBTIME sends TAKEBACK_REQ every 1 s until acknowledged (R591). -/
  | takebackTimer
  /-- A compared slot differing by more than DIVTHR for DIVT raises PEER_DIVERGE (R594). -/
  | peerDiverge (s : Fin 64)
  /-- SPL_CMD SPLICE starts a splice from ACTIVE (R591). -/
  | splSplice (ag : Agent)
  /-- SPL_CMD RESYNC requests a new SNAPSHOT (R599). -/
  | resync (ag : Agent)
  /-- SPL_CMD TAKEBACK sends a take-back request without waiting TBTIME (R591). -/
  | splTakeback (ag : Agent)
  /-- The recorder takes the next queued record, assigns SEQ and writes it (R604). -/
  | recordWriteStart
  /-- A record's CRC word is written, it is read back and becomes readable (R604). -/
  | recordCommit (good : Bool)
  /-- A matching read of RCD_SEQCHK advances the cursor under AUTOINC (R612). -/
  | rcdSeqchkRead (ag : Agent)
  /-- RCD_CMD CLEAR commits a marker and starts zeroing the recorder (R613). -/
  | rcdClear (ag : Agent) (cap : Bool)
  /-- A clear ends by writing GAP CLEAR and removing the marker (R613). -/
  | rcdClearDone
  /-- RCD_CMD TRIG triggers a capture unit (R619). -/
  | rcdTrig (ag : Agent) (u : Fin 8)
  /-- RCD_CMD EXPORT copies records into the export buffer and appends the whipping (R614). -/
  | rcdExport (ag : Agent)
  /-- Writing a capture unit's EN starts or stops filling (R618). -/
  | captureEnable (ag : Agent) (u : Fin 8) (d : Word)
  /-- A raise of TSRC triggers every unit armed on it within 100 ns (R619). -/
  | captureTrigger
  /-- The post-trigger samples are held and the unit enters COMMIT (R618). -/
  | capturePostFull (u : Fin 8)
  /-- A capture commit writes the samples and its CAPTURE record (R620). -/
  | rcdCapture (u : Fin 8)
  /-- A read of RCD_CAP_DATA returns two samples and advances IDX (R621). -/
  | rcdCapDataRead (ag : Agent)
  /-- A read of SYS_USECLO returns the stamp's low word and latches its high bits (R661). -/
  | sysUsecloRead (ag : Agent)
  /-- A malformed service frame gets no response and is counted (R627). -/
  | svcMalformedFrame (tagFails : Bool)
  /-- A service IDENT request returns identity and active image data (R630). -/
  | ident (seq : BitVec 16) (tag : Option (List Byte))
  /-- A service OPEN request opens a presence session or starts a key-mode handshake (R633). -/
  | openSession (seq : BitVec 16) (tag : Option (List Byte)) (mode : Byte) (nh : List Byte)
  /-- A service AUTH request verifies PROOF and opens a key-mode session (R633). -/
  | auth (seq : BitVec 16) (tag : Option (List Byte)) (proof : List Byte)
  /-- A service CLOSE request ends the session (R635). -/
  | closeSession (seq : BitVec 16) (tag : Option (List Byte))
  /-- A service BAUD request changes the bit rate after its response (R632). -/
  | baud (seq : BitVec 16) (tag : Option (List Byte)) (index : Byte)
  /-- No valid frame within 1 s at a new rate returns the port to the previous rate (R632). -/
  | baudFallback
  /-- A service READ request reads one word judged by the service authority (R631). -/
  | svcRead (seq : BitVec 16) (tag : Option (List Byte)) (addr : BitVec 32)
  /-- A service WRITE request writes one word judged by the service authority (R631). -/
  | svcWrite (seq : BitVec 16) (tag : Option (List Byte)) (addr : BitVec 32) (d : Word)
  /-- IMG_BEGIN moves the staging slot to LOADING (R639). -/
  | imgBegin (seq : BitVec 16) (tag : Option (List Byte))
  /-- IMG_DATA writes image bytes at the next offset (R639). -/
  | imgData (seq : BitVec 16) (tag : Option (List Byte)) (off : BitVec 32) (bytes : List Byte)
  /-- IMG_FINISH verifies the staged image and marks it PENDING or empties it (R638). -/
  | imgFinish (seq : BitVec 16) (tag : Option (List Byte))
  /-- IMG_CANCEL empties the staging slot (R639). -/
  | imgCancel (seq : BitVec 16) (tag : Option (List Byte))
  /-- SVC_PRESENT_N stable for 10 ms changes presence and may end a presence session (R634). -/
  | svcPresence (present : Bool)
  /-- No valid request for IDLE ends the session (R635). -/
  | svcIdleTimeout
  /-- UPD_CMD CONFIRM commits the trial image as CONFIRMED (R644). -/
  | updConfirm (ag : Agent)
  /-- UPD_CMD UNSTAGE empties a PENDING staging slot (R639). -/
  | unstage (ag : Agent)
  /-- The new firmware's self-test passes, setting SELFTEST and confirming under AUTOCONF (R644). -/
  | updSelftestPass
  /-- A failed self-test commits the rollback cause and resets within 1 s (R645). -/
  | updSelftestFail
  /-- The confirm window ending causes a warm reset with cause 0x2 (R643). -/
  | updWatchdogExpiry
  /-- A write of SYS_LOCK with the key sets LOCKED (R658). -/
  | sysLockWrite (ag : Agent) (d : Word)
  /-- SYS_PARAM_CTL BEGIN opens an empty parameter list for the port (R664). -/
  | paramBegin (ag : Agent)
  /-- A write of SYS_PARAM_DATA appends one entry to the open list (R664). -/
  | paramData (ag : Agent) (d : Word)
  /-- SYS_PARAM_CTL COMMIT writes the open list to the other copy (R664). -/
  | paramCommit (ag : Agent)
  /-- SYS_PARAM_CTL CANCEL discards the open list (R664). -/
  | paramCancel (ag : Agent)
  /-- SYS_PARAM_CTL ERASE commits an empty list (R664). -/
  | paramErase (ag : Agent)
  /-- After a stage has been in RUN for 10 s its retry count returns to 0 (R315). -/
  | stageRetryCountReset (x : Fin 2)
  /-- After a branch has been in ON for 10 s its retry count returns to 0 (R358). -/
  | branchRetryCountReset (n : Fin 24)
  /-- A read of an RC field returns its value and clears it, for example BAT_CHG_FLT, BAT_STRn_FLT or a counter (R6).
  -/
  | rcFieldRead (ag : Agent) (addr : BitVec 24)
  /-- Issue of an instruction word with an unlisted OP, a reserved COND or non-zero unused fields raises
  STRAND_ILLEGAL (R142). -/
  | undefinedEncoding (k : Fin 256)
  /-- A host frame with an unknown opcode gets no drive for the rest of the frame, and HST_CNT.BADOP counts it (R491).
  -/
  | unknownOpcode
  /-- A firmware service request with an undefined CODE is answered with ERANGE and NW 0 (R505). -/
  | unknownServiceCode (c : Fin 64)
  /-- Once the hailing partners release SDA and the bus free time passes, the ES7100 starts an Alert Response Address
  read ahead of queued transactions (R468). -/
  | araRead (n : Fin 16)
  /-- A hail that holds SDA low beyond 100 µs increments CNT3.HAILLONG, and the ARA read waits (R481). -/
  | hailLong (n : Fin 16)
  /-- In a splice, 50 µs of unacknowledged journal flush ends, and the leaving chip deasserts INTLK_OUT (R591). -/
  | spliceFlushTimeout
  /-- A sealed export finishes within 20 ms with its buffer and whipping readable, or ends with ESTATE on a key erase
  (R614). -/
  | rcdExportDone
  /-- The policy firmware acknowledges a taken event and clears its bit in EVT_PEND2 or EVT_PEND3 (R556). -/
  | pairEventAck (b : Bool) (src : Fin 256)
  /-- A security alarm condition such as a tamper level, supply glitch or clock fault ceases, and its SEC_ALARM_NOW
  bit clears (R566). -/
  | alarmConditionCleared (k : Fin 9)
  /-- A character received on the service port outside a frame is discarded and counted in UPD_SVC_CNT0.NOISE (R627).
  -/
  | svcNoise (n : Nat)
  /-- An MRAM read finds a corrected or an uncorrectable error and raises NVM_ECC_CORR or NVM_ECC_FATAL (R541). -/
  | nvmEccError (fatal : Bool)
  /-- An uncorrectable SRAM error raises the fault source RAM_ECC (R541). -/
  | ramEcc
  deriving DecidableEq, Repr

end Sys2Proof
end

