-- ==== Sys2Proof/Decode.lean ====
section
/-!
DEFINITION. The command that a word spells by the bits of spec/opcode_table.json. The table gives no row of the ES7100 any
bits (every row's list of fields is empty), so no word spells a command. The words of the strands' own instructions, which the
chip itself decodes, are in Machine/Knarin.lean.
-/

namespace Sys2Proof

/-- The command that a word of `nbits` bits spells: none, for the table gives no row bits. -/
def decodeTableWord (_nbits _w : Nat) : Option Instr := none

end Sys2Proof
end

