-- ==== Sys2Proof/Machine/Bits.lean ====
section
/-!
DEFINITION. Bit-field, sign and saturation helpers over 32-bit words, used by every block.
A range is written high to low, as the manual writes it.
-/

namespace Sys2Proof.Machine

/-- The 32-bit word of a number, modulo 2^32. -/
def wd (n : Nat) : Word := BitVec.ofNat 32 n

/-- The 32-bit two's complement word of an integer. -/
def wdI (n : Int) : Word := BitVec.ofInt 32 n

/-- Field [hi:lo] of a word. -/
def bits (w : Word) (hi lo : Nat) : Nat := w.toNat / 2 ^ lo % 2 ^ (hi + 1 - lo)

/-- Bit k of a word. -/
def bitOf (w : Word) (k : Nat) : Bool := bits w k k == 1

/-- A word with field [hi:lo] replaced. -/
def setBits (w : Word) (hi lo v : Nat) : Word :=
  wd (w.toNat - bits w hi lo * 2 ^ lo + v % 2 ^ (hi + 1 - lo) * 2 ^ lo)

/-- A word with bit k set to a Boolean. -/
def setBit (w : Word) (k : Nat) (b : Bool) : Word := setBits w k k b.toNat

/-- 1 for true. -/
def b2n (b : Bool) : Nat := if b then 1 else 0

/-- An n-bit number read as two's complement. -/
def sxN (n width : Nat) : Int :=
  if n % 2 ^ width < 2 ^ (width - 1) then (n % 2 ^ width : Nat) else ((n % 2 ^ width : Nat) : Int) - 2 ^ width

/-- Field [hi:lo] read as two's complement. -/
def sbits (w : Word) (hi lo : Nat) : Int := sxN (bits w hi lo) (hi + 1 - lo)

/-- A word read as a signed number. -/
def sw (w : Word) : Int := w.toInt

/-- The two's complement image of an integer in `width` bits. -/
def unI (x : Int) (width : Nat) : Nat := (x % (2 ^ width : Nat)).toNat

/-- A counter that stops at `top`. -/
def satTo (top n : Nat) : Nat := min top n

/-- Clamp an integer between two limits. -/
def clampI (lo hi x : Int) : Int := max lo (min hi x)

/-- Division rounded to the nearest integer, ties upward (R208). -/
def rdiv (x : Int) (d : Int) : Int := (2 * x + d).fdiv (2 * d)

/-- Bit k of a number used as a mask. -/
def has (mask k : Nat) : Bool := mask.testBit k

/-- A mask with bit k set. -/
def setM (mask k : Nat) : Nat := mask ||| 2 ^ k

/-- A mask with bit k cleared. -/
def clrM (mask k : Nat) : Nat := if mask.testBit k then mask - 2 ^ k else mask

/-- A mask with bit k set to a Boolean. -/
def putM (mask k : Nat) (b : Bool) : Nat := if b then setM mask k else clrM mask k

/-- The number of bits set in the low `n` bits of a mask. -/
def popM (n mask : Nat) : Nat := ((List.range n).filter (fun k => mask.testBit k)).length

/-- The four little-endian bytes of a word (R3). -/
def leBytes (w : Word) : List Nat := [bits w 7 0, bits w 15 8, bits w 23 16, bits w 31 24]

/-- The word of four little-endian bytes (R3). -/
def ofLe (bs : List Nat) : Word :=
  wd (bs.getD 0 0 % 256 + bs.getD 1 0 % 256 * 256 + bs.getD 2 0 % 256 * 65536 + bs.getD 3 0 % 256 * 16777216)

end Sys2Proof.Machine
end

