-- ==== Sys2Proof/Machine/Crc.lean ====
section
/-!
DEFINITION. The check codes of the ports and stores: CRC-16 of the frames (R488), CRC-32 of IEEE 802.3 (R132, R602),
SHA-256 (R571) and HMAC-SHA-256 (R614), over lists of bytes.
-/

namespace Sys2Proof.Machine

/-- One byte into CRC-16 with polynomial 0x1021, most significant bit first. -/
def crc16Byte (crc b : Nat) : Nat :=
  (List.range 8).foldl (fun c _ => if 0x8000 ≤ c then (c * 2 % 65536) ^^^ 0x1021 else c * 2 % 65536) (crc ^^^ (b % 256 * 256))

/-- CRC-16 with initial value 0xFFFF, no reflection and no final XOR (R488). -/
def crc16 (bs : List Nat) : Nat := bs.foldl crc16Byte 0xFFFF

/-- The PEC byte of SMBus: CRC-8 with polynomial 0x07 and initial value 0 (PRESUMED from the SMBus specification, log
entry 55). -/
def crc8 (bs : List Nat) : Nat :=
  bs.foldl (fun crc b =>
    (List.range 8).foldl (fun c _ => if 0x80 ≤ c then (c * 2 % 256) ^^^ 0x07 else c * 2 % 256) (crc ^^^ (b % 256))) 0

/-- One byte into the reflected CRC-32. -/
def crc32Byte (crc b : Nat) : Nat :=
  (List.range 8).foldl (fun c _ => if c % 2 = 1 then (c / 2) ^^^ 0xEDB88320 else c / 2) (crc ^^^ (b % 256))

/-- CRC-32 (IEEE 802.3 polynomial). -/
def crc32 (bs : List Nat) : Nat := (bs.foldl crc32Byte 0xFFFFFFFF) ^^^ 0xFFFFFFFF

/-- CRC-32 over words, each as its four little-endian bytes (R3). -/
def crc32Words (ws : List Word) : Nat := crc32 (ws.flatMap leBytes)

/-! ### SHA-256 -/

/-- The fractions of cube roots that SHA-256 adds in its rounds, sixteen to a number, the first of them topmost. -/
def shaRoots : List Nat :=
  [0x428A2F9871374491B5C0FBCFE9B5DBA53956C25B59F111F1923F82A4AB1C5ED5D807AA9812835B01243185BE550C7DC372BE5D7480DEB1FE9BDC06A7C19BF174,
   0xE49B69C1EFBE47860FC19DC6240CA1CC2DE92C6F4A7484AA5CB0A9DC76F988DA983E5152A831C66DB00327C8BF597FC7C6E00BF3D5A7914706CA635114292967,
   0x27B70A852E1B21384D2C6DFC53380D13650A7354766A0ABB81C2C92E92722C85A2BFE8A1A81A664BC24B8B70C76C51A3D192E819D6990624F40E3585106AA070,
   0x19A4C1161E376C082748774C34B0BCB5391C0CB34ED8AA4A5B9CCA4F682E6FF3748F82EE78A5636F84C878148CC7020890BEFFFAA4506CEBBEF9A3F7C67178F2]

/-- The constant of round `i`. -/
def shaK (i : Nat) : Nat := shaRoots.getD (i / 16) 0 / 2 ^ (32 * (15 - i % 16)) % 2 ^ 32

/-- Rotation to the right of a 32-bit number. -/
def rotr (x n : Nat) : Nat := x / 2 ^ n + x % 2 ^ n * 2 ^ (32 - n)

/-- The eight working variables of a round. -/
structure ShaRegs where
  a : Nat
  b : Nat
  c : Nat
  d : Nat
  e : Nat
  f : Nat
  g : Nat
  h : Nat

/-- One round with its message word and constant. -/
def shaRound (s : ShaRegs) (wk : Nat) : ShaRegs :=
  let s1 := rotr s.e 6 ^^^ rotr s.e 11 ^^^ rotr s.e 25
  let ch := (s.e &&& s.f) ^^^ ((0xFFFFFFFF - s.e) &&& s.g)
  let t1 := s.h + s1 + ch + wk
  let s0 := rotr s.a 2 ^^^ rotr s.a 13 ^^^ rotr s.a 22
  let maj := (s.a &&& s.b) ^^^ (s.a &&& s.c) ^^^ (s.b &&& s.c)
  { a := (t1 + s0 + maj) % 2 ^ 32, b := s.a, c := s.b, d := s.c, e := (s.d + t1) % 2 ^ 32, f := s.e, g := s.f, h := s.g }

/-- The message schedule: 48 further words, each from the sixteen before it. -/
def shaSched : Nat → List Nat → List Nat
  | 0, ws => ws
  | n + 1, ws =>
    let k := ws.length
    let x := ws.getD (k - 15) 0
    let y := ws.getD (k - 2) 0
    let s0 := rotr x 7 ^^^ rotr x 18 ^^^ (x / 8)
    let s1 := rotr y 17 ^^^ rotr y 19 ^^^ (y / 1024)
    shaSched n (ws ++ [(ws.getD (k - 16) 0 + s0 + ws.getD (k - 7) 0 + s1) % 2 ^ 32])

/-- One block of sixteen words into the eight hash words. -/
def shaBlock (hs : List Nat) (blk : List Nat) : List Nat :=
  let init : ShaRegs := { a := hs.getD 0 0, b := hs.getD 1 0, c := hs.getD 2 0, d := hs.getD 3 0, e := hs.getD 4 0,
                          f := hs.getD 5 0, g := hs.getD 6 0, h := hs.getD 7 0 }
  let r := ((shaSched 48 blk).zipIdx).foldl (fun q w => shaRound q (w.1 + shaK w.2)) init
  List.zipWith (fun x y => (x + y) % 2 ^ 32) hs [r.a, r.b, r.c, r.d, r.e, r.f, r.g, r.h]

/-- The big-endian words of a list of bytes. -/
def beWords : List Nat → List Nat
  | a :: b :: c :: d :: t => (a * 16777216 + b * 65536 + c * 256 + d) :: beWords t
  | _ => []

/-- The blocks of sixteen words, with fuel. -/
def shaBlocks : Nat → List Nat → List Nat → List Nat
  | 0, _, hs => hs
  | n + 1, ws, hs => if ws.length < 16 then hs else shaBlocks n (ws.drop 16) (shaBlock hs (ws.take 16))

/-- The big-endian bytes of a 32-bit number. -/
def beBytes (n : Nat) : List Nat := [n / 16777216 % 256, n / 65536 % 256, n / 256 % 256, n % 256]

/-- SHA-256 of a list of bytes, as 32 bytes. -/
def sha256 (bs : List Nat) : List Nat :=
  let pad := (119 - bs.length % 64) % 64
  let msg := bs ++ [0x80] ++ List.replicate pad 0 ++ beBytes (bs.length * 8 / 2 ^ 32) ++ beBytes (bs.length * 8 % 2 ^ 32)
  let first := 0x6A09E667BB67AE853C6EF372A54FF53A510E527F9B05688C1F83D9AB5BE0CD19
  let init := (List.range 8).map (fun k => first / 2 ^ (32 * (7 - k)) % 2 ^ 32)
  (shaBlocks (msg.length / 64) (beWords msg) init).flatMap beBytes

/-- HMAC-SHA-256 with a key of at most 64 bytes. -/
def hmac256 (key msg : List Nat) : List Nat :=
  let k := key ++ List.replicate (64 - key.length) 0
  sha256 (k.map (· ^^^ 0x5C) ++ sha256 (k.map (· ^^^ 0x36) ++ msg))

end Sys2Proof.Machine
end

