-- ==== Sys2Proof/Config.lean ====
section
/-!
DEFINITION. What one implementation or one die fixes, and the free values: constants with no body, so
that nothing can be proved about which value the hardware holds.
-/

namespace Sys2Proof.Config

/-- A fresh open value, one for each count of the model's own counter `Chip.fresh`
(a value the spec leaves open after a step that goes on). -/
opaque free : Nat → Nat

/-- The die identity of SYS_UID0 and SYS_UID1 (R656, from OTP). -/
opaque uid : BitVec 64

/-- The link MAC address of SLK_MACLO and SLK_MACHI (R507, from OTP). -/
opaque mac : BitVec 48

/-- The factory trim of BRN_n_ZERO.TRIM for branch n (R350). -/
opaque zeroTrim : Nat → Nat

/-- A module's ratio to its string's mean in 2^-12, from the module voltages in mV before and after (R415): its capacity ratio, or its
resistance ratio. -/
opaque moduleRatio : Bool → List Nat → List Nat → Nat → Nat

/-- A resistance in units of 2^-32 Ω that was measured so many 0.1 °C above TREF, reduced to TREF (R414). -/
opaque r0Tref : Int → Int → Int

/-- The factory trims of interleave pair p (R173): 0 for OFFS, 1 for GAIN, 2 for SKEW. -/
opaque pairTrim : Nat → Nat → Nat

/-- The SHA-256 of the image key as OTP holds it, 32 bytes (R638). -/
opaque otpKeyHash : List Nat

/-- ECDSA P-256 verification (R637, R638): the hash signed, the public key, the signature. -/
opaque ecdsaOk : List Nat → List Nat → List Nat → Bool

/-- AES-256-GCM decryption (R638): key, nonce, associated data, tag, payload; none when the tag does not verify. -/
opaque gcmOpen : List Nat → List Nat → List Nat → List Nat → List Nat → Option (List Nat)

/-- The 16-byte session nonce of a key-mode OPEN (R633), a fresh one for each count. -/
opaque nonce : Nat → Nat → Nat

/-- The firmware version of the image the part was made with (R637). -/
opaque fwVersion : Nat

/-- Bytes 0 to 3 of the digest of the image the part was made with (R637). -/
opaque imageDigest : Nat

/-- The length in bytes of the image the part was made with (R637). -/
opaque imageLen : Nat

/-- The vendor bundle version of the image the part was made with (R637). -/
opaque bundleVersion : Nat

end Sys2Proof.Config
end

