-- ==== Sys2Proof/Machine/RName.lean ====
section
/-!
DEFINITION. The names of the registers (R652): one constructor for each register row of the Register summary.
-/

namespace Sys2Proof.Machine

/-- A register name; an instanced register has one name and an index. -/
inductive RName where
  | sysId | sysRev | sysUid0 | sysUid1 | sysStrap | sysLock | sysBoot | sysUseclo | sysUsechi | sysScratch
  | sysParamCtl | sysParamAddr | sysParamData | sysParamStat
  | pwrmMode | pwrmCmd | pwrmCmdstat | pwrmCfg | pwrmSafe | pwrmDomstat | pwrmClkstat | pwrmRstcause | pwrmEcd
  | pwrmPcc | pwrmOpsec
  | polCfg | polStat | polCmd | polSlot | busCfg | shareCfg | shareTrim | shareEntry | shareDroop | srcCfg | hoCfg
  | hoLev | hoRet | capLimit | capCfg | capSoc | shedMask | shedCfg | shedStat | rectCap | rlim
  | seqCfg | seqCmd | seqStatus | seqChatter | seqRailCfg | seqRstCfg | seqRstWatch | seqStepCtl | seqStepTmo
  | seqTrace | seqTraceT
  | layCfg | layCmd | layCmdstat | layStat | layBldCtl | layBldData | layBldStat | layEauthcnt | layRecdrop
  | layEvline | laySel | layViewPc | layViewFlags | layViewAct | layViewS | layViewLocal | layCtl | layBudget
  | layEntry | layArg
  | cleCfg | cleCommit | cleCmdstat | cleKick | cleLoad | cleSatcnt | cleOvrcnt | cleRun | cleFence | cleLib
  | cleSpreach
  | acqCfg | acqCmd | acqCmdstat | acqCvCfg | acqCvMask | acqIlvCfg | acqIlvOffs | acqIlvGain | acqIlvSkew | acqDiff
  | acqQcfg | acqQmask | acqQstat | acqQpop0 | acqQpop1 | acqQdrop | acqRes | acqWcCfg | acqWcLim | acqWcHyst
  | acqWcStat | acqAcmCfg | acqAcmCh | acqAcmNom | acqAcmSag | acqAcmSwell | acqAcmDev | acqAcmWin | acqAcmStat
  | acqAcmFreq | acqAcmVeq | acqAcmHcrms | acqAcmAmp | acqAcmPhase
  | cnvCfg | cnvSync | cnvSyncstat | cnvPertCfg | cnvPertTone | cnvPertPhase | cnvXCfg | cnvXCmd | cnvXStat | cnvXPer
  | cnvXDt | cnvXDlim | cnvXScale | cnvXIlim | cnvXSlow | cnvXIreg | cnvXSs | cnvXHic | cnvXVtgt | cnvXVch | cnvXVfs
  | cnvXDe | cnvXRot | cnvXImb | cnvXOv | cnvXCmdval | cnvXEff | cnvXDuty | cnvXVcmd | cnvXVrate | cnvXVref
  | cnvXVdone | cnvBcvRem | cnvBPh | cnvAPh
  | brnCfg | brnStagger | brnOnmask | brnFencemask | brnLatchmask | brnNCfg | brnNCmd | brnNStat | brnNScale
  | brnNTrip | brnNLim | brnNInr | brnNTmr | brnNRetry | brnNGate | brnNMeas | brnNIavg | brnNP | brnNElo | brnNEhi
  | brnNCnt | brnNThm | brnNZero
  | batCfg | batCmd | batCmdstat | batChgStat | batChgFlt | batChgVreg | batChgVphase | batChgVlim | batChgVtop
  | batChgPulse | batChgTmr | batTwin | batTred | batVcomp | batPres | batSwcfg | batChgIman | batChgCb | batChgSlot
  | batShipCfg | batShipStat | batStrCfg | batStrScale | batStrIchg | batStrIlim | batStrOc | batStrMon | batStrStat
  | batStrFlt | batStrId | batStrMeas
  | estCfg | estCmd | estCmdstat | estConf | estErr | estZcfg | estStepcfg | estCapcfg | estStorecfg | estStorestat
  | estStoreseq | estShelfSoc | estShelfCap | estOcv | estStrSoc | estStrConf | estStrCap | estStrRes | estStrHlth
  | estStrTau | estStrCnom | estStrOrigin | estStrZ | estMod
  | ptnCfg | ptnCmd | ptnCmdstat | ptnStat | ptnOcc01 | ptnOcc23 | ptnQmax | ptnCrto | ptnTelCfg | ptnTelWr
  | ptnTelRd | ptnTelLoad | ptnTelLost | ptnOnline | ptnEfullcnt | ptnDiscStat | ptnDisc
  | twbCfg | twbCmdstat | twbNCfg | twbNTmo | twbNCmd | twbNStat | twbNCnt0 | twbNCnt1 | twbNCnt2 | twbNCnt3
  | twbNHail | twbTgtCfg | twbTgtStat | twbTgtWrej | twbTgtMir
  | slkCfg | slkMaclo | slkMachi | slkShelfstat | slkOffer | slkOffergen | slkOffersrc | slkNCfg | slkNPlca | slkNErr
  | slkNCmd | slkNStat | slkNCnt0 | slkNCnt1 | slkNCnt2
  | hstCfg | hstStat | hstCnt | hstAuthHost | hstAuthSvc | hstAuthPeer | hstEauth | hstMbxHpend | hstMbxSpend
  | hstMbxTx | hstMbxRx | hstMbxStat
  | thmCfg | thmClkCfg | thmClkStat | thmFuncCfg | thmFuncMask | thmFuncRed | thmSCfg | thmSNtc | thmSThr | thmSHyst
  | thmSStat
  | fltCfg | fltSum | fltSwraise | fltLatch | fltSrc | fltFlag
  | secAlarmCfg | secAlarmFlg | secAlarmNow | secTamperCfg | secFloodCfg | secKeystat | secKeyCtl | secKeyData
  | secKeyChk | secCmdstat
  | splCfg | splCmd | splCmdstat | splStat | splTrig | splDiv | splCmp | splCnt | splLnkcnt | splJseq | splPeerid
  | splGap
  | rcdCfg | rcdCmd | rcdCmdstat | rcdStat | rcdFirst | rcdLast | rcdNext | rcdLost | rcdCur | rcdSeq | rcdSeqchk
  | rcdWin | rcdExpFirst | rcdExpCnt | rcdExpIdx | rcdExpWin | rcdCapCfg | rcdCapPace | rcdCapSrc0 | rcdCapSrc1
  | rcdCapStat | rcdCapSel | rcdCapData
  | updCfg | updCmd | updCmdstat | updStat | updActVer | updActBver | updActDig | updStgVer | updStgBver | updStgDig
  | updRolVer | updRolBver | updRolDig | updConfLeft | updCopy | updSvcCfg | updSvcStat | updSvcCnt0 | updSvcCnt1
  | evtSwset | evtPend | evtDsum | evtRoute
  deriving DecidableEq, Repr

end Sys2Proof.Machine
end

