-- ==== Sys2Proof/Machine/Tab.lean ====
section
/-!
DEFINITION. A sparse table: a list of (key, value) pairs with keys strictly rising in a given order and no
entry equal to what an unlisted key reads as. It holds the register file, the memory windows and every
instanced unit, so that equal contents are equal data.
-/

namespace Sys2Proof.Machine

/-- A sparse table from keys to values. -/
abbrev Tab (κ α : Type) := List (κ × α)

/-- The value at a key: the listed one, or the default of that key. -/
def Tab.get {κ α : Type} [DecidableEq κ] (dflt : κ → α) : Tab κ α → κ → α
  | [], k => dflt k
  | (k', v) :: t, k => if k = k' then v else Tab.get dflt t k

/-- The table without any entry at a key. -/
def Tab.erase {κ α : Type} [DecidableEq κ] : Tab κ α → κ → Tab κ α
  | [], _ => []
  | (k', v) :: t, k => if k = k' then Tab.erase t k else (k', v) :: Tab.erase t k

/-- An entry put before the first entry whose key lies above it. -/
def Tab.insert {κ α : Type} (lt : κ → κ → Bool) : Tab κ α → κ → α → Tab κ α
  | [], k, v => [(k, v)]
  | (k', v') :: t, k, v => if lt k k' then (k, v) :: (k', v') :: t else (k', v') :: Tab.insert lt t k v

/-- The table with one value written: the entry goes away when the value is the default. -/
def Tab.set {κ α : Type} [DecidableEq κ] [DecidableEq α] (lt : κ → κ → Bool) (dflt : κ → α)
    (t : Tab κ α) (k : κ) (v : α) : Tab κ α :=
  if v = dflt k then Tab.erase t k else Tab.insert lt (Tab.erase t k) k v

/-- The order of number keys. -/
def ltN (a b : Nat) : Bool := decide (a < b)

/-- The order of pair keys: the first part first. -/
def ltNN (a b : Nat × Nat) : Bool := decide (a.1 < b.1) || (a.1 == b.1 && decide (a.2 < b.2))

/-- The canonical form: keys strictly rising, no entry equal to its default. -/
def Tab.wf {κ α : Type} [DecidableEq α] (lt : κ → κ → Bool) (dflt : κ → α) : Tab κ α → Bool
  | [] => true
  | (k, v) :: t => decide (v ≠ dflt k) && t.all (fun e => lt k e.1) && Tab.wf lt dflt t

/-- A table keyed by number. -/
abbrev NTab (α : Type) := Tab Nat α

/-- Read of a number-keyed table with one default for all keys. -/
def NTab.get {α : Type} (d : α) (t : NTab α) (k : Nat) : α := Tab.get (fun _ => d) t k

/-- Write of a number-keyed table with one default for all keys. -/
def NTab.set {α : Type} [DecidableEq α] (d : α) (t : NTab α) (k : Nat) (v : α) : NTab α :=
  Tab.set ltN (fun _ => d) t k v

end Sys2Proof.Machine
end

