-- ==== Sys2Proof/Machine/RegMap.lean ====
section
/-!
DEFINITION. The register map of the Register summary (R652, R653, R667): for each register its address, its instances,
its type (R6), its reset value, the mask of its writable bits (R8), the mask of its Expert fields (R16) and the
permitted range of each bounded field, all as the owning chapter's field table gives them.
-/

namespace Sys2Proof.Machine

/-- The field types of R6; a register's type is that of its writable or readable fields. -/
inductive RKind where
  | ro | rw | w1c | rc | wo | rws | lk
  deriving DecidableEq, Repr

/-- One row of the register map. An instance has index i × count2 + j at base + stride × i + stride2 × j. -/
structure RegRow where
  base : Nat
  stride : Nat := 4
  count : Nat := 1
  stride2 : Nat := 4
  count2 : Nat := 1
  kind : RKind
  reset : Nat := 0
  /-- Reset value of the instances other than the first. -/
  rest : Nat := reset
  wmask : Nat := 0
  xmask : Nat := 0
  /-- Fields with a range: high bit, low bit, least, greatest. -/
  ranges : List (Nat × Nat × Nat × Nat) := []
  deriving DecidableEq, Repr

/-- The row of a register. -/
def RName.row : RName → RegRow
  | .sysId => { base := 0x000000, kind := .ro, reset := 0x47457100 }
  | .sysRev => { base := 0x000004, kind := .ro, reset := 0xB0 }
  | .sysUid0 => { base := 0x000008, kind := .ro }
  | .sysUid1 => { base := 0x00000C, kind := .ro }
  | .sysStrap => { base := 0x000010, kind := .ro }
  | .sysLock => { base := 0x000014, kind := .wo }
  | .sysBoot => { base := 0x000018, kind := .ro }
  | .sysUseclo => { base := 0x000020, kind := .ro }
  | .sysUsechi => { base := 0x000024, kind := .ro }
  | .sysScratch => { base := 0x000030, stride := 4, count := 4, kind := .rws, wmask := 0xFFFFFFFF }
  | .sysParamCtl => { base := 0x000040, kind := .wo }
  | .sysParamAddr => { base := 0x000044, kind := .rw, wmask := 0xFFFFFF }
  | .sysParamData => { base := 0x000048, kind := .wo }
  | .sysParamStat => { base := 0x00004C, kind := .ro }
  | .pwrmMode => { base := 0x010000, kind := .ro, reset := 0x22 }
  | .pwrmCmd => { base := 0x010004, kind := .wo }
  | .pwrmCmdstat => { base := 0x010008, kind := .ro }
  | .pwrmCfg => { base := 0x01000C, kind := .rws, reset := 1, wmask := 1 }
  | .pwrmSafe => { base := 0x010010, kind := .lk, reset := 2, wmask := 7 }
  | .pwrmDomstat => { base := 0x010014, kind := .ro }
  | .pwrmClkstat => { base := 0x010018, kind := .ro }
  | .pwrmRstcause => { base := 0x01001C, kind := .ro }
  | .pwrmEcd => { base := 0x010020, kind := .rw, reset := 0x281320, wmask := 0xFF1FFF, ranges := [(11, 0, 400, 1200), (23, 16, 10, 200)] }
  | .pwrmPcc => { base := 0x010024, kind := .ro }
  | .pwrmOpsec => { base := 0x010028, kind := .ro }
  | .polCfg => { base := 0x010100, kind := .rw, reset := 4, wmask := 0xDD, ranges := [(7, 6, 0, 1)] }
  | .polStat => { base := 0x010104, kind := .ro }
  | .polCmd => { base := 0x010108, kind := .wo }
  | .polSlot => { base := 0x01010C, kind := .rw, wmask := 0x13F3F3F, xmask := 0x13F3F3F }
  | .busCfg => { base := 0x010110, kind := .rw, reset := 0xF9C40, wmask := 0xFFFFFF, xmask := 0xFFFFFF, ranges := [(15, 0, 4000, 42000), (23, 16, 5, 50)] }
  | .shareCfg => { base := 0x010114, kind := .rw, reset := 0xA03214, wmask := 0xFF3FFFF, xmask := 0xFF3FFFF, ranges := [(7, 0, 5, 50), (17, 8, 20, 1000), (27, 20, 1, 255)] }
  | .shareTrim => { base := 0x010118, kind := .rw, reset := 0xA0A0A32, wmask := 0xFFFFFFFF, xmask := 0xFFFFFFFF, ranges := [(7, 0, 0, 100), (15, 8, 1, 50), (23, 16, 1, 255), (31, 24, 1, 100)] }
  | .shareEntry => { base := 0x01011C, kind := .rw, wmask := 0xFFF, xmask := 0xFFF }
  | .shareDroop => { base := 0x010120, stride := 4, count := 2, kind := .ro }
  | .srcCfg => { base := 0x010128, kind := .rw, reset := 0x11E00C8, wmask := 0xFFFFFFFF, xmask := 0xFFFFFFFF, ranges := [(15, 0, 10, 60000), (23, 16, 5, 50), (31, 24, 0, 48)] }
  | .hoCfg => { base := 0x01012C, kind := .rw, reset := 0x21401F4, wmask := 0xFFFFFFFF, xmask := 0xFFFFFFFF, ranges := [(15, 0, 500, 60000), (23, 16, 2, 255), (31, 24, 1, 255)] }
  | .hoLev => { base := 0x010130, kind := .rw, reset := 0xC80032, wmask := 0xFFFFFFFF, xmask := 0xFFFFFFFF, ranges := [(15, 0, 10, 500), (31, 16, 10, 10000)] }
  | .hoRet => { base := 0x010134, kind := .rw, reset := 0x640014, wmask := 0xFFFFFFFF, xmask := 0xFFFFFFFF, ranges := [(15, 0, 5, 200), (31, 16, 10, 10000)] }
  | .capLimit => { base := 0x010138, kind := .rw, wmask := 0xFFFFFF }
  | .capCfg => { base := 0x01013C, kind := .rw, reset := 0xA00A3C0, wmask := 0xFF0FF3FF, xmask := 0xFF0FF3FF, ranges := [(9, 0, 800, 1000), (19, 12, 1, 255), (31, 24, 1, 255)] }
  | .capSoc => { base := 0x010140, kind := .rw, reset := 0x51E, wmask := 0xFFFFFF, xmask := 0xFFFFFF, ranges := [(7, 0, 5, 95), (15, 8, 1, 20), (23, 16, 0, 50)] }
  | .shedMask => { base := 0x010144, kind := .rw, wmask := 0xFFFFFF }
  | .shedCfg => { base := 0x010148, kind := .rw, reset := 0x1E0A, wmask := 0xFFFF, xmask := 0xFFFF, ranges := [(7, 0, 1, 255), (15, 8, 1, 255)] }
  | .shedStat => { base := 0x01014C, kind := .ro }
  | .rectCap => { base := 0x010150, kind := .ro }
  | .rlim => { base := 0x010154, kind := .ro }
  | .seqCfg => { base := 0x020000, kind := .rw, reset := 2, wmask := 3 }
  | .seqCmd => { base := 0x020004, kind := .wo }
  | .seqStatus => { base := 0x020008, kind := .ro }
  | .seqChatter => { base := 0x02000C, kind := .rw, reset := 0xA00A08, wmask := 0xFF3FFFF, ranges := [(7, 0, 2, 255), (17, 8, 1, 1000), (27, 20, 1, 255)] }
  | .seqRailCfg => { base := 0x020010, stride := 4, count := 24, kind := .rw, reset := 0x206400, wmask := 0xFF3FFF00, xmask := 0xFF3FFF00 }
  | .seqRstCfg => { base := 0x020070, stride := 8, count := 4, kind := .rw, reset := 0x64, wmask := 0x3FF, xmask := 0x3FF, ranges := [(9, 0, 1, 1000)] }
  | .seqRstWatch => { base := 0x020074, stride := 8, count := 4, kind := .rw, wmask := 0xFFFFFF }
  | .seqStepCtl => { base := 0x020100, stride := 8, count := 64, kind := .rw, wmask := 0xFFBFFFF8, xmask := 0xFFBFFFF8 }
  | .seqStepTmo => { base := 0x020104, stride := 8, count := 64, kind := .rw, wmask := 0x3FFF00, xmask := 0x3FFF00 }
  | .seqTrace => { base := 0x020400, stride := 8, count := 64, kind := .ro }
  | .seqTraceT => { base := 0x020404, stride := 8, count := 64, kind := .ro }
  | .layCfg => { base := 0x030000, kind := .rw, reset := 0x1000, wmask := 0x1FFF1, ranges := [(16, 4, 16, 4096)] }
  | .layCmd => { base := 0x030004, kind := .wo }
  | .layCmdstat => { base := 0x030008, kind := .ro }
  | .layStat => { base := 0x03000C, kind := .ro }
  | .layBldCtl => { base := 0x030010, kind := .wo, xmask := 0xFFFFFFFF }
  | .layBldData => { base := 0x030014, kind := .wo, xmask := 0xFFFFFFFF }
  | .layBldStat => { base := 0x030018, kind := .ro }
  | .layEauthcnt => { base := 0x03001C, kind := .rc }
  | .layRecdrop => { base := 0x030020, kind := .rc }
  | .layEvline => { base := 0x030030, stride := 4, count := 4, kind := .ro }
  | .laySel => { base := 0x030040, kind := .rw, wmask := 0xFF }
  | .layViewPc => { base := 0x030044, kind := .rw, wmask := 0x7FFFF }
  | .layViewFlags => { base := 0x030048, kind := .rw, wmask := 0xF }
  | .layViewAct => { base := 0x03004C, kind := .ro }
  | .layViewS => { base := 0x030080, stride := 4, count := 16, kind := .rw, wmask := 0xFFFFFFFF }
  | .layViewLocal => { base := 0x030100, stride := 4, count := 64, kind := .rw, wmask := 0xFFFFFFFF }
  | .layCtl => { base := 0x030400, stride := 4, count := 256, kind := .rw, wmask := 0x300 }
  | .layBudget => { base := 0x030800, stride := 4, count := 256, kind := .rw, reset := 0x1000, wmask := 0x1FFFFF, ranges := [(20, 0, 16, 1048576)] }
  | .layEntry => { base := 0x030C00, stride := 4, count := 256, kind := .ro }
  | .layArg => { base := 0x031000, stride := 4, count := 256, kind := .rw, wmask := 0xFFFFFFFF }
  | .cleCfg => { base := 0x040000, kind := .rw, reset := 0x5000, wmask := 0x7F01, xmask := 0x7F00, ranges := [(14, 8, 10, 95)] }
  | .cleCommit => { base := 0x040004, kind := .wo }
  | .cleCmdstat => { base := 0x040008, kind := .ro }
  | .cleKick => { base := 0x04000C, kind := .wo }
  | .cleLoad => { base := 0x040010, kind := .ro }
  | .cleSatcnt => { base := 0x040014, kind := .rc }
  | .cleOvrcnt => { base := 0x040018, kind := .rc }
  | .cleRun => { base := 0x040020, stride := 4, count := 2, kind := .ro }
  | .cleFence => { base := 0x040028, stride := 4, count := 2, kind := .ro }
  | .cleLib => { base := 0x040030, stride := 4, count := 2, kind := .ro }
  | .cleSpreach => { base := 0x040038, stride := 4, count := 2, kind := .w1c, wmask := 0xFFFFFFFF }
  | .acqCfg => { base := 0x050000, kind := .rw, wmask := 1 }
  | .acqCmd => { base := 0x050004, kind := .wo }
  | .acqCmdstat => { base := 0x050008, kind := .ro }
  | .acqCvCfg => { base := 0x050010, stride := 0x10, count := 4, kind := .rw, reset := 0x100, wmask := 0xFF01, xmask := 0xFF01, ranges := [(15, 8, 1, 255)] }
  | .acqCvMask => { base := 0x050014, stride := 0x10, count := 4, stride2 := 4, count2 := 3, kind := .rw, wmask := 0xFFFFFFFF, xmask := 0xFFFFFFFF }
  | .acqIlvCfg => { base := 0x050050, stride := 0x10, count := 2, kind := .rw, reset := 0x10000, wmask := 0xFF7F03, xmask := 0xFF7F03, ranges := [(23, 16, 1, 255)] }
  | .acqIlvOffs => { base := 0x050054, stride := 0x10, count := 2, kind := .rw, wmask := 0xFFFF, xmask := 0xFFFF }
  | .acqIlvGain => { base := 0x050058, stride := 0x10, count := 2, kind := .rw, wmask := 0xFFFF, xmask := 0xFFFF }
  | .acqIlvSkew => { base := 0x05005C, stride := 0x10, count := 2, kind := .rw, wmask := 0xFF, xmask := 0xFF }
  | .acqDiff => { base := 0x050070, kind := .rw, wmask := 0xFFFFFFFF, xmask := 0xFFFFFFFF }
  | .acqQcfg => { base := 0x050080, kind := .rw, reset := 0x8000000, wmask := 0xFFF03FF, ranges := [(9, 8, 0, 2), (27, 16, 1, 4095)] }
  | .acqQmask => { base := 0x050084, stride := 4, count := 3, kind := .rw, wmask := 0xFFFFFFFF }
  | .acqQstat => { base := 0x050090, kind := .ro }
  | .acqQpop0 => { base := 0x050094, kind := .ro }
  | .acqQpop1 => { base := 0x050098, kind := .rc }
  | .acqQdrop => { base := 0x05009C, kind := .rc }
  | .acqRes => { base := 0x050100, stride := 4, count := 95, kind := .rc }
  | .acqWcCfg => { base := 0x050400, stride := 0x10, count := 64, kind := .rw, reset := 0x10000, wmask := 0xFFF7F01, xmask := 0xFFF7F01, ranges := [(23, 16, 1, 255)] }
  | .acqWcLim => { base := 0x050404, stride := 0x10, count := 64, kind := .rw, reset := 0xFFFF0000, wmask := 0xFFFFFFFF, xmask := 0xFFFFFFFF }
  | .acqWcHyst => { base := 0x050408, stride := 0x10, count := 64, kind := .rw, wmask := 0xFFFF, xmask := 0xFFFF }
  | .acqWcStat => { base := 0x05040C, stride := 0x10, count := 64, kind := .ro }
  | .acqAcmCfg => { base := 0x050800, kind := .rw, wmask := 0xF, xmask := 0xF }
  | .acqAcmCh => { base := 0x050804, kind := .rw, wmask := 0x7F7F7F, xmask := 0x7F7F7F }
  | .acqAcmNom => { base := 0x050808, kind := .rw, reset := 0x8000, wmask := 0xFFFF, xmask := 0xFFFF }
  | .acqAcmSag => { base := 0x05080C, kind := .rw, reset := 0x14040555, wmask := 0xFFFFFFFF, xmask := 0xFFFFFFFF, ranges := [(7, 0, 50, 95), (15, 8, 1, 20), (23, 16, 1, 64), (31, 24, 1, 255)] }
  | .acqAcmSwell => { base := 0x050810, kind := .rw, reset := 0x1404056E, wmask := 0xFFFFFFFF, xmask := 0xFFFFFFFF, ranges := [(7, 0, 105, 150), (15, 8, 1, 20), (23, 16, 1, 64), (31, 24, 1, 255)] }
  | .acqAcmDev => { base := 0x050814, kind := .rw, reset := 0x14081914, wmask := 0xFFFFFFFF, xmask := 0xFFFFFFFF, ranges := [(7, 0, 5, 60), (15, 8, 10, 70), (23, 16, 1, 32), (31, 24, 5, 60)] }
  | .acqAcmWin => { base := 0x050818, kind := .rw, reset := 0xFA, wmask := 0xFFF, xmask := 0xFFF, ranges := [(11, 0, 50, 2000)] }
  | .acqAcmStat => { base := 0x05081C, kind := .ro }
  | .acqAcmFreq => { base := 0x050820, kind := .ro }
  | .acqAcmVeq => { base := 0x050824, kind := .ro }
  | .acqAcmHcrms => { base := 0x050830, stride := 4, count := 3, kind := .ro }
  | .acqAcmAmp => { base := 0x050840, stride := 4, count := 3, kind := .ro }
  | .acqAcmPhase => { base := 0x050850, kind := .ro }
  | .cnvCfg => { base := 0x060000, kind := .rw, wmask := 1 }
  | .cnvSync => { base := 0x060004, kind := .rw, reset := 0xA00, wmask := 0xF07, xmask := 0xF07, ranges := [(11, 8, 1, 10)] }
  | .cnvSyncstat => { base := 0x060008, kind := .ro }
  | .cnvPertCfg => { base := 0x06000C, kind := .rw, wmask := 1, xmask := 1 }
  | .cnvPertTone => { base := 0x060010, stride := 4, count := 8, kind := .rw, wmask := 0xFF3FFF, xmask := 0xFF3FFF }
  | .cnvPertPhase => { base := 0x060030, stride := 4, count := 8, kind := .ro }
  | .cnvXCfg => { base := 0x060100, stride := 0x200, count := 2, kind := .rw, reset := 0xFF1000, rest := 0xF1000, wmask := 0xFFFFF00C, xmask := 0xFFFFF00C, ranges := [(15, 12, 1, 8)] }
  | .cnvXCmd => { base := 0x060104, stride := 0x200, count := 2, kind := .wo }
  | .cnvXStat => { base := 0x060108, stride := 0x200, count := 2, kind := .ro }
  | .cnvXPer => { base := 0x06010C, stride := 0x200, count := 2, kind := .rw, reset := 0x1F40, wmask := 0xFFFF, xmask := 0xFFFF, ranges := [(15, 0, 1600, 16000)] }
  | .cnvXDt => { base := 0x060110, stride := 0x200, count := 2, kind := .rw, reset := 0x5000500, wmask := 0xFFF0FFF, xmask := 0xFFF0FFF, ranges := [(11, 0, 16, 4095), (27, 16, 16, 4095)] }
  | .cnvXDlim => { base := 0x060114, stride := 0x200, count := 2, kind := .rw, reset := 0xF3330064, wmask := 0xFFFF03FF, xmask := 0xFFFF03FF, ranges := [(9, 0, 20, 1000), (31, 16, 32768, 65535)] }
  | .cnvXScale => { base := 0x060118, stride := 0x200, count := 2, kind := .rw, wmask := 0xFFFFFFFF, xmask := 0xFFFFFFFF }
  | .cnvXIlim => { base := 0x06011C, stride := 0x200, count := 2, kind := .rw, reset := 0x5F50, wmask := 0xFFFF, xmask := 0xFFFF, ranges := [(7, 0, 10, 99), (15, 8, 11, 100)] }
  | .cnvXSlow => { base := 0x060120, stride := 0x200, count := 2, kind := .rw, reset := 0x6403E86E, wmask := 0xFFFFFFFF, xmask := 0xFFFFFFFF, ranges := [(7, 0, 10, 150), (23, 8, 1, 10000)] }
  | .cnvXIreg => { base := 0x060124, stride := 0x200, count := 2, kind := .rw, reset := 0x400400, wmask := 0xFFFFFFFF, xmask := 0xFFFFFFFF }
  | .cnvXSs => { base := 0x060128, stride := 0x200, count := 2, kind := .rw, reset := 0x4032064, wmask := 0xFFFFFFFF, xmask := 0xFFFFFFFF, ranges := [(11, 0, 1, 4000), (19, 12, 10, 100), (31, 20, 1, 4095)] }
  | .cnvXHic => { base := 0x06012C, stride := 0x200, count := 2, kind := .rw, reset := 0x30064, wmask := 0xFFFFF, xmask := 0xFFFFF, ranges := [(15, 0, 10, 10000)] }
  | .cnvXVtgt => { base := 0x060130, stride := 0x200, count := 2, kind := .rw, wmask := 0xFFFF, xmask := 0xFFFF }
  | .cnvXVch => { base := 0x060134, stride := 0x200, count := 2, kind := .rw, wmask := 0x7F7F, xmask := 0x7F7F, ranges := [(6, 0, 0, 94), (14, 8, 0, 94)] }
  | .cnvXVfs => { base := 0x060138, stride := 0x200, count := 2, kind := .rw, wmask := 0xFFFFFFFF, xmask := 0xFFFFFFFF }
  | .cnvXDe => { base := 0x06013C, stride := 0x200, count := 2, kind := .rw, reset := 0x5DC041, wmask := 0xFFF0F3, xmask := 0xFFF0F3, ranges := [(7, 4, 1, 15), (23, 12, 0, 3000)] }
  | .cnvXRot => { base := 0x060140, stride := 0x200, count := 2, kind := .rw, reset := 0x40, wmask := 0xFFFF, xmask := 0xFFFF }
  | .cnvXImb => { base := 0x060144, stride := 0x200, count := 2, kind := .rw, reset := 0xA0A0F, wmask := 0xFFFFFF, xmask := 0xFFFFFF, ranges := [(7, 0, 5, 50), (15, 8, 1, 255), (23, 16, 1, 255)] }
  | .cnvXOv => { base := 0x060148, stride := 0x200, count := 2, kind := .rw, wmask := 0x7F7F, xmask := 0x7F7F }
  | .cnvXCmdval => { base := 0x06014C, stride := 0x200, count := 2, kind := .rw, wmask := 0xFFFFFFFF, xmask := 0xFFFFFFFF }
  | .cnvXEff => { base := 0x060150, stride := 0x200, count := 2, kind := .ro }
  | .cnvXDuty => { base := 0x060154, stride := 0x200, count := 2, kind := .ro }
  | .cnvXVcmd => { base := 0x060158, stride := 0x200, count := 2, kind := .wo }
  | .cnvXVrate => { base := 0x06015C, stride := 0x200, count := 2, kind := .rw, reset := 0x64, wmask := 0x3FFFFF, xmask := 0x3F0000, ranges := [(15, 0, 1, 65535)] }
  | .cnvXVref => { base := 0x060160, stride := 0x200, count := 2, kind := .rw, wmask := 0xFFFF, xmask := 0xFFFF }
  | .cnvXVdone => { base := 0x060164, stride := 0x200, count := 2, kind := .rc }
  | .cnvBcvRem => { base := 0x060168, kind := .rw, reset := 0x3214, wmask := 0xFFFF, xmask := 0xFFFF, ranges := [(7, 0, 1, 255), (15, 8, 1, 255)] }
  | .cnvBPh => { base := 0x060180, stride := 4, count := 8, kind := .ro }
  | .cnvAPh => { base := 0x060380, stride := 4, count := 4, kind := .ro }
  | .brnCfg => { base := 0x070000, kind := .rw, reset := 0xA00, wmask := 0xFF01, ranges := [(15, 8, 1, 100)] }
  | .brnStagger => { base := 0x070004, kind := .rw, reset := 0xA, wmask := 0x3FF, xmask := 0x3FF, ranges := [(9, 0, 0, 1000)] }
  | .brnOnmask => { base := 0x070008, kind := .ro }
  | .brnFencemask => { base := 0x07000C, kind := .ro }
  | .brnLatchmask => { base := 0x070010, kind := .ro }
  | .brnNCfg => { base := 0x070100, stride := 0x80, count := 24, kind := .rw, wmask := 3, xmask := 3 }
  | .brnNCmd => { base := 0x070104, stride := 0x80, count := 24, kind := .wo }
  | .brnNStat => { base := 0x070108, stride := 0x80, count := 24, kind := .ro }
  | .brnNScale => { base := 0x07010C, stride := 0x80, count := 24, kind := .rw, wmask := 0xFFFFFFFF, xmask := 0xFFFFFFFF }
  | .brnNTrip => { base := 0x070110, stride := 0x80, count := 24, kind := .rw, reset := 0x3200384, wmask := 0x3FF03FF, xmask := 0x3FF03FF, ranges := [(9, 0, 100, 1000), (25, 16, 100, 1000)] }
  | .brnNLim => { base := 0x070114, stride := 0x80, count := 24, kind := .rw, reset := 0x1F4, wmask := 0x3FF, xmask := 0x3FF, ranges := [(9, 0, 0, 1000)] }
  | .brnNInr => { base := 0x070118, stride := 0x80, count := 24, kind := .rw, reset := 0xC8, wmask := 0xFFFF03FF, xmask := 0xFFFF03FF, ranges := [(9, 0, 10, 1000)] }
  | .brnNTmr => { base := 0x07011C, stride := 0x80, count := 24, kind := .rw, reset := 0xA14032, wmask := 0xFFFFFFFF, xmask := 0xFFFFFFFF, ranges := [(11, 0, 1, 4095), (19, 12, 1, 255), (31, 20, 1, 4095)] }
  | .brnNRetry => { base := 0x070120, stride := 0x80, count := 24, kind := .rw, reset := 0xA0A03, wmask := 0xFFFF0F, xmask := 0xFFFF0F, ranges := [(15, 8, 1, 255), (23, 16, 1, 255)] }
  | .brnNGate => { base := 0x070124, stride := 0x80, count := 24, kind := .rw, reset := 0xA140A00, wmask := 0xFFFFFF01, xmask := 0xFFFFFF01, ranges := [(15, 8, 1, 255), (23, 16, 1, 255), (31, 24, 1, 255)] }
  | .brnNMeas => { base := 0x070128, stride := 0x80, count := 24, kind := .ro }
  | .brnNIavg => { base := 0x07012C, stride := 0x80, count := 24, kind := .ro }
  | .brnNP => { base := 0x070130, stride := 0x80, count := 24, kind := .ro }
  | .brnNElo => { base := 0x070134, stride := 0x80, count := 24, kind := .ro }
  | .brnNEhi => { base := 0x070138, stride := 0x80, count := 24, kind := .ro }
  | .brnNCnt => { base := 0x07013C, stride := 0x80, count := 24, kind := .ro }
  | .brnNThm => { base := 0x070140, stride := 0x80, count := 24, kind := .rw, reset := 0x1F, wmask := 0x1F, xmask := 0x1F }
  | .brnNZero => { base := 0x070144, stride := 0x80, count := 24, kind := .rw, reset := 0x10000, wmask := 0x1FFFF, xmask := 0x1FFFF }
  | .batCfg => { base := 0x080000, kind := .rw, wmask := 0xFF0F, xmask := 0xFF0E }
  | .batCmd => { base := 0x080004, kind := .wo }
  | .batCmdstat => { base := 0x080008, kind := .ro }
  | .batChgStat => { base := 0x08000C, kind := .ro }
  | .batChgFlt => { base := 0x080010, kind := .rc }
  | .batChgVreg => { base := 0x080014, kind := .rw, reset := 0xD480DDE, wmask := 0xFFFFFFFF, xmask := 0xFFFFFFFF, ranges := [(15, 0, 1000, 5000), (31, 16, 1000, 5000)] }
  | .batChgVphase => { base := 0x080018, kind := .rw, reset := 0xAF007D0, wmask := 0xFFFFFFFF, xmask := 0xFFFFFFFF, ranges := [(15, 0, 500, 5000), (31, 16, 500, 5000)] }
  | .batChgVlim => { base := 0x08001C, kind := .rw, reset := 0xE740CE4, wmask := 0xFFFFFFFF, xmask := 0xFFFFFFFF }
  | .batChgVtop => { base := 0x080020, kind := .rw, reset := 0x9C40D7A, wmask := 0xFFFFFFFF, xmask := 0xFFFFFFFF, ranges := [(31, 16, 1000, 4500)] }
  | .batChgPulse => { base := 0x080024, kind := .rw, reset := 0x1E141E, wmask := 0xFFFFFF, xmask := 0xFFFFFF, ranges := [(7, 0, 1, 255), (15, 8, 5, 255), (23, 16, 1, 255)] }
  | .batChgTmr => { base := 0x080028, kind := .rw, reset := 0x2583C1E, wmask := 0xFFFFFFFF, xmask := 0xFFFFFFFF, ranges := [(7, 0, 1, 255), (15, 8, 1, 255), (31, 16, 10, 4800)] }
  | .batTwin => { base := 0x08002C, kind := .rw, reset := 0x372D0A00, wmask := 0xFFFFFFFF, xmask := 0xFFFFFFFF }
  | .batTred => { base := 0x080030, kind := .rw, reset := 0x3323232, wmask := 0xFFFFFFF, xmask := 0xFFFFFFF, ranges := [(7, 0, 10, 100), (15, 8, 10, 100), (27, 24, 1, 10)] }
  | .batVcomp => { base := 0x080034, kind := .rw, reset := 0x190000, wmask := 0xFFFFFF, xmask := 0xFFFFFF }
  | .batPres => { base := 0x080038, kind := .rw, reset := 0x1403E8, wmask := 0xFF0FFF, xmask := 0xFF0FFF, ranges := [(11, 0, 100, 3000), (23, 16, 1, 255)] }
  | .batSwcfg => { base := 0x08003C, kind := .rw, reset := 0x1E0432, wmask := 0xFFFFFFFF, xmask := 0xFFFFFFFF, ranges := [(7, 0, 5, 255), (15, 8, 1, 100), (31, 16, 1, 1440)] }
  | .batChgIman => { base := 0x080040, kind := .rw, wmask := 0xFFFFFFFF, xmask := 0xFFFFFFFF }
  | .batChgCb => { base := 0x080044, kind := .ro }
  | .batChgSlot => { base := 0x080048, kind := .ro }
  | .batShipCfg => { base := 0x08004C, kind := .rws, reset := 0xA03, wmask := 0xFF03, ranges := [(15, 8, 1, 255)] }
  | .batShipStat => { base := 0x080050, kind := .ro }
  | .batStrCfg => { base := 0x080100, stride := 0x40, count := 4, kind := .rw, reset := 0x4F8000, wmask := 0xFFFF7F, xmask := 0xFFFF7F, ranges := [(6, 0, 0, 63)] }
  | .batStrScale => { base := 0x080104, stride := 0x40, count := 4, kind := .rw, wmask := 0xFFFFFFFF, xmask := 0xFFFFFFFF }
  | .batStrIchg => { base := 0x080108, stride := 0x40, count := 4, kind := .rw, wmask := 0xFFFFFFFF, xmask := 0xFFFFFFFF }
  | .batStrIlim => { base := 0x08010C, stride := 0x40, count := 4, kind := .rw, wmask := 0xFFFFFFFF, xmask := 0xFFFFFFFF }
  | .batStrOc => { base := 0x080110, stride := 0x40, count := 4, kind := .rw, wmask := 0xFFFF, xmask := 0xFFFF }
  | .batStrMon => { base := 0x080114, stride := 0x40, count := 4, kind := .rw, wmask := 0x80000FFF, xmask := 0x80000FFF }
  | .batStrStat => { base := 0x080118, stride := 0x40, count := 4, kind := .ro }
  | .batStrFlt => { base := 0x08011C, stride := 0x40, count := 4, kind := .rc }
  | .batStrId => { base := 0x080120, stride := 0x40, count := 4, kind := .ro }
  | .batStrMeas => { base := 0x080124, stride := 0x40, count := 4, kind := .ro }
  | .estCfg => { base := 0x090000, kind := .rw, reset := 2, wmask := 3 }
  | .estCmd => { base := 0x090004, kind := .wo }
  | .estCmdstat => { base := 0x090008, kind := .ro }
  | .estConf => { base := 0x09000C, kind := .rw, reset := 0x5320A32, wmask := 0xFFFFFFFF, xmask := 0xFFFFFFFF, ranges := [(7, 0, 1, 255), (15, 8, 2, 50), (23, 16, 5, 200), (31, 24, 1, 50)] }
  | .estErr => { base := 0x090010, kind := .rw, reset := 0x50A1432, wmask := 0xFFFFFFFF, xmask := 0xFFFFFFFF, ranges := [(7, 0, 1, 255), (15, 8, 1, 255), (23, 16, 1, 255), (31, 24, 1, 255)] }
  | .estZcfg => { base := 0x090014, kind := .rw, reset := 0x50A08, wmask := 0xFFFFFF, xmask := 0xFFFFFF, ranges := [(7, 0, 2, 255), (15, 8, 1, 255), (23, 16, 1, 255)] }
  | .estStepcfg => { base := 0x090018, kind := .rw, reset := 0xA64, wmask := 0xFFFF, xmask := 0xFFFF, ranges := [(7, 0, 1, 255), (15, 8, 1, 255)] }
  | .estCapcfg => { base := 0x09001C, kind := .rw, reset := 0x19501928, wmask := 0xFFFFFFFF, xmask := 0xFFFFFFFF, ranges := [(7, 0, 20, 90), (15, 8, 1, 100), (23, 16, 50, 100)] }
  | .estStorecfg => { base := 0x090020, kind := .rw, reset := 0x3C, wmask := 0x7FF, xmask := 0x7FF, ranges := [(10, 0, 10, 1440)] }
  | .estStorestat => { base := 0x090024, kind := .ro }
  | .estStoreseq => { base := 0x090028, kind := .ro }
  | .estShelfSoc => { base := 0x09002C, kind := .ro }
  | .estShelfCap => { base := 0x090030, kind := .ro }
  | .estOcv => { base := 0x090040, stride := 4, count := 21, kind := .rw, wmask := 0xFFFFFFFF, xmask := 0xFFFFFFFF }
  | .estStrSoc => { base := 0x090100, stride := 0x40, count := 4, kind := .ro }
  | .estStrConf => { base := 0x090104, stride := 0x40, count := 4, kind := .ro }
  | .estStrCap => { base := 0x090108, stride := 0x40, count := 4, kind := .ro }
  | .estStrRes => { base := 0x09010C, stride := 0x40, count := 4, kind := .ro }
  | .estStrHlth => { base := 0x090110, stride := 0x40, count := 4, kind := .ro }
  | .estStrTau => { base := 0x090114, stride := 0x40, count := 4, kind := .ro }
  | .estStrCnom => { base := 0x090118, stride := 0x40, count := 4, kind := .rw, wmask := 0xFFFFFFFF }
  | .estStrOrigin => { base := 0x09011C, stride := 0x40, count := 4, kind := .ro }
  | .estStrZ => { base := 0x090120, stride := 0x40, count := 4, stride2 := 4, count2 := 8, kind := .ro }
  | .estMod => { base := 0x090400, stride := 4, count := 64, kind := .ro }
  | .ptnCfg => { base := 0x0A0000, kind := .rw, reset := 0x602000, wmask := 0xFFFF01, xmask := 0xFFFF00, ranges := [(15, 8, 0, 128), (23, 16, 0, 224)] }
  | .ptnCmd => { base := 0x0A0004, kind := .wo }
  | .ptnCmdstat => { base := 0x0A0008, kind := .ro }
  | .ptnStat => { base := 0x0A000C, kind := .ro }
  | .ptnOcc01 => { base := 0x0A0010, kind := .ro }
  | .ptnOcc23 => { base := 0x0A0014, kind := .ro }
  | .ptnQmax => { base := 0x0A0018, kind := .rw, reset := 0x3E8, wmask := 0x3FFF, xmask := 0x3FFF, ranges := [(13, 0, 10, 10000)] }
  | .ptnCrto => { base := 0x0A001C, kind := .rw, reset := 0x64, wmask := 0xFF, xmask := 0xFF, ranges := [(7, 0, 1, 255)] }
  | .ptnTelCfg => { base := 0x0A0020, kind := .rw, wmask := 0xFF0301, ranges := [(9, 8, 0, 2)] }
  | .ptnTelWr => { base := 0x0A0024, kind := .ro }
  | .ptnTelRd => { base := 0x0A0028, kind := .rw, wmask := 0xFFFFFFFF }
  | .ptnTelLoad => { base := 0x0A002C, kind := .ro }
  | .ptnTelLost => { base := 0x0A0030, kind := .rc }
  | .ptnOnline => { base := 0x0A0034, kind := .ro }
  | .ptnEfullcnt => { base := 0x0A0038, kind := .rc }
  | .ptnDiscStat => { base := 0x0A003C, kind := .ro }
  | .ptnDisc => { base := 0x0A0100, stride := 4, count := 64, kind := .ro }
  | .twbCfg => { base := 0x0B0000, kind := .rw, wmask := 1 }
  | .twbCmdstat => { base := 0x0B0004, kind := .ro }
  | .twbNCfg => { base := 0x0B0100, stride := 0x40, count := 16, kind := .rw, reset := 0x1F30002, wmask := 0x1FFF001F, xmask := 0x1FFF001F, ranges := [(28, 16, 49, 4999)] }
  | .twbNTmo => { base := 0x0B0104, stride := 0x40, count := 16, kind := .rw, reset := 0x4332319, wmask := 0x1FFFFFFF, xmask := 0x1FFFFFFF, ranges := [(7, 0, 1, 255), (15, 8, 1, 255), (23, 20, 1, 15), (28, 24, 1, 16)] }
  | .twbNCmd => { base := 0x0B0108, stride := 0x40, count := 16, kind := .wo }
  | .twbNStat => { base := 0x0B010C, stride := 0x40, count := 16, kind := .ro }
  | .twbNCnt0 => { base := 0x0B0110, stride := 0x40, count := 16, kind := .rc }
  | .twbNCnt1 => { base := 0x0B0114, stride := 0x40, count := 16, kind := .rc }
  | .twbNCnt2 => { base := 0x0B0118, stride := 0x40, count := 16, kind := .rc }
  | .twbNCnt3 => { base := 0x0B011C, stride := 0x40, count := 16, kind := .rc }
  | .twbNHail => { base := 0x0B0120, stride := 0x40, count := 16, kind := .ro }
  | .twbTgtCfg => { base := 0x0B0800, kind := .rw, reset := 0xB, wmask := 0xFF, xmask := 0xFF, ranges := [(6, 0, 8, 119)] }
  | .twbTgtStat => { base := 0x0B0804, kind := .ro }
  | .twbTgtWrej => { base := 0x0B0808, kind := .rc }
  | .twbTgtMir => { base := 0x0B0880, stride := 4, count := 32, kind := .rw, wmask := 0xFFFFFFFF }
  | .slkCfg => { base := 0x0C0000, kind := .rw, wmask := 1 }
  | .slkMaclo => { base := 0x0C0004, kind := .ro }
  | .slkMachi => { base := 0x0C0008, kind := .ro }
  | .slkShelfstat => { base := 0x0C0010, kind := .rw, wmask := 0xFFFFFFFF }
  | .slkOffer => { base := 0x0C0014, kind := .ro }
  | .slkOffergen => { base := 0x0C0018, kind := .ro }
  | .slkOffersrc => { base := 0x0C001C, kind := .ro }
  | .slkNCfg => { base := 0x0C0100, stride := 0x40, count := 4, kind := .rw, reset := 0x80002, wmask := 0x3F1F03, xmask := 0x3F1F03, ranges := [(21, 16, 1, 32)] }
  | .slkNPlca => { base := 0x0C0104, stride := 0x40, count := 4, kind := .rw, reset := 0x800020, wmask := 0xFFFFFF, xmask := 0xFFFFFF }
  | .slkNErr => { base := 0x0C0108, stride := 0x40, count := 4, kind := .rw, reset := 0x410, wmask := 0xFFFF, xmask := 0xFFFF, ranges := [(7, 0, 1, 255), (15, 8, 1, 255)] }
  | .slkNCmd => { base := 0x0C010C, stride := 0x40, count := 4, kind := .wo }
  | .slkNStat => { base := 0x0C0110, stride := 0x40, count := 4, kind := .ro }
  | .slkNCnt0 => { base := 0x0C0114, stride := 0x40, count := 4, kind := .rc }
  | .slkNCnt1 => { base := 0x0C0118, stride := 0x40, count := 4, kind := .rc }
  | .slkNCnt2 => { base := 0x0C011C, stride := 0x40, count := 4, kind := .rc }
  | .hstCfg => { base := 0x0D0000, kind := .rw, wmask := 0xF, xmask := 0xE }
  | .hstStat => { base := 0x0D0004, kind := .ro }
  | .hstCnt => { base := 0x0D0008, kind := .rc }
  | .hstAuthHost => { base := 0x0D0010, kind := .rw, reset := 0x10FF, wmask := 0x1FFF }
  | .hstAuthSvc => { base := 0x0D0014, kind := .rw, reset := 0x17FF, wmask := 0x1FFF }
  | .hstAuthPeer => { base := 0x0D0018, kind := .rw, reset := 0x800, wmask := 0x1FFF }
  | .hstEauth => { base := 0x0D0020, stride := 4, count := 3, kind := .rc }
  | .hstMbxHpend => { base := 0x0D0040, stride := 4, count := 2, kind := .ro }
  | .hstMbxSpend => { base := 0x0D0048, stride := 4, count := 2, kind := .ro }
  | .hstMbxTx => { base := 0x0D0400, stride := 0x10, count := 64, kind := .wo }
  | .hstMbxRx => { base := 0x0D0404, stride := 0x10, count := 64, kind := .rc }
  | .hstMbxStat => { base := 0x0D0408, stride := 0x10, count := 64, kind := .ro }
  | .thmCfg => { base := 0x0E0000, kind := .rw, reset := 0x502, wmask := 0x1F03, ranges := [(12, 8, 1, 20)] }
  | .thmClkCfg => { base := 0x0E0010, kind := .rw, reset := 0x3F000AFC, wmask := 0x3F00FFFF, xmask := 0x3F00FFFF, ranges := [(15, 8, 1, 160)] }
  | .thmClkStat => { base := 0x0E0014, kind := .ro }
  | .thmFuncCfg => { base := 0x0E0020, stride := 0x10, count := 5, kind := .rw, reset := 0x3232, wmask := 0xFFFF, xmask := 0xFFFF, ranges := [(7, 0, 1, 255), (15, 8, 0, 100)] }
  | .thmFuncMask => { base := 0x0E0024, stride := 0x10, count := 5, kind := .rw, wmask := 0x3FFFFF, xmask := 0x3FFFFF }
  | .thmFuncRed => { base := 0x0E0028, stride := 0x10, count := 5, kind := .ro }
  | .thmSCfg => { base := 0x0E0100, stride := 0x20, count := 22, kind := .rw, reset := 0x800, wmask := 0xFF03, xmask := 0xFF03 }
  | .thmSNtc => { base := 0x0E0104, stride := 0x20, count := 16, kind := .rw, reset := 0xD7A2710, wmask := 0xFFFFFFFF, xmask := 0xFFFFFFFF }
  | .thmSThr => { base := 0x0E0108, stride := 0x20, count := 22, kind := .rw, reset := 0x5F5046, wmask := 0xFFFFFF, xmask := 0xFFFFFF }
  | .thmSHyst => { base := 0x0E010C, stride := 0x20, count := 22, kind := .rw, reset := 0x50505, wmask := 0xFFFFFF, xmask := 0xFFFFFF, ranges := [(7, 0, 1, 20), (15, 8, 1, 20), (23, 16, 1, 20)] }
  | .thmSStat => { base := 0x0E0110, stride := 0x20, count := 22, kind := .ro }
  | .fltCfg => { base := 0x0F0000, kind := .rw, wmask := 1 }
  | .fltSum => { base := 0x0F0004, kind := .ro }
  | .fltSwraise => { base := 0x0F0008, kind := .wo }
  | .fltLatch => { base := 0x0F0010, stride := 4, count := 6, kind := .ro }
  | .fltSrc => { base := 0x0F0100, stride := 4, count := 192, kind := .lk, wmask := 7, xmask := 7 }
  | .fltFlag => { base := 0x0F0400, stride := 4, count := 192, kind := .rc }
  | .secAlarmCfg => { base := 0x100000, kind := .rw, wmask := 0x3FFFF }
  | .secAlarmFlg => { base := 0x100004, kind := .rc }
  | .secAlarmNow => { base := 0x100008, kind := .ro }
  | .secTamperCfg => { base := 0x10000C, kind := .rw, reset := 0xA00, wmask := 0xFFFF, ranges := [(15, 8, 1, 255)] }
  | .secFloodCfg => { base := 0x100010, kind := .rw, reset := 0xA200A10, wmask := 0xFFFFFFFF, ranges := [(7, 0, 1, 255), (15, 8, 1, 255), (23, 16, 1, 255), (31, 24, 1, 255)] }
  | .secKeystat => { base := 0x100014, kind := .ro }
  | .secKeyCtl => { base := 0x100018, kind := .wo }
  | .secKeyData => { base := 0x10001C, kind := .wo }
  | .secKeyChk => { base := 0x100020, kind := .rw, wmask := 0xFFFFFFFF }
  | .secCmdstat => { base := 0x100024, kind := .ro }
  | .splCfg => { base := 0x110000, kind := .rw, reset := 0x3203C02, wmask := 0xFFFFF03, xmask := 0xFFFFF02, ranges := [(19, 8, 10, 3600), (27, 20, 1, 255)] }
  | .splCmd => { base := 0x110004, kind := .wo }
  | .splCmdstat => { base := 0x110008, kind := .ro }
  | .splStat => { base := 0x11000C, kind := .ro }
  | .splTrig => { base := 0x110010, stride := 4, count := 6, kind := .rw, reset := 7, rest := 0, wmask := 0xFFFFFFFF, xmask := 0xFFFFFFFF }
  | .splDiv => { base := 0x110030, kind := .rw, reset := 0xA32, wmask := 0xFFFF, xmask := 0xFFFF, ranges := [(7, 0, 1, 255), (15, 8, 1, 255)] }
  | .splCmp => { base := 0x110034, stride := 4, count := 2, kind := .rw, wmask := 0xFFFFFFFF, xmask := 0xFFFFFFFF }
  | .splCnt => { base := 0x11003C, kind := .rc }
  | .splLnkcnt => { base := 0x110040, kind := .rc }
  | .splJseq => { base := 0x110044, kind := .ro }
  | .splPeerid => { base := 0x110048, kind := .ro }
  | .splGap => { base := 0x11004C, kind := .ro }
  | .rcdCfg => { base := 0x120000, kind := .rw, reset := 2, wmask := 3 }
  | .rcdCmd => { base := 0x120004, kind := .wo }
  | .rcdCmdstat => { base := 0x120008, kind := .ro }
  | .rcdStat => { base := 0x12000C, kind := .ro }
  | .rcdFirst => { base := 0x120010, kind := .ro }
  | .rcdLast => { base := 0x120014, kind := .ro }
  | .rcdNext => { base := 0x120018, kind := .ro }
  | .rcdLost => { base := 0x12001C, kind := .rc }
  | .rcdCur => { base := 0x120020, kind := .rw, wmask := 0xFFFFFFFF }
  | .rcdSeq => { base := 0x120024, kind := .ro }
  | .rcdSeqchk => { base := 0x120028, kind := .ro }
  | .rcdWin => { base := 0x120040, stride := 4, count := 16, kind := .ro }
  | .rcdExpFirst => { base := 0x120080, kind := .rw, wmask := 0xFFFFFFFF }
  | .rcdExpCnt => { base := 0x120084, kind := .rw, reset := 0x100, wmask := 0x1FF, ranges := [(8, 0, 1, 256)] }
  | .rcdExpIdx => { base := 0x120088, kind := .rw, wmask := 0x1FF, ranges := [(8, 0, 0, 256)] }
  | .rcdExpWin => { base := 0x1200C0, stride := 4, count := 16, kind := .ro }
  | .rcdCapCfg => { base := 0x120100, stride := 0x20, count := 8, kind := .rw, wmask := 0xFFFFF03, xmask := 0xFFFFF03 }
  | .rcdCapPace => { base := 0x120104, stride := 0x20, count := 8, kind := .rw, reset := 1, wmask := 0xFF, xmask := 0xFF, ranges := [(7, 0, 1, 255)] }
  | .rcdCapSrc0 => { base := 0x120108, stride := 0x20, count := 8, kind := .rw, reset := 0xFFFFFFFF, wmask := 0xFFFFFFFF, xmask := 0xFFFFFFFF }
  | .rcdCapSrc1 => { base := 0x12010C, stride := 0x20, count := 8, kind := .rw, reset := 0xFFFFFFFF, wmask := 0xFFFFFFFF, xmask := 0xFFFFFFFF }
  | .rcdCapStat => { base := 0x120110, stride := 0x20, count := 8, kind := .ro }
  | .rcdCapSel => { base := 0x120200, kind := .rw, wmask := 0xFFF0077 }
  | .rcdCapData => { base := 0x120204, kind := .ro }
  | .updCfg => { base := 0x130000, kind := .rw, reset := 0x1000A, wmask := 0x107FF, ranges := [(10, 0, 1, 1440)] }
  | .updCmd => { base := 0x130004, kind := .wo }
  | .updCmdstat => { base := 0x130008, kind := .ro }
  | .updStat => { base := 0x13000C, kind := .ro }
  | .updActVer => { base := 0x130010, kind := .ro }
  | .updActBver => { base := 0x130014, kind := .ro }
  | .updActDig => { base := 0x130018, kind := .ro }
  | .updStgVer => { base := 0x13001C, kind := .ro }
  | .updStgBver => { base := 0x130020, kind := .ro }
  | .updStgDig => { base := 0x130024, kind := .ro }
  | .updRolVer => { base := 0x130028, kind := .ro }
  | .updRolBver => { base := 0x13002C, kind := .ro }
  | .updRolDig => { base := 0x130030, kind := .ro }
  | .updConfLeft => { base := 0x130034, kind := .ro }
  | .updCopy => { base := 0x130038, kind := .ro }
  | .updSvcCfg => { base := 0x130040, kind := .rw, reset := 0xA, wmask := 0xFF, ranges := [(7, 0, 1, 240)] }
  | .updSvcStat => { base := 0x130044, kind := .ro }
  | .updSvcCnt0 => { base := 0x130048, kind := .rc }
  | .updSvcCnt1 => { base := 0x13004C, kind := .rc }
  | .evtSwset => { base := 0x140004, kind := .wo }
  | .evtPend => { base := 0x140100, stride := 4, count := 64, kind := .w1c, wmask := 0xFFFFFFFF }
  | .evtDsum => { base := 0x140200, stride := 4, count := 8, kind := .ro }
  | .evtRoute => { base := 0x140400, stride := 4, count := 256, kind := .rw, wmask := 0xFF }

/-- The registers of block SYS. -/
def regNamesSys : List RName :=
  [.sysId, .sysRev, .sysUid0, .sysUid1, .sysStrap, .sysLock, .sysBoot, .sysUseclo, .sysUsechi, .sysScratch,
   .sysParamCtl, .sysParamAddr, .sysParamData, .sysParamStat]

/-- The registers of block PWRM. -/
def regNamesPwrm : List RName :=
  [.pwrmMode, .pwrmCmd, .pwrmCmdstat, .pwrmCfg, .pwrmSafe, .pwrmDomstat, .pwrmClkstat, .pwrmRstcause, .pwrmEcd,
   .pwrmPcc, .pwrmOpsec]

/-- The registers of block POL. -/
def regNamesPol : List RName :=
  [.polCfg, .polStat, .polCmd, .polSlot, .busCfg, .shareCfg, .shareTrim, .shareEntry, .shareDroop, .srcCfg,
   .hoCfg, .hoLev, .hoRet, .capLimit, .capCfg, .capSoc, .shedMask, .shedCfg, .shedStat, .rectCap, .rlim]

/-- The registers of block SEQ. -/
def regNamesSeq : List RName :=
  [.seqCfg, .seqCmd, .seqStatus, .seqChatter, .seqRailCfg, .seqRstCfg, .seqRstWatch, .seqStepCtl, .seqStepTmo,
   .seqTrace, .seqTraceT]

/-- The registers of block LAY. -/
def regNamesLay : List RName :=
  [.layCfg, .layCmd, .layCmdstat, .layStat, .layBldCtl, .layBldData, .layBldStat, .layEauthcnt, .layRecdrop,
   .layEvline, .laySel, .layViewPc, .layViewFlags, .layViewAct, .layViewS, .layViewLocal, .layCtl, .layBudget,
   .layEntry, .layArg]

/-- The registers of block CLE. -/
def regNamesCle : List RName :=
  [.cleCfg, .cleCommit, .cleCmdstat, .cleKick, .cleLoad, .cleSatcnt, .cleOvrcnt, .cleRun, .cleFence, .cleLib,
   .cleSpreach]

/-- The registers of block ACQ. -/
def regNamesAcq : List RName :=
  [.acqCfg, .acqCmd, .acqCmdstat, .acqCvCfg, .acqCvMask, .acqIlvCfg, .acqIlvOffs, .acqIlvGain, .acqIlvSkew,
   .acqDiff, .acqQcfg, .acqQmask, .acqQstat, .acqQpop0, .acqQpop1, .acqQdrop, .acqRes, .acqWcCfg, .acqWcLim,
   .acqWcHyst, .acqWcStat, .acqAcmCfg, .acqAcmCh, .acqAcmNom, .acqAcmSag, .acqAcmSwell, .acqAcmDev, .acqAcmWin,
   .acqAcmStat, .acqAcmFreq, .acqAcmVeq, .acqAcmHcrms, .acqAcmAmp, .acqAcmPhase]

/-- The registers of block CNV. -/
def regNamesCnv : List RName :=
  [.cnvCfg, .cnvSync, .cnvSyncstat, .cnvPertCfg, .cnvPertTone, .cnvPertPhase, .cnvXCfg, .cnvXCmd, .cnvXStat,
   .cnvXPer, .cnvXDt, .cnvXDlim, .cnvXScale, .cnvXIlim, .cnvXSlow, .cnvXIreg, .cnvXSs, .cnvXHic, .cnvXVtgt,
   .cnvXVch, .cnvXVfs, .cnvXDe, .cnvXRot, .cnvXImb, .cnvXOv, .cnvXCmdval, .cnvXEff, .cnvXDuty, .cnvXVcmd,
   .cnvXVrate, .cnvXVref, .cnvXVdone, .cnvBcvRem, .cnvBPh, .cnvAPh]

/-- The registers of block BRN. -/
def regNamesBrn : List RName :=
  [.brnCfg, .brnStagger, .brnOnmask, .brnFencemask, .brnLatchmask, .brnNCfg, .brnNCmd, .brnNStat, .brnNScale,
   .brnNTrip, .brnNLim, .brnNInr, .brnNTmr, .brnNRetry, .brnNGate, .brnNMeas, .brnNIavg, .brnNP, .brnNElo,
   .brnNEhi, .brnNCnt, .brnNThm, .brnNZero]

/-- The registers of block BAT. -/
def regNamesBat : List RName :=
  [.batCfg, .batCmd, .batCmdstat, .batChgStat, .batChgFlt, .batChgVreg, .batChgVphase, .batChgVlim, .batChgVtop,
   .batChgPulse, .batChgTmr, .batTwin, .batTred, .batVcomp, .batPres, .batSwcfg, .batChgIman, .batChgCb,
   .batChgSlot, .batShipCfg, .batShipStat, .batStrCfg, .batStrScale, .batStrIchg, .batStrIlim, .batStrOc,
   .batStrMon, .batStrStat, .batStrFlt, .batStrId, .batStrMeas]

/-- The registers of block EST. -/
def regNamesEst : List RName :=
  [.estCfg, .estCmd, .estCmdstat, .estConf, .estErr, .estZcfg, .estStepcfg, .estCapcfg, .estStorecfg,
   .estStorestat, .estStoreseq, .estShelfSoc, .estShelfCap, .estOcv, .estStrSoc, .estStrConf, .estStrCap,
   .estStrRes, .estStrHlth, .estStrTau, .estStrCnom, .estStrOrigin, .estStrZ, .estMod]

/-- The registers of block PTN. -/
def regNamesPtn : List RName :=
  [.ptnCfg, .ptnCmd, .ptnCmdstat, .ptnStat, .ptnOcc01, .ptnOcc23, .ptnQmax, .ptnCrto, .ptnTelCfg, .ptnTelWr,
   .ptnTelRd, .ptnTelLoad, .ptnTelLost, .ptnOnline, .ptnEfullcnt, .ptnDiscStat, .ptnDisc]

/-- The registers of block TWB. -/
def regNamesTwb : List RName :=
  [.twbCfg, .twbCmdstat, .twbNCfg, .twbNTmo, .twbNCmd, .twbNStat, .twbNCnt0, .twbNCnt1, .twbNCnt2, .twbNCnt3,
   .twbNHail, .twbTgtCfg, .twbTgtStat, .twbTgtWrej, .twbTgtMir]

/-- The registers of block SLK. -/
def regNamesSlk : List RName :=
  [.slkCfg, .slkMaclo, .slkMachi, .slkShelfstat, .slkOffer, .slkOffergen, .slkOffersrc, .slkNCfg, .slkNPlca,
   .slkNErr, .slkNCmd, .slkNStat, .slkNCnt0, .slkNCnt1, .slkNCnt2]

/-- The registers of block HST. -/
def regNamesHst : List RName :=
  [.hstCfg, .hstStat, .hstCnt, .hstAuthHost, .hstAuthSvc, .hstAuthPeer, .hstEauth, .hstMbxHpend, .hstMbxSpend,
   .hstMbxTx, .hstMbxRx, .hstMbxStat]

/-- The registers of block THM. -/
def regNamesThm : List RName :=
  [.thmCfg, .thmClkCfg, .thmClkStat, .thmFuncCfg, .thmFuncMask, .thmFuncRed, .thmSCfg, .thmSNtc, .thmSThr,
   .thmSHyst, .thmSStat]

/-- The registers of block FLT. -/
def regNamesFlt : List RName :=
  [.fltCfg, .fltSum, .fltSwraise, .fltLatch, .fltSrc, .fltFlag]

/-- The registers of block SEC. -/
def regNamesSec : List RName :=
  [.secAlarmCfg, .secAlarmFlg, .secAlarmNow, .secTamperCfg, .secFloodCfg, .secKeystat, .secKeyCtl, .secKeyData,
   .secKeyChk, .secCmdstat]

/-- The registers of block SPL. -/
def regNamesSpl : List RName :=
  [.splCfg, .splCmd, .splCmdstat, .splStat, .splTrig, .splDiv, .splCmp, .splCnt, .splLnkcnt, .splJseq,
   .splPeerid, .splGap]

/-- The registers of block RCD. -/
def regNamesRcd : List RName :=
  [.rcdCfg, .rcdCmd, .rcdCmdstat, .rcdStat, .rcdFirst, .rcdLast, .rcdNext, .rcdLost, .rcdCur, .rcdSeq,
   .rcdSeqchk, .rcdWin, .rcdExpFirst, .rcdExpCnt, .rcdExpIdx, .rcdExpWin, .rcdCapCfg, .rcdCapPace, .rcdCapSrc0,
   .rcdCapSrc1, .rcdCapStat, .rcdCapSel, .rcdCapData]

/-- The registers of block UPD. -/
def regNamesUpd : List RName :=
  [.updCfg, .updCmd, .updCmdstat, .updStat, .updActVer, .updActBver, .updActDig, .updStgVer, .updStgBver,
   .updStgDig, .updRolVer, .updRolBver, .updRolDig, .updConfLeft, .updCopy, .updSvcCfg, .updSvcStat,
   .updSvcCnt0, .updSvcCnt1]

/-- The registers of block EVT. -/
def regNamesEvt : List RName :=
  [.evtSwset, .evtPend, .evtDsum, .evtRoute]

/-- The registers whose addresses lie in the 64 KB region with the given number (address ÷ 0x1_0000). -/
def regNames : Nat → List RName
  | 0x00 => regNamesSys
  | 0x01 => regNamesPwrm ++ regNamesPol
  | 0x02 => regNamesSeq
  | 0x03 => regNamesLay
  | 0x04 => regNamesCle
  | 0x05 => regNamesAcq
  | 0x06 => regNamesCnv
  | 0x07 => regNamesBrn
  | 0x08 => regNamesBat
  | 0x09 => regNamesEst
  | 0x0A => regNamesPtn
  | 0x0B => regNamesTwb
  | 0x0C => regNamesSlk
  | 0x0D => regNamesHst
  | 0x0E => regNamesThm
  | 0x0F => regNamesFlt
  | 0x10 => regNamesSec
  | 0x11 => regNamesSpl
  | 0x12 => regNamesRcd
  | 0x13 => regNamesUpd
  | 0x14 => regNamesEvt
  | _ => []

/-- The index of a register at an address, if the address is one of its instances. -/
def RegRow.index (row : RegRow) (addr : Nat) : Option Nat :=
  let off := addr - row.base
  let i := off / row.stride
  let j := off % row.stride / row.stride2
  if addr < row.base then none
  else if row.count2 ≤ 1 then
    if off % row.stride = 0 ∧ i < row.count then some i else none
  else if off % row.stride % row.stride2 = 0 ∧ i < row.count ∧ j < row.count2 then some (i * row.count2 + j)
  else none

/-- The register at an address of a block region (R652), with its index. -/
def decodeReg (addr : Nat) : Option (RName × Nat) :=
  (regNames (addr / 0x10000)).findSome? (fun r => (r.row.index addr).map (fun i => (r, i)))

/-- The address of a register. -/
def RName.addr (r : RName) (i : Nat) : Nat :=
  let row := r.row
  row.base + row.stride * (i / row.count2) + row.stride2 * (i % row.count2)

/-- The number of instances of a register. -/
def RName.instances (r : RName) : Nat := r.row.count * r.row.count2

/-- The default severity of each fault source (R541, column Default). -/
def sevDefault (s : Nat) : Nat :=
  if s ≤ 2 then 2
  else if s = 5 then 0
  else if s = 6 then 2
  else if s = 18 then 2
  else if 19 ≤ s ∧ s ≤ 22 then 2
  else if 23 ≤ s ∧ s ≤ 30 then 3
  else if s = 32 then 0
  else if s = 43 ∨ s = 53 then 3
  else if s = 49 ∨ s = 50 ∨ s = 59 ∨ s = 60 then 2
  else if s = 67 then 3
  else if s = 68 then 2
  else if s = 73 ∨ s = 74 then 2
  else if s = 80 then 2
  else if s = 90 then 0
  else if s = 113 then 2
  else if 115 ≤ s ∧ s ≤ 118 then 2
  else 1

/-- The reset value of a register instance (R653, R667). -/
def resetWord : RName × Nat → Word
  | (.fltSrc, s) => wd (sevDefault s)
  | (.thmSThr, k) => if k < 16 then 0x005F5046 else 0x00786E69
  | (.thmSCfg, k) => if k < 16 then 0x00000800 else 0x00000803
  | (r, i) => wd (if i = 0 then r.row.reset else r.row.rest)

/-- The order of the register file's keys: by name, then by index. -/
def ltReg (a b : RName × Nat) : Bool := ltNN (a.1.ctorIdx, a.2) (b.1.ctorIdx, b.2)

end Sys2Proof.Machine
end

