-- ==== Sys2Proof/Machine/Chip.lean ====
section
/-!
DEFINITION. The chip as plain data: every register (in one register file keyed by name and index), memory window,
queue, counter, mode and pin the spec gives the part. Registers that only report the state of a unit are computed from it where they are read
(the read functions of each block) and are not stored twice.
-/

namespace Sys2Proof.Machine

/-- The base states of the mode table (R46), with their mode codes. -/
inductive Base where
  | off | ship | boot | standby | shadow | source | holdup | capped
  deriving DecidableEq, Repr

/-- The code of a base state (chapter Supplies, table of operating modes). -/
def Base.code : Base → Nat
  | .off => 0 | .ship => 1 | .boot => 2 | .standby => 3
  | .shadow => 4 | .source => 5 | .holdup => 6 | .capped => 7

/-- The four states of a power domain (R50). -/
inductive DomState where
  | off | sleep | gated | on
  deriving DecidableEq, Repr

/-- A port access held while its power domain wakes (R35). -/
structure Held where
  ag : Agent
  write : Bool
  addr : Nat
  data : Word
  dst : Nat
  deriving DecidableEq, Repr

/-- Supplies, clocks, resets and modes (PWRM). -/
structure Pwr where
  /-- Base state of the mode table (R46). -/
  base : Base
  /-- COND_SAFE, COND_SVC and COND_DEGR (R42); COND_LOCK is held in MRAM (`Nvm.lock`). -/
  condSafe : Bool
  condSvc : Bool
  condDegr : Bool
  /-- PWRM_SAFE [2:0] as the last SAFE reaction applied it: BCV, AXC, SEQ (R44, R47, R703). -/
  safeWord : Nat
  /-- The ROLE strap as sampled: true for secondary (R62, R576). -/
  role : Bool
  /-- The REFSEL strap as sampled (R62). -/
  refsel : Bool
  /-- PWRM_RSTCAUSE.CAUSE (R60). -/
  cause : Nat
  /-- Power domains not in the state that R51 gives for the mode (a woken domain). -/
  awake : NTab Bool
  /-- Accesses held for a wake, oldest first (R35). -/
  held : List Held
  /-- XT32 good, running from LFRC, reference good, PLL locked, running from the wake RC (PWRM_CLKSTAT). -/
  xtGood : Bool
  lfrc : Bool
  refGood : Bool
  pll : Bool
  refrc : Bool
  /-- The early collapse detector has fired and not re-armed (R56, R58). -/
  ecdFired : Bool
  /-- An AUTOSTART decision is outstanding (R269). -/
  autoPend : Bool
  /-- The stamp of the entry from BOOT that the decision waits from. -/
  autoAt : Nat
  /-- When the operating seconds were last committed (R70). -/
  opsecAt : Nat
  /-- VKEEP was lost since the last boot: the operating seconds come from their last commit (R70). -/
  vkeepLost : Bool
  /-- The recovery loader runs: no verifiable image (R68). -/
  recovery : Bool
  /-- In SHIP, a supply other than VKEEP is below its threshold, and a wake is held for it (R683): none, the button's 1 or
  SHIP_SRC's 2, as BAT_SHIP_STAT.WAKEBY codes them. -/
  supLow : Bool
  wakeDue : Nat
  deriving DecidableEq, Repr

/-- A copy of the parameter list (R663): its sequence number, its owner (1 host, 2 service), its entries of address and value in order,
its CRC, and its commit word. -/
structure ParamCopy where
  seq : Nat
  owner : Nat
  entries : List (Nat × Word)
  crc : Word
  commit : Nat
  deriving DecidableEq, Repr

/-- What MRAM holds outside the recorder and the learned values: boot configuration, keys, persistent
parameters, counts (R10, R45, R59). -/
structure Nvm where
  /-- COND_LOCK (R45). -/
  lock : Bool
  /-- The power-cycle count (R69). -/
  pcc : Nat
  /-- The operating seconds last committed (R70). -/
  opsec : Nat
  /-- The three key slots (R570): none while empty. -/
  key0 : Option (List Word)
  key1 : Option (List Word)
  key2 : Option (List Word)
  /-- The erase-pending marker (R569). -/
  erasing : Bool
  /-- The two alternating copies of the parameter list (R663). -/
  paramA : ParamCopy
  paramB : ParamCopy
  deriving DecidableEq, Repr

/-- The shelf rail sequencer's states (R80). -/
inductive SeqSt where
  | off | up | on | down | halted
  deriving DecidableEq, Repr

/-- What a step of the sequencer waits for (R71, R77, R81). -/
inductive SeqWait where
  | none | good | delay | disch | release | downDisch | restDisch | retryDisch | retryDelay
  deriving DecidableEq, Repr

/-- The shelf rail sequencer (R71 to R87). -/
structure Seq where
  st : SeqSt
  /-- The present step, the on request, and the retries used at the step. -/
  step : Nat
  req : Bool
  retry : Nat
  wait : SeqWait
  /-- Rails whose SEQ_EN is asserted, and reset outputs that are high. -/
  en : Nat
  rst : Nat
  /-- Rails whose ENABLE step has run and that the reverse walk has not yet turned off (R81). -/
  enabled : Nat
  /-- Reset outputs whose release step has run (R83). -/
  released : Nat
  /-- SEQ_PG input levels, before PGPOL. -/
  pg : Nat
  /-- Stamps of the PG transitions of the present WAIT_GOOD step, newest first (R76). -/
  edges : List Nat
  /-- The rail or the reset output that the present step waits for. -/
  wrail : Nat
  /-- When the present step began, and when its PG last changed (R75). -/
  stepAt : Nat
  qualAt : Nat
  /-- When each rail's PG last became active or inactive (R79), and when the rails of each reset output last became good with its
  release step run (R83). -/
  pgAt : NTab Nat
  goodAt : NTab Nat
  /-- First step walked, first fault code and rail of the present sequence (R86). -/
  first : Nat
  result : Nat
  rail : Nat
  /-- The last 64 step completions, newest first: SEQ_TRACE_n and SEQ_TRACE_n_T (R85). -/
  trace : List (Word × Word)
  deriving DecidableEq, Repr

/-- One fence or latch-off: the source that caused it, and whether that source's flag has been read since (R550). -/
structure Fence where
  src : Nat
  read : Bool
  deriving DecidableEq, Repr

/-- An occurrence whose record is not yet readable or whose event is not yet delivered (R549). -/
structure Deliv where
  src : Nat
  /-- The occurrence raised LSEV to WARN or above (R552). -/
  err : Bool
  deriving DecidableEq, Repr

/-- The fault collector (R540 to R558); latches are FLT_FLAGs in the register file. -/
structure Flt where
  /-- When each source's last record was raised, plus 1 (0: none since its flag was last clear, R551). -/
  last : NTab Nat
  /-- Sources whose latched LSEV holds ERR_N low (R552). -/
  err : NTab Bool
  /-- Fenced or latched-off units, by scope and instance (R546, R550). -/
  fences : Tab (Nat × Nat) Fence
  /-- The last missing heartbeat that was raised (R23). -/
  hbAt : Nat
  deriving DecidableEq, Repr

/-- The security block (R566 to R572). -/
structure Sec where
  /-- Alarm conditions present (SEC_ALARM_NOW). -/
  now : Nat
  /-- An open key provisioning: slot and the words that have arrived (R571). -/
  prov : Option (Nat × List Word)
  /-- Counts of the present EAUTH and framing windows per port, their starts, and alarms already raised (R566). -/
  eauthHost : Nat
  eauthSvc : Nat
  eauthPeer : Nat
  eauthAt : Nat
  frames : Nat
  framesAt : Nat
  /-- The floods already raised in their present windows: ports 0 to 2, and bit 3 for framing. -/
  hit : Nat
  /-- When tamper input k was last found away from its alarm level, or its settings written (R566). -/
  quietAt : NTab Nat
  /-- An ERASE response waits for the collapse detector to re-arm (R58, R569). -/
  eraseDue : Bool
  deriving DecidableEq, Repr

/-- A record before it has a number (R602, R603): PCC and OPSEC are taken at the write. -/
structure Rec where
  kind : Nat
  source : Nat
  code : Nat
  inst : Nat
  sev : Nat
  stamp : Nat
  payload : List Word
  deriving DecidableEq, Repr

/-- A record waiting in the queue of 256 (R604), with the delivery that waits for it. -/
structure QRec where
  rcd : Rec
  deliv : Option Deliv
  deriving DecidableEq, Repr

/-- A slot of the recorder partition (R604): empty, a valid record, an abandoned write, or a slot whose
readback failed (R609). -/
inductive RSlot where
  | empty
  | record (ws : List Word)
  | partialWrite (seq : Nat)
  | bad
  deriving DecidableEq, Repr

/-- A capture unit's states (R618). -/
inductive CapSt where
  | idle | filling | armed | post | commit | done
  deriving DecidableEq, Repr

/-- One waveform capture unit (R616 to R621). -/
structure Cap where
  st : CapSt
  valid : Bool
  /-- Samples taken before the trigger, newest first, each a list of eight channel codes. -/
  pre : List (List Nat)
  /-- Samples taken after the trigger, newest first. -/
  post : List (List Nat)
  preValid : Nat
  missed : Nat
  stamp : Nat
  /-- Channel 0 results counted toward DECIM. -/
  dec : Nat
  /-- The committed samples of the unit in the capture partition, oldest first, eight codes each. -/
  stored : List (List Nat)
  /-- A commit was abandoned by the early collapse detector (R700, R620). -/
  torn : Bool
  /-- The interval of the samples in 5 ns units (R620), and the CAPTURE record waits to be written (R618). -/
  step : Nat
  sent : Bool
  deriving DecidableEq, Repr

/-- The event recorder (R602 to R624). -/
structure Rcd where
  queue : List QRec
  /-- GAP records that are written before the queue (R606, R608, R609, R700, R701). -/
  urgent : List QRec
  /-- The record write under way: slot, number and record. -/
  writing : Option (Nat × Nat × QRec)
  slots : NTab RSlot
  /-- The next slot to write and the next number. -/
  pos : Nat
  next : Nat
  wrapped : Bool
  /-- Records refused since the last GAP LOST (R606), and records discarded at a warm reset (R701). -/
  refused : Nat
  discarded : Nat
  /-- Occurrences whose record is readable and whose event is not yet delivered (R549 step 4). -/
  deliver : List Deliv
  /-- The clear under way, held by its marker (R613): lowest and highest numbers, next number, CAP. -/
  clear : Option (Nat × Nat × Bool)
  /-- The export buffer: bank, records, trailer; and an export under way (R614). -/
  expBank : Nat
  expBuf : List (List Word)
  expTrailer : List Word
  expRun : Bool
  caps : NTab Cap
  /-- Raises of armed sources that no unit has been triggered by yet: source and stamp (R619). -/
  trig : List (Nat × Nat)
  /-- The boot scan has run (R608). -/
  scanned : Bool
  deriving DecidableEq, Repr

/-- The host port and the mailboxes (R486 to R505). -/
structure Hst where
  /-- Quad width in use on the pins (R487). -/
  quad : Bool
  /-- The last READ response: status, address, data (R488). -/
  lastRead : Option (Status × Nat × Word)
  /-- The response bytes of the last host frame, from the start byte onward, empty if none was driven. -/
  resp : List Nat
  /-- The 64 AB queues and the 64 BA queues (R497), oldest first. -/
  ab : NTab (List Word)
  ba : NTab (List Word)
  /-- When the words of a queue arrived, by 2 × channel + 1 for AB (R505). -/
  arrived : NTab (List Nat)
  /-- Doorbells rung to a pair and not yet taken (R501): bit 0 pair A, bit 1 pair B. -/
  bell : Nat
  deriving DecidableEq, Repr

/-- The system block: lock and parameter list (R657, R664). -/
structure Sys where
  /-- SYS_LOCK.LOCKED, in AON retention. -/
  locked : Bool
  /-- The open parameter list: port and entries, newest first. -/
  list : Option (Nat × List (Nat × Word))
  /-- Status of the last parameter operation, and entries rejected at the last application. -/
  stat : Nat
  fails : Nat
  /-- SYS_BOOT fields: last step, staging copy ran, rollback ran, boot time in ms. -/
  bootStep : Nat
  bootCopy : Bool
  bootRoll : Bool
  bootMs : Nat
  /-- SYS_USECHI as latched for each bank (R661). -/
  usecHi : NTab Nat
  deriving DecidableEq, Repr

/-- The strand states (R94). -/
inductive StrSt where
  | free | ready | running | waiting | halted | fenced
  deriving DecidableEq, Repr

/-- What a WAITING strand waits for (R106), or a held device access. -/
inductive WaitOn where
  | delay
  | tick (dst : Nat)
  | line (k : Nat) (count : Word) (dst : Nat)
  | token (tok : Word) (dst : Nat)
  | mbox (ch : Nat) (dst : Nat)
  | access
  deriving DecidableEq, Repr

/-- A token entry of a strand (R91, R111 to R113). -/
structure Tok where
  used : Bool
  /-- Dropped or freed while its transaction was outstanding: the result is discarded. -/
  dropped : Bool
  serial : Nat
  done : Option (Status × Word)
  deriving DecidableEq, Repr

/-- What a command or a fence, with its source, does to a strand once its held access has completed (R99). -/
inductive HeldCmd where
  | halt | free
  | fence (src : Nat)
  deriving DecidableEq, Repr

/-- One strand context (R91, R137). -/
structure Strand where
  st : StrSt
  owner : Owner
  group : Nat
  prio : Nat
  /-- The priority it was dispatched with: a write of PRIO takes effect at the next dispatch (R137). -/
  runPrio : Nat
  why : Nat
  /-- The context is allocated to a loaded bundle (R94, R134). -/
  alloc : Bool
  regs : NTab Word
  z : Bool
  n : Bool
  c : Bool
  v : Bool
  /-- Byte offset of the next instruction in the program store. -/
  pc : Nat
  /-- The 64 words of the local store. -/
  locals : NTab Word
  /-- The timer: period in µs (0 stopped), a pending tick, missed ticks. -/
  period : Nat
  /-- When the timer was armed or last ticked. -/
  timerAt : Nat
  tick : Bool
  missed : Nat
  toks : NTab Tok
  /-- Instructions issued in the present activation. -/
  act : Nat
  /-- The present activation goes on after a preemption, a slice end or a held access (R94, R120). -/
  keep : Bool
  /-- Instructions issued since dispatch (R96). -/
  slice : Nat
  wait : Option WaitOn
  /-- The timeout of the wait in µs, 0 for none, and the time it began. -/
  timeout : Nat
  waitAt : Nat
  /-- What has arrived while the strand waited on a held access, oldest first (R99). -/
  after : List HeldCmd
  /-- Bits [39:32] of the stamp as this strand's last sysr 0x04 latched them (R150). -/
  usecHi : Nat
  deriving DecidableEq, Repr

/-- An open bundle load (R130): the port and its words, newest first. -/
structure Load where
  port : Owner
  words : List Word
  deriving DecidableEq, Repr

/-- The lay engine (R91 to R139). -/
structure Lay where
  strands : NTab Strand
  /-- READY strands in queue order, front first (R95, R96). -/
  queue : List Nat
  /-- The program store, by word index from 0x60_0000. -/
  prog : NTab Word
  /-- The commons, by word index from 0x68_0000. -/
  commons : NTab Word
  load : Option Load
  bldStat : Nat
  bldCount : Nat
  /-- Record allowance used per owner, in µs of the average rate, and the time it was last updated (R127). -/
  recUsed : NTab Nat
  recAt : NTab Nat
  deriving DecidableEq, Repr

/-- The branch states (R358). -/
inductive BrnSt where
  | off | inrush | on | tripped | latched | fenced
  deriving DecidableEq, Repr

/-- One branch channel (R345 to R370). -/
structure Branch where
  st : BrnSt
  retry : Nat
  cause : Nat
  /-- The active limit is acting (R368). -/
  limit : Bool
  /-- GFBn pin level, before GFBPOL. -/
  gfb : Bool
  /-- The CLE slot bound to the limit and its latest value in per-unit of IFS, Q8.24: none before its first sample since it was bound
  (R356, R365). -/
  bound : Option Nat
  loopVal : Option Int
  /-- When the present state was entered. -/
  since : Nat
  /-- The energy accumulator in units of 1/(1250 × 2^31) µJ, one product of the two codes and the two scales, so that no
  residue is lost (R351). -/
  energy : Int
  /-- BRN_n_EHI as latched. -/
  ehi : Nat
  /-- BRANCH_PASS_SHORT has been raised for the present excursion (R361). -/
  short : Bool
  /-- Sums over the present averaging window: samples, current, voltage, and products of codes and scales (R353). -/
  cnt : Nat
  sumI : Int
  sumV : Nat
  sumP : Int
  /-- Turned off by shedding and not yet restored (R285). -/
  shed : Bool
  /-- Raw current codes of the last 100 ms in which auto-zero's conditions held, newest first (R350). -/
  azHist : List Int
  /-- When the active limit last began or ceased to act, when GENn last changed (0: never), and when GFBn last changed (R358, R360). -/
  limAt : Nat
  genAt : Nat
  gfbAt : Nat
  /-- GATE_FAIL has been raised for the last fall of GENn (R360). -/
  fallRaised : Bool
  /-- Since when |I| has been above OFFLEAK with the gate off (R361). -/
  leakAt : Option Nat
  /-- When the last meter sample was taken and the present averaging window began (R349, R353). -/
  metAt : Nat
  avgAt : Nat
  /-- Words that registers written since the last meter sample held before: these stay in effect until the next one (R367). -/
  held : List (RName × Word)
  deriving DecidableEq, Repr

/-- The branch block. -/
structure Brn where
  ch : NTab Branch
  /-- Branches still to be turned on by the AUTOON walk (R362). -/
  auto : List Nat
  /-- The branch that the AUTOON walk turned on last, and when it left INRUSH (R362). -/
  autoCur : Option Nat
  autoLeft : Option Nat
  /-- Words that BRN_CFG and BRN_STAGGER held at the last meter sample, where they have been written since (R367). -/
  held : List (RName × Word)
  deriving DecidableEq, Repr

/-- The stage states (R315). -/
inductive StageSt where
  | stopped | softstart | run | stopping | hiccup | fenced
  deriving DecidableEq, Repr

/-- What a phase drives its period by: the duty, CNV_x_DT and CNV_x_DLIM, as its last period start took them (R302, R304). -/
structure Drive where
  duty : Int
  dt : Word
  dlim : Word
  deriving DecidableEq, Repr

/-- One phase of a converter stage. -/
structure Phase where
  /-- Fenced (R334); out of the active set until a START after UNFENCE_PH. -/
  fenced : Bool
  de : Bool
  /-- PHk.FAST; the fast limit has acted in the present period, so that the active switch, the high side's or not, is off for its rest
  (R312). -/
  fast : Bool
  fastNow : Bool
  fastHi : Bool
  slot : Nat
  /-- IAVG of the last window, in 0.1 A (CNV_x_PHk), the sum over the present window in 1/2048 of IFS, and the consecutive windows
  beyond IMBTHR (R306). -/
  iavg : Int
  sum : Int
  imb : Nat
  /-- Consecutive periods that qualify a diode-emulation entry or exit (R310). -/
  deCnt : Nat
  /-- A zero crossing in the present period, and in the last; the zero comparator's state (R309, R320). -/
  zx : Bool
  zxLast : Bool
  zc : Bool
  /-- Periods left of a short-circuit turn-off, one more than they are: 1 when they have passed (R313). -/
  scOff : Nat
  /-- What the phase drives, and whether it has started its period since the last stage boundary (R302). -/
  drv : Drive
  took : Bool
  /-- By how much the present period is lengthened, in 2^-16 of a tick (R305, R334), and whether by a rotation. -/
  ext : Nat
  turning : Bool
  deriving DecidableEq, Repr

/-- One converter stage (R297 to R344). -/
structure Conv where
  st : StageSt
  retry : Nat
  ckpt : Nat
  phases : NTab Phase
  /-- Phases in the active set, as a mask. -/
  active : Nat
  /-- The CLE slot bound to the stage and whether its kind is duty (R299). -/
  bound : Option Nat
  loopDuty : Bool
  loopVal : Int
  /-- The effective command, the duty and the regulator's integral, Q8.24 (R307). -/
  eff : Int
  duty : Int
  integ : Int
  /-- The active phases' average currents as their sum at the last boundary, in per-unit of IRATED, Q8.24 (R307, R325). -/
  meas : Int
  /-- The command kind in use: true for duty (R300). -/
  kindDuty : Bool
  limited : Bool
  /-- The fast limit has acted since the last stage boundary (R317). -/
  fastHit : Bool
  /-- The slow limit acts, since when, and whether CNV_OVERLOAD has been raised for it (R314). -/
  slowcl : Bool
  slowAt : Nat
  overload : Bool
  /-- Consecutive limited periods (R317), and those of them in RUN with a low check side (R318). -/
  limCnt : Nat
  shCnt : Nat
  /-- Locked to SYNCIN; boundaries with an edge error below 10 ns; SYNCIN is followed (R327, R328). -/
  synclk : Bool
  lockCnt : Nat
  track : Bool
  /-- A START of a mode action waits for STOPPED (R322). -/
  pendStart : Bool
  /-- The effective command and D are frozen by SAFE (R337). -/
  frozen : Bool
  /-- The period in use and the length of the present one, in 2^-16 of a tick of 1.25 ns (R304, R327); when the period was last moved
  outside boundaries; and the last stage boundary in the same unit since the power cycle began. -/
  period : Nat
  len : Nat
  perAt : Nat
  bndAt : Nat
  since : Nat
  /-- When a quick stop began, and whether the effective command was positive then (R321). -/
  quickAt : Option Nat
  quickPos : Bool
  /-- The imbalance window: its start, its periods, and whether a phase was in diode emulation in it (R306). -/
  winAt : Nat
  winCnt : Nat
  winDe : Bool
  /-- LO at the boundaries of the last 10 ms, with their stamps, oldest first (R325). -/
  loHist : List (Nat × Int)
  /-- The outstanding voltage command's TAG and slot (R324), and the CNV_x_VDONE entries, oldest first. -/
  vtag : Option Nat
  vcSlot : Nat
  vdone : List Word
  /-- Stage periods since the last rotation (R305). -/
  rot : Nat
  deriving DecidableEq, Repr

/-- One tone of the perturbation (R330 to R332): the TONE value in use, where its phase is 0, the half turns it had passed at the last
boundary, and whether it is injected. -/
structure Tone where
  w : Word
  t0 : Nat
  half : Nat
  run : Bool
  deriving DecidableEq, Repr

/-- The converter block. -/
structure Cnv where
  stages : NTab Conv
  tones : NTab Tone
  /-- SYNCIN edges are present, the last measured sync period in ticks (CNV_SYNCSTAT), and the last edge that was not ignored, in ticks
  since the power cycle began (R327, R328). -/
  syncSeen : Bool
  syncPer : Nat
  edgeAt : Nat
  /-- When the BCV declared a battery removal that BAT has not yet settled, and whether BAT has found a string for it (R325, R377). -/
  removed : Option Nat
  remFound : Bool
  deriving DecidableEq, Repr

/-- What a running converter scans with, as taken at its last scan boundary (R166, R167); of an interleaved pair, its one channel and the
pair's DIV (R170). -/
structure ConvUse where
  mask : Nat
  div : Nat
  /-- Its next channel is the lowest masked one from here on; where there is none it stands at its scan boundary (R166), or, in an
  interleaved pair, the other converter has the turn (R170). -/
  pos : Nat
  /-- RUN has been written 0: the present conversion is still to end (R167). -/
  ending : Bool
  deriving DecidableEq, Repr

/-- A window comparator (R186, R187): 0 MID, 1 LOW, 2 HIGH; the candidate and its count of consecutive results. -/
structure Wcmp where
  st : Nat
  cand : Nat
  cnt : Nat
  deriving DecidableEq, Repr

/-- The states of the sag and swell detectors (R197). -/
inductive AcmSt where
  | idle | onset | confirmed
  deriving DecidableEq, Repr

/-- What a detector has counted over consecutive scans (R197): deviating, not deviating, VEQ beyond THR, and since when VEQ has stayed
restored. -/
structure AcmDet where
  dev : Nat
  clean : Nat
  conf : Nat
  restored : Option Nat
  /-- VEQ was beyond THR in the last scan, and the phases that deviated in it. -/
  beyond : Bool
  phases : Nat
  deriving DecidableEq, Repr

/-- A scan of the AC monitor: its stamp, and the sum of the squares of its phases (R195). -/
structure AcmScan where
  stamp : Nat
  sq : Nat
  deriving DecidableEq, Repr

/-- The reference tracker (R191 to R196). -/
structure AcmTrack where
  /-- θ in 10^-9 turn at `thetaAt`, and the frequency it advances at, in mHz. -/
  theta : Nat
  thetaAt : Nat
  freq : Nat
  /-- The amplitudes A_k at `ampAt`, in units of 2^-16 code. -/
  amp : NTab Nat
  ampAt : Nat
  /-- For each phase the half cycle of its reference, the sum of the squares in it and their count (R196). -/
  half : NTab Nat
  sum : NTab Nat
  cnt : NTab Nat
  deriving DecidableEq, Repr

/-- Acquisition and the AC monitor (R163 to R204). -/
structure Acq where
  inUse : NTab ConvUse
  /-- The result queue, oldest first, two words each (R177). -/
  queue : List (Word × Word)
  /-- Channels whose gap flag is pending (R180). -/
  gaps : NTab Bool
  /-- ACQ_QOVF has been raised since the queue was last below full (R181). -/
  ovf : Bool
  /-- The pair under calibration (R174). -/
  cal : Option Nat
  wc : NTab Wcmp
  /-- Converters that have not passed a scan boundary since the last LEVEL write, as a mask (R200). -/
  toPass : Nat
  lock : Bool
  frozen : Bool
  sag : AcmSt
  swell : AcmSt
  /-- ENDQ has elapsed and LOCK is awaited (R197). -/
  sagEnds : Bool
  swellEnds : Bool
  onsetPh : Nat
  rateBad : Nat
  /-- Recent scans of the AC monitor, newest first (R195), what its detectors have counted, and its tracker. -/
  scans : List AcmScan
  sagDet : AcmDet
  swellDet : AcmDet
  track : AcmTrack
  /-- Of each interleaved pair, the sample pairs since the last comparison and what the second converter's results exceed the first's by
  (R175). -/
  pairs : NTab (Nat × Int)
  /-- The last eight results of each channel since its converter started, newest first (R226). -/
  hist : NTab (List Nat)
  deriving DecidableEq, Repr

/-- The states of a loop slot (R214, R218). -/
inductive SlotSt where
  | stopped | armed | fenced
  deriving DecidableEq, Repr

/-- What a slot does once its running sample has finished (R218). -/
inductive SlotAfter where
  | none | stop | fence
  deriving DecidableEq, Repr

/-- The PREDICT states (R242). -/
inductive PredSt where
  | idle | tentative | final | retracting
  deriving DecidableEq, Repr

/-- The detector events a PREDICT block acts on (R242). -/
inductive PredEv where
  | onset | confirm | cancel | ends
  deriving DecidableEq, Repr

/-- A sample under way: its trigger stamp, what it latched (R226) and the words that act on the next sample only. -/
structure Sample where
  trig : Nat
  /-- Two latched sources for each block, Q8.24, with the mark that one saturated on the way in (R208): the SRC word and the block's
  second source. -/
  latch : List (Int × Bool)
  omode : Nat
  manout : Int
  events : List (PredEv × Nat)
  deriving DecidableEq, Repr

/-- What a PLANT block keeps beside its words (R238, R239): the REACT in force (0 none), the samples in the band since, and whether
PLAUSIBILITY has been raised for the present excursion. -/
structure Plant where
  react : Nat
  inBand : Nat
  raised : Bool
  deriving DecidableEq, Repr

/-- One loop slot beside its words (R211 to R250). -/
structure Slot where
  st : SlotSt
  /-- The pending sample's trigger stamp, and the running sample (R224). -/
  pend : Option Nat
  run : Option Sample
  after : SlotAfter
  /-- Blocks with staged words written since their commit, and with a commit pending (R214). -/
  dirty : Nat
  cpend : Nat
  /-- TRIG as it took effect at RUN (R211). -/
  trig : Word
  /-- Converter boundaries since its last trigger (R223, TKIND 0x4). -/
  occ : Nat
  /-- Its PLANT blocks, by block (R238, R239). -/
  plants : NTab Plant
  satLo : Bool
  satHi : Bool
  /-- LOOP_OUTPUT has been raised in the present episode; a submission refused with EFULL is tried again (R247). -/
  outRaised : Bool
  resubmit : Bool
  /-- The target has been reported reached (R228). -/
  spDone : Bool
  /-- No sample has completed since RUN (R221). -/
  first : Bool
  /-- SPSLEW was not 0 at RUN: SPACT starts at block 0's first output (R221). -/
  spRamp : Bool
  lastAt : Nat
  /-- The nominal rate fixed at RUN, in Hz as a fraction (R223), and the admitted load in 0.01 % (R230). -/
  rateN : Nat
  rateD : Nat
  load : Nat
  /-- Which item of R222 wrote last, and whether the value is still moving to it. -/
  choice : Nat
  slewing : Bool
  /-- Samples since the last partner submission, and the generation carried then (R247). -/
  sinceSub : Nat
  carried : Nat
  /-- Whether the LIMIT that the PID looks at lowered (1) or raised (2) its input in the last sample (R237). -/
  limMove : Nat
  /-- Outputs of the blocks in the last sample (R216, KIND 0x2). -/
  ys : List Int
  /-- PREDICT: state, the tentative generation, detector events not yet taken, the full onset stamp, the cause (1 window). -/
  pstate : PredSt
  tgen : Nat
  events : List (PredEv × Nat)
  onsetAt : Nat
  cause : Nat
  deriving DecidableEq, Repr

/-- The control loop engine (R205 to R252). -/
structure Cle where
  slots : NTab Slot
  /-- Loop memory as read, by word 256 s + w (R211): header words, staged block words and STATE words. -/
  mem : NTab Word
  /-- The active copies of DESC, SRC and PARAM, and the commit buffer (R215, R232), under the same word numbers. -/
  active : NTab Word
  buffer : NTab Word
  /-- Completed samples of the last 10 ms: stamp and cycles (CLE_LOAD.MEAS). -/
  cost : List (Nat × Nat)
  /-- Slots held by the library (R252), as a mask. -/
  lib : Nat
  deriving DecidableEq, Repr

/-- What a transaction asks of its partner (R433, R440, R441, R456). -/
inductive TxKind where
  | read | write | cmd | blkr | blkw | setp | final | retract | restore | keep | poll
  deriving DecidableEq, Repr

/-- Who issued a transaction. -/
inductive Issuer where
  | strand (k e : Nat)
  | slot (s : Nat)
  | lib
  /-- A strand that has dropped its token: the result is discarded (R113). -/
  | dropped
  deriving DecidableEq, Repr

/-- One part of a share group's transaction (R444): a frame on segment `path` − 16 (entry 0) or a member's write. -/
structure Leg where
  path : Nat
  entry : Nat
  active : Bool
  done : Bool
  ok : Bool
  arbs : Nat
  /-- Retries that the member's entry still allows its write (R434, R465). -/
  retries : Nat
  deriving DecidableEq, Repr

/-- An outstanding transaction (R433 to R439). -/
structure Txn where
  id : Nat
  entry : Nat
  item : Nat
  cls : Nat
  kind : TxKind
  by_ : Issuer
  data : Nat
  desc : Word
  gen : Nat
  /-- The slot and its tentative generation T (R440). -/
  tent : Option (Nat × Nat)
  issued : Nat
  /-- When it reached its entry's head, from which TMO runs (R437). -/
  headAt : Option Nat
  /-- A restore that goes before any other transaction to the entries of its path (R456). -/
  first : Bool
  retries : Nat
  arbs : Nat
  /-- On the wire now, and started at least once. -/
  wire : Bool
  started : Bool
  tag : Nat
  /-- Held by R446. -/
  held : Bool
  legs : List Leg
  /-- Its status, once decided, while it waits for its place in the order (R438, R443). -/
  early : Option (Status × Nat)
  deriving DecidableEq, Repr

/-- A generation that PTN assigned for an entry while a slot's T was tentative (R440). -/
structure GenRec where
  gen : Nat
  slot : Nat
  t : Nat
  value : Nat
  /-- The paths it was sent on, as owed restores name them, and completed OK. -/
  sent : List Nat
  ok : Bool
  deriving DecidableEq, Repr

/-- The states of a partner entry (R453). -/
inductive EntSt where
  | empty | unknown | online | offline | fenced
  deriving DecidableEq, Repr

/-- What PTN keeps for an entry beside words 0 to 4 of the table (R427, R452, R453). -/
structure Ent where
  st : EntSt
  fails : Nat
  tlost : Nat
  /-- Polls lost since the previous ring entry (R449). -/
  lostSince : Nat
  lib : Bool
  genl : Nat
  genf : Nat
  genv : Nat
  gens : List GenRec
  /-- Owed restores: path and highest retracted generation sent on it (R442). A path is a bus 0 to 15, 16 + segment, or for a group's
  two-wire member 32 + its entry. -/
  owes : List (Nat × Nat)
  /-- Link credits of the four classes (R452). -/
  cr : List Nat
  /-- The class whose credit the head transaction waits for, since when, and whether PTN_CREDIT_STALL has been raised for it (R452). -/
  stall : Option (Nat × Nat × Bool)
  /-- When its next poll falls due (R447). -/
  pollAt : Nat
  /-- Last RATED_I and STATUS read. -/
  rated : Nat
  status : Nat
  deriving DecidableEq, Repr

/-- The partner block (R427 to R460). -/
structure Ptn where
  /-- Words 0 to 4 of the entries, by 8 e + w. -/
  table : NTab Word
  ents : NTab Ent
  /-- Outstanding transactions in issue order. -/
  pool : List Txn
  nextId : Nat
  /-- PTN's own transactions that wait for a place in the pool, oldest first (R436). -/
  wait : List Txn
  /-- The telemetry ring's words (R449), and PTN_TELFULL raised since it was last below 12,288 (R451). -/
  ring : NTab Word
  telRaised : Bool
  disc : List Word
  /-- The discovery that runs: KIND, BUS, MUXEN, MUXCH as PTN_CMD holds them (R454). -/
  discRun : Option Word
  /-- Its time of issue, the address its next two-wire probe goes to at the earliest, that probe's losses of arbitration, and when its
  identity request was sent (R454). -/
  discAt : Nat
  discNext : Nat
  discArbs : Nat
  idAt : Option Nat
  /-- Frames with a generation are held after a gate opening (R446): for rectifiers and groups, for neighbours. -/
  holdRect : Bool
  holdShelf : Bool
  /-- When the output gate was opened (R446). -/
  holdAt : Nat
  /-- What the present command has completed: entry, serial and status code, for the journal (R588, kind 0x02). -/
  done : List (Nat × Nat × Nat)
  deriving DecidableEq, Repr

/-- The states of a two-wire bus while enabled (R484). -/
inductive BusSt where
  | idle | active | hail | recover | fenced
  deriving DecidableEq, Repr

/-- One two-wire bus (R461 to R485). -/
structure Bus where
  st : BusSt
  /-- SPEED and DIV in use: CFG bits [28:16] and [2:1] (R463). -/
  useDiv : Nat
  useSpeed : Nat
  /-- The transaction on the wire. -/
  onWire : Option Nat
  wireEntry : Nat
  /-- The address of the discovery probe on the wire (R454). -/
  probe : Option Nat
  /-- When the bus came to what it does now, and when a target's stretch that ended a transfer began (R465, R471, R472). -/
  since : Nat
  sclAt : Nat
  /-- The bytes the bus sends in the transfer on the wire or in the last one: addresses with their direction bit, the
  command code, count, data and PEC (R464). -/
  sent : List Nat
  /-- The bytes of the mux select that went before it: the mux's address with the write bit, the control byte, and its address with the
  read bit (R464, R475). -/
  sel : List Nat
  /-- The bytes read in the last transfer or ARA read, each with whether the ES7100 acknowledged it (R464). -/
  got : List (Nat × Bool)
  /-- The mux channel selected, and consecutive failed selects per channel (R475). -/
  mux : Option Nat
  muxFails : NTab Nat
  /-- The bus is held by another controller: from its START, or the loss of arbitration to it, to its STOP (R466, R468, R484). -/
  other : Bool
  /-- The levels of SCL and SDA (R484), as the last event on them left them; they read 0 while EN = 0. -/
  scl : Bool
  sda : Bool
  /-- ARA reads made in the present hail sequence; one is running. -/
  aras : Nat
  ara : Bool
  /-- The hail sequence began at (R468). -/
  hailAt : Nat
  /-- The recovery under way was asked for by a command: its CODE. -/
  byCmd : Nat
  /-- The recovery under way is of a fenced bus (R473). -/
  wasFenced : Bool
  deriving DecidableEq, Repr

/-- The two-wire block. -/
structure Twb where
  bus : NTab Bus
  /-- Fenced mux segments, by 8 × bus + channel (R546). -/
  muxFence : NTab Bool
  /-- The last update of mirror words 0 to 7 (R479). -/
  mirAt : Nat
  /-- Bus 15 as target: the command pointer (R478). -/
  tgtPtr : Nat
  /-- The last answer of the target to a read, and whether its last byte was acknowledged. -/
  tgtOut : List Nat
  tgtAck : Bool
  deriving DecidableEq, Repr

/-- A shelf frame (R508). -/
structure Frame where
  typ : Nat
  cls : Nat
  tent : Bool
  ka : Bool
  src : Nat
  dst : Nat
  tag : Nat
  item : Nat
  gen : Nat
  data : List Nat
  status : Nat
  credit : Nat
  deriving DecidableEq, Repr

/-- One shelf link segment (R506 to R518). -/
structure Seg where
  fenced : Bool
  cause : Nat
  beacon : Bool
  /-- Frames queued for transmission, oldest first, and the frames sent at the last opportunity. -/
  txq : List Frame
  sent : List Frame
  /-- The octets of those frames on the segment: destination and source MAC address, EtherType, payload (R507). -/
  wire : List (List Nat)
  nextTag : Nat
  /-- When frames with FCS errors were received in the last second, and the last beacon (R516). -/
  fcs : List Nat
  beaconAt : Nat
  deriving DecidableEq, Repr

/-- The shelf link block. -/
structure Slk where
  seg : NTab Seg
  /-- Generations of offers are compared (R519). -/
  offerCmp : Bool
  /-- The last frame from the node of SLK_OFFERSRC (R519). -/
  offerAt : Nat
  deriving DecidableEq, Repr

/-- The states of the pair's machine (R591). -/
inductive SplSt where
  | init | solo | active | sync | ready | leaving
  deriving DecidableEq, Repr

/-- A mirrored outstanding transaction (R588, kinds 0x01 and 0x02). -/
structure MTxn where
  entry : Nat
  serial : Nat
  cls : Nat
  item : Nat
  gen : Nat
  tent : Bool
  value : Nat
  /-- The kind of the transaction, and the paths of a group's retract or restore (R593). -/
  kind : Nat
  paths : List Nat
  deriving DecidableEq, Repr

/-- A peer frame's content (R585); a journal or a snapshot holds its items. -/
inductive PFrame where
  | hello (h : Hello)
  | journal (items : List JItem)
  | snapshot (items : List JItem)
  | spliceNote (cause : Nat)
  | takebackReq
  | takebackAck
  | takebackNak
  | pwmMark (x ticks : Nat)
  deriving DecidableEq, Repr

/-- The redundant pair (R576 to R601). -/
structure Spl where
  st : SplSt
  /-- INTLK_OUT as driven and INTLK_IN after its filter (R578). -/
  out : Bool
  inp : Bool
  link : Bool
  /-- The twin's last HELLO. -/
  twin : Option Hello
  /-- The last SNAPSHOT has been applied (R600 JSYNC). -/
  snap : Bool
  cause : Nat
  /-- Last SEQ sent and last SEQ acknowledged (R585), and the highest SEQ received in order. -/
  sentSeq : Nat
  ackSeq : Nat
  rxSeq : Nat
  /-- Frames sent and not yet acknowledged, oldest first, with their SEQ (R585). -/
  unacked : List (Nat × PFrame)
  /-- When INTLK_OUT fell, and READY was entered. -/
  fellAt : Nat
  readyAt : Nat
  /-- Take-back requests are repeated until acknowledged (R591). -/
  tbWait : Bool
  /-- The take-back acknowledged by the twin makes the next take a TAKEBACK. -/
  tbMine : Bool
  /-- The digest mismatch has been raised (R597). -/
  mismatch : Bool
  /-- Highest mirrored record number, mirrored outstanding transactions and SLOTOUT values (R588). -/
  recSeq : Nat
  txns : List MTxn
  slotOut : NTab (Option Word)
  /-- Last PWMMARK stamp of each stage in ticks, and the period between the last two (R587). -/
  marks : NTab Nat
  markPer : NTab Nat
  /-- The base state that a take gives: the journalled one, or the chip's own before it went to SHADOW (R591). -/
  shadowBase : Base
  /-- The journal has been started with a SNAPSHOT (R589). -/
  jOn : Bool
  /-- The cause of the splice that the twin has announced (R591). -/
  note : Option Nat
  /-- When the last TAKEBACK_REQ was sent. -/
  reqAt : Nat
  /-- The last HELLO sent. -/
  hello : Option Hello
  /-- When it was sent, when the last valid frame arrived (R586), and when INTLK_IN last fell (R591). -/
  helloAt : Nat
  rxAt : Nat
  inLowAt : Nat
  /-- For each compared slot: since when its OUT has differed from the journalled one, and whether PEER_DIVERGE has been raised for
  that; when its SLOTOUT was last sent, and the slots whose SLOTOUT is due (R594). -/
  divs : NTab (Option (Nat × Bool))
  outAt : NTab Nat
  outDue : Nat
  deriving DecidableEq, Repr

/-- The hand-over machine's states (R274). -/
inductive HoSt where
  | idle | onsrc | antic | handover | onbatt | ret
  deriving DecidableEq, Repr

/-- The capping machine's states (R282). -/
inductive CapMSt where
  | off | armed | capped | floor
  deriving DecidableEq, Repr

/-- What the share strand keeps of a member (R261, R262). -/
structure Share where
  /-- Trim written to it, in 0.01 %. -/
  trim : Int
  /-- Its output current as last read, in 0.1 A, whether one has been read, and whether the strand has still to trim by it. -/
  iout : Int
  seen : Bool
  due : Bool
  /-- Since when its deviation exceeds SHDEV and its trim stands at ±TRIMMAX, and whether SHARE_IMBALANCE has been raised since. -/
  devAt : Option Nat
  satAt : Option Nat
  raised : Bool
  deriving DecidableEq, Repr

/-- A member the strand knows nothing of. -/
def Share.init : Share :=
  { trim := 0, iout := 0, seen := false, due := false, devAt := none, satAt := none, raised := false }

/-- The power policy (R253 to R296). -/
structure Pol where
  ho : HoSt
  /-- Last hand-over cause (R295 HOCAUSE), and when the present state was entered. -/
  hoCause : Nat
  hoAt : Nat
  cap : CapMSt
  capacity : Bool
  /-- A valid profile has been applied since the reset (R291). -/
  profOk : Bool
  /-- When the source condition began to hold without a break (R268). -/
  srcSince : Option Nat
  /-- Since when the source condition is false in RETURN: the next evaluation of the machine acts on it (R274, R288). -/
  lostAt : Option Nat
  /-- Since when BSLOT OUT is at BACKI or above, and at RETDONE or below (R274, R282). -/
  outHi : Option Nat
  outLo : Option Nat
  /-- The hand-over value of RLIM, whether it is rising at RETRATE and in a walk-in, and when it was last moved (R256, R270, R279). -/
  hoVal : Int
  ramping : Bool
  walkIn : Bool
  rampAt : Nat
  /-- The capping value (R281), and when RLIM and it were last written. -/
  capVal : Int
  rlimAt : Nat
  capAt : Nat
  /-- KPR and TOFF of RSLOT and of BSLOT as saved by the hand-over actions or by ANTIC = 0 (R272, R275). -/
  savedR : Option (Word × Word)
  savedB : Option (Word × Word)
  /-- The share group's members, by entry (R261). -/
  shares : NTab Share
  keepAt : Nat
  trimAt : Nat
  /-- When the last branch was shed, when no shedding condition last began to hold, and the last restore (R285, R286). -/
  shedAt : Nat
  calmAt : Option Nat
  restAt : Option Nat
  /-- Status of the last PWRM_POL_CMD. -/
  cmdst : Nat
  deriving DecidableEq, Repr

/-- The policy after a reset. -/
def Pol.init : Pol :=
  { ho := .idle, hoCause := 0, hoAt := 0, cap := .off, capacity := false, profOk := false, srcSince := none, lostAt := none, outHi := none, outLo := none,
    hoVal := 0, ramping := false, walkIn := false, rampAt := 0, capVal := 16777216, rlimAt := 0, capAt := 0, savedR := none,
    savedB := none, shares := [], keepAt := 0, trimAt := 0, shedAt := 0, calmAt := none, restAt := none, cmdst := 0 }


/-- The string states (R374). -/
inductive StringSt where
  | absent | open_ | matching | closed | stuck
  deriving DecidableEq, Repr

/-- One battery string (R371 to R379). -/
structure BStr where
  st : StringSt
  /-- The SSWn level commanded and SSWFBn active. -/
  ssw : Bool
  fb : Bool
  /-- Temperature window (R389, R400). -/
  window : Nat
  ident : Word
  /-- The identity read of an insertion is under way (R378). -/
  reading : Bool
  /-- When the present state was entered, and when SSWn fell. -/
  since : Nat
  fellAt : Nat
  /-- What the identity read has brought: whether it went well, and its value. -/
  idRes : Option (Bool × Word)
  /-- Since when V has been at VPRES or above, below VPRES, within VMATCH of the LO node, below VCUT, and the discharge current above
  ISTRMAX (R374, R376, R377); whether the present excursion of the last two has been reported. -/
  inAt : Option Nat
  outAt : Option Nat
  nearAt : Option Nat
  cutAt : Option Nat
  ocAt : Option Nat
  uvDone : Bool
  ocDone : Bool
  deriving DecidableEq, Repr

/-- The charger's phases (R385). -/
inductive ChgPh where
  | idle | entry | trickle | prechg | bulk | topoff | done | float | fault
  deriving DecidableEq, Repr

/-- Battery charging and power path (R371 to R400). -/
structure Bat where
  str : NTab BStr
  phase : ChgPh
  suspend : Bool
  /-- BAT_CHG_SLOT names a charge chain that the library runs (R380). -/
  chain : Bool
  /-- CB in use, Q8.24, and VREG in mV per cell times 10 (R381, R383). -/
  cb : Int
  vreg : Int
  /-- Time measured in the present phase and since BULK entry, both frozen by R384, and when they were last advanced. -/
  phaseUs : Nat
  bulkUs : Nat
  tickAt : Nat
  /-- In a native rest, the time measured in the present interval, and whether the last rest was valid (R386). -/
  rest : Bool
  ivUs : Nat
  restOk : Bool
  /-- Since when V has been at VLOW, at VPRE, above VOVP, below VRCH, and the charge current below the sum of ITERM (R385, R387). -/
  lowAt : Option Nat
  preAt : Option Nat
  ovAt : Option Nat
  rchAt : Option Nat
  termAt : Option Nat
  /-- LO per cell over the last 100 ms and the charge current over the last 10 s, each value with the stamp from which it held, newest
  first (R385, R386); whether every closed string's current has stayed within 1 % of its ICC in the present rest; and the mean charge
  current at the end of the last ON interval. -/
  loSeg : List (Nat × Int)
  iSeg : List (Nat × Int)
  steady : Bool
  onMean : Int
  /-- The last recomputation of CB and VREG. -/
  compAt : Nat
  /-- What woke the part from SHIP (R393), and SHIP_SRC above its threshold. -/
  wakeBy : Nat
  shipSrc : Bool
  deriving DecidableEq, Repr

/-- A string after a reset: ABSENT, its switch open. -/
def BStr.init : BStr :=
  { st := .absent, ssw := false, fb := false, window := 0, ident := 0, reading := false, since := 0, fellAt := 0,
    idRes := none, inAt := none, outAt := none, nearAt := none, cutAt := none, ocAt := none, uvDone := false, ocDone := false }

/-- The charger after a reset: IDLE with CB 0. -/
def Bat.init : Bat :=
  { str := [], phase := .idle, suspend := false, chain := false, cb := 0, vreg := 0, phaseUs := 0, bulkUs := 0, tickAt := 0, rest := false,
    ivUs := 0, restOk := false, lowAt := none, preAt := none, ovAt := none, rchAt := none, termAt := none, loSeg := [], iSeg := [],
    steady := true, onMean := 0, compAt := 0, wakeBy := 0, shipSrc := false }


/-- What a string has learned (R419): capacities in Ah, resistances in Ω, TAU in s, all in units of 2^-32, and the module
ratios in 2^-12. -/
structure Learned where
  cap : Int
  capsig : Int
  r0 : Int
  r0new : Int
  rpol : Int
  tau : Int
  /-- Equivalent full cycles × 100, in units of 2^-32. -/
  cycles : Int
  /-- Resistance and capacity ratio of each module. -/
  mods : List (Nat × Nat)
  deriving DecidableEq, Repr

/-- A correlator at work (R404): the tone's start and frequency and the turn at which the window starts, the sums in codes × 2^20 with the samples of
each channel, and whether nothing has broken the window. -/
structure Corr where
  t0 : Nat
  f : Nat
  turn : Nat
  is : Int
  ic : Int
  vs : Int
  vc : Int
  ni : Nat
  nv : Nat
  ok : Bool
  deriving DecidableEq, Repr

/-- A qualifying step whose TSTEP runs (R407): ΔI in 0.1 A and ΔV(1 ms) in 10 mV, both × 2^24, its stamp, the voltage before it, the new
current, and the voltages since, newest first. -/
structure EstStep where
  di : Int
  dv : Int
  stamp : Nat
  v0 : Int
  iNew : Int
  vs : List (Nat × Int)
  deriving DecidableEq, Repr

/-- The estimate of one string (R401 to R417); SOC and SIGMA in % and VPOL in mV, in units of 2^-32. -/
structure EstStr where
  origin : Nat
  learned : Learned
  soc : Int
  sigma : Int
  vpol : Int
  /-- TAU was measured by a step (R406). -/
  tauStep : Bool
  /-- When the highest-tone and the lowest-tone quantities were last refreshed, plus 1, 0 for never; and by a tone of which frequency, 0
  for a step (R406). -/
  hiAt : Nat
  loAt : Nat
  hiBy : Nat
  loBy : Nat
  /-- The real part at the lowest tone, where RPOL comes from it; and how far above TREF R0 was measured, in 0.1 °C (R406, R414). -/
  reLo : Option Int
  r0Over : Int
  /-- Impedances by tone: |Z| in 0.1 mΩ and phase in 0.01°. -/
  z : NTab Word
  bad : Nat
  /-- Last correction: 1 insertion, 2 rest, 3 loaded; and its stamp. -/
  lastCorr : Nat
  corrAt : Nat
  loadedAt : Nat
  /-- ESTIMATE_STALE and EST_SOH_LOW have been raised for the present excursion (R411, R414). -/
  stale : Bool
  sohLow : Bool
  /-- Charge counted in Ah × 2^32, and the corrections that left SIGMA ≤ 2 % with the lowest and the highest SOC since the
  last capacity measurement: SOC and charge count (R413). -/
  ah : Int
  tightLo : Option (Int × Int)
  tightHi : Option (Int × Int)
  step : Option EstStep
  /-- The correlators by tone, and the current and the voltage of the last 101 ms (R404, R407). -/
  corr : NTab Corr
  iSeg : List (Nat × Int)
  vSeg : List (Nat × Int)
  /-- A module count has been read, and the module voltages in mV that are still to be used; the voltages of the last read and those
  of the last read that followed a correction; whether a qualifying step or a correction has come since the last read; and when a read was
  last begun (R415). -/
  modSeen : Option Nat
  modNew : Option (List Nat)
  modV : List Nat
  modRef : List Nat
  modStep : Bool
  modCorr : Bool
  modAt : Nat
  /-- The voltage used at the string's entry to OPEN, in mV per cell (R417). -/
  openMv : Int
  updAt : Nat
  deriving DecidableEq, Repr

/-- A record of the learned-value store (R418, R419). -/
structure EstRec where
  ident : Word
  string : Nat
  live : Bool
  learned : Learned
  soc : Int
  sigma : Int
  pcc : Nat
  opsec : Nat
  deriving DecidableEq, Repr

/-- A slot of the store in MRAM (R419): its header's words and its records. -/
structure EstSlot where
  magic : Word
  seq : Nat
  pcc : Nat
  opsec : Nat
  crc : Nat
  commit : Nat
  recs : List EstRec
  deriving DecidableEq, Repr

/-- Battery state estimation. -/
structure Est where
  str : NTab EstStr
  /-- Frozen records, oldest stamp first (R418). -/
  frozen : List EstRec
  /-- Live records of the store as boot found them, until their strings are inserted (R423). -/
  live : List EstRec
  slotA : EstSlot
  slotB : EstSlot
  /-- The store write under way: its target (true for slot B); another one is due after it; one abandoned by the early
  collapse detector awaits its retry (R420 to R422). -/
  writing : Option Bool
  due : Bool
  abandoned : Option Bool
  writeAt : Nat
  doneAt : Nat
  everDone : Bool
  periodAt : Nat
  /-- Strings whose channels are scanned too slowly, as a mask (R403). -/
  slow : Nat
  deriving DecidableEq, Repr

/-- Nothing learned. -/
def Learned.init : Learned :=
  { cap := 0, capsig := 0, r0 := 0, r0new := 0, rpol := 0, tau := 0, cycles := 0, mods := [] }

/-- A string that has not been started. -/
def EstStr.init : EstStr :=
  { origin := 0, learned := .init, soc := 0, sigma := 0, vpol := 0, tauStep := false, hiAt := 0, loAt := 0, hiBy := 0, loBy := 0,
    reLo := none, r0Over := 0, z := [], bad := 0,
    lastCorr := 0, corrAt := 0, loadedAt := 0, stale := false, sohLow := false, ah := 0, tightLo := none, tightHi := none, step := none, corr := [], iSeg := [], vSeg := [],
    modSeen := none, modNew := none, modV := [], modRef := [], modStep := false, modCorr := false, modAt := 0,
    openMv := 0, updAt := 0 }

/-- An empty slot. -/
def EstSlot.init : EstSlot :=
  { magic := 0, seq := 0, pcc := 0, opsec := 0, crc := 0, commit := 0, recs := [] }

/-- The estimator after the chip's first start: an empty store. -/
def Est.init : Est :=
  { str := [], frozen := [], live := [], slotA := .init, slotB := .init, writing := none, due := false, abandoned := none, writeAt := 0, doneAt := 0,
    everDone := false, periodAt := 0, slow := 0 }


/-- The sensor states (R529). -/
inductive ThmSt where
  | off | normal | warn | throttle | shutdown | fault
  deriving DecidableEq, Repr

/-- One temperature sensor (R523 to R532). -/
structure Sensor where
  st : ThmSt
  /-- The latest reading in 0.1 °C, and whether it is valid. -/
  t : Int
  valid : Bool
  /-- Measured at 1 kHz, and consecutive readings outside MARGIN (R527). -/
  fast : Bool
  nOut : Nat
  /-- Consecutive readings at or above SHUT, THROT and WARN, and in FAULT neither open nor shorted. -/
  nShut : Nat
  nThrot : Nat
  nWarn : Nat
  nOk : Nat
  /-- An on-die reading outside the bounds of R526. -/
  die : Bool
  /-- When it was last measured, and THM_Sk_THR and THM_Sk_HYST as they were at that reading, if they have been written since (R527, R530). -/
  readAt : Nat
  held : Option (Word × Word)
  deriving DecidableEq, Repr

/-- A sensor after a reset: OFF until it is measured. -/
def Sensor.init : Sensor :=
  { st := .off, t := 0, valid := false, fast := false, nOut := 0, nShut := 0, nThrot := 0, nWarn := 0, nOk := 0, die := false,
    readAt := 0, held := none }


/-- A firmware image in a slot, as its header gives it: FWVER, BVER and the first four DIGEST bytes.
Whether it passes verification at boot is what a BOOT_COMPLETE command says of it (R638). -/
structure Img where
  ver : Nat
  bver : Nat
  dig : Nat
  /-- Bytes of the image, 256 + IMGLEN. -/
  len : Nat
  deriving DecidableEq, Repr

/-- The staging slot's states (R639). -/
inductive StgSt where
  | empty | loading | pending
  deriving DecidableEq, Repr

/-- The service port and the update (R625 to R651). -/
structure Upd where
  /-- Session: 0 closed, 1 opening, 2 presence, 3 key. -/
  session : Nat
  nh : List Nat
  nd : List Nat
  ks : List Nat
  /-- Line rate, and the rate to return to with the stamp of the change while no valid frame has arrived (R632). -/
  rate : Nat
  fallback : Option (Nat × Nat)
  seq : Nat
  /-- The stored response to the last request (R629), as bytes. -/
  resp : List Nat
  validAt : Nat
  /-- SVC_PRESENT_N judged asserted (R634). -/
  present : Bool
  /-- Nonces given so far. -/
  nonces : Nat
  stg : StgSt
  /-- The staging slot's bytes as received or decrypted, oldest first. -/
  bytes : List Nat
  stgImg : Img
  act : Img
  /-- The active slot is TRIAL, its trial count, and when its window started (R643). -/
  trial : Bool
  trials : Nat
  trialAt : Nat
  rol : Option Img
  vfail : Nat
  lastRoll : Nat
  selftest : Bool
  recovery : Bool
  /-- Self-test failure has been committed as the rollback cause (R645). -/
  failed : Bool
  /-- Phase and last block of the copy (R642), as UPD_COPY shows them. -/
  copy : Nat
  /-- The progress marker of an unfinished copy (R66, R67), in the boot configuration: its phase, the blocks committed, and of phase 3 the
  rollback cause. -/
  copying : Option (Nat × Nat × Nat)
  deriving DecidableEq, Repr

/-- No image. -/
def Img.none : Img := { ver := 0, bver := 0, dig := 0, len := 0 }


/-- A channel with its full scale, in the unit its use gives. -/
structure ChanFs where
  ch : Nat
  fs : Nat
  deriving DecidableEq, Repr

/-- A rail in the sequencer's profile (R87): its group, its qualification and discharge times in µs. -/
structure RailProf where
  rail : Nat
  group : Nat
  qual : Nat
  disch : Nat
  deriving DecidableEq, Repr

/-- The power policy's profile beside its registers (R290): volts in 10 mV, amperes in 0.1 A, µF, Hz, and the notch in mHz with its depth
in Q8.24. -/
structure PolProf where
  bus : Option ChanFs
  load : Option ChanFs
  rect : Option ChanFs
  cap : Option Nat
  fBat : Nat
  fRect : Nat
  notch : Option (Nat × Nat × Word)
  kpr : Nat
  confw : Nat
  share : Option Nat
  deriving DecidableEq, Repr, Inhabited

/-- What the active image brings for the library (R65 step 7): the words of the vendor bundle (R129), and the Basic profiles of its blocks.
Values of Expert registers that are not their defaults stand in `regs`; what no register holds stands beside them. -/
structure Vendor where
  bundle : List Word
  regs : List ((RName × Nat) × Word)
  /-- Rails, delay between groups in µs, and the group after which each reset output is released, none for the last (R87). -/
  rails : List RailProf
  gap : Nat
  release : NTab (Option Nat)
  /-- Measured channels with their least rates in S/s (R200). -/
  chans : List (Nat × Nat)
  pol : PolProf
  /-- The auxiliary bus: its capacitance in µF, its voltage in 10 mV and the crossover in Hz (R340). -/
  axcCap : Option Nat
  axcV : Option Nat
  axcFc : Nat
  /-- The partner entries that the library creates, with words 0 to 4 (R459). -/
  entries : List (Nat × List Word)
  deriving DecidableEq, Repr, Inhabited

/-- What an image brings, by bytes 0 to 3 of its digest: the spec prints the profiles' defaults and ranges, and no image (free,
log entry 20). -/
opaque Vendor.ofImage : Nat → Vendor

/-- An image that brings nothing but the defaults (R87, R290, R340). -/
def Vendor.init : Vendor :=
  { bundle := [], regs := [], rails := [], gap := 1000, release := [], chans := [],
    pol := { bus := none, load := none, rect := none, cap := none, fBat := 300, fRect := 100, notch := none, kpr := 23488102,
             confw := 1500, share := none },
    axcCap := none, axcV := none, axcFc := 2000, entries := [] }


/-- A strand context after reset: FREE, with no state (R91). -/
def Strand.init : Strand :=
  { st := .free, owner := .vendor, group := 0, prio := 0, runPrio := 0, why := 0, alloc := false, regs := [], z := false, n := false,
    c := false, v := false, pc := 0, locals := [], period := 0, timerAt := 0, tick := false, missed := 0, toks := [], act := 0,
    keep := false, slice := 0, wait := none, timeout := 0, waitAt := 0, after := [],
    usecHi := 0 }

/-- A free token entry (R111). -/
def Tok.init : Tok := { used := false, dropped := false, serial := 0, done := none }

/-- A branch after a power-on reset (R358, R351). -/
def Branch.init : Branch :=
  { st := .off, retry := 0, cause := 0, limit := false, gfb := false, bound := none, loopVal := none, since := 0,
    energy := 0, ehi := 0, short := false, cnt := 0, sumI := 0, sumV := 0, sumP := 0, shed := false, azHist := [],
    limAt := 0, genAt := 0, gfbAt := 0, fallRaised := false, leakAt := none, metAt := 0, avgAt := 0, held := [] }

/-- A converter phase after reset. -/
def Phase.init : Phase :=
  { fenced := false, de := false, fast := false, fastNow := false, fastHi := false, slot := 0, iavg := 0, sum := 0, imb := 0, deCnt := 0, zx := false,
    zxLast := false, zc := false, scOff := 0, drv := { duty := 0, dt := 0, dlim := 0 }, took := true, ext := 0, turning := false }

/-- A converter stage after reset (R315). -/
def Conv.init : Conv :=
  { st := .stopped, retry := 0, ckpt := 0, phases := [], active := 0, bound := none, loopDuty := false, loopVal := 0,
    eff := 0, duty := 0, integ := 0, meas := 0, kindDuty := false, limited := false, fastHit := false, slowcl := false, slowAt := 0, overload := false,
    limCnt := 0, shCnt := 0, synclk := false, lockCnt := 0, track := false, pendStart := false, frozen := false,
    period := 8000 * 65536, len := 8000 * 65536, perAt := 0, bndAt := 0, since := 0, quickAt := none, quickPos := false,
    winAt := 0, winCnt := 0, winDe := false, loHist := [], vtag := none, vcSlot := 0, vdone := [], rot := 0 }

/-- A capture unit after the chip's first start (R618). -/
def Cap.init : Cap :=
  { st := .idle, valid := false, pre := [], post := [], preValid := 0, missed := 0, stamp := 0, dec := 0, stored := [], torn := false, step := 0, sent := false }

/-- A comparator after reset: MID, nothing counted (R186). -/
def Wcmp.init : Wcmp := { st := 0, cand := 0, cnt := 0 }

/-- A converter that is stopped: nothing taken. -/
def ConvUse.init : ConvUse := { mask := 0, div := 1, pos := 0, ending := false }

/-- A detector that has counted nothing. -/
def AcmDet.init : AcmDet := { dev := 0, clean := 0, conf := 0, restored := none, beyond := false, phases := 0 }

/-- A tracker that has followed nothing. -/
def AcmTrack.init : AcmTrack :=
  { theta := 0, thetaAt := 0, freq := 0, amp := [], ampAt := 0, half := [], sum := [], cnt := [] }

/-- A loop slot after reset: STOPPED (R212, R218). -/
def Slot.init : Slot :=
  { st := .stopped, pend := none, run := none, after := .none, dirty := 0, cpend := 0, trig := 0, occ := 0, plants := [],
    satLo := false, satHi := false, outRaised := false, resubmit := false, spDone := false, first := false,
    spRamp := false, lastAt := 0, rateN := 0, rateD := 1, load := 0, choice := 5, slewing := false,
    sinceSub := 0, carried := 0, limMove := 0, ys := [], pstate := .idle, tgen := 0, events := [],
    onsetAt := 0, cause := 0 }

/-- A PLANT block with no reaction in force and no excursion raised. -/
def Plant.init : Plant := { react := 0, inBand := 0, raised := false }

/-- A partner entry after reset: EMPTY (R427). -/
def Ent.init : Ent :=
  { st := .empty, fails := 0, tlost := 0, lostSince := 0, lib := false, genl := 0, genf := 0, genv := 0, gens := [],
    owes := [], cr := [], stall := none, pollAt := 0, rated := 0, status := 0 }

/-- A two-wire bus after reset: both lines high, nothing selected. -/
def Bus.init : Bus :=
  { st := .idle, useDiv := 0x1F3, useSpeed := 1, onWire := none, wireEntry := 0, probe := none, since := 0, sclAt := 0, sent := [], sel := [], got := [], mux := none, muxFails := [],
    other := false, scl := true, sda := true, aras := 0, ara := false, hailAt := 0, byCmd := 0, wasFenced := false }

/-- A link segment after reset. -/
def Seg.init : Seg := { fenced := false, cause := 0, beacon := false, txq := [], sent := [], wire := [], nextTag := 0, fcs := [], beaconAt := 0 }

/-- The pair's machine at reset (R591): INIT, INTLK_OUT low, nothing heard. -/
def Spl.start : Spl :=
  { st := .init, out := false, inp := false, link := false, twin := none, snap := false, cause := 0, sentSeq := 0,
    ackSeq := 0, rxSeq := 0, unacked := [], fellAt := 0, readyAt := 0, tbWait := false, tbMine := false, mismatch := false,
    recSeq := 0, txns := [], slotOut := [], marks := [], markPer := [], shadowBase := .standby, jOn := false, note := none, reqAt := 0,
    hello := none, helloAt := 0, rxAt := 0, inLowAt := 0, divs := [], outAt := [], outDue := 0 }

/-- The levels of the output pins, as every command leaves them (R25, R40, R51, R61, R84): masks over the pins of a
group, or one level. -/
structure Pins where
  /-- GEN0 to GEN23, and the channels whose GDRV is driven above 0 V. -/
  gen : Nat
  gdrv : Nat
  seqEn : Nat
  rstN : Nat
  /-- String disconnect switches commanded closed. -/
  strSw : Nat
  /-- PWMH_x, PWML_x, AXHk and AXLk: the switches that are turned on in the present period; and SYNCOUT. -/
  bcvHi : Nat
  bcvLo : Nat
  axcHi : Nat
  axcLo : Nat
  syncOut : Bool
  /-- IRQ_N0, IRQ_N1 and ERR_N levels: true for high. -/
  irqN0 : Bool
  irqN1 : Bool
  errN : Bool
  intlkOut : Bool
  deriving DecidableEq, Repr

/-- The chip: everything but the queue of commands. -/
structure Chip where
  /-- The register file: RW, RWS, LK, RC, RW1C registers and the status registers that hold a last result. -/
  regs : Tab (RName × Nat) Word
  /-- The microsecond stamp of the power cycle (R602) and the operating microseconds (R70). -/
  now : Nat
  upUs : Nat
  /-- The running level of each block, by index: true for Expert (R18). -/
  levels : NTab Bool
  pwr : Pwr
  nvm : Nvm
  seq : Seq
  acq : Acq
  cle : Cle
  ptn : Ptn
  twb : Twb
  slk : Slk
  spl : Spl
  lay : Lay
  brn : Brn
  cnv : Cnv
  flt : Flt
  sec : Sec
  rcd : Rcd
  hst : Hst
  pol : Pol
  bat : Bat
  est : Est
  thm : NTab Sensor
  upd : Upd
  sys : Sys
  /-- What the active image brings (R65 step 7). An activation and a rollback at boot replace it (log entry 20). -/
  vend : Vendor
  pins : Pins
  /-- The completion of the last port access: agent, status, data. -/
  resp : Option (Agent × Status × Word)
  /-- The model's own counter of open values (not the spec's). -/
  fresh : Nat
  deriving DecidableEq, Repr


end Sys2Proof.Machine
end

