-- ==== Sys2Proof/Machine/Ops.lean ====
section
/-!
DEFINITION. The shared operations: the register file, the mode (R42), time, open values, domains (R50, R51), records
(R602 to R606) and event delivery (R556).
-/

namespace Sys2Proof.Machine

/-- A register of the register file. -/
def Chip.get (m : Chip) (r : RName) (i : Nat) : Word := Tab.get resetWord m.regs (r, i)

/-- The chip with one register written. -/
def Chip.put (m : Chip) (r : RName) (i : Nat) (w : Word) : Chip :=
  { m with regs := Tab.set ltReg resetWord m.regs (r, i) w }

/-- Field [hi:lo] of a register. -/
def Chip.fld (m : Chip) (r : RName) (i hi lo : Nat) : Nat := bits (m.get r i) hi lo

/-- Bit k of a register. -/
def Chip.flag (m : Chip) (r : RName) (i k : Nat) : Bool := bitOf (m.get r i) k

/-- The chip with field [hi:lo] of a register written. -/
def Chip.putF (m : Chip) (r : RName) (i hi lo v : Nat) : Chip := m.put r i (setBits (m.get r i) hi lo v)

/-- The chip with `n` added to a field that saturates. -/
def Chip.bump (m : Chip) (r : RName) (i hi lo n : Nat) : Chip :=
  m.putF r i hi lo (satTo (2 ^ (hi + 1 - lo) - 1) (m.fld r i hi lo + n))

/-- The chip unchanged unless a condition holds. -/
def Chip.when (m : Chip) (b : Bool) (f : Chip → Chip) : Chip := if b then f m else m

/-- The number a block's running level is kept under. -/
def blkIdx : Blk → Nat
  | .seq => 0 | .lay => 1 | .cle => 2 | .acq => 3 | .pol => 4 | .cnv => 5 | .brn => 6 | .bat => 7 | .est => 8
  | .ptn => 9 | .twb => 10 | .slk => 11 | .hst => 12 | .thm => 13 | .flt => 14 | .spl => 15 | .rcd => 16 | .upd => 17

/-- The block runs at the Expert level (R16 to R18). -/
def Chip.expert (m : Chip) (b : Blk) : Bool := NTab.get false m.levels (blkIdx b)

/-! ### Modes (R42) -/

/-- The code of the mode reported and acted on (R42). OFF, SHIP and BOOT are reported as such even with COND_LOCK set:
nothing that a condition governs runs in them (DEDUCED, log entry 8). -/
def Chip.mode (m : Chip) : Nat :=
  match m.pwr.base with
  | .off => 0x0
  | .ship => 0x1
  | .boot => 0x2
  | b =>
    if m.nvm.lock then 0xB
    else if m.pwr.condSafe then 0xA
    else if m.pwr.condSvc then 0x9
    else if b = .shadow then 0x4
    else if m.pwr.condDegr && (b = .source || b = .holdup || b = .capped) then 0x8
    else b.code

/-- PWRM_MODE (R88). -/
def Chip.modeWord (m : Chip) : Word :=
  wd (m.mode + m.pwr.base.code * 16 + b2n m.pwr.condDegr * 256 + b2n m.pwr.condSvc * 512 + b2n m.pwr.condSafe * 1024 +
    b2n m.nvm.lock * 2048 + b2n m.pwr.role * 4096)

/-- The base state is one of the running states SOURCE, HOLDUP and CAPPED. -/
def Chip.powering (m : Chip) : Bool :=
  m.pwr.base = .source || m.pwr.base = .holdup || m.pwr.base = .capped

/-- The base state is STANDBY, SHADOW, SOURCE, HOLDUP or CAPPED. -/
def Chip.up (m : Chip) : Bool := m.powering || m.pwr.base = .standby || m.pwr.base = .shadow

/-! ### Time and open values -/

/-- Time passes: the stamp of the power cycle, and the operating time in every mode but OFF and SHIP (R70, R602). -/
def Chip.advance (m : Chip) (d : Nat) : Chip :=
  { m with now := m.now + d,
           upUs := if m.pwr.base = .off ∨ m.pwr.base = .ship then m.upUs else m.upUs + d }

/-- A command that says a time `d` since `t0` has elapsed moves the stamp there at the earliest (DESIGN CHOICE, log entry 5). -/
def Chip.elapse (m : Chip) (t0 d : Nat) : Chip := m.advance (t0 + d - m.now)

/-- The open value the chip would take next. -/
def Chip.openVal (m : Chip) : Nat := Config.free m.fresh

/-- The next open value has been taken. -/
def Chip.spend (m : Chip) : Chip := { m with fresh := m.fresh + 1 }

/-! ### Agents -/

/-- The context of a strand. -/
def Chip.strand (m : Chip) (k : Nat) : Strand := NTab.get Strand.init m.lay.strands k

/-- The chip with a strand context written. -/
def Chip.putStrand (m : Chip) (k : Nat) (s : Strand) : Chip :=
  { m with lay := { m.lay with strands := NTab.set Strand.init m.lay.strands k s } }

/-- Whose authority an agent acts under: a strand acts for its owner, the firmware and the library for the vendor (R116). -/
def Chip.authOf (m : Chip) : Agent → Owner
  | .host => .host
  | .svc => .svc
  | .strand k => (m.strand k).owner
  | .fw => .vendor
  | .lib => .vendor

/-- The reader's bank of the banked registers (R610). -/
def Owner.bank : Owner → Nat
  | .host => 0 | .svc => 1 | .vendor => 2

/-- The coding of an owner in registers (R137): 0 vendor, 1 host, 2 service. -/
def Owner.code : Owner → Nat
  | .vendor => 0 | .host => 1 | .svc => 2

/-! ### Power domains -/

/-- The index of a domain in R51. -/
def domIdx : Dom → Nat
  | .aon => 0 | .sec => 1 | .nvm => 2 | .pa => 3 | .pb => 4 | .lay => 5 | .cle => 6 | .acq => 7 | .pwm => 8
  | .lnk => 9 | .hst => 10 | .svc => 11

/-- The state R51 gives a domain: by the base state in OFF, SHIP and BOOT, and by the reported mode after that, where every mode but
STANDBY is a running one. LAY and CLE are on in BOOT while step 7 of R65 loads them. -/
def Chip.domRest (m : Chip) (d : Nat) : DomState :=
  match m.pwr.base with
  | .off => .off
  | .ship => if d = 0 then .on else .off
  | .boot =>
    if d = 5 ∨ d = 6 then (if m.sys.bootStep = 7 then .on else .off)
    else if d = 4 ∨ d = 7 ∨ d = 8 ∨ d = 9 then .off else .on
  | _ =>
    if d = 2 ∨ d = 3 ∨ d = 4 then .sleep
    else if d = 5 ∨ d = 6 then .gated
    else if d = 9 ∧ m.mode = 0x3 then .sleep else .on

/-- The present state of a domain: On while woken, else what R51 gives. -/
def Chip.dom (m : Chip) (d : Nat) : DomState :=
  if NTab.get false m.pwr.awake d && m.domRest d != .off then .on else m.domRest d

/-- A domain is woken (R39, R52). -/
def Chip.wake (m : Chip) (d : Dom) : Chip :=
  { m with pwr := { m.pwr with awake := NTab.set false m.pwr.awake (domIdx d) true } }

/-! ### Records -/

/-- Records that may wait for writing (R604). -/
def queueMax : Nat := 256

/-- A record joins the queue, or is refused when the queue is full (R606). -/
def Chip.enqueue (m : Chip) (r : Rec) (dv : Option Deliv) : Chip :=
  if m.rcd.queue.length < queueMax then
    { m with rcd := { m.rcd with queue := m.rcd.queue ++ [{ rcd := r, deliv := dv }] } }
  else
    (m.bump .rcdLost 0 15 0 1) |> fun m' => { m' with rcd := { m'.rcd with refused := m'.rcd.refused + 1 } }

/-- An EVENT record (R603) of a source with an instance and its payload. -/
def Chip.eventRecord (m : Chip) (src inst : Nat) (payload : List Word) : Chip :=
  m.enqueue { kind := 2, source := src, code := 0, inst := inst, sev := 0, stamp := m.now, payload := payload } none

/-- A SYSTEM record (R603) with its code and payload. -/
def Chip.systemRecord (m : Chip) (code : Nat) (payload : List Word) : Chip :=
  m.enqueue { kind := 6, source := 0x300, code := code, inst := 0, sev := 0, stamp := m.now, payload := payload } none

/-- A SYSTEM record whose payload no chapter states: its eight words are open values (DESIGN CHOICE, log entry 21). -/
def Chip.openRecord (m : Chip) (code : Nat) : Chip :=
  (m.systemRecord code ((List.range 8).map (fun k => wd (Config.free (m.fresh + k))))) |> fun m' =>
    { m' with fresh := m'.fresh + 8 }

/-- A MODE record (R603, code 0x0007). -/
def Chip.modeRecord (m : Chip) : Chip := m.openRecord 7

/-! ### Events (R38, R556) -/

/-- A delivery of a source to one destination (R556). Nothing reaches destinations 0 and 1 while COND_LOCK is set (R557). -/
def Chip.deliverTo (m : Chip) (src d : Nat) : Chip :=
  if d < 2 && m.nvm.lock then m
  else
    let m := m.putF .evtPend (8 * d + src / 32) (src % 32) (src % 32) 1
    if d = 2 then m.wake .pa
    else if d = 3 then m.wake .pb
    else if 4 ≤ d then (m.put .layEvline (d - 4) (m.get .layEvline (d - 4) + 1)).wake .lay
    else m

/-- A delivery of a source to every destination of its route mask (R38). -/
def Chip.deliver (m : Chip) (src : Nat) : Chip :=
  (List.range 8).foldl (fun m d => if m.flag .evtRoute src d then m.deliverTo src d else m) m

/-- A capture unit is set to trigger on a source (R619). -/
def Chip.capOn (m : Chip) (src u : Nat) : Bool :=
  m.flag .rcdCapCfg u 0 && m.fld .rcdCapCfg u 15 8 = src

/-- A raise of a source is held for the capture units set to trigger on it (R619). -/
def Chip.noteTrig (m : Chip) (src : Nat) : Chip :=
  if (List.range 8).any (m.capOn src) then
    { m with rcd := { m.rcd with trig := m.rcd.trig ++ [(src, m.now)] } }
  else m

/-- An event that is no fault: raised, and delivered within 5 µs (R557). -/
def Chip.event (m : Chip) (src : Nat) : Chip := (m.noteTrig src).deliver src

/-! ### Fences (R546, R550) -/

/-- The scopes of R544 that a fence or a latch-off names; `mark` notes a raise whose flag must be read later (R239). -/
inductive Scope where
  | none | branch | phaseB | phaseA | stage | slot | strand | partner | bus | mux | link | string | sensor | comparator
  | mark
  deriving DecidableEq, Repr

/-- The scope of each fault source (R541, column Scope). -/
def scopeOf (src : Nat) : Scope :=
  if 19 ≤ src ∧ src ≤ 30 then .strand
  else if 35 ≤ src ∧ src ≤ 38 then .slot
  else if src = 39 then .partner
  else if src = 43 ∨ src = 44 then .phaseB
  else if src = 53 ∨ src = 54 then .phaseA
  else if 45 ≤ src ∧ src ≤ 62 then .stage
  else if 63 ≤ src ∧ src ≤ 70 then .branch
  else if 76 ≤ src ∧ src ≤ 86 then .string
  else if src = 88 ∨ src = 89 then .partner
  else if 91 ≤ src ∧ src ≤ 106 then .bus
  else if src = 107 then .mux
  else if 108 ≤ src ∧ src ≤ 111 then .link
  else if 112 ≤ src ∧ src ≤ 114 then .sensor
  else if 128 ≤ src ∧ src ≤ 191 then .comparator
  else .none

/-- The number a scope is kept under. -/
def Scope.idx : Scope → Nat
  | .none => 0 | .branch => 1 | .phaseB => 2 | .phaseA => 3 | .stage => 4 | .slot => 5 | .strand => 6 | .partner => 7
  | .bus => 8 | .mux => 9 | .link => 10 | .string => 11 | .sensor => 12 | .comparator => 13 | .mark => 14

/-- No fence is held: its flag counts as read. -/
def Fence.clear : Fence := { src := 0, read := true }

/-- A unit is fenced or latched off by a source (R546, R550). -/
def Chip.holdFence (m : Chip) (sc : Scope) (inst src : Nat) : Chip :=
  { m with flt := { m.flt with fences := Tab.set ltNN (fun _ => Fence.clear) m.flt.fences (sc.idx, inst) { src := src, read := false } } }

/-- The flag of the source that fenced or latched a unit has been read since (R550). -/
def Chip.fenceRead (m : Chip) (sc : Scope) (inst : Nat) : Bool :=
  (Tab.get (fun _ => Fence.clear) m.flt.fences (sc.idx, inst)).read

/-- A unit's fence or latch is lifted. -/
def Chip.dropFence (m : Chip) (sc : Scope) (inst : Nat) : Chip :=
  { m with flt := { m.flt with fences := Tab.set ltNN (fun _ => Fence.clear) m.flt.fences (sc.idx, inst) Fence.clear } }

/-- A read of a source's flag counts for every unit the source had fenced or latched (R550). An entry that is read says
no more than no entry. -/
def Chip.readFences (m : Chip) (src : Nat) : Chip :=
  { m with flt := { m.flt with fences := m.flt.fences.filter (fun e => e.2.src != src) } }

/-! ### Strings (R371 to R374) -/

/-- String n. -/
def Chip.bstr (m : Chip) (n : Nat) : BStr := NTab.get BStr.init m.bat.str n

/-- The chip with string n written. -/
def Chip.putBstr (m : Chip) (n : Nat) (b : BStr) : Chip :=
  { m with bat := { m.bat with str := NTab.set BStr.init m.bat.str n b } }

/-- A string conducts and counts as closed for measurement and charging: CLOSED or STUCK (R374). -/
def Chip.strClosed (m : Chip) (n : Nat) : Bool := (m.bstr n).st = .closed || (m.bstr n).st = .stuck

/-- The strings that conduct. -/
def Chip.closedStrs (m : Chip) : List Nat := (List.range 4).filter m.strClosed

/-- The estimate of string n. -/
def Chip.estr (m : Chip) (n : Nat) : EstStr := NTab.get EstStr.init m.est.str n

/-- The chip with the estimate of string n written. -/
def Chip.putEstr (m : Chip) (n : Nat) (x : EstStr) : Chip :=
  { m with est := { m.est with str := NTab.set EstStr.init m.est.str n x } }

end Sys2Proof.Machine
end

