-- ==== Sys2Proof/Machine/BrnOps.lean ====
section
/-!
DEFINITION. The branch channels' shared operations: the channel's record, leaving ON and INRUSH (R358, R368), and the
fence (R359).
-/

namespace Sys2Proof.Machine

/-- Branch channel n. -/
def Chip.branch (m : Chip) (n : Nat) : Branch := NTab.get Branch.init m.brn.ch n

/-- The chip with branch channel n written. -/
def Chip.putBranch (m : Chip) (n : Nat) (b : Branch) : Chip :=
  { m with brn := { m.brn with ch := NTab.set Branch.init m.brn.ch n b } }

/-- GENn is asserted by the channel's state machine: in INRUSH and ON (R358). -/
def Branch.gen (b : Branch) : Bool := b.st = .inrush || b.st = .on

/-- Branch n is configured, and its meters run: IFS and VFS are non-zero (R349, R358). A field out of its range cannot be stored. -/
def Chip.brnConfigured (m : Chip) (n : Nat) : Bool := m.fld .brnNScale n 15 0 != 0 && m.fld .brnNScale n 31 16 != 0

/-- A meter register of branch n: 0 while its meters do not run (R349). -/
def Chip.brnMeter (m : Chip) (r : RName) (n : Nat) : Word := if m.brnConfigured n then m.get r n else 0

/-- A branch register as it is in effect: a write takes effect at the next meter sample (R367). -/
def Chip.brnW (m : Chip) (r : RName) (n : Nat) : Word :=
  match (m.branch n).held.find? (fun e => e.1 = r) with
  | some e => e.2
  | none => m.get r n

/-- A field of a branch register in effect. -/
def Chip.brnF (m : Chip) (r : RName) (n hi lo : Nat) : Nat := bits (m.brnW r n) hi lo

/-- A write of a branch register that waits for the next meter sample, where the meters run (R367). -/
def Chip.brnHold (m : Chip) (r : RName) (n : Nat) : Chip :=
  let b := m.branch n
  if m.brnConfigured n && !b.held.any (fun e => e.1 = r) then m.putBranch n { b with held := (r, m.get r n) :: b.held } else m

/-- A field of BRN_CFG or BRN_STAGGER in effect (R367). -/
def Chip.brnShared (m : Chip) (r : RName) (hi lo : Nat) : Nat :=
  match m.brn.held.find? (fun e => e.1 = r) with
  | some e => bits e.2 hi lo
  | none => m.fld r 0 hi lo

/-- A write of BRN_CFG or BRN_STAGGER waits for the next meter sample, where some branch's meters run (R367). -/
def Chip.brnHoldShared (m : Chip) (r : RName) : Chip :=
  if (List.range 24).any m.brnConfigured && !m.brn.held.any (fun e => e.1 = r) then
    { m with brn := { m.brn with held := (r, m.get r 0) :: m.brn.held } }
  else m

/-- Auto-zero measures in this state: OFF, TRIPPED or LATCHED (R350). -/
def BrnSt.rests (st : BrnSt) : Bool := st = .off || st = .tripped || st = .latched

/-- A branch enters a state; a CAUSE is noted on an exit from ON or INRUSH, of which INRUSH to ON is none (R368). -/
def Chip.brnTo (m : Chip) (n : Nat) (st : BrnSt) (cause : Nat) : Chip :=
  let b := m.branch n
  let gen : Bool := st = .inrush || st = .on
  let m := m.putBranch n { b with st := st, since := m.now, limit := false, limAt := m.now,
                                  genAt := if gen = b.gen then b.genAt else m.now, fallRaised := b.fallRaised && gen = b.gen,
                                  leakAt := if gen then none else b.leakAt,
                                  azHist := if b.st.rests && st.rests then b.azHist else [],
                                  cause := if b.gen && st != .on then cause else b.cause }
  if m.brn.autoCur = some n && b.st = .inrush && m.brn.autoLeft = none then
    { m with brn := { m.brn with autoLeft := some m.now } }
  else m

/-- A branch is taken to OFF with retry count 0: INRUSH, ON and TRIPPED (R358). -/
def Chip.brnOff (m : Chip) (n cause : Nat) : Chip :=
  let b := m.branch n
  if b.gen || b.st = .tripped then
    (m.brnTo n .off cause) |> fun m => m.putBranch n { m.branch n with retry := 0 }
  else m

/-- An OFF command at a branch that is not FENCED (R358): a LATCHED branch goes to OFF as well, its fault's hold lifted. -/
def Chip.brnOffCmd (m : Chip) (n : Nat) : Chip :=
  if (m.branch n).st = .latched then (m.putBranch n { m.branch n with st := .off, since := m.now }).dropFence .branch n
  else m.brnOff n 1

/-- A FENCE reaction names a branch: GENn low, GDRVn at 0 V (R358, R359). -/
def Chip.brnFence (m : Chip) (n src : Nat) : Chip :=
  if (m.branch n).st = .fenced then m
  else (m.brnTo n .fenced 8).holdFence .branch n src

/-- Every branch is treated in ascending order. -/
def Chip.eachBranch (m : Chip) (f : Nat → Chip → Chip) : Chip := (List.range 24).foldl (fun m n => f n m) m

/-- STOP, SAFE_EXIT and the like take every branch that is not FENCED or LATCHED to OFF (R362). -/
def Chip.brnAllOff (m : Chip) (cause : Nat) : Chip :=
  let m := m.eachBranch (fun n m => m.brnOff n cause)
  { m with brn := { m.brn with auto := [], autoCur := none, autoLeft := none } }

/-- A SAFE reaction takes each branch with SAFEACT = 0 to OFF (R363). -/
def Chip.brnSafe (m : Chip) : Chip :=
  m.eachBranch (fun n m => if bitOf (m.brnW .brnNCfg n) 1 then m else m.brnOff n 9)

end Sys2Proof.Machine
end

