-- ==== Sys2Proof/Machine/CnvOps.lean ====
section
/-!
DEFINITION. The converter stages' shared operations (R315 to R322, R334, R335): start, stop, quick stop, fences.
-/

namespace Sys2Proof.Machine

/-- The register index of a stage: 0 for the BCV, 1 for the AXC (R297). -/
def stageIx : Stage → Nat
  | .bcv => 0 | .axc => 1

/-- The phases of a stage (R297). -/
def phaseCount (x : Nat) : Nat := if x = 0 then 8 else 4

/-- Stage x. -/
def Chip.conv (m : Chip) (x : Nat) : Conv := NTab.get Conv.init m.cnv.stages x

/-- The chip with stage x written. -/
def Chip.putConv (m : Chip) (x : Nat) (c : Conv) : Chip :=
  { m with cnv := { m.cnv with stages := NTab.set Conv.init m.cnv.stages x c } }

/-- Phase k of a stage. -/
def Conv.phase (c : Conv) (k : Nat) : Phase := NTab.get Phase.init c.phases k

/-- A stage with phase k written. -/
def Conv.putPhase (c : Conv) (k : Nat) (p : Phase) : Conv := { c with phases := NTab.set Phase.init c.phases k p }

/-- A stage whose phases are all changed. -/
def Conv.eachPhase (c : Conv) (x : Nat) (f : Nat → Phase → Phase) : Conv :=
  (List.range (phaseCount x)).foldl (fun c k => c.putPhase k (f k (c.phase k))) c

/-- The enabled phases of a stage (CNV_x_CFG.PHEN). -/
def Chip.phen (m : Chip) (x : Nat) : Nat := m.fld .cnvXCfg x 23 16 % 2 ^ phaseCount x

/-- The enabled phases that are not fenced, as a mask. -/
def Chip.usable (m : Chip) (x : Nat) : Nat :=
  (List.range (phaseCount x)).foldl
    (fun a k => if has (m.phen x) k && !((m.conv x).phase k).fenced then setM a k else a) 0

/-- A stage is switching: SOFTSTART, RUN or STOPPING. -/
def Conv.switching (c : Conv) : Bool := c.st = .softstart || c.st = .run || c.st = .stopping

/-- The synchronous switch of a stage's phases is the high side (R309): a BCV's while the effective command is positive. In duty kind the
effective command follows the measured current (DEDUCED, log entry 89). -/
def Conv.syncHi (c : Conv) (x : Nat) : Bool := x = 0 && (if c.quickAt.isSome then c.quickPos else decide (0 < c.eff))

/-- Tone t as it is in use. -/
def Chip.tone (m : Chip) (t : Nat) : Tone := NTab.get { w := 0, t0 := 0, half := 0, run := false } m.cnv.tones t

/-- The chip with tone t written. -/
def Chip.putTone (m : Chip) (t : Nat) (e : Tone) : Chip :=
  { m with cnv := { m.cnv with tones := NTab.set { w := 0, t0 := 0, half := 0, run := false } m.cnv.tones t e } }

/-- A stage comes to rest with its pins low in a given state: no command and no duty is in use. Whether a phase's current has crossed zero
in its period stays known, for a quick stop (R321). -/
def Chip.convRest (m : Chip) (x : Nat) (st : StageSt) : Chip :=
  let c := m.conv x
  let m := m.putConv x ({ c with st := st, since := m.now, eff := 0, duty := 0, integ := 0, meas := 0, limited := false, fastHit := false,
                                 slowcl := false, overload := false, limCnt := 0, shCnt := 0, synclk := false, lockCnt := 0,
                                 track := false, perAt := m.now, quickAt := none }.eachPhase x
    (fun _ p => { p with fastNow := false, zxLast := false, ext := 0, turning := false }))
  if x = 0 then (List.range 8).foldl (fun m t => m.putTone t { m.tone t with run := false }) m else m

/-- A quick stop of a stage that may be switching (R311, R321, R332): the active switches turn off at once, every phase is in diode
emulation until its zero crossing, and no tone is injected. -/
def Chip.convQuick (m : Chip) (x : Nat) (st : StageSt) : Chip :=
  let c := m.conv x
  if c.switching then
    let m := m.convRest x st
    m.putConv x ({ m.conv x with quickAt := some m.now, quickPos := c.syncHi x }.eachPhase x
      (fun _ p => { p with de := true, deCnt := 0 }))
  else m.convRest x st

/-- The ranks of the active phases in their firing order: phase k's new slot among the active set `act` (R302, R334). -/
def Conv.rank (c : Conv) (act k : Nat) : Nat :=
  ((List.range 8).filter (fun j => has act j && ((c.phase j).slot < (c.phase k).slot ||
    ((c.phase j).slot = (c.phase k).slot && j < k)))).length

/-- SOFTSTART begins with a given active set: ceiling 0, checkpoint count 0, every phase in diode emulation (R311, R315). The first stage
boundary starts now. -/
def Chip.convSoftIn (m : Chip) (x act : Nat) : Chip :=
  let c := { m.conv x with st := .softstart, since := m.now, ckpt := 0, eff := 0, duty := 0, integ := 0, meas := 0, limCnt := 0,
                           shCnt := 0, limited := false, fastHit := false, slowcl := false, overload := false, active := act, rot := 0,
                           pendStart := false, quickAt := none, bndAt := m.now * 52428800, len := (m.conv x).period,
                           winAt := m.now, winCnt := 0, winDe := false, loHist := [] }
  m.putConv x (c.eachPhase x (fun k p =>
    { p with de := true, deCnt := 0, fast := false, fastNow := false, scOff := 0, zx := false, zxLast := false, sum := 0, imb := 0,
             slot := popM k act, took := true, ext := 0, turning := false,
             drv := { duty := 0, dt := m.get .cnvXDt x, dlim := m.get .cnvXDlim x } }))

/-- SOFTSTART begins (R315): the active set is the enabled phases that are not fenced (R336). -/
def Chip.convSoft (m : Chip) (x : Nat) : Chip := m.convSoftIn x (m.usable x)

/-- The stage fields are configured (R315): IRATED, IFS, both VFS fields and VTGT are non-zero. A field out of its range
cannot be stored (R301, R12). -/
def Chip.convValid (m : Chip) (x : Nat) : Bool :=
  m.fld .cnvXScale x 15 0 != 0 && m.fld .cnvXScale x 31 16 != 0 && m.fld .cnvXVfs x 15 0 != 0 &&
  m.fld .cnvXVfs x 31 16 != 0 && m.fld .cnvXVtgt x 15 0 != 0 && m.fld .cnvXCfg x 15 12 ≤ popM 8 (m.phen x)

/-- STOPPING begins (R311, R320): every phase is in diode emulation. -/
def Chip.convRamp (m : Chip) (x : Nat) : Chip :=
  m.putConv x ({ m.conv x with st := .stopping, since := m.now, pendStart := false }.eachPhase x
    (fun _ p => { p with de := true, deCnt := 0 }))

/-- A STOP from the mode actions or CNV_x_CMD (R315, R320). -/
def Chip.convStop (m : Chip) (x : Nat) : Chip :=
  let c := m.conv x
  match c.st with
  | .softstart | .run => m.convRamp x
  | .hiccup => m.convRest x .stopped
  | _ => m.putConv x { c with pendStart := false }

/-- A quick stop (R321): from SOFTSTART, RUN and STOPPING the stage ends in STOPPED with its pins low. -/
def Chip.quickStop (m : Chip) (x : Nat) : Chip :=
  let c := m.conv x
  let m := m.putConv x { c with pendStart := false }
  if c.switching || c.st = .hiccup then m.convQuick x .stopped else m

/-- A stage enters FENCED by a quick stop (R315). -/
def Chip.convFence (m : Chip) (x src : Nat) : Chip :=
  if (m.conv x).st = .fenced then m
  else (m.convQuick x .fenced).holdFence .stage x src

/-- A stage whose next boundary finds another active set: the phases keep their order and are spaced anew, each with its present period
lengthened once to reach its slot; a rotation is abandoned (R302, R334). -/
def respaceTo (x : Nat) (act : Nat) (c : Conv) : Conv :=
  let n := popM 8 c.active
  let n' := popM 8 act
  if act = c.active then c
  else
    { c with active := act, rot := 0 }.eachPhase x (fun k p =>
      let slot := c.rank act k
      let old := p.slot * c.period / max 1 n
      let new := slot * c.period / max 1 n'
      -- a phase that would have to start before its present period ends starts one period later
      { p with slot := slot, turning := false, took := p.took || decide (new < old),
               ext := if new < old then new + c.period - old else new - old })

/-- A STAGE item of the journal is applied in shadow (R337, R588): a state that the stage's own machine has not reached is entered as that
machine would enter it, and the active set is the twin's. -/
def Chip.applyStage (m : Chip) (x : Nat) (st : StageSt) (retry act : Nat) : Chip :=
  let c := m.conv x
  let m := if st = c.st then m.putConv x (if c.switching then respaceTo x act c else { c with active := act })
    else if st = .stopped || st = .hiccup || st = .fenced then m.convRest x st
    else
      let m := if c.switching && st != .softstart then m.putConv x (respaceTo x act c) else m.convSoftIn x act
      if st = .run then m.putConv x { m.conv x with st := .run, since := m.now, ckpt := 4 }
      else if st = .stopping then m.convRamp x
      else m
  m.putConv x { m.conv x with retry := retry, active := act }

/-- A SAFE reaction at the stages (R46, R337): stop, or freeze the command and D. -/
def Chip.convSafe (m : Chip) (x : Nat) : Chip :=
  if m.flag .pwrmSafe 0 x then m.putConv x { m.conv x with frozen := true } else m.quickStop x

/-- SAFE has ended: no stage is frozen (R337). -/
def Chip.convThaw (m : Chip) : Chip :=
  (m.putConv 0 { m.conv 0 with frozen := false }) |> fun m => m.putConv 1 { m.conv 1 with frozen := false }

end Sys2Proof.Machine
end

