-- ==== Sys2Proof/Machine/LayOps.lean ====
section
/-!
DEFINITION. The lay engine's shared operations on strand contexts: the transitions of R94, the queue of R95 and R96,
tokens (R111 to R113) and status writes (R92).
-/

namespace Sys2Proof.Machine

/-- A strand's register. S0 to S15. -/
def Strand.reg (s : Strand) (r : Nat) : Word := NTab.get 0 s.regs r

/-- A strand with a register written. -/
def Strand.put (s : Strand) (r : Nat) (w : Word) : Strand := { s with regs := NTab.set 0 s.regs r w }

/-- A strand's local word. -/
def Strand.loc (s : Strand) (i : Nat) : Word := NTab.get 0 s.locals i

/-- A strand's token entry. -/
def Strand.tok (s : Strand) (e : Nat) : Tok := NTab.get Tok.init s.toks e

/-- A strand with a token entry written. -/
def Strand.putTok (s : Strand) (e : Nat) (t : Tok) : Strand := { s with toks := NTab.set Tok.init s.toks e t }

/-- S14 takes a status and a WAKE code (R92). -/
def Strand.status (s : Strand) (st : Status) (wake : Nat) : Strand := s.put 14 (wd (wake * 256 + st.code))

/-- The timer and the register state that START and RESTART clear (R93). The tokens of transactions still outstanding
stay with their entries (R123). -/
def Chip.strandFresh (m : Chip) (k : Nat) : Chip :=
  let s := m.strand k
  m.putStrand k { s with regs := NTab.set 0 [] 0 (m.get .layArg k), z := false, n := false, c := false, v := false,
                         pc := m.fld .layEntry k 18 0, locals := [], period := 0, tick := false, missed := 0 }

/-- A strand joins the back of its priority queue (R94, R96). -/
def Chip.queueBack (m : Chip) (k : Nat) : Chip :=
  { m with lay := { m.lay with queue := m.lay.queue.filter (· != k) ++ [k] } }

/-- A displaced strand goes to the front of its priority queue (R96). -/
def Chip.queueFront (m : Chip) (k : Nat) : Chip :=
  { m with lay := { m.lay with queue := k :: m.lay.queue.filter (· != k) } }

/-- A strand leaves the queue. -/
def Chip.queueDrop (m : Chip) (k : Nat) : Chip :=
  { m with lay := { m.lay with queue := m.lay.queue.filter (· != k) } }

/-- A strand becomes READY at the back of its queue with a new activation (R120). -/
def Chip.strandReady (m : Chip) (k : Nat) : Chip :=
  let s := m.strand k
  (m.putStrand k { s with st := .ready, wait := none, act := 0, keep := false, slice := 0, after := [] }).queueBack k

/-- A strand leaves its lane or queue for HALTED or FENCED (R94). A halted wait is kept, to be executed again. -/
def Chip.strandEnd (m : Chip) (k : Nat) (st : StrSt) (why : Nat) : Chip :=
  let s := m.strand k
  (m.putStrand k { s with st := st, why := why, wait := none, after := [], keep := false }).queueDrop k

/-- A strand is FREE again: the results of its tokens are discarded, and an entry with a transaction outstanding returns
only after it has completed (R123). -/
def Chip.strandFree (m : Chip) (k : Nat) : Chip :=
  let s := m.strand k
  let toks := (List.range 16).foldl (fun (ts : NTab Tok) e =>
    let t := NTab.get Tok.init ts e
    let t' : Tok := if t.used && t.done.isNone then { t with dropped := true }
                    else { t with used := false, dropped := false, done := none }
    NTab.set Tok.init ts e t') s.toks
  (m.putStrand k { s with st := .free, wait := none, after := [], keep := false, toks := toks, act := 0 }).queueDrop k

/-- The strand waits on a held device access (R99). -/
def Strand.onAccess (s : Strand) : Bool := s.st = .waiting && s.wait = some .access

/-- A HALT acts on a READY, RUNNING or WAITING strand; on a held access it waits for the access (R94, R99). -/
def Chip.strandHalt (m : Chip) (k : Nat) : Chip :=
  let s := m.strand k
  if s.onAccess then m.putStrand k { s with after := s.after ++ [.halt] }
  else if s.st = .ready || s.st = .running || s.st = .waiting then m.strandEnd k .halted 2
  else m

/-- A FENCE reaction names a strand (R94, R137 WHY 0x7 when it is not the strand's own fault); on a held access it waits for the
access (R99). -/
def Chip.strandFence (m : Chip) (k src : Nat) : Chip :=
  let s := m.strand k
  if s.st = .fenced || s.st = .free then m
  else if s.onAccess then m.putStrand k { s with after := s.after ++ [.fence src] }
  else (m.strandEnd k .fenced (if 19 ≤ src ∧ src ≤ 30 then 3 + (src - 19) % 4 else 7)).holdFence .strand k src

/-- Every READY, RUNNING and WAITING strand of an owner is halted (R138, R568). -/
def Chip.haltOwner (m : Chip) (o : Owner) : Chip :=
  (List.range 256).foldl (fun m k =>
    let s := m.strand k
    if s.owner = o && (s.st = .ready || s.st = .running || s.st = .waiting) then m.strandHalt k else m) m

/-- The transaction behind a token entry completes (R113, R123): a dropped entry returns free, another keeps the result. -/
def Chip.tokenDone (m : Chip) (k e : Nat) (st : Status) (w : Word) : Chip :=
  let s := m.strand k
  let t := s.tok e
  if t.used && t.done.isNone then
    m.putStrand k (s.putTok e (if t.dropped then { t with used := false, dropped := false } else { t with done := some (st, w) }))
  else m

/-- The token word of an entry (R111). -/
def tokenWord (serial entry : Nat) : Word := wd (serial % 4096 * 16 + entry)

/-- The entry an issue would take: the lowest free one (R112). -/
def Strand.freeTok (s : Strand) : Option Nat := (List.range 16).find? (fun e => !(s.tok e).used)

/-- The lanes in use. -/
def Chip.running (m : Chip) : List Nat := (List.range 256).filter (fun k => (m.strand k).st = .running)

/-- A word of the commons, by word index. -/
def Chip.common (m : Chip) (i : Nat) : Word := NTab.get 0 m.lay.commons i

/-- The commons with a word written. -/
def Chip.putCommon (m : Chip) (i : Nat) (w : Word) : Chip :=
  { m with lay := { m.lay with commons := NTab.set 0 m.lay.commons i w } }

/-- A word of the program store, by word index. -/
def Chip.program (m : Chip) (i : Nat) : Word := NTab.get 0 m.lay.prog i

end Sys2Proof.Machine
end

