-- ==== Sys2Proof/Machine/PtnBase.lean ====
section
/-!
DEFINITION. The partner table's fields (R427), paths and their fences, and the items of each class with their lengths
(R431, R432, R476).
-/

namespace Sys2Proof.Machine

/-- Word w of entry e as stored. -/
def Chip.pw (m : Chip) (e w : Nat) : Word := NTab.get 0 m.ptn.table (8 * e + w)

/-- What PTN keeps for entry e. -/
def Chip.ent (m : Chip) (e : Nat) : Ent := NTab.get Ent.init m.ptn.ents e

/-- The chip with entry e's record written. -/
def Chip.putEnt (m : Chip) (e : Nat) (x : Ent) : Chip :=
  { m with ptn := { m.ptn with ents := NTab.set Ent.init m.ptn.ents e x } }

/-- The class code of an entry. -/
def Chip.entClass (m : Chip) (e : Nat) : Nat := bits (m.pw e 0) 31 24

/-- EN of an entry. -/
def Chip.entEn (m : Chip) (e : Nat) : Bool := bitOf (m.pw e 0) 20

/-- An entry is defined (R430). -/
def Chip.entDefined (m : Chip) (e : Nat) : Bool := e < 4096 && m.entEn e && m.entClass e != 0

/-- An entry of class SHARE_GROUP. -/
def Chip.entGroup (m : Chip) (e : Nat) : Bool := m.entClass e = 4

/-- An entry with a link path. -/
def Chip.entLink (m : Chip) (e : Nat) : Bool := bitOf (m.pw e 1) 31

/-- The number of an entry's path: bus 0 to 15, or 16 + segment. -/
def Chip.entPath (m : Chip) (e : Nat) : Nat :=
  if m.entLink e then 16 + bits (m.pw e 1) 25 24 else bits (m.pw e 1) 27 24

/-- The mux channel an entry lies behind. -/
def Chip.entMux (m : Chip) (e : Nat) : Option Nat :=
  if !m.entLink e && bitOf (m.pw e 1) 23 then some (bits (m.pw e 1) 14 12) else none

/-- An entry's address or node. -/
def Chip.entAddr (m : Chip) (e : Nat) : Nat := bits (m.pw e 1) 6 0

/-- Bus n. -/
def Chip.bus (m : Chip) (n : Nat) : Bus := NTab.get Bus.init m.twb.bus n

/-- The chip with bus n written. -/
def Chip.putBus (m : Chip) (n : Nat) (b : Bus) : Chip :=
  { m with twb := { m.twb with bus := NTab.set Bus.init m.twb.bus n b } }

/-- Segment n. -/
def Chip.seg (m : Chip) (n : Nat) : Seg := NTab.get Seg.init m.slk.seg n

/-- The chip with segment n written. -/
def Chip.putSeg (m : Chip) (n : Nat) (g : Seg) : Chip :=
  { m with slk := { m.slk with seg := NTab.set Seg.init m.slk.seg n g } }

/-- Bus n is fenced; it stays so while a recovery that an UNFENCE started runs (R473). -/
def Chip.busFenced (m : Chip) (n : Nat) : Bool :=
  let b := m.bus n
  b.st = .fenced || (b.st = .recover && b.wasFenced)

/-- A path is fenced: a bus, or a link segment. -/
def Chip.busOrSegFenced (m : Chip) (p : Nat) : Bool := if p < 16 then m.busFenced p else (m.seg (p - 16)).fenced

/-- A mux segment is fenced (R546). -/
def Chip.muxFenced (m : Chip) (n ch : Nat) : Bool := NTab.get false m.twb.muxFence (8 * n + ch)

/-- PATHF of an entry: its bus, mux segment or link segment is fenced. A group has no path of its own. -/
def Chip.pathFenced (m : Chip) (e : Nat) : Bool :=
  if m.entGroup e then false
  else m.busOrSegFenced (m.entPath e) || (match m.entMux e with
    | some ch => m.muxFenced (m.entPath e) ch
    | none => false)

/-- An entry or its path is fenced. -/
def Chip.entFenced (m : Chip) (e : Nat) : Bool := (m.ent e).st = .fenced || m.pathFenced e

/-- The default setpoint item of a class (R431). -/
def classItem (c : Nat) : Nat := if c = 3 ∨ c = 4 then 0x100 else if c = 6 then 0x121 else 0

/-- The setpoint item of an entry, 0 for none. -/
def Chip.spItem (m : Chip) (e : Nat) : Nat :=
  if bits (m.pw e 3) 11 0 = 0 then classItem (m.entClass e) else bits (m.pw e 3) 11 0

/-- The data length that the PMBus command table gives a code: 0 send byte, 1 or 2 data bytes, 5 block; none where the
code is reserved or a process call (PRESUMED from the PMBus specification Part II, log entry 40). -/
def pmbusLen (c : Nat) : Option Nat :=
  if c ∈ [0x03, 0x11, 0x12, 0x15, 0x16] then some 0
  else if c ∈ [0x05, 0x86, 0x87] ∨ (0x99 ≤ c ∧ c ≤ 0x9F) ∨ c ∈ [0xAA, 0xAB, 0xAD, 0xAE] ∨ (0xB0 ≤ c ∧ c ≤ 0xBF) then some 5
  else if c ≤ 0x04 ∨ c ∈ [0x10, 0x13, 0x14, 0x17, 0x18, 0x19, 0x20, 0x3A, 0x3D, 0x41, 0x45, 0x47, 0x49, 0x4C, 0x50, 0x54,
      0x56, 0x5A, 0x5C, 0x63, 0x69, 0x78, 0x98, 0xAC] ∨ (0x7A ≤ c ∧ c ≤ 0x82) then some 1
  else if c = 0x1B ∨ (0x21 ≤ c ∧ c ≤ 0x2A) ∨ (0x31 ≤ c ∧ c ≤ 0x33) ∨ (0x35 ≤ c ∧ c ≤ 0x4B) ∨ (0x4F ≤ c ∧ c ≤ 0x66) ∨
      c = 0x68 ∨ c = 0x6A ∨ c = 0x6B ∨ c = 0x79 ∨ (0x88 ≤ c ∧ c ≤ 0x97) ∨ (0xA0 ≤ c ∧ c ≤ 0xA9) ∨ (0xC0 ≤ c ∧ c ≤ 0xC2) then
    some 2
  else none

/-- An item of a class: its command code and its length (0 none, 1 to 4 bytes, 5 block), if the class defines it (R431,
R476). -/
def itemOf (cls item : Nat) : Option (Nat × Nat) :=
  let explicit := if item / 256 % 8 ≤ 5 then some (item % 256, item / 256 % 8) else none
  if cls = 1 then (if item < 2048 then explicit else none)
  else if (cls = 2 ∨ cls = 3) ∧ 0x800 ≤ item then explicit
  else if (cls = 2 ∨ cls = 3) ∧ item < 0xD0 then (pmbusLen item).map (fun n => (item, n))
  else if cls = 3 then
    (if item = 0x100 then some (0xD0, 4)
     else if 0x101 ≤ item ∧ item ≤ 0x106 then some (0xD0 + item % 16, 2) else none)
  else if cls = 4 then (if item = 0x100 then some (0xD0, 4) else if item = 0x110 then some (0xD0, 0) else none)
  else if cls = 5 then
    (if item = 0x010 then some (0x10, 4) else if item = 0x011 then some (0x11, 1)
     else if item = 0x012 then some (0x12, 5) else none)
  else if cls = 6 then (if item = 0x120 ∨ item = 0x121 then some (0, 4) else none)
  else none

/-- The members of a group: enabled RECTIFIER entries whose MEMB and GROUP name it, in ascending entry order. -/
def Chip.members (m : Chip) (g : Nat) : List Nat :=
  (m.ptn.ents.map (fun x => x.1)).filter (fun e =>
    m.entDefined e && bitOf (m.pw e 2) 31 && bits (m.pw e 2) 27 16 = g && m.entClass e = 3)

/-- MIDX of a member. -/
def Chip.midx (m : Chip) (e : Nat) : Nat := bits (m.pw e 2) 13 8

/-- The members of a group in MIDX order (R444). -/
def Chip.membersByMidx (m : Chip) (g : Nat) : List Nat :=
  (List.range 48).flatMap (fun k => (m.members g).filter (fun e => m.midx e = k))

/-- The entries of a path that are enabled or, their EN cleared, still have transactions outstanding (R430, R455). -/
def Chip.entriesHeld (m : Chip) (p : Nat) : List Nat :=
  (m.ptn.ents.map (fun x => x.1)).filter (fun e =>
    (m.entDefined e || m.ptn.pool.any (fun t => t.entry = e)) && !m.entGroup e && m.entPath e = p)

/-- The enabled entries of a path. -/
def Chip.entriesOn (m : Chip) (p : Nat) : List Nat :=
  (m.ptn.ents.map (fun x => x.1)).filter (fun e => m.entDefined e && !m.entGroup e && m.entPath e = p)

end Sys2Proof.Machine
end

