-- ==== Sys2Proof/Machine/CleOps.lean ====
section
/-!
DEFINITION. The loop slots' shared operations (R211 to R250): loop words, the output's destination, the setpoint, the
outstanding voltage commands (R324), stopping and fencing.
-/

namespace Sys2Proof.Machine

/-- Slot s. -/
def Chip.lslot (m : Chip) (s : Nat) : Slot := NTab.get Slot.init m.cle.slots s

/-- The chip with slot s written. -/
def Chip.putLslot (m : Chip) (s : Nat) (x : Slot) : Chip :=
  { m with cle := { m.cle with slots := NTab.set Slot.init m.cle.slots s x } }

/-- Word w of slot s as read: a header word, a staged word or a STATE word (R211). -/
def Chip.lw (m : Chip) (s w : Nat) : Word := NTab.get 0 m.cle.mem (256 * s + w)

/-- The chip with word w of slot s written. -/
def Chip.putLw (m : Chip) (s w : Nat) (d : Word) : Chip :=
  { m with cle := { m.cle with mem := NTab.set 0 m.cle.mem (256 * s + w) d } }

/-- Word j of block k in a slot: 0 DESC, 1 SRC, 2 + i PARAMi, 18 + j STATEj (R215). -/
def blkWord (k j : Nat) : Nat := 32 + 28 * k + j

/-- Active word j of block k. -/
def Chip.aw (m : Chip) (s k j : Nat) : Word := NTab.get 0 m.cle.active (256 * s + blkWord k j)

/-- Active parameter i of block k as Q8.24. -/
def Chip.ap (m : Chip) (s k i : Nat) : Int := qSx (m.aw s k (2 + i))
  where qSx (w : Word) : Int := w.toInt

/-- STATEj of block k. -/
def Chip.stw (m : Chip) (s k j : Nat) : Word := m.lw s (blkWord k (18 + j))

/-- The chip with STATEj of block k written. -/
def Chip.putStw (m : Chip) (s k j : Nat) (d : Word) : Chip := m.putLw s (blkWord k (18 + j)) d

/-- NBLK: the index of the chain's last block. -/
def Chip.nblk (m : Chip) (s : Nat) : Nat := bits (m.lw s 0) 10 8

/-- The active TYPE of block k. -/
def Chip.blkType (m : Chip) (s k : Nat) : Nat := bits (m.aw s k 0) 3 0

/-- DKIND and DINDEX of a slot's output block (R245). -/
def Chip.dest (m : Chip) (s : Nat) : Nat × Nat :=
  let w := m.aw s (m.nblk s) 2
  (bits w 27 24, bits w 15 0)

/-- The slot has its output bound: ARMED or FENCED (R220). -/
def Slot.bound (x : Slot) : Bool := x.st != .stopped

/-- The slots whose output is bound to a destination. -/
def Chip.boundTo (m : Chip) (dk di : Nat) : List Nat :=
  (List.range 64).filter (fun s => (m.lslot s).bound && m.dest s = (dk, di))

/-- Slot s's SP is bound to another slot's output (R220). -/
def Chip.spBound (m : Chip) (s : Nat) : Bool := !(m.boundTo 7 s).isEmpty

/-- SPITEM of entry e is bound to an output block (R427, R432). -/
def Chip.entBound (m : Chip) (e : Nat) : Bool := !(m.boundTo 6 e).isEmpty

/-- The destination cannot take values (R248). -/
def Chip.blocked (m : Chip) (s : Nat) : Bool :=
  let d := m.dest s
  (m.lslot s).bound &&
  (if d.1 = 1 ∨ d.1 = 2 then !(m.conv 0).switching
   else if d.1 = 3 ∨ d.1 = 4 then !(m.conv 1).switching
   else if d.1 = 5 then !(m.branch d.2).gen
   else if d.1 = 6 then !m.entDefined d.2 || m.entFenced d.2
   else false)

/-! ### Voltage commands (R323, R324) -/

/-- An entry joins CNV_x_VDONE; every completion but ESUPERSEDED raises CNV_VDONE, with a record that names the stage (R324, R344). -/
def Chip.vdonePush (m : Chip) (x tag : Nat) (st : Status) : Chip :=
  let c := m.conv x
  let m := m.putConv x { c with vtag := none, vdone := c.vdone ++ [wd (tag + st.code * 256)] }
  if st = .esuperseded then m else (m.eventRecord 215 x [tag + st.code * 256]).event 215

/-- VSLOT of a stage. -/
def Chip.vslot (m : Chip) (x : Nat) : Nat := m.fld .cnvXVrate x 21 16

/-- The outstanding voltage commands on slot s complete with a status. -/
def Chip.vcmdEnd (m : Chip) (s : Nat) (st : Status) : Chip :=
  (List.range 2).foldl (fun m x =>
    match (m.conv x).vtag with
    | some t => if (m.conv x).vcSlot = s then m.vdonePush x t st else m
    | none => m) m

/-- SPACT has reached SP (R228): once per target. -/
def Chip.spReached (m : Chip) (s : Nat) : Chip :=
  if m.lw s 6 = m.lw s 2 && !(m.lslot s).spDone then
    let m := m.putLslot s { m.lslot s with spDone := true }
    let m := m.putF .cleSpreach (s / 32) (s % 32) (s % 32) 1
    (((m.eventRecord 202 s [wd s]).event 202).vcmdEnd s .ok)
  else m

/-- SP of slot s takes a new target, which supersedes a voltage command (R227, R324). -/
def Chip.spTarget (m : Chip) (s : Nat) (v : Word) : Chip :=
  let m := (m.vcmdEnd s .esuperseded).putLw s 2 v
  m.putLslot s { m.lslot s with spDone := false }

/-- SP of slot s is written (R227, R228): a value it does not already hold is a new target, which an ARMED slot's SPACT may have reached
already. -/
def Chip.setSp (m : Chip) (s : Nat) (v : Word) : Chip :=
  if m.lw s 2 = v then m
  else (m.spTarget s v).when ((m.lslot s).st = .armed) (fun m => m.spReached s)

/-! ### The output (R24, R244 to R249) -/

/-- A value reaches a destination of kind 1 to 5, 7 or 8. In SHADOW it stays a shadow value (R251): stages and branches
keep it behind the closed gate, and neither an SP nor a commons word is written. -/
def Chip.writeDest (m : Chip) (s : Nat) (v : Int) : Chip :=
  let d := m.dest s
  let shadow := m.pwr.base = .shadow
  if d.1 = 1 ∨ d.1 = 2 then m.putConv 0 { m.conv 0 with loopVal := v }
  else if d.1 = 3 ∨ d.1 = 4 then m.putConv 1 { m.conv 1 with loopVal := v }
  else if d.1 = 5 then m.putBranch d.2 { m.branch d.2 with loopVal := some v }
  else if d.1 = 7 then (if shadow then m else m.setSp d.2 (wdI v))
  else if d.1 = 8 then (if shadow then m else m.putCommon d.2 (wdI v))
  else m

/-- The output is bound at RUN (R218, R299, R356). -/
def Chip.bindOut (m : Chip) (s : Nat) : Chip :=
  let d := m.dest s
  if 1 ≤ d.1 ∧ d.1 ≤ 4 then
    let x := (d.1 - 1) / 2
    m.putConv x { m.conv x with bound := some s, loopDuty := d.1 % 2 = 0 }
  else if d.1 = 5 then
    -- the limit in force stays until the loop's first sample completes (R365)
    m.putBranch d.2 { m.branch d.2 with bound := some s, loopVal := none }
  else m

/-- The output is released (R218). -/
def Chip.releaseOut (m : Chip) (s : Nat) : Chip :=
  let d := m.dest s
  if 1 ≤ d.1 ∧ d.1 ≤ 4 then
    let x := (d.1 - 1) / 2
    m.putConv x { m.conv x with bound := none, loopDuty := false }
  else if d.1 = 5 then m.putBranch d.2 { m.branch d.2 with bound := none, loopVal := none }
  else m

/-- STOPACT or FENCEACT (R249): SAFEVAL to a local destination, or the last value held. -/
def Chip.actOut (m : Chip) (s bit : Nat) : Chip :=
  let k := m.nblk s
  if bitOf (m.aw s k 0) bit && (m.dest s).1 != 0 && (m.dest s).1 != 6 then
    (m.writeDest s (m.ap s k 6)).putStw s k 0 (m.aw s k 8)
  else m

/-- A slot enters STOPPED (R218). -/
def Chip.slotStopped (m : Chip) (s : Nat) : Chip :=
  let m := ((m.actOut s 16).releaseOut s).vcmdEnd s .eabort
  m.putLslot s { m.lslot s with st := .stopped, after := .none, pend := none, run := none, plants := [] }

/-- A slot enters FENCED with its binding kept (R218). -/
def Chip.slotFenced (m : Chip) (s : Nat) : Chip :=
  let m := (m.actOut s 17).vcmdEnd s .efenced
  m.putLslot s { m.lslot s with st := .fenced, after := .none, pend := none, run := none }

/-- A FENCE reaction names a slot: a running sample finishes first (R218). -/
def Chip.slotFence (m : Chip) (s src : Nat) : Chip :=
  let x := m.lslot s
  if x.st != .armed then m
  else
    let m := m.holdFence .slot s src
    if x.run.isSome then m.putLslot s { x with after := .fence, pend := none } else m.slotFenced s

end Sys2Proof.Machine
end

