-- ==== Sys2Proof/Machine/SeqOps.lean ====
section
/-!
DEFINITION. The shelf rail sequencer's shared operations: step fields (R71), the up run, the reverse walk (R81, R82),
the trace (R85) and the summary record (R86).
-/

namespace Sys2Proof.Machine

/-- The time unit encoding of the step table, in µs (R71). -/
def unitUs (u : Nat) : Nat :=
  if u = 0 then 1 else if u = 1 then 10 else if u = 2 then 1000 else 10000

/-- TYPE of step n. -/
def Chip.stepType (m : Chip) (n : Nat) : Nat := m.fld .seqStepCtl n 31 28
/-- TARGET of step n. -/
def Chip.stepTarget (m : Chip) (n : Nat) : Nat := m.fld .seqStepCtl n 27 23
/-- Qualification or delay time of step n in µs. -/
def Chip.stepQual (m : Chip) (n : Nat) : Nat := m.fld .seqStepCtl n 19 8 * unitUs (m.fld .seqStepCtl n 21 20)
/-- Timeout of step n in µs. -/
def Chip.stepTmo (m : Chip) (n : Nat) : Nat := m.fld .seqStepTmo n 19 8 * unitUs (m.fld .seqStepTmo n 21 20)
/-- Discharge timeout of rail n in µs (R74). -/
def Chip.railDisch (m : Chip) (n : Nat) : Nat := m.fld .seqRailCfg n 19 8 * unitUs (m.fld .seqRailCfg n 21 20)
/-- The PG of rail n is active (R74, PGPOL). -/
def Chip.pgActive (m : Chip) (n : Nat) : Bool := has m.seq.pg n != m.flag .seqRailCfg n 31

/-- A step completion enters the trace as entry 0 (R85). -/
def Chip.seqTrace (m : Chip) (res : Nat) (down : Bool) (step : Nat) : Chip :=
  let w := wd (0x8000 + res * 256 + b2n down * 128 + step)
  { m with seq := { m.seq with trace := ((w, wd m.now) :: m.seq.trace).take 64 } }

/-- A SEQ_SUMMARY record with the event SEQ_DONE (R86, R542). -/
def Chip.seqSummary (m : Chip) (kind last : Nat) : Chip :=
  (m.systemRecord 1 [wd kind, wd m.seq.first, wd last, wd m.seq.result, wd m.seq.rail]).event 230

/-- A new sequence begins: no fault has been raised in it yet (R86). -/
def Chip.seqBegin (m : Chip) (first : Nat) : Chip :=
  { m with seq := { m.seq with first := first, result := 0, rail := 0xFF } }

/-- The first fault of a sequence is kept for its summary (R86); an up sequence that halts and restarts is one (DEDUCED, log
entry 70). -/
def Chip.seqNote (m : Chip) (res rail : Nat) : Chip :=
  if m.seq.result = 0 then { m with seq := { m.seq with result := res, rail := rail } } else m

/-- A step that waits begins: its wait, its rail, its time, and no PG transition counted yet (R75, R76). The qualification time counts from
the step's start at the earliest (DESIGN CHOICE, log entry 72). -/
def Chip.seqWait (m : Chip) (n : Nat) (w : SeqWait) : Chip :=
  let q := { m.seq with step := n, wait := w, wrail := m.stepTarget n, stepAt := m.now, qualAt := m.now, edges := [] }
  { m with seq := q }

/-- Every rail a reset output watches is good (R83). -/
def Chip.watchGood (m : Chip) (n : Nat) : Bool :=
  (List.range 24).all (fun k => !m.flag .seqRstWatch n k || m.pgActive k)

/-- The release step of a reset output has run: the stretch counts from now if its rails are good (R83). -/
def Chip.seqRelease (m : Chip) (n : Nat) : Chip :=
  let q := { m.seq with released := setM m.seq.released n, goodAt := NTab.set 0 m.seq.goodAt n m.now }
  { m with seq := q }

/-- What a change of levels or of polarity and watch masks moves (R75, R79, R83): the stamp at which a rail's PG last changed, the stamp at
which all rails of a reset output last became good, and the qualification of the rail waited for. -/
def Chip.seqGood (m old : Chip) : Chip :=
  let pg := (List.range 24).foldl (fun t k => if m.pgActive k = old.pgActive k then t else NTab.set 0 t k m.now) m.seq.pgAt
  let gd := (List.range 4).foldl
    (fun t n => if m.watchGood n && !old.watchGood n then NTab.set 0 t n m.now else t) m.seq.goodAt
  let breaks := m.seq.wait = .good && m.pgActive m.seq.wrail != old.pgActive m.seq.wrail
  { m with seq := { m.seq with pgAt := pg, goodAt := gd, qualAt := if breaks then m.now else m.seq.qualAt } }

/-- The up sequence ends at END or after step 63 (R71, R80). -/
def Chip.seqUpEnd (m : Chip) (n : Nat) : Chip :=
  let m := { m with seq := { m.seq with st := .on, step := n, wait := .none, retry := 0 } }
  m.seqSummary 0 n

/-- The up sequence runs from step n until a step has to wait (R71). -/
def Chip.seqUp (m : Chip) (n : Nat) : Nat → Chip
  | 0 => m.seqUpEnd 63
  | fuel + 1 =>
    if 64 ≤ n then m.seqUpEnd 63
    else
      let t := m.stepTarget n
      let ty := m.stepType n
      if ty = 1 then
        let s := { m.seq with en := setM m.seq.en t, enabled := setM m.seq.enabled t, step := n }
        (({ m with seq := s }).seqTrace 0 false n).seqUp (n + 1) fuel
      else if ty = 2 then m.seqWait n .good
      else if ty = 3 then m.seqWait n .delay
      else if ty = 4 then m.seqWait n .disch
      else if ty = 5 then
        (({ m with seq := { m.seq with rst := clrM m.seq.rst t, released := clrM m.seq.released t, step := n } }).seqTrace 0 false n).seqUp (n + 1) fuel
      else if ty = 6 then
        (m.seqRelease t).seqWait n .release
      else m.seqUpEnd n

/-- The up sequence starts at step 0 (R80). -/
def Chip.seqStart (m : Chip) : Chip :=
  ({ m with seq := { m.seq with st := .up, retry := 0 } }).seqBegin 0 |>.seqUp 0 64

/-- The down sequence is complete with all rails off: OFF, or the up sequence again while the on request is set (R80, R82,
R84). -/
def Chip.seqFinish (m : Chip) : Chip :=
  let q := { m.seq with en := 0, enabled := 0, rst := 0, released := 0, wait := .none, step := 0 }
  let m := { m with seq := q }
  let m := m.seqSummary 1 0
  if m.seq.req then ({ m with seq := { m.seq with st := .off } }).seqStart
  else { m with seq := { m.seq with st := .off } }

/-- A rail counts as enabled (R81): its enable is asserted, or its ENABLE step has run. -/
def Chip.seqOnRail (m : Chip) (k : Nat) : Bool := has m.seq.en k || has m.seq.enabled k

/-- A rail is turned off, and its discharge is waited for. -/
def Chip.seqDrop (m : Chip) (k n : Nat) (w : SeqWait) : Chip :=
  let m := { m with seq := { m.seq with en := clrM m.seq.en k, enabled := clrM m.seq.enabled k } }
  (m.seqWait n w) |> fun m => { m with seq := { m.seq with wrail := k } }

/-- The walk has passed step 0. A rail that no step of the table turned off (a table rewritten in ON, or a splice) is turned off
now and waited for, highest first, so that every enabled rail is discharged or timed out (R82; the order is a DESIGN CHOICE, log
entry 70). -/
def Chip.seqDownEnd (m : Chip) : Chip :=
  match (List.range 24).reverse.find? m.seqOnRail with
  | some k => m.seqDrop k 0 .restDisch
  | none => m.seqFinish

/-- The reverse walk from step n back to step 0, until an enabled rail has to discharge (R81). The END step of a walk from ON is
walked and traced as every step is (DESIGN CHOICE, log entry 72). -/
def Chip.seqWalk (m : Chip) : Nat → Chip
  | 0 => m.seqDownEnd
  | n + 1 =>
    let t := m.stepTarget n
    let ty := m.stepType n
    if ty = 1 && m.seqOnRail t then m.seqDrop t n .downDisch
    else if ty = 6 then
      (({ m with seq := { m.seq with rst := clrM m.seq.rst t, released := clrM m.seq.released t } }).seqTrace 0 true n).seqWalk n
    else (m.seqTrace 0 true n).seqWalk n

/-- The down sequence begins at the present step (R80): a step that still waits is left unfinished. It is a sequence of its own:
the up sequence that a fault reverses has no summary, and the down summary starts with no fault (DESIGN CHOICE, log entry 72). -/
def Chip.seqDown (m : Chip) (unfinished : Bool) : Chip :=
  let n := m.seq.step
  let m := if unfinished then m.seqTrace 5 false n else m
  let m := ({ m with seq := { m.seq with st := .down, wait := .none } }).seqBegin n
  m.seqWalk (n + 1)

/-- An OFF: the on request is cleared, and the state machine of R80 decides (R80, R703). -/
def Chip.seqOff (m : Chip) : Chip :=
  let m := { m with seq := { m.seq with req := false } }
  match m.seq.st with
  | .up => m.seqDown (m.seq.wait != .none)
  | .on => m.seqDown false
  | .halted => m.seqDown false
  | _ => m

/-- An ON: the on request is set, and the state machine of R80 decides. -/
def Chip.seqOn (m : Chip) : Chip :=
  let m := { m with seq := { m.seq with req := true } }
  match m.seq.st with
  | .off => m.seqStart
  | .halted => ({ m with seq := { m.seq with st := .up, retry := 0 } }).seqUp m.seq.step 64
  | _ => m

/-- The present step of the up sequence is complete (R71, R85). -/
def Chip.seqStepDone (m : Chip) : Chip :=
  let n := m.seq.step
  (({ m with seq := { m.seq with retry := 0 } }).seqTrace 0 false n).seqUp (n + 1) 64

/-- A rail that the reverse walk turned off has discharged or timed out: the walk goes on below it (R81). -/
def Chip.seqWalkOn (m : Chip) (res : Nat) : Chip :=
  let n := m.seq.step
  (m.seqTrace res true n).seqWalk n

/-- The chip that takes control goes on with the sequence it tracked (R588, R593): the present step starts anew; in a down
sequence an ENABLE step's discharge wait does. -/
def Chip.seqResume (m : Chip) : Chip :=
  let n := m.seq.step
  match m.seq.st with
  | .up => m.seqUp n 64
  | .down => if m.stepType n = 1 then m.seqDrop (m.stepTarget n) n .downDisch else m.seqWalk (n + 1)
  | _ => m

end Sys2Proof.Machine
end

