-- ==== Sys2Proof/Machine/FaultCore.lean ====
section
/-!
DEFINITION. A fault occurrence but for its FENCE reaction (R545 to R552): the latch, the record, the capture trigger and
the reactions DEGRADE and SAFE. Its event is delivered later, once its record is readable.
-/

namespace Sys2Proof.Machine

/-! ### The latch and the record (R549 to R551, R575) -/

/-- The severity programmed for a source (R545). -/
def Chip.sev (m : Chip) (s : Nat) : Nat := m.fld .fltSrc s 2 0

/-- A source's flag after an occurrence (R575). -/
def flagAfter (f : Word) (sev inst : Nat) : Word :=
  let latched := bitOf f 31
  let f := setBits f 30 28 (max (bits f 30 28) sev)
  let f := setBits f 27 24 (satTo 15 (bits f 27 24 + 1))
  let f := if latched then f else setBits f 23 12 inst
  setBits (setBits f 11 0 inst) 31 31 1

/-- An occurrence writes a record (R551): the first since the flag was read, one of a severity above the latched one, or
one at least 1 ms after the source's last record. -/
def Chip.faultRecords (m : Chip) (s sev : Nat) : Bool :=
  !m.flag .fltFlag s 31 || m.fld .fltFlag s 30 28 < sev || NTab.get 0 m.flt.last s + 999 ≤ m.now

/-- Step 2 of R549 at the latch: FLT_FLAGs is updated and the record joins the queue with the delivery that waits
for it. -/
def Chip.latch (m : Chip) (s inst : Nat) (payload : List Word) : Chip :=
  let sev := m.sev s
  let old := m.fld .fltFlag s 30 28
  let rec? := m.faultRecords s sev
  let m := m.put .fltFlag s (flagAfter (m.get .fltFlag s) sev inst)
  if rec? then
    let m := { m with flt := { m.flt with last := NTab.set 0 m.flt.last s (m.now + 1) } }
    m.enqueue { kind := 1, source := s, code := 0, inst := inst, sev := sev, stamp := m.now, payload := payload }
      (if 1 ≤ sev then some { src := s, err := old = 0 } else none)
  else m

/-! ### Reactions -/

/-- The DEGRADE reaction (R46, R547): COND_DEGR with its record, in the base states the row names. -/
def Chip.degrade (m : Chip) : Chip :=
  if m.up && !m.pwr.condDegr then ({ m with pwr := { m.pwr with condDegr := true } }).modeRecord else m

/-- The SAFE reaction (R43, R46, R47, R363, R703): COND_SAFE, then the safe-state programme, whatever mode is reported and on a
gated chip too. What PWRM_SAFE says now holds until the next reaction. -/
def Chip.safeReact (m : Chip) : Chip :=
  if m.up && !m.pwr.condSafe then
    let m : Chip := { m with pwr := { m.pwr with condSafe := true, safeWord := m.fld .pwrmSafe 0 2 0 } }
    let m := ((m.convSafe 0).convSafe 1).brnSafe
    if has m.pwr.safeWord 2 then m.seqOff else m
  else m

/-- An occurrence without the FENCE reaction: latch, record, capture trigger, DEGRADE, SAFE. -/
def Chip.raiseOnly (m : Chip) (s inst : Nat) (payload : List Word) : Chip :=
  let sev := m.sev s
  let m := (m.noteTrig s).latch s inst payload
  let m := m.when (2 ≤ sev) Chip.degrade
  m.when (4 ≤ sev) Chip.safeReact

end Sys2Proof.Machine
end

