-- ==== Sys2Proof/Machine/SplOps.lean ====
section
/-!
DEFINITION. The redundant pair's shared operations: the frames sent (R585), the splice trigger and the fall of INTLK_OUT
(R591, R592).
-/

namespace Sys2Proof.Machine

/-- The output gate is open (R578): INTLK_OUT asserted and INTLK_IN deasserted. -/
def Chip.gateOpen (m : Chip) : Bool := m.spl.out && !m.spl.inp

/-- The acting role is primary: INTLK_OUT is asserted (R576). -/
def Chip.acting (m : Chip) : Bool := m.spl.out

/-- A peer frame is sent under the next SEQ and kept until acknowledged (R585). -/
def Chip.peerSend (m : Chip) (f : PFrame) : Chip :=
  let n := (m.spl.sentSeq + 1) % 65536
  { m with spl := { m.spl with sentSeq := n, unacked := m.spl.unacked ++ [(n, f)] } }

/-- A SPLICE or TAKEBACK record with its cause and both SPL_GAP figures (R601). -/
def Chip.splRecord (m : Chip) (src cause : Nat) : Chip :=
  m.eventRecord src 0 [wd cause, wd (m.fld .splGap 0 15 0), wd (m.fld .splGap 0 31 16)]

/-- Frames with a generation are held from a gate opening without a journal on (R446). -/
def Ptn.hold (p : Ptn) (solo : Bool) (now : Nat) : Ptn :=
  if solo then { p with holdRect := true, holdShelf := true, holdAt := now } else p

/-- The journal is flushed (R591): no JOURNAL and no SNAPSHOT frame waits for its acknowledgement. -/
def Chip.flushed (m : Chip) : Bool :=
  !m.spl.unacked.any (fun (x : Nat × PFrame) => match x.2 with
    | .journal _ => true
    | .snapshot _ => true
    | _ => false)

/-- A sample of a compared slot has produced its OUT: the SLOTOUT is due, at no more than 10 kHz per slot (R594). -/
def Chip.slotSampled (m : Chip) (s : Nat) : Chip :=
  let last := NTab.get 0 m.spl.outAt s
  if m.acting && m.flag .splCmp (s / 32) (s % 32) && (last = 0 || last + 100 ≤ m.now) then
    { m with spl := { m.spl with outDue := setM m.spl.outDue s, outAt := NTab.set 0 m.spl.outAt s m.now } }
  else m

/-- INTLK_OUT falls in LEAVING: the journal is flushed, or 50 µs have passed (R591). -/
def Chip.intlkFall (m : Chip) : Chip :=
  if m.spl.st = .leaving && m.spl.out then { m with spl := { m.spl with out := false, fellAt := m.now } } else m

/-- A chip that is leaving lets INTLK_OUT fall once its journal, the changes of this command with it, is acknowledged (R591). -/
def Chip.leaveEval (m : Chip) : Chip := if m.flushed then m.intlkFall else m

/-- A splice trigger of cause 2 to 4 (R591, R592): from ACTIVE the chip begins to leave; in SOLO only a record is
written. -/
def Chip.splTrigger (m : Chip) (cause : Nat) : Chip :=
  match m.spl.st with
  | .active =>
    ({ m with spl := { m.spl with st := .leaving, cause := cause, fellAt := m.now } } : Chip).peerSend (.spliceNote cause)
  | .solo => m.splRecord 231 cause
  | _ => m

/-- A fault occurrence whose SPL_TRIG bit is set (R592). -/
def Chip.splFault (m : Chip) (s : Nat) : Chip := if m.flag .splTrig (s / 32) (s % 32) then m.splTrigger 2 else m

/-- An occurrence of a source to whose unit a FENCE reaction has nothing to do: it has no unit, or the unit is fenced (R547). -/
def Chip.raiseFree (m : Chip) (s inst : Nat) (payload : List Word) : Chip := (m.raiseOnly s inst payload).splFault s

end Sys2Proof.Machine
end

