-- ==== Sys2Proof/Machine/PtnOps.lean ====
section
/-!
DEFINITION. Transactions (R433 to R446, R453 to R458): acceptance with promotion and superseding, completion in issue
order, the telemetry ring, tentative generations, restores, and the fences of entries and paths.
-/

namespace Sys2Proof.Machine

/-! ### The telemetry ring (R447 to R451) -/

/-- Entries in the ring. -/
def ringSize : Nat := 16384

/-- WR − RD (R450). -/
def Chip.ringLevel (m : Chip) : Nat := (m.get .ptnTelWr 0 - m.get .ptnTelRd 0).toNat

/-- PTN_TELFULL is re-armed below 12,288 entries (R451). -/
def Chip.ringRearm (m : Chip) : Chip :=
  if m.ringLevel < 12288 then { m with ptn := { m.ptn with telRaised := false } } else m

/-- The ring is full in STALL mode. -/
def Chip.ringStalled (m : Chip) : Bool := !m.flag .ptnTelCfg 0 0 && ringSize ≤ m.ringLevel

/-- A reading is written as one ring entry (R449): item, entry, status and value. In STALL mode a full ring discards it
and counts it; in OVERWRITE mode it replaces the oldest (R451). -/
def Chip.ringWrite (m : Chip) (item e : Nat) (st : Status) (value : Nat) : Chip :=
  if m.ringStalled then m.bump .ptnTelLost 0 15 0 1
  else
    let k := (m.get .ptnTelWr 0).toNat
    let x := m.ent e
    let b := 4 * (k % ringSize)
    let put := fun (r : NTab Word) (i : Nat) (w : Word) => NTab.set 0 r (b + i) w
    let w3 := k % 65536 * 65536 + min 255 x.lostSince * 256 + m.now / 2 ^ 32 % 256
    let r := put (put (put (put m.ptn.ring 0 (wd (item % 4096 * 2 ^ 20 + e * 256 + st.code))) 1 (wd value)) 2
      (wd (m.now % 2 ^ 32))) 3 (wd w3)
    let m : Chip := { m with ptn := { m.ptn with ring := r } }
    let m := (m.putEnt e { x with lostSince := 0 }).put .ptnTelWr 0 (wd (k + 1))
    let m := if ringSize < m.ringLevel then m.put .ptnTelRd 0 (m.get .ptnTelRd 0 + 1) else m
    if ringSize ≤ m.ringLevel && !m.ptn.telRaised then
      ({ m with ptn := { m.ptn with telRaised := true } } : Chip).raiseFree 90 0 []
    else m

/-! ### The pool -/

/-- Transactions of an entry in issue order. -/
def Chip.entTxns (m : Chip) (e : Nat) : List Txn := m.ptn.pool.filter (fun t => t.entry = e)

/-- The chip with a transaction changed. -/
def Chip.mapTxn (m : Chip) (id : Nat) (f : Txn → Txn) : Chip :=
  { m with ptn := { m.ptn with pool := m.ptn.pool.map (fun t => if t.id = id then f t else t) } }

/-- A transaction leaves the pool. -/
def Chip.dropTxn (m : Chip) (id : Nat) : Chip :=
  { m with ptn := { m.ptn with pool := m.ptn.pool.filter (fun t => t.id != id) } }

/-- A bus is idle between transactions: what was written to SPEED and DIV is in use from here (R463). -/
def Chip.busIdle (m : Chip) (n : Nat) : Chip :=
  let b := m.bus n
  m.putBus n { b with onWire := none, probe := none, st := if b.st = .active || b.st = .hail then .idle else b.st, ara := false,
                      since := if b.st = .active || b.st = .hail then m.now else b.since,
                      useDiv := m.fld .twbNCfg n 28 16, useSpeed := m.fld .twbNCfg n 2 1 }

/-- The wire a transaction holds on a bus is released. -/
def Chip.freeWire (m : Chip) (id : Nat) : Chip :=
  (List.range 16).foldl (fun m n =>
    let b := m.bus n
    if b.onWire = some id then m.busIdle n else m) m

/-- The frames of a transaction leave the transmit queues. -/
def Chip.freeFrames (m : Chip) (t : Txn) : Chip :=
  (List.range 4).foldl (fun m n =>
    let g := m.seg n
    if t.wire && m.entLink t.entry && m.entPath t.entry = 16 + n then
      m.putSeg n { g with txq := g.txq.filter (fun f => f.dst = 255 || f.tag != t.tag) }
    else m) m

/-- A block's bytes are written to the commons, byte by byte (R162, R465). -/
def Chip.commonsBytes (m : Chip) (off : Nat) : List Nat → Chip
  | [] => m
  | b :: bs =>
    let w := m.common (off / 4)
    let k := off % 4
    (m.putCommon (off / 4) (setBits w (8 * k + 7) (8 * k) b)).commonsBytes (off + 1) bs

/-- The path of a part of a group's transaction, as its group's owed restores name it (R442): its segment, or its member. -/
def Leg.key (l : Leg) : Nat := if 16 ≤ l.path then l.path else 32 + l.entry

/-- The bus or segment of a path that an owed restore names. -/
def Chip.keyPath (m : Chip) (k : Nat) : Nat := if 32 ≤ k then m.entPath (k - 32) else k

/-- The path of a transaction that has one, as an owed restore names it. -/
def Chip.txnKey (m : Chip) (t : Txn) : Nat :=
  match t.legs with
  | l :: _ => l.key
  | [] => m.entPath t.entry

/-- A restore has been sent: its path owes nothing further (R456). -/
def Chip.restored (m : Chip) (e p : Nat) : Chip :=
  m.putEnt e { m.ent e with owes := (m.ent e).owes.filter (fun o => o.1 != p) }

/-- A path of an entry owes a restore of at least a generation (R442). -/
def Chip.owe (m : Chip) (e p g : Nat) : Chip :=
  let x := m.ent e
  let old := x.owes.foldl (fun a o => if o.1 = p then max a o.2 else a) 0
  m.putEnt e { x with owes := x.owes.filter (fun o => o.1 != p) ++ [(p, max old g)] }

/-- GENF takes a generation and its value (R439): a generation below GENF leaves it. -/
def Chip.inForce (m : Chip) (e g v : Nat) : Chip :=
  let x := m.ent e
  if x.genf < g then m.putEnt e { x with genf := g, genv := v } else m

/-- An issue would be refused for the pool (R436, R161): at 256 in class 0, at 256 − RESV0 otherwise. -/
def Chip.poolFull (m : Chip) (crit : Bool) : Bool :=
  (if crit then 256 else 256 - m.fld .ptnCfg 0 15 8) ≤ m.ptn.pool.length

/-- The class of a transaction by its kind (R433). -/
def kindClass (k : TxKind) : Nat :=
  match k with
  | .setp | .final | .retract | .restore | .keep => 0
  | .write | .cmd | .blkw => 1
  | .read => 2
  | .blkr | .poll => 3

/-- A transaction sends a frame that carries a generation on a link path and is held after a gate opening; a group's writes to its two-wire
members are not (R446). -/
def Chip.genHeld (m : Chip) (e : Nat) (k : TxKind) (legs : List Leg) : Bool :=
  (k = .setp || k = .final || k = .retract || k = .restore || k = .keep) &&
    (if m.entGroup e then legs.any (fun l => 16 ≤ l.path) else m.entLink e) &&
    (if m.entClass e = 6 then m.ptn.holdShelf else m.ptn.holdRect)

/-- A part of a group's transaction not yet sent: on a segment with entry 0, or to a two-wire member, with the retries that the member's
entry allows (R434, R465; DEDUCED, log entry 91). -/
def Chip.newLeg (m : Chip) (p k : Nat) : Leg :=
  { path := p, entry := k, active := false, done := false, ok := false, arbs := 0,
    retries := if 16 ≤ p then 0 else bits (m.pw k 0) 19 16 }

/-- The legs of a group's setpoint, keep-alive or retract (R444): one frame for each segment with a usable member, and a
write for each usable two-wire member in MIDX order. -/
def Chip.groupLegs (m : Chip) (e : Nat) : List Leg :=
  let ms := (m.membersByMidx e).filter (fun k => !m.pathFenced k)
  let segs := (List.range 4).filter (fun n => ms.any (fun k => m.entPath k = 16 + n))
  segs.map (fun n => m.newLeg (16 + n) 0) ++ (ms.filter (fun k => !m.entLink k)).map (fun k => m.newLeg (m.entPath k) k)

/-- A transaction joins the pool behind every earlier one of its entry, promoting those of a higher class number (R435); a setpoint
supersedes those not yet started (R443). An owed restore goes before the others (R456). The wake of the LNK domain follows (R518). -/
def Chip.join (m : Chip) (t : Txn) : Chip :=
  let up := fun (o : Txn) =>
    if o.entry != t.entry then o
    else
      let o := if t.cls < o.cls && !o.wire then { o with cls := t.cls } else o
      if t.kind = .setp && o.kind = .setp && !o.wire && !o.legs.any (fun l => l.active || l.done) && o.early.isNone then
        { o with early := some (.esuperseded, 0) }
      else o
  let old := m.ptn.pool.map up
  ({ m with ptn := { m.ptn with pool := if t.first then t :: old else old ++ [t] } } : Chip).wake .lnk

/-- A transaction with its group's parts is accepted. One that PTN itself makes while the pool has no place for its class waits for a place
(R436; DESIGN CHOICE, log entry 91). -/
def Chip.acceptOn (m : Chip) (legs : List Leg) (e item : Nat) (k : TxKind) (by_ : Issuer) (data : Nat) (desc : Word) (gen : Nat)
    (tent : Option (Nat × Nat)) (front : Bool) : Chip :=
  let cls := kindClass k
  let t : Txn := { id := m.ptn.nextId, entry := e, item := item, cls := cls, kind := k, by_ := by_, data := data,
                   desc := desc, gen := gen, tent := tent, issued := m.now, headAt := none, first := front, retries := bits (m.pw e 0) 19 16, arbs := 0,
                   wire := false, started := false, tag := 0, held := m.genHeld e k legs, legs := legs, early := none }
  let m : Chip := { m with ptn := { m.ptn with nextId := m.ptn.nextId + 1 } }
  if by_ = .lib && m.poolFull (cls = 0) then { m with ptn := { m.ptn with wait := m.ptn.wait ++ [t] } } else m.join t

/-- A transaction is accepted; a group's goes to every usable member (R444). -/
def Chip.accept (m : Chip) (e item : Nat) (k : TxKind) (by_ : Issuer) (data : Nat) (desc : Word) (gen : Nat)
    (tent : Option (Nat × Nat)) (front : Bool) : Chip :=
  m.acceptOn (if m.entGroup e then m.groupLegs e else []) e item k by_ data desc gen tent front

/-- The transactions that wait for a place in the pool join it as places become free. -/
def Chip.takeIn (m : Chip) : Chip :=
  m.ptn.wait.foldl (fun m t =>
    if m.poolFull (t.cls = 0) then m
    else ({ m with ptn := { m.ptn with wait := m.ptn.wait.filter (fun o => o.id != t.id) } } : Chip).join t) m

/-- Transactions in the pool or waiting for a place in it. -/
def Chip.allTxns (m : Chip) : List Txn := m.ptn.pool ++ m.ptn.wait

/-- An entry's own read of RATED_I when a RECTIFIER member comes ONLINE (R453). -/
def Chip.readRated (m : Chip) (e : Nat) : Chip :=
  if m.entClass e = 3 && bitOf (m.pw e 2) 31 then m.accept e 0x101 .read .lib 0 0 0 none false else m

/-- The partner state machine at a completion (R453). Answers whether the entry has just been lost. -/
def Chip.entOutcome (m : Chip) (e : Nat) (st : Status) : Chip × Bool :=
  let x := m.ent e
  let agen := if bits (m.pw e 0) 7 4 = 0 then 3 else bits (m.pw e 0) 7 4
  if st = .ok then
    if x.st = .unknown || x.st = .offline then
      ((((m.putEnt e { x with st := .online, fails := 0 }).eventRecord 221 e []).event 221).readRated e, false)
    else (m.putEnt e { x with fails := 0 }, false)
  else if st = .enack || st = .etimeout || st = .eproto then
    let f := min 255 (x.fails + 1)
    if (x.st = .unknown || x.st = .online) && agen ≤ f then (m.putEnt e { x with st := .offline, fails := f }, true)
    else (m.putEnt e { x with fails := f }, false)
  else (m, false)

/-- What the share strand keeps of member e. -/
def Chip.share (m : Chip) (e : Nat) : Share := NTab.get Share.init m.pol.shares e

/-- The chip with it written. -/
def Chip.putShare (m : Chip) (e : Nat) (x : Share) : Chip :=
  { m with pol := { m.pol with shares := NTab.set Share.init m.pol.shares e x } }

/-- A PMBus LINEAR11 value in tenths: an 11-bit mantissa and a 5-bit exponent of 2 (PRESUMED from the PMBus specification Part II, log
entry 40). -/
def linear11 (v : Nat) : Int :=
  let y := 10 * sxN (v % 2048) 11
  let n := sxN (v / 2048 % 32) 5
  if 0 ≤ n then y * 2 ^ n.toNat else rdiv y (2 ^ n.natAbs)

/-- A reading of a rectifier's output current, item 0x08C, is kept; one that the share strand asked for is to be trimmed by (R261, R274). -/
def Chip.shareRead (m : Chip) (e v : Nat) (own : Bool) : Chip :=
  let x := m.share e
  m.putShare e { x with iout := linear11 v, seen := true, due := x.due || own }

/-- What is kept of a reading of an item of entry e, polled, read or streamed (R261, R274, R453): RATED_I, STATUS and a rectifier's output
current; `own` says that the share strand asked for it. -/
def Chip.reading (m : Chip) (e item v : Nat) (own : Bool) : Chip :=
  if item = 0x101 then m.putEnt e { m.ent e with rated := v % 65536 }
  else if item = 0x106 then m.putEnt e { m.ent e with status := v % 65536 }
  else if item = 0x08C && m.entClass e = 3 then m.shareRead e v own
  else m

/-- The identity read of the strings that wait for entry e has ended (R378). -/
def Chip.identRead (m : Chip) (e : Nat) (ok : Bool) (v : Nat) : Chip :=
  (List.range 4).foldl (fun m n =>
    let b := m.bstr n
    if b.reading && b.idRes = none && m.fld .batStrMon n 11 0 = e then m.putBstr n { b with idRes := some (ok, wd v) } else m) m

/-- The module count of the strings whose monitor is entry e has been read (R415). -/
def Chip.modCountRead (m : Chip) (e v : Nat) : Chip :=
  (List.range 4).foldl (fun m n =>
    if m.flag .batStrMon n 31 && m.fld .batStrMon n 11 0 = e && (m.estr n).origin != 0 then
      m.putEstr n { m.estr n with modSeen := some (v % 256) }
    else m) m

/-- The module voltages of the strings whose monitor is entry e have been read (R415): two bytes each, the low byte first (DEDUCED, log
entry 51). -/
def Chip.modVoltsRead (m : Chip) (e : Nat) (bytes : List Nat) : Chip :=
  let vs := (List.range (bytes.length / 2)).map (fun j => bytes.getD (2 * j) 0 + 256 * bytes.getD (2 * j + 1) 0)
  (List.range 4).foldl (fun m n =>
    if m.flag .batStrMon n 31 && m.fld .batStrMon n 11 0 = e && (m.estr n).origin != 0 then
      m.putEstr n { m.estr n with modNew := some vs }
    else m) m

/-- The bytes of a block read that ended OK go to the commons (R465), or to the estimator where it asked for them (R415). -/
def Chip.blockIn (m : Chip) (t : Txn) (bytes : List Nat) : Chip :=
  if t.by_ = .lib then (if t.item = 0x012 then m.modVoltsRead t.entry bytes else m)
  else m.commonsBytes (bits t.desc 17 0) bytes

/-- What a completion leaves at the entry: generations in force, restores, readings of items the policy uses. -/
def Chip.txnEffect (m : Chip) (t : Txn) (st : Status) (v : Nat) : Chip :=
  let e := t.entry
  let x := m.ent e
  match t.kind with
  | .setp =>
    if st != .ok then m
    else match t.tent with
      | none => m.inForce e t.gen t.data
      | some _ => m.putEnt e { x with gens := x.gens.map (fun g => if g.gen = t.gen then { g with ok := true } else g) }
  | .restore => if t.started && st != .efenced then m.restored e (m.txnKey t) else m
  | .read | .poll =>
    if t.by_ = .dropped then m
    else if t.kind = .read && t.by_ = .lib && t.item = 0x010 then m.identRead e (st = .ok) v
    else if st != .ok then m
    else if t.kind = .read && t.by_ = .lib && t.item = 0x011 then m.modCountRead e v
    else m.reading e t.item v (t.by_ = .lib && t.kind = .read)
  | _ => m

/-- A transaction completes in its place (R438): its issuer, the ring, the entry. Answers whether the entry was lost. -/
def Chip.completeTxn (m : Chip) (t : Txn) (st : Status) (v : Nat) : Chip × Bool :=
  let v := if st = .ok then v else 0
  let m := ((m.freeWire t.id).freeFrames t).dropTxn t.id
  let m : Chip := { m with ptn := { m.ptn with done := m.ptn.done ++ [(t.entry, t.id, st.code)] } }
  let m := m.txnEffect t st v
  let m := match t.by_ with
    | .strand k e =>
      m.tokenDone k e st (wd (if st != Status.ok then v else match t.kind with
        | .setp => t.gen
        | .blkw => bits t.desc 31 24
        | _ => v))
    | _ => m
  let m := if t.kind = .poll then m.ringWrite t.item t.entry st v else m
  m.entOutcome t.entry st

/-- The decided transactions at the head of an entry's queue complete, in issue order (R438). -/
def Chip.drain (m : Chip) (e : Nat) : Nat → Chip × Bool
  | 0 => (m, false)
  | fuel + 1 =>
    match m.entTxns e with
    | t :: _ =>
      match t.early with
      | some (st, v) =>
        let r := m.completeTxn t st v
        let r' := r.1.drain e fuel
        (r'.1, r.2 || r'.2)
      | none => (m, false)
    | [] => (m, false)

/-- Most transactions an entry can hold. -/
def poolMax : Nat := 300

/-- A transaction's status is decided; it completes once it is at its entry's head. -/
def Chip.decideTxn (m : Chip) (id : Nat) (st : Status) (v : Nat) : Chip :=
  match m.ptn.pool.find? (fun t => t.id = id) with
  | none => m
  | some t =>
    if t.early.isSome then m
    else ((m.mapTxn id (fun t => { t with early := some (st, v), wire := false })).freeWire id)

/-! ### What time does to the heads (R437, R452) -/

/-- A transaction is the first of its entry's queue. -/
def Chip.isHead (m : Chip) (t : Txn) : Bool := ((m.entTxns t.entry).head?.map (fun o => o.id)) = some t.id

/-- A transaction that has reached its entry's head, and is not held, has its TMO running from now (R437, R446). A group's setpoint or
keep-alive none of whose parts has begun goes to the members whose paths are usable now (R444). -/
def Chip.headMarks (m : Chip) : Chip :=
  { m with ptn := { m.ptn with pool := m.ptn.pool.map (fun t =>
      if t.headAt.isNone && !t.held && m.isHead t then
        let fresh := m.entGroup t.entry && (t.kind = .setp || t.kind = .keep) && !t.legs.any (fun l => l.active || l.done)
        { t with headAt := some m.now, legs := if fresh then m.groupLegs t.entry else t.legs }
      else t) } }

/-- The class whose credit the head transaction of an entry waits for. -/
def Chip.creditWait (m : Chip) (e : Nat) : Option Nat :=
  match m.entTxns e with
  | t :: _ =>
    if m.entLink e && !t.wire && !t.held && t.early.isNone && (m.ent e).cr.getD t.cls 0 = 0 then some t.cls else none
  | [] => none

/-- How long a credit has stayed at 0 while a transaction waits for it runs from the moment both came about (R452). -/
def Chip.stallMark (m : Chip) (e : Nat) : Chip :=
  let x := m.ent e
  match m.creditWait e with
  | none => if x.stall.isNone then m else m.putEnt e { x with stall := none }
  | some c =>
    match x.stall with
    | some (c', _, _) => if c = c' then m else m.putEnt e { x with stall := some (c, m.now, false) }
    | none => m.putEnt e { x with stall := some (c, m.now, false) }

/-- What PTN watches after each command: the heads of the queues and the credits they wait for. -/
def Chip.ptnWatch (m : Chip) : Chip :=
  let m := m.takeIn.headMarks
  (m.ptn.ents.map (fun x => x.1)).foldl (fun m e => m.stallMark e) m

/-! ### Fences (R455, R458) -/

/-- A transaction that a fence ends leaves its path owing a restore (R441, R458, R520): a retract or a restore that has not been sent, a
setpoint on the wire or one that waits for credit at its entry's head. -/
def Chip.owesFenced (m : Chip) (t : Txn) : Bool :=
  t.kind = .restore || t.kind = .retract ||
    (t.kind = .setp && (t.wire || (m.entLink t.entry && m.isHead t && !t.held && t.early.isNone && (m.ent t.entry).cr.getD t.cls 0 = 0)))

/-- The paths on which a transaction has something on the wire or, for a retract or a restore, still to send. -/
def Chip.openKeys (m : Chip) (t : Txn) : List Nat :=
  if m.entGroup t.entry then (t.legs.filter (fun l => l.active || (t.kind != .setp && !l.done))).map Leg.key else [m.entPath t.entry]

/-- The outstanding transactions of an entry complete with EFENCED in issue order (R455), and its paths owe what R458 says. -/
def Chip.fenceTxns (m : Chip) (e : Nat) : Chip :=
  let ts := (m.entTxns e).map (fun t => (t, m.owesFenced t))
  let m := ts.foldl (fun m (x : Txn × Bool) =>
    let t := x.1
    let m := if x.2 then (m.openKeys t).foldl (fun m p => m.owe e p t.gen) m else m
    match t.early with
    | some (st, v) => (m.completeTxn t st v).1
    | none => (m.completeTxn t .efenced 0).1) m
  let mine := m.ptn.wait.filter (fun t => t.entry = e)
  let m := mine.foldl (fun m t => if m.owesFenced t then (m.openKeys t).foldl (fun m p => m.owe e p t.gen) m else m) m
  { m with ptn := { m.ptn with wait := m.ptn.wait.filter (fun t => t.entry != e) } }

/-- A FENCE reaction names an entry (R453). -/
def Chip.partnerFence (m : Chip) (e src : Nat) : Chip :=
  let x := m.ent e
  if x.st = .unknown || x.st = .online || x.st = .offline then
    ((m.putEnt e { x with st := .fenced }).holdFence .partner e src).fenceTxns e
  else m

/-- The parts of group transactions on what a fence names end without being sent, and their group owes a restore for a generation that is
on the wire there, or that was to be retracted or restored there (R442, R458). -/
def Chip.fenceLegs (m : Chip) (hit : Leg → Bool) : Chip :=
  let stop := fun (t : Txn) =>
    { t with legs := t.legs.map (fun l => if hit l && !l.done then { l with done := true, active := false } else l) }
  let m := m.allTxns.foldl (fun m t =>
    if t.kind = .setp || t.kind = .restore || t.kind = .retract then
      (t.legs.filter (fun l => hit l && (l.active || (t.kind != .setp && !l.done)))).foldl (fun m l => m.owe t.entry l.key t.gen) m
    else m) m
  { m with ptn := { m.ptn with pool := m.ptn.pool.map stop, wait := m.ptn.wait.map stop } }

/-- A group transaction at its entry's head all of whose legs have ended completes (R444): EFENCED if no member path is
usable, or if a retract or a restore was not sent. -/
def Chip.settleLegs (m : Chip) : Chip :=
  m.ptn.pool.foldl (fun m t =>
    if m.entGroup t.entry && m.isHead t && !t.held && t.early.isNone && t.legs.all (fun l => l.done) then
      let lost := (t.kind = .restore || t.kind = .retract) && t.legs.any (fun l => !l.ok)
      let st := if (m.groupLegs t.entry).isEmpty || lost then Status.efenced else .ok
      -- what a read of a group answers is stated nowhere: open (log entry 91)
      let reads := t.kind = .read || t.kind = .poll
      let m' := if reads then m.spend else m
      ((m'.decideTxn t.id st (if reads then m.openVal % 2 ^ 32 else 0)).drain t.entry poolMax).1
    else m) m

/-- A bus is fenced (R471 to R473): it drives neither line, and its entries' transactions complete (R455). -/
def Chip.busFence (m : Chip) (n src : Nat) : Chip :=
  let b := m.bus n
  if m.busFenced n then m
  else
    let m := m.putBus n { b with st := .fenced, onWire := none, probe := none, ara := false, byCmd := 0, since := m.now }
    let m := m.holdFence .bus n src
    (((m.entriesHeld n).foldl (fun m e => m.fenceTxns e) m).fenceLegs (fun l => l.path = n)).settleLegs

/-- A mux segment is fenced (R475, R546): its entries' transactions complete, and so do the writes of groups to members behind it. -/
def Chip.muxFence (m : Chip) (n ch src : Nat) : Chip :=
  if m.muxFenced n ch then m
  else
    let m : Chip := { m with twb := { m.twb with muxFence := NTab.set false m.twb.muxFence (8 * n + ch) true } }
    let m := m.holdFence .mux (8 * n + ch) src
    let b := m.bus n
    let m := if b.onWire.isSome && m.entMux b.wireEntry = some ch then m.busIdle n else m
    let m := ((m.entriesHeld n).filter (fun e => m.entMux e = some ch)).foldl (fun m e => m.fenceTxns e) m
    (m.fenceLegs (fun l => l.path = n && m.entMux l.entry = some ch)).settleLegs

/-- A link segment is fenced (R517): nothing is sent, not even the beacon of node 0, and its entries' transactions complete. -/
def Chip.segFence (m : Chip) (n src : Nat) : Chip :=
  let g := m.seg n
  if g.fenced then m
  else
    let m := (m.putSeg n { g with fenced := true, txq := [], beacon := g.beacon && m.fld .slkNCfg n 12 8 != 0 }).holdFence .link n src
    (((m.entriesHeld (16 + n)).foldl (fun m e => m.fenceTxns e) m).fenceLegs (fun l => l.path = 16 + n)).settleLegs

end Sys2Proof.Machine
end

