-- ==== Sys2Proof/Machine/Fault.lean ====
section
/-!
DEFINITION. A fault occurrence, whole (R545 to R552): what Machine/FaultCore.lean holds, the FENCE reaction (R546) and
the splice trigger (R592).
-/

namespace Sys2Proof.Machine

/-- The phases of a stage have become too few (R315, R335). -/
def Chip.convMinPh (m : Chip) (x : Nat) : Chip :=
  let c := m.conv x
  if c.st != .fenced && popM 8 (m.usable x) < m.fld .cnvXCfg x 15 12 then
    (m.convFence x (if x = 0 then 50 else 60)).raiseFree (if x = 0 then 50 else 60) x []
  else m

/-- A FENCE reaction fences a phase (R334, R335). -/
def Chip.phaseFence (m : Chip) (x k src : Nat) : Chip :=
  let c := m.conv x
  if (c.phase k).fenced then m
  else
    ((m.putConv x (c.putPhase k { c.phase k with fenced := true, de := false })).holdFence
      (if x = 0 then .phaseB else .phaseA) k src).convMinPh x

/-- The FENCE reaction isolates the unit that the instance names (R546). In SHADOW it changes no tracked state (R590):
branches, phases and stages stay. -/
def Chip.fenceUnit (m : Chip) (s inst : Nat) : Chip :=
  let shadow := m.pwr.base = .shadow
  match scopeOf s with
  | .branch => if shadow then m else m.brnFence inst s
  | .phaseB => if shadow then m else m.phaseFence 0 inst s
  | .phaseA => if shadow then m else m.phaseFence 1 inst s
  | .stage => if shadow then m else m.convFence inst s
  | .slot => m.slotFence inst s
  | .strand => m.strandFence inst s
  | .partner => m.partnerFence inst s
  | .bus => m.busFence inst s
  | .mux => m.muxFence (inst / 8) (inst % 8) s
  | .link => m.segFence inst s
  | _ => m

/-- An occurrence of a fault source with its instance and payload: steps 1 and 2 of R549. -/
def Chip.raise (m : Chip) (s inst : Nat) (payload : List Word) : Chip :=
  let sev := m.sev s
  ((m.raiseOnly s inst payload).when (3 ≤ sev) (fun m => m.fenceUnit s inst)).splFault s

end Sys2Proof.Machine
end

