-- ==== Sys2Proof/Machine/AcqOps.lean ====
section
/-!
DEFINITION. Which channels exist and which are scanned (R163 to R170, R219), and the latest result of a channel.
-/

namespace Sys2Proof.Machine

/-! ### Channels (R163, R164) -/

/-- Channel c is differential: an even channel below 64 whose pair bit is set. -/
def Chip.chDiff (m : Chip) (c : Nat) : Bool := c < 64 && c % 2 = 0 && m.flag .acqDiff 0 (c / 2)

/-- Channel c exists: not 95, and not the odd half of a differential pair. -/
def Chip.chExists (m : Chip) (c : Nat) : Bool := c < 95 && !(c < 64 && c % 2 = 1 && m.flag .acqDiff 0 (c / 2))

/-- The scan mask of converter n as written. -/
def Chip.scanMask (m : Chip) (n : Nat) : Nat :=
  (m.get .acqCvMask (3 * n)).toNat + (m.get .acqCvMask (3 * n + 1)).toNat * 2 ^ 32 +
    (m.get .acqCvMask (3 * n + 2)).toNat * 2 ^ 64

/-- Converter n has RUN set. -/
def Chip.cvRuns (m : Chip) (n : Nat) : Bool := m.flag .acqCvCfg n 0

/-- Pair p is enabled as an interleaved pair: its masks and the RUN bit of its second converter are ignored (R170). -/
def Chip.ilvEn (m : Chip) (p : Nat) : Bool := m.flag .acqIlvCfg p 0

/-- Pair p converts interleaved (R170). -/
def Chip.ilvOn (m : Chip) (p : Nat) : Bool := m.ilvEn p && m.cvRuns (2 * p)

/-- The channel of pair p. -/
def Chip.ilvCh (m : Chip) (p : Nat) : Nat := m.fld .acqIlvCfg p 14 8

/-- What converter n converts with since its last boundary (R167); nothing while it is stopped. -/
def Chip.convUse (m : Chip) (n : Nat) : ConvUse := NTab.get ConvUse.init m.acq.inUse n

/-- The chip with what converter n converts with written. -/
def Chip.putUse (m : Chip) (n : Nat) (u : ConvUse) : Chip :=
  { m with acq := { m.acq with inUse := NTab.set ConvUse.init m.acq.inUse n u } }

/-- What converter n takes at a scan boundary or a start: its mask and DIV as written (R167). -/
def Chip.writtenUse (m : Chip) (n : Nat) : ConvUse :=
  { mask := m.scanMask n, div := m.fld .acqCvCfg n 15 8, pos := 0, ending := false }

/-- The channel a converter converts next: the lowest of its mask that the present scan has not reached (R166). -/
def ConvUse.next (u : ConvUse) : Option Nat := (List.range 96).find? (fun c => u.pos ≤ c && has u.mask c)

/-- What the AC monitor counts converter n to scan: taken at its last boundary while it runs, as written while it is stopped, and
nothing while its pair is interleaved (R170, R190). -/
def Chip.cvUse (m : Chip) (n : Nat) : ConvUse :=
  if m.ilvEn (n / 2) then ConvUse.init else if m.cvRuns n then m.convUse n else m.writtenUse n

/-- Channel c is being scanned: a running converter converts it (R250). -/
def Chip.chScanned (m : Chip) (c : Nat) : Bool :=
  (List.range 4).any (fun n => !(m.convUse n).ending && has (m.convUse n).mask c)

/-- A chain may name channel c: it is scanned, or is the CH of an enabled interleaved pair (R219). -/
def Chip.chUsable (m : Chip) (c : Nat) : Bool :=
  m.chScanned c || (List.range 2).any (fun p => m.ilvEn p && m.ilvCh p = c)

/-- The rate of a channel in Hz as a fraction (R166, R170). -/
def Chip.chRate (m : Chip) (c : Nat) : Nat × Nat :=
  match (List.range 2).find? (fun p => m.ilvEn p && m.ilvCh p = c) with
  | some p => (10000000, m.fld .acqIlvCfg p 23 16)
  | none => match (List.range 4).find? (fun n => has (m.convUse n).mask c) with
    | some n => (5000000, (m.convUse n).div * popM 96 (m.convUse n).mask)
    | none => (0, 1)

end Sys2Proof.Machine
end

