-- ==== Sys2Proof/Machine/Access.lean ====
section
/-!
DEFINITION. How an access is judged and what it does: the rejections of R12 in their order, and the action of an
accepted write. Each block says both for its own registers; Machine/Bus.lean puts them together.
-/

namespace Sys2Proof.Machine

/-- The rejections that apply to one access (R12). -/
structure Verdict where
  eauth : Bool := false
  erange : Bool := false
  estate : Bool := false
  ebasic : Bool := false
  ebusy : Bool := false
  deriving DecidableEq, Repr

/-- The first rejection that applies, in the order of R12. -/
def Verdict.first (v : Verdict) : Option Status :=
  if v.eauth then some .eauth
  else if v.erange then some .erange
  else if v.estate then some .estate
  else if v.ebasic then some .ebasic
  else if v.ebusy then some .ebusy
  else none

/-- Two verdicts on one access. -/
def Verdict.and (a b : Verdict) : Verdict :=
  { eauth := a.eauth || b.eauth, erange := a.erange || b.erange, estate := a.estate || b.estate,
    ebasic := a.ebasic || b.ebasic, ebusy := a.ebusy || b.ebusy }

/-- What a write meets at its block: the block's own rejections, the effect of an accepted write with its status, and
what a rejection records (R13). -/
structure Act where
  v : Verdict := {}
  eff : Chip → Chip × Status
  rej : Status → Chip → Chip := fun _ m => m

/-- A register takes the writable bits of a value; reserved bits stay (R8). -/
def Chip.store (m : Chip) (r : RName) (i : Nat) (d : Word) : Chip :=
  m.put r i ((m.get r i &&& ~~~(wd r.row.wmask)) ||| (d &&& wd r.row.wmask))

/-- The plain write of a register. -/
def actStore (r : RName) (i : Nat) (d : Word) : Act := { eff := fun m => (m.store r i d, .ok) }

/-- The plain write of a register with the block's own rejections. -/
def actStoreIf (v : Verdict) (r : RName) (i : Nat) (d : Word) : Act := { v := v, eff := fun m => (m.store r i d, .ok) }

/-- A write with no effect that completes with OK (R9). -/
def actNone : Act := { eff := fun m => (m, .ok) }

/-- A write that is accepted and does f. -/
def actDo (v : Verdict) (f : Chip → Chip) : Act := { v := v, eff := fun m => (f m, .ok) }

/-- Every bounded field of a written value lies in its range. -/
def inRanges (r : RName) (d : Word) : Bool :=
  r.row.ranges.all (fun q => q.2.2.1 ≤ bits d q.1 q.2.1 && bits d q.1 q.2.1 ≤ q.2.2.2)

end Sys2Proof.Machine
end

