-- ==== Sys2Proof/Machine/Fixed.lean ====
section
/-!
DEFINITION. Q8.24 arithmetic (R5, R208) on integers, saturated and rounded once, and the sine and cosine in 60-bit
fixed point that the tones of R330 and the notch coefficients need.
-/

namespace Sys2Proof.Machine

/-- 1.0 in Q8.24. -/
def q1 : Int := 16777216

/-- A value saturated to Q8.24. -/
def qSat (x : Int) : Int := clampI (-2147483648) 2147483647 x

/-- The product of two Q8.24 values, rounded to nearest with ties upward and saturated. -/
def qMul (a b : Int) : Int := qSat ((a * b + 8388608).fdiv 16777216)

/-- The quotient of two Q8.24 values, rounded to nearest with ties upward and saturated; 0 for a zero divisor. -/
def qDiv (a b : Int) : Int := if b = 0 then 0 else if 0 < b then qSat (rdiv (a * 16777216) b) else qSat (rdiv (-a * 16777216) (-b))

/-- A word read as Q8.24. -/
def qOf (w : Word) : Int := w.toInt

/-- The word of a Q8.24 value. -/
def qWord (x : Int) : Word := wdI (qSat x)

/-- 2^60, the unit of the trigonometric helpers. -/
def fx1 : Int := 1152921504606846976

/-- π in units of 2^-60. -/
def fxPi : Int := 3622009729038561421

/-- A Taylor series in x² whose terms alternate: term k is the term before it times x² ÷ (a (a + 1)), a rising by 2. -/
def fxSeries (x2 : Int) : Nat → Int → Int → Int
  | 0, _, _ => 0
  | k + 1, term, a => term - fxSeries x2 k (term * x2 / fx1 / (a * (a + 1))) (a + 2)

/-- The sine of x in units of 2^-60, for |x| up to π. -/
def fxSin (x : Int) : Int := fxSeries (x * x / fx1) 20 x 2

/-- The cosine of x in units of 2^-60, for |x| up to π. -/
def fxCos (x : Int) : Int := fxSeries (x * x / fx1) 20 fx1 1

/-- The angle of a fraction num ÷ den of a turn, brought into −π to π. -/
def fxTurn (num den : Nat) : Int :=
  let f := num % den
  if 2 * f ≤ den then 2 * fxPi * f / den else 2 * fxPi * ((f : Int) - den) / den

/-- The integer square root, bit by bit from 2^(k−1) down, on top of a root found so far. -/
def isqrtFrom : Nat → Nat → Nat → Nat
  | 0, r, _ => r
  | k + 1, r, x => isqrtFrom k (if (r + 2 ^ k) * (r + 2 ^ k) ≤ x then r + 2 ^ k else r) x

/-- e^(−x) in units of 2^-60, for x ≥ 0 in units of 2^-32: a series at x ÷ 4096, squared twelve times. -/
def fxExpNeg (x : Nat) : Int :=
  if 40 * 2 ^ 32 ≤ x then 0
  else
    let y : Int := (x : Int) * 2 ^ 16
    let e := (List.range 12).foldl (fun (a : Int × Int) (k : Nat) =>
      let t := -(a.1 * y) / fx1 / ((k : Int) + 1)
      (t, a.2 + t)) (fx1, fx1)
    (List.range 12).foldl (fun a _ => a * a / fx1) e.2

/-- The angle of the vector (x, y) in 0.01°, from −180.00° to 180.00°, to the nearest. -/
def fxAngle (x y : Int) : Int :=
  if x = 0 ∧ y = 0 then 0
  else
    let up : Int := if y < 0 then -y else y
    -- the greatest h in half steps of 0.005° whose direction lies at or before the vector's
    let h := (List.range 17).foldl (fun (a : Nat) k =>
      let c := a + 2 ^ (16 - k)
      let th := fxTurn c 72000
      if c ≤ 36000 && x * fxSin th ≤ up * fxCos th then c else a) 0
    let d : Int := (h + 1) / 2
    if y < 0 then -d else d

end Sys2Proof.Machine
end

