-- ==== Sys2Proof/Machine/LoopTrig.lean ====
section
/-!
DEFINITION. What reaches a loop slot from outside it: triggers (R223 to R225), detector events for its PREDICT block
(R242), and the loss of a channel it reads (R250).
-/

namespace Sys2Proof.Machine

/-- TKIND, TINDEX and DECIM of a slot: of one that runs, as they took effect at RUN (R211), else as written. -/
def Chip.trigOf (m : Chip) (s : Nat) : Nat × Nat × Nat :=
  let x := m.lslot s
  let t := if x.st = .stopped then m.lw s 1 else x.trig
  (bits (m.lw s 0) 15 12, bits t 19 0, bits t 27 20)

/-- A trigger of slot s (R224, R225): a sample becomes pending, or the trigger is dropped as an overrun. A slot that only finishes its
running sample takes none. -/
def Chip.slotTrigger (m : Chip) (s : Nat) : Chip :=
  let x := m.lslot s
  if x.st != .armed then m
  else
    let m := m.putLw s 15 (wd (m.now % 2 ^ 32))
    if x.pend.isSome || x.run.isSome then
      let n := (m.lw s 12).toNat
      let m := (m.putLw s 12 (wd (satTo (2 ^ 32 - 1) (n + 1)))).bump .cleOvrcnt 0 15 0 1
      m.raise 35 s []
    else (m.putLslot s { x with pend := some m.now }).wake .cle

/-- A stage boundary of converter x is an occurrence of the source of every ARMED slot of TKIND 0x4 that names it (R223, R302): each
DECIM-th is a trigger. -/
def Chip.pwmTrigger (m : Chip) (x : Nat) : Chip :=
  (List.range 64).foldl (fun m s =>
    let t := m.trigOf s
    if (m.lslot s).st != .armed || t.1 != 4 || t.2.1 != x then m
    else
      let n := (m.lslot s).occ + 1
      if t.2.2 ≤ n then (m.putLslot s { m.lslot s with occ := 0 }).slotTrigger s
      else m.putLslot s { m.lslot s with occ := n }) m

/-- The block of slot s that is a PREDICT. -/
def Chip.predBlk (m : Chip) (s : Nat) : Option Nat := (List.range (m.nblk s + 1)).find? (fun k => m.blkType s k = 8)

/-- A detector event is held for the next sample of every slot whose PREDICT acts on that detector; with KICK it also
triggers a sample (R242). -/
def Chip.predNote (m : Chip) (swell : Bool) (ev : PredEv) : Chip :=
  (List.range 64).foldl (fun m s =>
    let x := m.lslot s
    if x.st != .armed then m
    else match m.predBlk s with
      | none => m
      | some k =>
        if bitOf (m.aw s k 0) 16 = swell then
          let m := m.putLslot s { x with events := x.events ++ [(ev, m.now)] }
          if bitOf (m.aw s k 0) 17 then m.slotTrigger s else m
        else m) m

/-- The source words of a block (R216): its SRC word, and its second source where the type has one. A source word counts
whether or not a flag makes the block use it (DEDUCED, log entry 45). -/
def blkSources (g : Nat → Word) : List Word :=
  let t := bits (g 0) 3 0
  if t = 5 then [g 1, g 5]
  else if t = 7 then [g 1, g 6]
  else if t = 8 then [g 1, g 10]
  else if t = 2 ∨ t = 9 then [0, 0]
  else [g 1, 0]

/-- The ACQ channels that a chain of words reads, with the trigger channel of TKIND 0x2 (R219). -/
def chainChannels (g : Nat → Nat → Word) (nblk tkind tindex : Nat) : List Nat :=
  (List.range (nblk + 1)).flatMap (fun k =>
    (blkSources (g k)).filterMap (fun w => if bits w 23 20 = 3 then some (bits w 15 0) else none)) ++
    (if tkind = 2 then [tindex] else [])

/-- The channels that slot s reads or is triggered by. -/
def Chip.slotChannels (m : Chip) (s : Nat) : List Nat :=
  (chainChannels (m.aw s) (m.nblk s) (m.trigOf s).1 (m.trigOf s).2.1).dedup

/-- LOOP_SOURCE for each source or trigger channel of an armed slot that was scanned in `old` and no longer is (R250). -/
def Chip.loopSources (m old : Chip) : Chip :=
  (List.range 64).foldl (fun m s =>
    if (m.lslot s).st != .armed then m
    else ((m.slotChannels s).filter (fun c => old.chScanned c && !m.chScanned c)).foldl (fun m _ => m.raise 36 s []) m) m

end Sys2Proof.Machine
end

