-- ==== Sys2Proof/Machine/ThmOps.lean ====
section
/-!
DEFINITION. The reductions that THM derives from its sensors (R531 to R534).
-/

namespace Sys2Proof.Machine

/-- Sensor k. -/
def Chip.sensor (m : Chip) (k : Nat) : Sensor := NTab.get Sensor.init m.thm k

/-- The chip with sensor k written. -/
def Chip.putSensor (m : Chip) (k : Nat) (s : Sensor) : Chip := { m with thm := NTab.set Sensor.init m.thm k s }

/-- THM_Sk_THR and THM_Sk_HYST in force: a write takes effect at the next reading (R530). -/
def Chip.thmWords (m : Chip) (k : Nat) : Word × Word := (m.sensor k).held.getD (m.get .thmSThr k, m.get .thmSHyst k)

/-- A threshold of sensor k in force, in 0.1 °C: 0 WARN, 1 THROT, 2 SHUT. -/
def Chip.thmPoint (m : Chip) (k i : Nat) : Int := 10 * sbits (m.thmWords k).1 (8 * i + 7) (8 * i)

/-- The hysteresis of a threshold in force, in 0.1 °C. -/
def Chip.thmHyst (m : Chip) (k i : Nat) : Int := 10 * (bits (m.thmWords k).2 (8 * i + 7) (8 * i) : Int)

/-- The reduction of function f by sensor k in 2^-24 (R525, R531, R532). -/
def Chip.thmRed (m : Chip) (f k : Nat) : Int :=
  let s := m.sensor k
  let top : Int := (m.fld .thmFuncCfg f 15 8 : Int) * 16777216 / 100
  match s.st with
  | .off => 0
  | .shutdown | .fault => top
  | _ => clampI 0 top (rdiv ((m.fld .thmFuncCfg f 7 0 : Int) * (s.t - m.thmPoint k 1) * 16777216) 10000)

/-- The reduction of branch n (R533): its own THSEL with the gain and RMAX of function 0. -/
def Chip.brnRed (m : Chip) (n : Nat) : Int :=
  let k := m.brnF .brnNThm n 4 0
  if k < 22 then m.thmRed 0 k else 0

/-- The reduction of a function in 2^-24 (R532, R533): the largest of its sensors; for branches the largest of all
branches. -/
def Chip.funcRed (m : Chip) (f : Nat) : Int :=
  if f = 0 then (List.range 24).foldl (fun a n => max a (m.brnRed n)) 0
  else (List.range 22).foldl (fun a k => if m.flag .thmFuncMask f k then max a (m.thmRed f k) else a) 0

/-- The clock level (R534): at the hottest on-die sensor of SMASK; LMAX while one of them is in SHUTDOWN or FAULT. -/
def Chip.clockLevel (m : Chip) : Nat :=
  let ks := (List.range 6).filter (fun i => m.flag .thmClkCfg 0 (24 + i) && (m.sensor (16 + i)).st != .off)
  let top := m.fld .thmClkCfg 0 3 0
  if ks.any (fun i => (m.sensor (16 + i)).st = .shutdown || (m.sensor (16 + i)).st = .fault) then top
  else
    let hot := ks.foldl (fun (a : Option Nat) i => match a with
      | none => some i
      | some j => if (m.sensor (16 + j)).t < (m.sensor (16 + i)).t then some i else a) none
    match hot with
    | none => 0
    | some i =>
      (clampI 0 top (((m.fld .thmClkCfg 0 15 8 : Int) * ((m.sensor (16 + i)).t - m.thmPoint (16 + i) 1)).fdiv 100)).toNat

end Sys2Proof.Machine
end

