-- ==== Sys2Proof/Machine/Converter.lean ====
section
/-!
DEFINITION. Converter stages (R297 to R344): the regulator and the stage boundary, the limits, diode emulation, the state
machine of R315, external sync, the perturbation and the writes of the CNV registers. Voltage retargeting (R323, R324)
stands with the control loops, whose setpoints it writes.
-/

namespace Sys2Proof.Machine

/-- The number of the first fault source of a stage (R541): PHASE_SC, then the others in order. -/
def cnvSrc (x k : Nat) : Nat := (if x = 0 then 43 else 53) + k

/-- The latest result of a channel in Q8.24 per-unit of full scale: unsigned ÷ 65,536, signed ÷ 32,768 (R163, R216). -/
def Chip.chanQ (m : Chip) (c : Nat) : Int :=
  let w := m.get .acqRes c
  if bitOf w 18 then sbits w 15 0 * 512 else (bits w 15 0 : Int) * 256

/-- The voltage at the HI side in 10 mV × 2^24, at least 1 % of its full scale (R307). -/
def Chip.hiV (m : Chip) (x : Nat) : Int :=
  let fs : Int := m.fld .cnvXVfs x 15 0
  max (m.chanQ (m.fld .cnvXVch x 6 0) * fs) (fs * q1 / 100)

/-- The voltage at the LO side in 10 mV × 2^24. -/
def Chip.loV (m : Chip) (x : Nat) : Int := m.chanQ (m.fld .cnvXVch x 14 8) * (m.fld .cnvXVfs x 31 16 : Int)

/-- lo ÷ hi in Q8.24 (R307). -/
def Chip.ratio (m : Chip) (x : Nat) : Int := if m.hiV x ≤ 0 then 0 else qDiv (m.loV x) (m.hiV x)

/-- The check-side voltage in 10 mV × 2^24: HI for the BCV, LO for the AXC (R317). -/
def Chip.checkV (m : Chip) (x : Nat) : Int :=
  if x = 0 then m.chanQ (m.fld .cnvXVch x 6 0) * (m.fld .cnvXVfs x 15 0 : Int) else m.loV x

/-- SLOWLIM in Q8.24 per-unit (R314). -/
def Chip.slowLim (m : Chip) (x : Nat) : Int := (m.fld .cnvXSlow x 7 0 : Int) * q1 / 100

/-- The current ceiling (R307, R335): SLOWLIM, ramped through SSTIME in SOFTSTART, times active ÷ enabled phases; the AXC's
is lowered by its thermal reduction (R533). -/
def Chip.ceil (m : Chip) (x : Nat) : Int :=
  let c := m.conv x
  let base := if x = 0 then m.slowLim x else m.slowLim x * (q1 - m.funcRed 3) / q1
  let ss : Int := m.fld .cnvXSs x 11 0 * 100
  let t : Int := min ((m.now - c.since : Nat) : Int) ss
  let ramp := if c.st = .softstart && 0 < ss then base * t / ss else base
  let en : Int := popM 8 (m.phen x)
  if en = 0 then 0 else ramp * (popM 8 c.active : Int) / en

/-- The phase that tone e has reached, in 10^-7 of a turn since it was 0 (R330). -/
def Chip.toneAt (m : Chip) (e : Tone) : Nat := bits e.w 13 0 * (m.now - e.t0)

/-- Tone t injected now, in Q8.24 per-unit of IRATED (R330). -/
def Chip.toneNow (m : Chip) (t : Nat) : Int :=
  let e := m.tone t
  if e.run then (bits e.w 23 16 : Int) * q1 / 10000 * fxSin (fxTurn (m.toneAt e) 10000000) / fx1 else 0

/-- The tones injected now (R330). -/
def Chip.pertNow (m : Chip) : Int := (List.range 8).foldl (fun a t => a + m.toneNow t) 0

/-- Injection is active (R332, R342): some tone that is on is injected. -/
def Chip.pertOn (m : Chip) : Bool := (List.range 8).any (fun t => (m.tone t).run && bits (m.tone t).w 23 16 != 0)

/-- No case of R332 pauses the injection at the BCV. -/
def Chip.pertRuns (m : Chip) : Bool :=
  let c := m.conv 0
  let predicts := match c.bound with
    | some s => (m.lslot s).pstate = .tentative || (m.lslot s).pstate = .retracting
    | none => false
  m.flag .cnvPertCfg 0 0 && c.st = .run && !c.kindDuty && !c.slowcl &&
    (List.range 8).all (fun k => !(c.phase k).de || !has c.active k) && !predicts && m.pol.ho != .handover && !c.frozen

/-- Tone t at a stage boundary of the BCV (R332, R333): injection stops or resumes once the tone has crossed zero since the last
boundary, and ends at once with EN = 0; CNV_PERT_PHASEt holds its phase and the stamp. -/
def Chip.toneBoundary (m : Chip) (runs : Bool) (t : Nat) : Chip :=
  let e := m.tone t
  let half := 2 * m.toneAt e / 10000000
  let run := if half = e.half then e.run && m.flag .cnvPertCfg 0 0 else runs
  (m.putTone t { e with half := half, run := run }).put .cnvPertPhase t
    (wd (m.toneAt e * 65536 / 10000000 % 65536 + m.now % 65536 * 65536))

/-- The tones at a stage boundary of the BCV. -/
def Chip.pertBoundary (m : Chip) : Chip :=
  let runs := m.pertRuns
  (List.range 8).foldl (fun m t => m.toneBoundary runs t) m

/-- D clamped per R303. -/
def Chip.clampD (m : Chip) (x : Nat) (d : Int) : Int :=
  let dmax : Int := (m.fld .cnvXDlim x 31 16 : Int) * 256
  clampI (if x = 0 then q1 - dmax else 0) dmax d

/-- The command of a stage and whether it is a duty (R299). -/
def Chip.convCmd (m : Chip) (x : Nat) : Int × Bool :=
  let c := m.conv x
  match c.bound with
  | some _ => (c.loopVal, c.loopDuty)
  | none => (qOf (m.get .cnvXCmdval x), m.flag .cnvXCfg x 2)

/-! ### The period and what it locks to (R304, R327, R328, R587) -/

/-- SYNCIN edges are present (R328): the second edge after the last one is not yet missing. -/
def Chip.edgesSeen (m : Chip) : Bool :=
  m.cnv.syncSeen && (m.cnv.syncPer = 0 || decide (m.now * 800 ≤ m.cnv.edgeAt + m.cnv.syncPer * 9 / 4 + 800))

/-- A stage follows SYNCIN (R327): SYNC and EN are 1, edges are present, and their frequency lies within ±20 % of PERIOD's and
within 50 kHz to 500 kHz. -/
def Chip.syncing (m : Chip) (x : Nat) : Bool :=
  let p := m.cnv.syncPer
  let own := m.fld .cnvXPer x 15 0
  m.flag .cnvXCfg x 3 && m.flag .cnvSync 0 0 && m.edgesSeen && 1600 ≤ p && p ≤ 16000 && 5 * own ≤ 6 * p && 4 * p ≤ 5 * own

/-- A gated chip follows the peer's boundaries (R587): the link is up and two stamps have been received. -/
def Chip.following (m : Chip) (x : Nat) : Bool :=
  !m.gateOpen && m.spl.link && (NTab.get 0 m.spl.markPer x) != 0

/-- The period that a stage's period moves to, in 2^-16 of a tick. -/
def Chip.periodGoal (m : Chip) (x : Nat) : Nat :=
  65536 * (if m.following x then NTab.get 0 m.spl.markPer x else if m.syncing x then m.cnv.syncPer else m.fld .cnvXPer x 15 0)

/-- How far a stage boundary lies after the instant it locks to, in 2^-16 of a tick, within ± half a period: the peer's stamp (R587),
or a SYNCIN edge delayed by PHOFF ÷ 256 of a period (R327). None where it locks to nothing. -/
def Chip.edgeError (m : Chip) (x : Nat) : Option Int :=
  let p : Int := m.periodGoal x
  let wrap := fun (t : Int) => let e := ((m.conv x).bndAt - t) % p; if p < 2 * e then e - p else e
  if m.following x then
    -- the stamps are 32 bits of ticks: the last one that lies within half their range of the boundary
    let d := (((m.conv x).bndAt / 65536 : Nat) - (NTab.get 0 m.spl.marks x : Nat) : Int) % 2 ^ 32
    some (wrap (((m.conv x).bndAt : Int) - (if 2 ^ 31 ≤ d then d - 2 ^ 32 else d) * 65536))
  else if m.syncing x then some (wrap ((m.cnv.edgeAt : Int) * 65536 + p * (m.fld .cnvXCfg x 31 24 : Int) / 256))
  else none

/-- A period moved toward a goal by at most `step`. -/
def periodToward (per goal step : Nat) : Nat := if per < goal then min goal (per + step) else max goal (per - step)

/-- How far SLEWR moves a period in `us` microseconds: 0.1 % of it in each ms and count (R304, R327). -/
def Chip.slewStep (m : Chip) (per us : Nat) : Nat := per * m.fld .cnvSync 0 11 8 * us / 1000000

/-- The period of a stage that is not switching has moved toward PERIOD since it was last moved (R304). -/
def Chip.slewRest (m : Chip) (x : Nat) : Chip :=
  let c := m.conv x
  let goal := m.fld .cnvXPer x 15 0 * 65536
  if c.st = .stopped then m.putConv x { c with period := goal, perAt := m.now }
  else if c.switching then m
  else m.putConv x { c with period := periodToward c.period goal (m.slewStep c.period (m.now - c.perAt)), perAt := m.now }

/-- The period in use and the length of the period that a boundary starts (R304, R327, R587): the period moves to its goal at no more
than SLEWR; once there, each period is shortened or lengthened by at most 1 % toward the lock. -/
def Chip.periodNext (m : Chip) (x : Nat) : Nat × Nat :=
  let c := m.conv x
  let goal := m.periodGoal x
  let per := periodToward c.period goal (max 1 (c.period * m.fld .cnvSync 0 11 8 * (c.period / 65536) / 800000000))
  match m.edgeError x with
  | some e => if per = goal then (per, ((per : Int) - clampI (-(per / 100 : Nat)) (per / 100 : Nat) e).toNat) else (per, per)
  | none => (per, per)

/-- A stage boundary comes (R302): one length of a period after the last, or now where more time than that has passed. -/
def Chip.boundaryTime (m : Chip) (x : Nat) : Chip :=
  let c := m.conv x
  let at_ := max (c.bndAt + c.len) (m.now * 52428800)
  (m.elapse 0 (at_ / 52428800)).putConv x { c with bndAt := at_ }

/-! ### What each phase drives (R302 to R304) -/

/-- When phase k starts its period after the last stage boundary, in 2^-16 of a tick (R302). -/
def Conv.startAt (c : Conv) (k : Nat) : Nat := c.bndAt + (c.phase k).slot * c.period / max 1 (popM 8 c.active)

/-- What the end of its own period does to a phase: the qualification of diode emulation (R310), the fast limit's record (R312) and a
short-circuit turn-off (R313). -/
def Phase.periodDone (p : Phase) : Phase :=
  { p with deCnt := if p.zx = p.de then 0 else p.deCnt + 1, zxLast := p.zx, zx := false,
           fast := p.fastNow, fastNow := false, scOff := if p.scOff = 0 then 0 else max 1 (p.scOff - 1) }

/-- Phases whose period starts take the duty, CNV_x_DT and CNV_x_DLIM as they stand (R302, R304): those whose start has come, or all
that have not started since the last boundary. Their last period has ended. -/
def Chip.phaseStarts (m : Chip) (x : Nat) (all : Bool) : Chip :=
  let c := m.conv x
  if c.switching then
    m.putConv x (c.eachPhase x (fun k p =>
      if has c.active k && !p.took && (all || decide (c.startAt k < (m.now + 1) * 52428800)) then
        { p.periodDone with took := true, ext := 0, turning := false,
                            drv := { duty := c.duty, dt := m.get .cnvXDt x, dlim := m.get .cnvXDlim x } }
      else p))
  else m

/-- The on-times of phase k's high-side and low-side switches in its present period, in units of 78.125 ps: D and 1 − D of it, scaled by
(N + 1) ÷ N while a rotation lengthens it (R305), each less its dead time, and 0 where that leaves less than TMIN (R303). -/
def Chip.onTimes (m : Chip) (x k : Nat) : Nat × Nat :=
  let c := m.conv x
  let p := c.phase k
  let n := max 1 (popM 8 c.active)
  let t : Int := c.period / 4096
  let dmax : Int := (bits p.drv.dlim 31 16 : Int) * 256
  let d := clampI (if x = 0 then q1 - dmax else 0) dmax p.drv.duty
  let scale := fun (v : Int) => if p.turning then v * (n + 1) / n else v
  let keep := fun (on : Int) (dead : Nat) =>
    if 5 * (on - dead) < 64 * (bits p.drv.dlim 9 0 : Int) then 0 else (on - dead).toNat
  let hi := d * t / q1
  (keep (scale hi) (bits p.drv.dt 11 0), keep (scale (t - hi)) (bits p.drv.dt 27 16))

/-- An overvoltage clamp of a stage acts (R326): the comparator that HICMP or LOCMP names is HIGH and the clamp is enabled. -/
def Chip.clampOn (m : Chip) (x : Nat) (hi : Bool) : Bool :=
  if hi then m.flag .cnvXOv x 6 && (NTab.get Wcmp.init m.acq.wc (m.fld .cnvXOv x 5 0)).st = 2
  else m.flag .cnvXOv x 14 && (NTab.get Wcmp.init m.acq.wc (m.fld .cnvXOv x 13 8)).st = 2

/-- The switches of phase k that are turned on in its present period, the high side first. A quick stop leaves the synchronous switch
until the zero crossing, for at most 20 µs (R321); else both are on for their on-times but for a phase that is fenced or short-circuited
(R313, R334), the active switch once the fast limit has acted (R312), and the synchronous switch in diode emulation once the current has
crossed zero (R310). What a clamp suppresses is off in each case (R326). -/
def Chip.phasePins (m : Chip) (x k : Nat) : Bool × Bool :=
  let c := m.conv x
  let p := c.phase k
  let sh := c.syncHi x
  let pins : Bool × Bool :=
    if !has c.active k || p.fenced || 0 < p.scOff then (false, false)
    else
      match c.quickAt with
      | some t => let on : Bool := !p.zx && m.now < t + 20; (on && sh, on && !sh)
      | none =>
        if c.switching then
          let on := m.onTimes x k
          let off := fun (side : Bool) => (side = sh && p.de && p.zx) || (p.fastNow && side = p.fastHi)
          (on.1 != 0 && !off true, on.2 != 0 && !off false)
        else (false, false)
  (pins.1 && !m.clampOn x false, pins.2 && !(x = 0 && m.clampOn x true))

/-- SYNCOUT (R329): high for the first half of each period of the stage that OUTSTG names, while OUTEN = 1. -/
def Chip.syncOut (m : Chip) : Bool :=
  let c := m.conv (m.fld .cnvSync 0 2 2)
  m.flag .cnvSync 0 1 && c.switching && decide (m.now * 52428800 < c.bndAt + c.len / 2)

/-! ### The regulator (R300, R307, R308, R316) -/

/-- One run of the current regulator at a stage boundary (R307, R308). On a change to current kind the integral is set so that D does not
step (R300). Answers the stage and whether the ceiling bound the command. -/
def Chip.regulate (m : Chip) (x : Nat) (cmd pert : Int) : Conv × Bool :=
  let c := m.conv x
  let top := m.ceil x
  let want := (if c.st = .stopping then 0 else cmd) + pert
  let tgt := clampI (if x = 0 then -top else 0) top want
  let islew : Int := (m.fld .cnvXSlow x 31 24 : Int) * q1 / 1000
  let eff := if islew = 0 then tgt else c.eff + clampI (-islew) islew (tgt - c.eff)
  let e := eff - c.meas
  let kpi : Int := (m.fld .cnvXIreg x 15 0 : Int) * 4096
  let kii : Int := (m.fld .cnvXIreg x 31 16 : Int) * 4096
  let sgn : Int := if x = 0 then -1 else 1
  let integ := clampI (-(q1 / 2)) (q1 / 2)
    (if c.kindDuty then sgn * (c.duty - m.ratio x) - qMul kpi e else c.integ + qMul kii e)
  let d := m.clampD x (m.ratio x + sgn * (qMul kpi e + integ))
  let bound : Bool := top < want || (x = 0 && want < -top)
  ({ c with eff := eff, integ := integ, duty := d, kindDuty := false, slowcl := bound }, bound)

/-- A duty command at a stage boundary (R303, R316, R320). Answers the stage and whether the clamp of R316 bound it. The effective command
follows the measured current, so that a change to current kind starts from it (R308; DEDUCED, log entry 89). -/
def Chip.dutyStep (m : Chip) (x : Nat) (cmd : Int) : Conv × Bool :=
  let c := m.conv x
  let r := m.ratio x
  let dmax : Int := (m.fld .cnvXDlim x 31 16 : Int) * 256
  let ss : Int := m.fld .cnvXSs x 11 0 * 100
  let t : Int := min ((m.now - c.since : Nat) : Int) ss
  let lim := if ss = 0 then dmax else dmax * t / ss
  -- DMAX per SSTIME, in each period of period × 1.25 ns
  let step := if ss = 0 then dmax else max 1 (dmax * (c.period / 65536 : Nat) / (ss * 800))
  let d :=
    if c.st = .softstart then clampI (r - lim) (r + lim) cmd
    else if c.st = .stopping then (if c.duty < r then min r (c.duty + step) else max r (c.duty - step))
    else cmd
  ({ c with eff := c.meas, duty := m.clampD x d, kindDuty := true, slowcl := false }, c.st = .softstart && d != cmd)

/-- The active set of a stage as its next boundary takes it: fenced phases leave it (R334). -/
def respace (x : Nat) (c : Conv) : Conv :=
  respaceTo x ((List.range 8).foldl (fun a k => if has c.active k && !(c.phase k).fenced then setM a k else a) 0) c

/-! ### The period that ends at a boundary (R306, R310, R312, R313, R317, R318) -/

/-- The sum of the active phases' period-average currents (R307), in per-unit of IRATED: the meters' 12-bit codes are in 1/2048 of IFS. -/
def Chip.measured (m : Chip) (x : Nat) (cur : List Int) : Int :=
  let c := m.conv x
  let sum := (List.range (phaseCount x)).foldl (fun a k => if has c.active k then a + cur.getD k 0 else a) 0
  sum * (m.fld .cnvXScale x 31 16 : Int) * 8192 / (max 1 (m.fld .cnvXScale x 15 0) : Nat)

/-- What a stage boundary does to phase k: the imbalance window's sum takes its period average (R306), and its next start is awaited. -/
def endPhase (c : Conv) (cur : List Int) (k : Nat) (p : Phase) : Phase :=
  if !has c.active k then p else { p with sum := p.sum + cur.getD k 0, took := false }

/-- The imbalance window ends (R306): IAVG is updated and each active phase judged, unless the stage's mean was too low or a phase was in
diode emulation in it. -/
def Chip.windowClose (m : Chip) (x : Nat) : Chip :=
  let c := m.conv x
  let n : Int := popM 8 c.active
  let total := (List.range 8).foldl (fun a k => if has c.active k then a + (c.phase k).sum else a) 0
  let ifs : Int := m.fld .cnvXScale x 31 16
  let ira : Int := m.fld .cnvXScale x 15 0
  let en : Int := popM 8 (m.phen x)
  let cnt : Int := c.winCnt
  let judged : Bool := !c.winDe && 2048 * cnt * n * ira ≤ 10 * en * ifs * (total.natAbs : Int)
  let far := fun (p : Phase) =>
    decide ((m.fld .cnvXImb x 7 0 : Int) * ira * 2048 * cnt * n < 100 * en * ifs * ((p.sum * n - total).natAbs : Int))
  m.putConv x ({ c with winAt := m.now, winCnt := 0, winDe := false }.eachPhase x (fun k p =>
    { p with sum := 0, iavg := if has c.active k then clampI (-32768) 32767 (p.sum * ifs / (2048 * cnt)) else 0,
             imb := if judged && has c.active k then (if far p then p.imb + 1 else 0) else p.imb }))

/-- The end of a period at its stage boundary: the phases, the measured current, the imbalance window, and LO's last 10 ms (R325). -/
def Chip.periodEnd (m : Chip) (x : Nat) (cur : List Int) : Chip :=
  let c := m.conv x
  let de := (List.range 8).any (fun k => has c.active k && (c.phase k).de)
  let lo := if x = 0 then c.loHist.filter (fun e => m.now ≤ e.1 + 10000) ++ [(m.now, m.loV 0)] else []
  let m := m.putConv x ({ c with meas := m.measured x cur, winCnt := c.winCnt + 1, winDe := c.winDe || de, loHist := lo,
                                 rot := c.rot + 1 }.eachPhase x (endPhase c cur))
  if m.fld .cnvXImb x 15 8 * 10000 ≤ m.now - c.winAt then m.windowClose x else m

/-- The check side is below CHKFRAC × VTGT (R318). -/
def Chip.checkLow (m : Chip) (x : Nat) : Bool :=
  100 * m.checkV x < (m.fld .cnvXSs x 19 12 : Int) * (m.fld .cnvXVtgt x 15 0 : Int) * q1

/-- The limits after a run of the regulator (R314, R317, R318, R342): whether the period counts as limited, for how many in a row, and
since when the slow limit acts. -/
def Chip.countLimits (m : Chip) (x : Nat) (was lim : Bool) (c : Conv) : Conv :=
  { c with limited := lim, limCnt := if lim then c.limCnt + 1 else 0,
           shCnt := if lim && c.st = .run && m.checkLow x then c.shCnt + 1 else 0,
           slowAt := if was then c.slowAt else m.now, overload := c.overload && c.slowcl }

/-- The lock to SYNCIN at a boundary (R327): boundaries in a row with an edge error below 10 ns. -/
def Chip.countLock (m : Chip) (x : Nat) (c : Conv) : Conv :=
  if m.syncing x then
    let close : Bool := match m.edgeError x with
      | some e => decide (e.natAbs < 8 * 65536)
      | none => false
    { c with track := true, lockCnt := if close then c.lockCnt + 1 else 0 }
  else { c with lockCnt := 0, synclk := c.synclk && m.edgesSeen && m.flag .cnvSync 0 0 }

/-- The acting primary sends each boundary's stamp to its twin while the link is up (R585). -/
def Chip.sendMark (m : Chip) (x : Nat) : Chip :=
  if m.acting && m.spl.link && m.spl.twin.isSome then m.peerSend (.pwmMark x ((m.conv x).bndAt / 65536 % 2 ^ 32)) else m

/-- A stage boundary (R302, R307, R320, R330 to R335): `cur` holds the phases' period-average currents. What the ended period showed is
counted, the command taken, the regulator or the duty run, and the phases spaced for the period that starts; the boundary triggers the
loops of TKIND 0x4. A frozen stage keeps its command and D (R337). -/
def Chip.stageBoundary (m : Chip) (x : Nat) (cur : List Int) : Chip :=
  if !(m.conv x).switching then m
  else
    let m := (m.phaseStarts x true).boundaryTime x
    let fast := (m.conv x).fastHit
    let m := m.periodEnd x cur
    let m := m.when (x = 0) Chip.pertBoundary
    let was := (m.conv x).slowcl
    let cmd := m.convCmd x
    let r : Conv × Bool :=
      if (m.conv x).frozen then (m.conv x, false)
      else if cmd.2 then m.dutyStep x cmd.1
      else m.regulate x (if x = 1 then max 0 cmd.1 else cmd.1) (if x = 0 then m.pertNow else 0)
    let per := m.periodNext x
    let c := m.countLock x (m.countLimits x was (r.2 || fast) r.1)
    ((m.putConv x (respace x { c with period := per.1, len := per.2, fastHit := false })).sendMark x).pwmTrigger x

/-- ROTP periods have passed since the last rotation or its deferral: each active phase moves one slot later, its present period
lengthened by T ÷ N; or the rotation waits for the next ROTP boundary (R305, R338). -/
def Chip.phaseRotation (m : Chip) (x : Nat) : Chip :=
  let c := m.conv x
  let n := popM 8 c.active
  let rotp := m.fld .cnvXRot x 15 0
  if rotp = 0 || !c.switching || c.rot = 0 || c.rot % rotp != 0 then m
  else if c.st != .run || c.limited || (List.range 8).any (fun k => has c.active k && (c.phase k).de) then
    m.putConv x { c with rot := 0 }
  else
    m.putConv x ({ c with rot := 0 }.eachPhase x (fun k p =>
      if has c.active k then
        -- the phase that comes to slot 0 starts its next period at the next stage boundary
        { p with slot := (p.slot + 1) % n, ext := c.period / n, turning := true, took := p.took || p.slot + 1 = n }
      else p))

/-! ### Limits and faults -/

/-- A stage fault ends in HICCUP, or in FENCED when no retry is left (R315): with its pins low from SOFTSTART, by a quick stop from
RUN. -/
def Chip.convFail (m : Chip) (x src : Nat) : Chip :=
  let c := m.conv x
  let rest := fun (m : Chip) (st : StageSt) => if c.st = .run then m.convQuick x st else m.convRest x st
  if c.retry < m.fld .cnvXHic x 19 16 then
    let m := rest m .hiccup
    (m.putConv x { m.conv x with retry := c.retry + 1 }).raise src x []
  else
    let m := ((rest m .fenced).holdFence .stage x (cnvSrc x 6)).raise src x []
    m.raise (cnvSrc x 6) x []

/-- The next soft-start checkpoint (R317): judged on the check-side voltage. -/
def Chip.checkpoint (m : Chip) (x : Nat) : Chip :=
  let c := m.conv x
  if c.st != .softstart then m
  else
    let k := c.ckpt + 1
    let m := m.elapse c.since (k * m.fld .cnvXSs x 11 0 * 100 / 4)
    let need : Int := (k : Int) * (m.fld .cnvXSs x 19 12 : Int) * (m.fld .cnvXVtgt x 15 0 : Int) * q1
    if need ≤ 400 * m.checkV x then
      if k = 4 then m.putConv x { c with ckpt := 4, st := .run, since := m.now } else m.putConv x { c with ckpt := k }
    else m.convFail x (if m.fld .cnvXSs x 31 20 ≤ c.limCnt then cnvSrc x 4 else cnvSrc x 5)

/-- A run short (R318): 16 × SCCYC consecutive limited periods in RUN while the check side is low. -/
def Chip.cnvShort (m : Chip) (x : Nat) : Chip :=
  let c := m.conv x
  if c.st = .run && 16 * m.fld .cnvXSs x 31 20 ≤ c.shCnt && m.checkLow x then m.convFail x (cnvSrc x 3) else m

/-- HICCUP has elapsed since entry (R304, R319). -/
def Chip.hiccupElapsed (m : Chip) (x : Nat) : Chip :=
  let c := m.conv x
  if c.st = .hiccup then
    (((m.elapse c.since (m.fld .cnvXHic x 15 0 * 1000)).slewRest x).convSoft x).convMinPh x
  else m

/-- A START at a stage (R315, R322, R335): from a mode action a stage in STOPPING starts when it reaches STOPPED. -/
def Chip.convStart (m : Chip) (x : Nat) : Chip :=
  let c := m.conv x
  match c.st with
  | .stopped =>
    if m.convValid x then (((m.putConv x { c with retry := 0 }).slewRest x).convSoft x).convMinPh x
    else m.raise (cnvSrc x 8) x []
  | .stopping => m.putConv x { c with pendStart := true }
  | _ => m

/-- A stage in STOPPING is quiet (R320): the effective command is 0, or D equals lo ÷ hi, and every active phase had a zero crossing in
the last period. -/
def Chip.stageQuiet (m : Chip) (x : Nat) : Bool :=
  let c := m.conv x
  (if c.kindDuty then c.duty = m.clampD x (m.ratio x) else c.eff = 0) &&
    (List.range 8).all (fun k => !has c.active k || (c.phase k).zxLast)

/-- The stage is quiet, or else 10 ms have passed since entry to STOPPING (R315, R320). -/
def Chip.stoppingDone (m : Chip) (x : Nat) : Chip :=
  let c := m.conv x
  if c.st = .stopping then
    let m := if m.stageQuiet x then m else m.elapse c.since 10000
    let m := m.convRest x .stopped
    if c.pendStart then (m.putConv x { m.conv x with pendStart := false }).convStart x else m
  else m

/-- The stage has been in RUN for 10 s (R315). -/
def Chip.stageRetryReset (m : Chip) (x : Nat) : Chip :=
  let c := m.conv x
  if c.st = .run then (m.elapse c.since 10000000).putConv x { c with retry := 0 } else m

/-- A phase's current sense reaches `cs` in 1/2048 of IFS (R312): a magnitude of FASTLIM in the present direction ends the active switch's
on-time for the rest of the period. The present direction is that of the effective command, and in duty kind, which has no commanded
direction, that of the current (DEDUCED, log entry 89). The active switch is the low side for a BCV's discharge. -/
def Chip.fastLimit (m : Chip) (x k : Nat) (cs : Int) : Chip :=
  let c := m.conv x
  let along : Bool := if x = 0 then c.kindDuty || decide (0 < c.eff) = decide (0 < cs) else 0 < cs
  if c.switching && has c.active k && along && m.fld .cnvXIlim x 7 0 * 2048 ≤ 100 * cs.natAbs then
    m.putConv x ({ c with limited := true, fastHit := true }.putPhase k
      { c.phase k with fast := true, fastNow := true, fastHi := x = 1 || decide (cs < 0) })
  else m

/-- A phase's current sense reaches `cs` in 1/2048 of IFS (R313): a magnitude of SCLIM turns both switches off for this period and the
next 15, and raises PHASE_SC. -/
def Chip.phaseSc (m : Chip) (x k : Nat) (cs : Int) : Chip :=
  let c := m.conv x
  if c.switching && has c.active k && !(c.phase k).fenced && (c.phase k).scOff = 0 &&
      m.fld .cnvXIlim x 15 8 * 2048 ≤ 100 * cs.natAbs then
    (m.putConv x (c.putPhase k { c.phase k with scOff := 17 })).raise (cnvSrc x 0) k []
  else m

/-- 15 further periods have passed: the phase resumes in diode emulation unless it is fenced (R313). -/
def Chip.phaseScResume (m : Chip) (x k : Nat) : Chip :=
  let c := m.conv x
  let p := c.phase k
  if p.scOff != 1 then m
  else if p.fenced then m.putConv x (c.putPhase k { p with scOff := 0 })
  else m.putConv x (c.putPhase k { p with scOff := 0, de := true, deCnt := 0 })

/-- The slow limit acts continuously for OVLT (R314): CNV_OVERLOAD, once. -/
def Chip.cnvOverload (m : Chip) (x : Nat) : Chip :=
  let c := m.conv x
  if c.switching && c.slowcl && !c.overload then
    ((m.elapse c.slowAt (m.fld .cnvXSlow x 23 8 * 1000)).putConv x { c with overload := true }).raise (cnvSrc x 2) x []
  else m

/-- IMBN consecutive windows of phase k lay beyond IMBTHR (R306). The count starts again. -/
def Chip.phaseImbalance (m : Chip) (x k : Nat) : Chip :=
  let c := m.conv x
  if c.switching && has c.active k && m.fld .cnvXImb x 23 16 ≤ (c.phase k).imb && (c.phase k).imb != 0 then
    (m.putConv x (c.putPhase k { c.phase k with imb := 0 })).raise (cnvSrc x 1) k []
  else m

/-! ### Diode emulation (R309 to R311) -/

/-- The zero comparator's answer to a pin voltage in mV (R309): ZCD_x above THR for the BCV, AXCSk above its 1.25 V midscale by THR for
the AXC. -/
def Chip.zeroAbove (m : Chip) (x mv : Nat) : Bool := decide ((if x = 0 then 0 else 1250) + m.fld .cnvXDe x 23 12 < mv)

/-- The synchronous switch's interval of phase k at `frac` of 1/65,536 of its period (R303, R309): the high side's is the first D of it; in
a quick stop it lasts until the crossing. -/
def Chip.inSync (m : Chip) (x k frac : Nat) : Bool :=
  let c := m.conv x
  c.quickAt.isSome || decide (((frac : Int) * 256 < (c.phase k).drv.duty) = (c.syncHi x = true))

/-- A phase's zero comparator sees `mv` at `frac` of its period (R309, R310): a change of its state in the direction of current decay
in the synchronous switch's interval is a zero crossing, which turns that switch off for the rest of the period in diode emulation. -/
def Chip.zeroCrossing (m : Chip) (x k mv frac : Nat) : Chip :=
  let c := m.conv x
  let p := c.phase k
  let above := m.zeroAbove x mv
  let decays : Bool := if x = 0 && !c.syncHi x then above else !above
  if (c.switching || c.quickAt.isSome) && has c.active k then
    m.putConv x (c.putPhase k { p with zc := above, zx := p.zx || (above != p.zc && decays && m.inSync x k frac) })
  else m

/-- DECNT consecutive periods with a zero crossing (R310, R311). -/
def Chip.deEntry (m : Chip) (x k : Nat) : Chip :=
  let c := m.conv x
  let p := c.phase k
  if c.switching && has c.active k && m.flag .cnvXDe x 0 && !p.de && m.fld .cnvXDe x 7 4 ≤ p.deCnt then
    m.putConv x (c.putPhase k { p with de := true, deCnt := 0 })
  else m

/-- DECNT consecutive periods without a crossing: while FORCE = 1 a phase never leaves (R310). -/
def Chip.deExit (m : Chip) (x k : Nat) : Chip :=
  let c := m.conv x
  let p := c.phase k
  if c.switching && has c.active k && p.de && !m.flag .cnvXDe x 1 && m.fld .cnvXDe x 7 4 ≤ p.deCnt then
    m.putConv x (c.putPhase k { p with de := false, deCnt := 0 })
  else m

/-! ### Battery removal, clamps, sync, perturbation -/

/-- LO's mean over the last 10 ms (R325). -/
def Conv.loMean (c : Conv) : Int :=
  if c.loHist.isEmpty then 0 else c.loHist.foldl (fun a e => a + e.2) 0 / c.loHist.length

/-- The converter declares a battery removal (R325): in SOFTSTART or RUN with an effective command of −2 × REMI or below, the measured
current is below REMI and LO above its 10 ms mean by more than REMDV. -/
def Chip.batteryRemoval (m : Chip) : Chip :=
  let c := m.conv 0
  let remi : Int := (m.fld .cnvBcvRem 0 7 0 : Int) * q1 / 1000
  let rises : Bool := !c.loHist.isEmpty && (1000 + (m.fld .cnvBcvRem 0 15 8 : Int)) * c.loMean < 1000 * m.loV 0
  if (c.st = .softstart || c.st = .run) && c.eff ≤ -2 * remi && (c.meas.natAbs : Int) < remi && rises then
    let m := m.quickStop 0
    { m with cnv := { m.cnv with removed := some m.now, remFound := false } }
  else m

/-- Entry to an overvoltage clamp raises CNV_OVCLAMP (R326). -/
def Chip.clampEval (m old : Chip) : Chip :=
  (List.range 2).foldl (fun m x =>
    if (m.clampOn x true && !old.clampOn x true) || (m.clampOn x false && !old.clampOn x false) then
      (m.eventRecord 216 x []).event 216
    else m) m

/-- A SYNCIN edge, `per` ticks after the last that was not ignored (R327, R328): one outside ±25 % of a period of the next expected edge,
or of the one after it, is ignored. Without such an edge before, it is the first. -/
def Chip.syncEdge (m : Chip) (per : Nat) : Chip :=
  let p := m.cnv.syncPer
  if !m.edgesSeen then { m with cnv := { m.cnv with syncSeen := true, syncPer := 0, edgeAt := m.now * 800 } }
  else
    let at_ := m.cnv.edgeAt + per
    let m' : Chip := m.elapse 0 (at_ / 800)
    if p = 0 || (3 * p ≤ 4 * per && 4 * per ≤ 5 * p) then { m' with cnv := { m'.cnv with syncPer := per % 65536, edgeAt := at_ } }
    else if 7 * p ≤ 4 * per && 4 * per ≤ 9 * p then { m' with cnv := { m'.cnv with syncPer := per / 2 % 65536, edgeAt := at_ } }
    else m

/-- A stage locks to SYNCIN (R327): the edge error has stayed below 10 ns for 16 periods. -/
def Chip.syncLock (m : Chip) (x : Nat) : Chip :=
  let c := m.conv x
  if m.syncing x && !c.synclk && 16 ≤ c.lockCnt then ((m.putConv x { c with synclk := true }).eventRecord 214 x []).event 214
  else m

/-- Two consecutive edges are missing (R328): the second is when the time of the edge after next and a quarter period have passed. -/
def Chip.syncLoss (m : Chip) (x : Nat) : Chip :=
  let c := m.conv x
  if c.track && m.flag .cnvXCfg x 3 && m.flag .cnvSync 0 0 then
    let m := m.elapse 0 ((m.cnv.edgeAt + m.cnv.syncPer * 9 / 4) / 800 + 1)
    let m := m.putConv x { c with synclk := false, lockCnt := 0, track := false }
    ({ m with cnv := { m.cnv with syncSeen := false } }).raise (cnvSrc x 9) x []
  else m

/-- A tone's new FREQ and AMP take effect at its next upward zero crossing (R331); a tone that is off has none to wait for. -/
def Chip.toneChange (m : Chip) (t : Nat) : Chip :=
  let e := m.tone t
  let new := m.get .cnvPertTone t
  if e.w = new then m
  else if bits e.w 23 16 = 0 || bits e.w 13 0 = 0 then
    m.putTone t { w := new, t0 := m.now, half := 0, run := m.pertRuns }
  else
    let turns := (m.toneAt e + 9999999) / 10000000
    let m := m.elapse e.t0 ((turns * 10000000 + bits e.w 13 0 - 1) / bits e.w 13 0)
    m.putTone t { e with w := new, t0 := m.now, half := 0 }

/-! ### Writes -/

/-- The tones that a write would leave keep the bounds of R330. -/
def Chip.tonesOk (m : Chip) (t : Nat) (d : Word) : Bool :=
  let val := fun k => if k = t then d else m.get .cnvPertTone k
  let amp := fun k => bits (val k) 23 16
  let on := (List.range 8).filter (fun k => amp k != 0)
  let fr := on.map (fun k => bits (val k) 13 0)
  (amp t = 0 || (10 ≤ amp t && amp t ≤ 200 && 1 ≤ bits d 13 0 && bits d 13 0 ≤ 10000)) &&
    (on.map amp).foldl (· + ·) 0 ≤ 200 && decide fr.Nodup

/-- A write of CNV_x_CMD (R49, R315, R322, R336, R337, R339, R343). In SHADOW the stages are tracked (R590), and SAFE starts none. At the
Basic level START and STOP are ESTATE, and the others EBASIC like any Expert register (R16). -/
def cnvCmdAct (x : Nat) (d : Word) (m : Chip) : Act :=
  let c := m.conv x
  let gated := m.pwr.base = .shadow
  let k := bits d 11 8
  match bits d 3 0 with
  | 1 =>
    { v := { erange := c.st = .stopped && !m.convValid x,
             estate := !m.expert .cnv || c.st != .stopped || !m.powering || m.pwr.condSafe }
      eff := fun m => (m.convStart x, .ok)
      rej := fun st m => if st = .erange then m.raise (cnvSrc x 8) x [] else m }
  | 2 =>
    { v := { estate := !m.expert .cnv || !(c.st = .softstart || c.st = .run || c.st = .hiccup) || gated }
      eff := fun m => (m.convStop x, .ok) }
  | 3 =>
    let sc : Scope := if x = 0 then .phaseB else .phaseA
    { v := { erange := phaseCount x ≤ k,
             estate := !(c.st = .stopped || c.st = .fenced) || !(c.phase k).fenced || !m.fenceRead sc k || gated,
             ebasic := !m.expert .cnv }
      eff := fun m =>
        ((m.putConv x ((m.conv x).putPhase k { (m.conv x).phase k with fenced := false })).dropFence sc k, .ok) }
  | 4 =>
    { v := { estate := c.st != .fenced || !m.fenceRead .stage x || gated, ebasic := !m.expert .cnv }
      eff := fun m => ((m.convRest x .stopped).dropFence .stage x, .ok) }
  | _ => { v := { erange := true }, eff := fun m => (m, .ok) }

/-- A write of a CNV register (R299, R304, R312, R313, R330, R341, R343). -/
def cnvAct (r : RName) (i : Nat) (d : Word) (m : Chip) : Act :=
  match r with
  | .cnvXCmd => cnvCmdAct i d m
  | .cnvXCfg =>
    let d := if i = 1 then setBits d 23 20 0 else d
    let same := (d &&& wd 0xFFF00C) = (m.get .cnvXCfg i &&& wd 0xFFF00C)
    actStoreIf { estate := (m.conv i).st != .stopped && !same, erange := popM 8 (bits d 23 16) < bits d 15 12 } r i d
  | .cnvXCmdval => actStoreIf { estate := (m.conv i).bound.isSome } r i d
  | .cnvXIlim => actStoreIf { erange := bits d 15 8 ≤ bits d 7 0 } r i d
  | .cnvXPer =>
    { v := {}, eff := fun m => (((m.slewRest i).store r i d).when ((m.conv i).st = .stopped) (fun m => m.slewRest i), .ok) }
  | .cnvPertTone => actStoreIf { erange := !m.tonesOk i d } r i d
  | _ => actStore r i d

/-! ### Status views -/

/-- CNV_x_STAT (R342). -/
def Chip.cnvStat (m : Chip) (x : Nat) : Word :=
  let c := m.conv x
  let st := match c.st with
    | .stopped => 0 | .softstart => 1 | .run => 2 | .stopping => 3 | .hiccup => 4 | .fenced => 5
  let src := match c.bound with
    | some _ => if c.loopDuty then 2 else 1
    | none => 0
  wd (c.active * 2 ^ 24 + c.retry * 2 ^ 20 + b2n (m.clampOn x true || m.clampOn x false) * 2 ^ 19 + b2n c.slowcl * 2 ^ 18 +
    b2n c.limited * 2 ^ 17 + b2n c.synclk * 2 ^ 16 + c.ckpt * 256 + src * 16 + b2n (x = 0 && m.pertOn) * 8 + st)

/-- CNV_x_PHk. -/
def Chip.cnvPh (m : Chip) (x k : Nat) : Word :=
  let p := (m.conv x).phase k
  wd (unI p.iavg 16 + b2n p.de * 65536 + b2n p.fast * 2 ^ 17 + b2n p.fenced * 2 ^ 18 + p.slot * 2 ^ 20)

/-- CNV_SYNCSTAT. -/
def Chip.cnvSyncstat (m : Chip) : Word :=
  wd (b2n m.edgesSeen + b2n (m.conv 0).synclk * 2 + b2n (m.conv 1).synclk * 4 + m.cnv.syncPer * 256)

end Sys2Proof.Machine
end

