-- ==== Sys2Proof/Machine/BatOps.lean ====
section
/-!
DEFINITION. The battery strings' shared operations (R371 to R374, R389): their registers' fields, their measurements, and
the strings that conduct.
-/

namespace Sys2Proof.Machine

/-- EN of string n. -/
def Chip.strOn (m : Chip) (n : Nat) : Bool := m.flag .batStrCfg n 20

/-- Cells per string (R373). -/
def Chip.ncell (m : Chip) : Nat := m.fld .batCfg 0 15 8

/-- The measured voltage of string n in 10 mV × 2^24 (R371). -/
def Chip.strV (m : Chip) (n : Nat) : Int := m.chanQ (m.fld .batStrCfg n 6 0) * (m.fld .batStrScale n 31 16 : Int)

/-- The measured current of string n in 0.1 A × 2^24, positive in discharge (R371). -/
def Chip.strI (m : Chip) (n : Nat) : Int := m.chanQ (m.fld .batStrCfg n 14 8) * (m.fld .batStrScale n 15 0 : Int)

/-- A string or LO voltage per cell in mV × 2^24 (R373); 0 while NCELL is 0. -/
def Chip.perCell (m : Chip) (v : Int) : Int := if m.ncell = 0 then 0 else v * 10 / (m.ncell : Int)

/-- The LO voltage per cell in mV × 2^24. -/
def Chip.loCell (m : Chip) : Int := m.perCell (m.loV 0)

/-- The temperature of string n in 0.1 °C, while its channel gives one (R371). -/
def Chip.strTemp (m : Chip) (n : Nat) : Option Int :=
  let k := m.fld .batStrCfg n 19 15
  if k < 22 && (m.sensor k).valid then some (m.sensor k).t else none

/-- BAT_STRn_MEAS. -/
def Chip.strMeas (m : Chip) (n : Nat) : Word :=
  wd (unI (clampI 0 65535 (rdiv (m.strV n) q1)) 16 + unI (clampI (-32768) 32767 (rdiv (m.strI n) q1)) 16 * 65536)

/-- A string fault: its flag stays until it is read (R395), and the source names the string. -/
def Chip.strFault (m : Chip) (n bit : Nat) : Chip := (m.putF .batStrFlt n bit bit 1).raise (76 + bit) n []

/-- A charger or shelf fault with its flag in BAT_CHG_FLT (R395). -/
def Chip.chgFault (m : Chip) (bit : Nat) : Chip := (m.putF .batChgFlt 0 bit bit 1).raise (71 + bit) 0 []

/-- A measured value joins its segments: each value with the stamp from which it held, as far back as a window reaches. -/
def segPush (segs : List (Nat × Int)) (now win : Nat) (v : Int) : List (Nat × Int) :=
  let keep := fun (l : List (Nat × Int)) =>
    l.takeWhile (fun e => decide (now < e.1 + win)) ++ (l.dropWhile (fun e => decide (now < e.1 + win))).take 1
  match segs with
  | [] => [(now, v)]
  | e :: t => if e.2 = v then keep segs else if e.1 = now then (now, v) :: keep t else (now, v) :: keep segs

/-- The mean over the last `win` microseconds of what the segments hold, each value weighted by its time. -/
def segMean (segs : List (Nat × Int)) (now win : Nat) : Int :=
  let acc := segs.foldl (fun (a : Int × Nat × Nat) e =>
    let from_ := max e.1 (now - win)
    if from_ < a.2.2 then (a.1 + e.2 * ((a.2.2 - from_ : Nat) : Int), a.2.1 + (a.2.2 - from_), from_) else a) (0, 0, now)
  if acc.2.1 = 0 then (match segs with
    | e :: _ => e.2
    | [] => 0)
  else acc.1 / (acc.2.1 : Int)

/-- The value that the segments hold at a stamp. -/
def segAt (segs : List (Nat × Int)) (t : Nat) : Option Int := (segs.find? (fun e => decide (e.1 ≤ t))).map (fun e => e.2)

end Sys2Proof.Machine
end

