-- ==== Sys2Proof/Machine/PtnIssue.lean ====
section
/-!
DEFINITION. Issues to partners (R161, R432, R436, R439), a slot's finalise and retract (R440, R441), and the restores of
an entry or a path that becomes usable again (R442, R456).
-/

namespace Sys2Proof.Machine

/-- PTN_EFULLCNT counts a refused issue (R436). -/
def Chip.efullCount (m : Chip) : Chip := m.bump .ptnEfullcnt 0 15 0 1

/-- An accepted setpoint takes the number GENL + 1 (R439); one of a tentative T is recorded with it (R440). Those it supersedes at the
head of the entry complete (R443). -/
def Chip.setp (m : Chip) (e value : Nat) (by_ : Issuer) (tent : Option (Nat × Nat)) : Chip :=
  let x := m.ent e
  let g := (x.genl + 1) % 2 ^ 32
  let gens := match tent with
    | some (s, t) => x.gens ++ [{ gen := g, slot := s, t := t, value := value, sent := [], ok := false }]
    | none => x.gens
  (((m.putEnt e { x with genl := g, gens := gens }).accept e (m.spItem e) .setp by_ value 0 g tent false).drain e poolMax).1

/-- A submission of a slot's output block (R247). In SHADOW nothing is submitted (R251). -/
def Chip.submit (m : Chip) (s e item value : Nat) (tent : Option (Nat × Nat)) : Chip × Status :=
  if m.pwr.base = .shadow then (m, .ok)
  else if !m.entDefined e || m.spItem e = 0 || item != m.spItem e then (m, .erange)
  else if m.entFenced e then (m, .efenced)
  else if m.poolFull true then (m.efullCount, .efull)
  else (m.setp e value (.slot s) tent, .ok)

/-- A block descriptor is in range (R160): COUNT 1 to 255, reserved bits 0, the range within the commons. -/
def descOk (d : Word) : Bool := bits d 31 24 != 0 && bits d 23 18 = 0 && bits d 17 0 + bits d 31 24 ≤ 0x40000

/-- The length an instruction of a kind needs of its item (R464): an item of another length is out of range for it, as R161 says of a
pread of more than 4 bytes (DESIGN CHOICE, log entry 75). -/
def kindLen (k : TxKind) (len : Nat) : Bool :=
  match k with
  | .read | .poll | .write | .setp => 1 ≤ len && len ≤ 4
  | .cmd | .keep => len = 0
  | .blkr | .blkw => len = 5
  | _ => true

/-- A block descriptor's range touches the vendor area of the commons (R103, R160). -/
def touchesVendor (d : Word) : Bool := bits d 31 24 != 0 && bits d 17 0 < 0x10000

/-- The checks of R161 in order, for an issue that passed the port authority of R116: the owner mask, the item, SHADOW,
the fence and the pool. -/
def Chip.issueStatus (m : Chip) (o : Owner) (k : TxKind) (e item : Nat) (desc : Word) : Status :=
  let own := match o with
    | .vendor => 21 | .host => 22 | .svc => 23
  let it := itemOf (m.entClass e) item
  let lenOk := match it with
    | some (_, n) => kindLen k n
    | none => false
  let blk := k = .blkr || k = .blkw
  if m.entDefined e && !bitOf (m.pw e 0) own then .eauth
  else if k = .blkr && o != .vendor && touchesVendor desc then .eauth
  else if !m.entDefined e || !lenOk || (blk && !descOk desc) || (k = .setp && (item = 0 || item != m.spItem e)) then .erange
  else if (k = .setp && m.entBound e) || m.pwr.base = .shadow then .estate
  else if m.entFenced e then .efenced
  else if m.poolFull (k = .setp) then .efull
  else .ok

/-- The value of GENF at an entry: while no generation has come into force the spec states none, and it is open (R441, R445; log
entry 43). -/
def Chip.forceValue (m : Chip) (e : Nat) : Chip :=
  if (m.ent e).genf = 0 then (m.putEnt e { m.ent e with genv := m.openVal % 2 ^ 32 }).spend else m

/-- An issue that passed its checks. -/
def Chip.issue (m : Chip) (k : TxKind) (by_ : Issuer) (e item data : Nat) (desc : Word) : Chip :=
  if k = .setp then m.setp e data by_ none
  else if k = .cmd && m.entGroup e then
    let m := m.forceValue e
    m.accept e item .keep by_ (m.ent e).genv 0 (m.ent e).genf none false
  else m.accept e item k by_ data desc 0 none false

/-! ### Finalise, retract, restore -/

/-- A path on which entry e would send a retract or a restore is fenced, or the entry is. -/
def Chip.keyFenced (m : Chip) (e k : Nat) : Bool :=
  (m.ent e).st = .fenced || (if 32 ≤ k then m.pathFenced (k - 32) else if m.entGroup e then m.busOrSegFenced k else m.pathFenced e)

/-- The parts of a group's retract or restore on one path. -/
def Chip.keyLegs (m : Chip) (e k : Nat) : List Leg :=
  if m.entGroup e then (m.groupLegs e).filter (fun l => l.key = k) else []

/-- An entry sends a retract or a restore on a path, or a fenced path owes it (R441, R442). A path that no member of the group has any
longer owes nothing. -/
def Chip.sendRetract (m : Chip) (e k g : Nat) (front : Bool) : Chip :=
  if m.keyFenced e k then m.owe e k g
  else if m.entGroup e && (m.keyLegs e k).isEmpty then m.restored e k
  else if front && m.allTxns.any (fun t => t.kind = .restore && t.entry = e && m.txnKey t = k) then m
  else
    let m := m.forceValue e
    m.acceptOn (m.keyLegs e k) e (m.spItem e) (if k < 16 || 32 ≤ k || front then .restore else .retract) .lib (m.ent e).genv 0 g none front

/-- Entry e finalises what is recorded with slot s's T (R440). -/
def Chip.finaliseEnt (m : Chip) (s t e : Nat) : Chip :=
  let x := m.ent e
  let mine := x.gens.filter (fun g => g.slot = s && g.t = t)
  if mine.isEmpty then m
  else
    let best := mine.foldl (fun (a : Nat × Nat) g => if g.ok && a.1 < g.gen then (g.gen, g.value) else a) (0, 0)
    let m := m.putEnt e { x with gens := x.gens.filter (fun g => !(g.slot = s && g.t = t)) }
    let m : Chip := { m with ptn := { m.ptn with pool := m.ptn.pool.map (fun o =>
                        if o.entry = e && o.tent = some (s, t) then { o with tent := none } else o) } }
    let m := m.inForce e best.1 best.2
    let paths := ((mine.flatMap (fun g => g.sent)).filter (fun p => 16 ≤ p && p < 32)).eraseDups
    let high := mine.foldl (fun a g => if g.sent.any (fun p => 16 ≤ p && p < 32) then max a g.gen else a) 0
    if paths.isEmpty then m
    else
      let legs := if m.entGroup e then (m.groupLegs e).filter (fun l => paths.contains l.key) else []
      m.acceptOn legs e (m.spItem e) .final .lib 0 0 high none false

/-- Entry e retracts what is recorded with slot s's T (R441): what is not started completes with ERETRACTED. -/
def Chip.retractEnt (m : Chip) (s t e : Nat) : Chip :=
  let x := m.ent e
  let mine := x.gens.filter (fun g => g.slot = s && g.t = t)
  if mine.isEmpty then m
  else
    let m := m.putEnt e { x with gens := x.gens.filter (fun g => !(g.slot = s && g.t = t)) }
    let m : Chip := { m with ptn := { m.ptn with pool := m.ptn.pool.map (fun o =>
                        if o.entry = e && o.tent = some (s, t) && !o.wire && !o.legs.any (fun l => l.active || l.done) &&
                           o.early.isNone then { o with early := some (.eretracted, 0) } else o) } }
    let paths := (mine.flatMap (fun g => g.sent)).eraseDups
    let m := paths.foldl (fun m p =>
      m.sendRetract e p (mine.foldl (fun a g => if g.sent.contains p then max a g.gen else a) 0) false) m
    (m.drain e poolMax).1

/-- A slot finalises its T at every entry (R440). In SHADOW no message is sent (R251). -/
def Chip.finalise (m : Chip) (s t : Nat) : Chip :=
  if m.pwr.base = .shadow then m else (m.ptn.ents.map (fun x => x.1)).foldl (fun m e => m.finaliseEnt s t e) m

/-- A slot retracts its T at every entry (R441). -/
def Chip.retract (m : Chip) (s t : Nat) : Chip :=
  if m.pwr.base = .shadow then m else (m.ptn.ents.map (fun x => x.1)).foldl (fun m e => m.retractEnt s t e) m

/-- Link credits of an entry as its CR fields give them (R427, R452). -/
def Chip.creditsOf (m : Chip) (e : Nat) : List Nat :=
  let w := m.pw e 3
  [bits w 31 28, bits w 27 24, bits w 23 20, bits w 19 16].map (fun c => if c = 0 then 2 else c)

/-- A path has become usable (R452, R456): credits are restored and every restore owed on it is sent first. -/
def Chip.pathUsable (m : Chip) (p : Nat) : Chip :=
  (m.ptn.ents.map (fun x => x.1)).foldl (fun m e =>
    let mine := !m.entGroup e && m.entPath e = p
    let m := if mine then m.putEnt e { m.ent e with cr := m.creditsOf e } else m
    ((m.ent e).owes.filter (fun o => m.keyPath o.1 = p)).foldl (fun m o => m.sendRetract e o.1 o.2 true) m) m

end Sys2Proof.Machine
end

