-- ==== Sys2Proof/Machine/Recorder.lean ====
section
/-!
DEFINITION. The event recorder (R602 to R615, R700, R701): the write of a record, its slot and number, the boot scan,
the reading window, the clear and the sealed export. Waveform capture stands in Machine/Capture.lean.
-/

namespace Sys2Proof.Machine

/-! ### The record's words (R602) -/

/-- Words 0 to 14 of a record with its number, the power-cycle count and the operating seconds at the write. -/
def recWords (r : Rec) (seq pcc opsec : Nat) : List Word :=
  [wd seq, wd (pcc % 2 ^ 24 + r.kind % 256 * 2 ^ 24), wd opsec, wd (r.stamp % 2 ^ 32),
   wd (r.stamp / 2 ^ 32 % 256 + r.sev % 8 * 256 + r.source % 65536 * 65536), wd (r.code % 65536 + r.inst % 4096 * 65536)] ++
    (r.payload ++ List.replicate 8 0).take 8 ++ [0]

/-- The sixteen words of a record, its CRC last. -/
def recFull (r : Rec) (seq pcc opsec : Nat) : List Word :=
  let ws := recWords r seq pcc opsec
  ws ++ [wd (crc32Words ws)]

/-- PWRM_OPSEC (R70). -/
def Chip.opsec (m : Chip) : Nat := m.upUs / 1000000 % 2 ^ 32

/-- A GAP record (R607): cause, FIRST, LAST, DETAIL and word 9. -/
def gapRec (stamp code first last detail w9 : Nat) : Rec :=
  { kind := 4, source := 0x200, code := code, inst := 0, sev := 0, stamp := stamp,
    payload := [wd first, wd last, wd detail, wd w9] }

/-- A GAP record that is written before the queue. -/
def Chip.gapFirst (m : Chip) (code first last detail w9 : Nat) : Chip :=
  { m with rcd := { m.rcd with urgent := m.rcd.urgent ++ [{ rcd := gapRec m.now code first last detail w9, deliv := none }] } }

/-! ### The slots -/

/-- A slot of the recorder partition. -/
def Chip.slot (m : Chip) (k : Nat) : RSlot := NTab.get .empty m.rcd.slots k

/-- The recorder partition with a slot written. -/
def Chip.putSlot (m : Chip) (k : Nat) (s : RSlot) : Chip :=
  { m with rcd := { m.rcd with slots := NTab.set .empty m.rcd.slots k s } }

/-- SEQ of a slot that holds a record. -/
def RSlot.seq : RSlot → Option Nat
  | .record ws => some (ws.getD 0 0).toNat
  | _ => none

/-- The stored records by slot: slot, number, words. -/
def Chip.stored (m : Chip) : List (Nat × Nat × List Word) :=
  m.rcd.slots.filterMap (fun e => match e.2 with
    | .record ws => some (e.1, (ws.getD 0 0).toNat, ws)
    | _ => none)

/-- The least of a list of numbers, 0 for none. -/
def leastOf : List Nat → Nat
  | [] => 0
  | a :: l => l.foldl min a

/-- The greatest of a list of numbers, 0 for none. -/
def greatestOf (l : List Nat) : Nat := l.foldl max 0

/-- Numbers of the stored records. -/
def Chip.seqs (m : Chip) : List Nat := m.stored.map (fun e => e.2.1)

/-- The write position after slot k: the fixed area runs into the circulating area, which rotates (R605). -/
def nextPos (k : Nat) : Nat := if k + 1 = 16384 then 1024 else k + 1

/-- The write position moves past slot k, raising RCD_WRAP when it returns to slot 1,024 (R605). -/
def Chip.posOn (m : Chip) (k : Nat) : Chip :=
  let m := { m with rcd := { m.rcd with pos := nextPos k } }
  if k + 1 = 16384 then ({ m with rcd := { m.rcd with wrapped := true } }).event 234 else m

/-- The next record to write: a covering GAP, then a GAP LOST for refused records, then the queue (R606, R700, R701). -/
def Chip.nextRec (m : Chip) : Option (QRec × Chip) :=
  match m.rcd.urgent with
  | q :: rest => some (q, { m with rcd := { m.rcd with urgent := rest } })
  | [] =>
    if 0 < m.rcd.refused then
      some ({ rcd := gapRec m.now 4 0 0 m.rcd.refused 0, deliv := none }, { m with rcd := { m.rcd with refused := 0 } })
    else match m.rcd.queue with
      | q :: rest => some (q, { m with rcd := { m.rcd with queue := rest } })
      | [] => none

/-- The recorder takes the next record, assigns SEQ and writes words 0 to 14 (R604). Nothing starts while a write or a
clear is under way, before the boot scan, or while the collapse detector has fired (R58, R608, R613). -/
def Chip.recordStart (m : Chip) : Chip :=
  if m.rcd.writing.isSome || m.rcd.clear.isSome || !m.rcd.scanned || m.pwr.ecdFired then m
  else match m.nextRec with
    | none => m
    | some (q, m) =>
      let k := m.rcd.pos
      let n := m.rcd.next
      let m := m.putSlot k (.partialWrite n)
      { m with rcd := { m.rcd with writing := some (k, n, q), next := n + 1 } }

/-! ### Capture units -/

/-- Capture unit u. -/
def Chip.cap (m : Chip) (u : Nat) : Cap := NTab.get Cap.init m.rcd.caps u

/-- The chip with capture unit u written. -/
def Chip.putCap (m : Chip) (u : Nat) (c : Cap) : Chip :=
  { m with rcd := { m.rcd with caps := NTab.set Cap.init m.rcd.caps u c } }

/-- A unit begins to fill (R618): the pre-trigger buffer is emptied; with PRE 0 it is armed at once. -/
def Chip.capFill (m : Chip) (u : Nat) : Chip :=
  let c := m.cap u
  m.putCap u { c with st := if m.fld .rcdCapCfg u 27 16 = 0 then .armed else .filling, pre := [], post := [], dec := 0 }

/-- A unit enters DONE, and fills again while AUTO = 1 (R618). -/
def Chip.capDone (m : Chip) (u : Nat) (c : Cap) : Chip :=
  (m.putCap u { c with st := .done, sent := false, pre := [], post := [] }).when (m.flag .rcdCapCfg u 1) (fun m => m.capFill u)

/-- A unit's CAPTURE record is committed: the unit's capture is valid, and RCD_CAPTURE is raised (R618). A record that could not be read
back has to be written again (DEDUCED, log entry 85). -/
def Chip.capRecord (m : Chip) (r : Rec) (good : Bool) : Chip :=
  let c := m.cap r.code
  if r.kind != 5 || c.st != .commit || !c.sent then m
  else if good then (m.capDone r.code { c with valid := true }).event 233
  else m.putCap r.code { c with sent := false }

/-! ### The write of a record -/

/-- The CRC word is written and the record is read back (R604, R609): readable, or left unused with RCD_MRAM and a GAP
ABANDONED. -/
def Chip.recordCommit (m : Chip) (good : Bool) : Chip :=
  match m.rcd.writing with
  | none => m
  | some (k, n, q) =>
    let m := { m with rcd := { m.rcd with writing := none } }
    if good then
      let m := m.putSlot k (.record (recFull q.rcd n m.nvm.pcc m.opsec))
      let m := { m with rcd := { m.rcd with deliver := m.rcd.deliver ++ q.deliv.toList } }
      (m.posOn k).capRecord q.rcd true
    else
      let m := (m.putSlot k .bad).posOn k
      ((m.gapFirst 1 n n 0 0).raise 8 0 []).capRecord q.rcd false

/-- The early collapse detector abandons a record write that has not reached its commit (R58). Answers the number
abandoned. -/
def Chip.recordAbandon (m : Chip) : Chip := { m with rcd := { m.rcd with writing := none } }

/-- The number of an abandoned write in the slot at the write position (R608, R700). -/
def Chip.abandoned (m : Chip) : Option Nat :=
  match m.slot m.rcd.pos with
  | .partialWrite n => if m.rcd.writing.isNone then some n else none
  | _ => none

/-- The valid circulating records increase from the write position round to it (R608). -/
def Chip.circRising (m : Chip) : Bool :=
  let circ := m.stored.filter (fun e => 1024 ≤ e.1)
  let order := circ.filter (fun e => m.rcd.pos ≤ e.1) ++ circ.filter (fun e => e.1 < m.rcd.pos)
  let ns := order.map (fun e => e.2.1)
  (ns.zip (ns.drop 1)).all (fun p => p.1 < p.2)

/-- The first position from p on that is no slot left unused by R609. -/
def Chip.skipBad (m : Chip) (p : Nat) : Nat → Nat
  | 0 => p
  | fuel + 1 => match m.slot p with
    | .bad => m.skipBad (nextPos p) fuel
    | _ => p

/-- The boot scan (R608): the write position follows the newest record, and an abandoned write there is covered by a GAP
ABANDONED in its slot, under the number after the lost one. RCD_INDEX if two valid slots carry one SEQ, or if the circulating records do not
increase. -/
def Chip.bootScan (m : Chip) : Chip :=
  let st := m.stored
  let newest := greatestOf m.seqs
  let pos := match st.find? (fun e => e.2.1 = newest) with
    | some e => nextPos e.1
    | none => 0
  let pos := m.skipBad pos m.rcd.slots.length
  let part := match m.slot pos with
    | .partialWrite _ => true
    | _ => false
  let nx := if part then newest + 2 else newest + 1
  let m : Chip := { m with rcd := { m.rcd with pos := pos, next := nx, scanned := true, writing := none } }
  let m : Chip := if part then m.gapFirst 1 (newest + 1) (newest + 1) 0 0 else m
  let m : Chip := if 0 < m.rcd.discarded then
      (m.gapFirst 4 0 0 m.rcd.discarded 0) |> fun m => { m with rcd := { m.rcd with discarded := 0 } }
    else m
  if decide m.seqs.Nodup && m.circRising then m else m.raise 9 0 []

/-! ### The reading window (R610 to R612) -/

/-- What the window shows for a cursor: the words of a record or of a WRAP GAP, and where AUTOINC moves the cursor. -/
def Chip.window (m : Chip) (cur : Nat) : List Word × Nat :=
  let st := m.stored
  let fixHi := greatestOf ((st.filter (fun e => e.1 < 1024)).map (fun e => e.2.1))
  let circLo := leastOf ((st.filter (fun e => 1024 ≤ e.1)).map (fun e => e.2.1))
  let last := greatestOf m.seqs
  if last < cur then (List.replicate 16 0, cur)
  else if m.rcd.wrapped && fixHi < cur && cur < circLo then
    let ws : List Word := [0, wd (4 * 2 ^ 24), 0, 0, wd (0x200 * 65536), wd 7, wd (fixHi + 1), wd (circLo - 1), 0, 0, 0, 0, 0, 0, 0]
    (ws ++ [wd (crc32Words ws)], circLo)
  else
    let n := leastOf (m.seqs.filter (fun s => cur ≤ s))
    match st.find? (fun e => e.2.1 = n) with
    | some e => (e.2.2, n + 1)
    | none => (List.replicate 16 0, cur)

/-- A read of a cursor register in a bank (R610, R612): the chip and the word. -/
def Chip.cursorRead (m : Chip) (r : RName) (i bank : Nat) : Chip × Word :=
  let cur := (m.get .rcdCur bank).toNat
  let w := m.window cur
  match r with
  | .rcdCur => (m, m.get .rcdCur bank)
  | .rcdSeq => (m.put .rcdSeq bank (w.1.getD 0 0), w.1.getD 0 0)
  | .rcdWin => (m, w.1.getD i 0)
  | .rcdSeqchk =>
    let s := w.1.getD 0 0
    let beyond := greatestOf m.seqs < cur
    let hit := m.get .rcdSeq bank = s && !beyond && m.flag .rcdCfg 0 1
    (if hit then m.put .rcdCur bank (wd w.2) else m, s)
  | _ => (m, 0)

/-! ### Clear (R613) and export (R614, R615) -/

/-- The clear ends: every slot is zeroed, and every capture slot when CAP = 1; GAP CLEAR becomes the first fixed record
and the marker goes. Nothing is erased while the collapse detector has fired (R58): the marker stays. -/
def Chip.clearDone (m : Chip) : Chip :=
  match m.rcd.clear, m.pwr.ecdFired with
  | none, _ => m
  | some _, true => m
  | some (lo, hi, cap), false =>
    let n := m.rcd.next
    let w := recFull (gapRec m.now 2 lo hi (b2n cap) 0) n m.nvm.pcc m.opsec
    { m with rcd := { m.rcd with slots := NTab.set .empty [] 0 (.record w), pos := 1, next := n + 1, wrapped := false,
                                 clear := none, caps := if cap then [] else m.rcd.caps } }

/-- An export is accepted: its bank is noted (R614). -/
def Chip.exportStart (m : Chip) (bank : Nat) : Chip :=
  { m with rcd := { m.rcd with expRun := true, expBank := bank, expBuf := [], expTrailer := [] } }

/-- The records that an export copies: ascending from EXP_FIRST, up to EXP_CNT (R614). -/
def Chip.exportRecords (m : Chip) : List (List Word) :=
  let first := (m.get .rcdExpFirst 0).toNat
  let st := (m.stored.filter (fun e => first ≤ e.2.1)).mergeSort (fun a b => a.2.1 ≤ b.2.1)
  (st.take (m.fld .rcdExpCnt 0 8 0)).map (fun e => e.2.2)

/-- The whipping (R614): trailer words 0 to 7, then HMAC-SHA-256 with key slot 0 over the records and those words. -/
def Chip.whipping (m : Chip) (recs : List (List Word)) (key : List Word) : List Word :=
  let seqOf := fun (r : List Word) => r.getD 0 0
  let t : List Word := [wd 0x57484950, wd (1 + recs.length * 65536), seqOf (recs.getD 0 []), seqOf (recs.getLastD []),
    wd m.nvm.pcc, wd m.opsec, wd (Config.mac.toNat % 2 ^ 32), wd (Config.mac.toNat / 2 ^ 32)]
  let mac := hmac256 (key.flatMap leBytes) ((recs.flatten ++ t).flatMap leBytes)
  t ++ (List.range 8).map (fun k => ofLe (mac.drop (4 * k)))

/-- An export finishes with its buffer and whipping readable (R614). -/
def Chip.exportDone (m : Chip) : Chip :=
  if !m.rcd.expRun then m
  else match m.nvm.key0 with
    | some key =>
      let recs := m.exportRecords
      let m := { m with rcd := { m.rcd with expRun := false, expBuf := recs, expTrailer := m.whipping recs key } }
      m.put .rcdCmdstat 0 (wd (0x300 + Status.ok.code))
    | none =>
      ({ m with rcd := { m.rcd with expRun := false, expBuf := [], expTrailer := [] } }).put .rcdCmdstat 0
        (wd (0x300 + Status.estate.code))

/-- A word of the selected export item (R615). -/
def Chip.exportWord (m : Chip) (k : Nat) : Word :=
  let i := m.fld .rcdExpIdx 0 8 0
  if i = 256 then m.rcd.expTrailer.getD k 0 else (m.rcd.expBuf.getD i []).getD k 0

/-- RCD_STAT. -/
def Chip.rcdStat (m : Chip) : Word :=
  let fixed := (m.stored.filter (fun e => e.1 < 1024)).length
  let circ := (m.stored.filter (fun e => 1024 ≤ e.1)).length
  wd (fixed + circ * 2048 + b2n m.rcd.clear.isSome * 2 ^ 25 + b2n m.rcd.wrapped * 2 ^ 26 + b2n m.rcd.expRun * 2 ^ 27)

end Sys2Proof.Machine
end

