-- ==== Sys2Proof/Machine/Estimate.lean ====
section
/-!
DEFINITION. Battery state estimation (R401 to R426): the update, tones and steps, corrections, capacity, insertion and
removal, the learned-value store and the writes of the EST registers. Charges, resistances, times, percentages and
millivolts are kept in units of 2^-32 (DESIGN CHOICE, log entry 48).
-/

namespace Sys2Proof.Machine

/-- 1 in units of 2^-32. -/
def e32 : Int := 4294967296

/-- The product of two quantities in 2^-32. -/
def eMul (a b : Int) : Int := a * b / e32

/-- The quotient of two quantities in 2^-32; 0 for a zero divisor. -/
def eDiv (a b : Int) : Int := if b = 0 then 0 else a * e32 / b

/-- The square root of the sum of two squares. -/
def eHyp (a b : Int) : Int := (isqrtFrom 64 0 (a * a + b * b).toNat : Nat)

/-- An EST fault or event names its string. -/
def Chip.estEvent (m : Chip) (src n : Nat) : Chip := (m.eventRecord src n [wd n]).event src

/-- A vendor strand issues a transaction, if its checks pass (R161); a block read takes its descriptor. -/
def Chip.vendorIssueAt (m : Chip) (k : TxKind) (e item data : Nat) (desc : Word) : Chip :=
  if m.issueStatus .vendor k e item desc = .ok then m.issue k .lib e item data desc else m

/-- A vendor strand issues a transaction that is no block transfer. -/
def Chip.vendorIssue (m : Chip) (k : TxKind) (e item data : Nat) : Chip := m.vendorIssueAt k e item data 0

/-! ### The store (R418 to R423) -/

/-- The words of a record (R419); its learned values as Q8.24. -/
def EstRec.words (r : EstRec) : List Word :=
  let q := fun (x : Int) => qWord (x / 256)
  let l := r.learned
  [r.ident, wd (r.string + b2n r.live * 4 + l.mods.length * 256), q l.cap, q l.capsig, q l.r0, q l.r0new, q l.rpol, q l.tau, q r.soc,
   q r.sigma, wd r.pcc, wd r.opsec, wdI (l.cycles / e32), 0, 0, 0] ++ l.mods.map (fun e => wd (e.1 + e.2 * 65536))

/-- A record as the store keeps it: each value has the bits of its field (R419). -/
def EstRec.stored (r : EstRec) : EstRec :=
  let q := fun (x : Int) => (qWord (x / 256)).toInt * 256
  let l := r.learned
  { r with soc := q r.soc, sigma := q r.sigma
           learned := { cap := q l.cap, capsig := q l.capsig, r0 := q l.r0, r0new := q l.r0new, rpol := q l.rpol, tau := q l.tau,
                        cycles := (wdI (l.cycles / e32)).toNat * e32, mods := l.mods } }

/-- Words 0 to 4 of a slot's header (R419). -/
def EstSlot.header (s : EstSlot) : List Word := [s.magic, wd s.seq, wd (1 + s.recs.length * 65536), wd s.pcc, wd s.opsec]

/-- The CRC that a slot's header and records give (R419). -/
def EstSlot.crcOf (s : EstSlot) : Nat := crc32Words (s.header ++ s.recs.flatMap EstRec.words)

/-- The words of a slot as the partition holds them (R419). -/
def EstSlot.words (s : EstSlot) : List Word := s.header ++ [wd s.crc, wd s.commit, 0] ++ s.recs.flatMap EstRec.words

/-- MAGIC of a slot (R419). -/
def estMagic : Word := 0x4553544C

/-- A slot is valid (R419): MAGIC is correct, COMMIT equals SEQ and the CRC matches. -/
def EstSlot.valid (s : EstSlot) : Bool := s.magic = estMagic && s.commit = s.seq && s.commit != 0 && s.crc = s.crcOf

/-- The newest valid slot: true for B (R423); none while neither is valid. -/
def Chip.newestSlot (m : Chip) : Option Bool :=
  let a := m.est.slotA
  let b := m.est.slotB
  if a.valid && (!b.valid || b.seq ≤ a.seq) then some false else if b.valid then some true else none

/-- A slot of the store. -/
def Chip.estSlot (m : Chip) (b : Bool) : EstSlot := if b then m.est.slotB else m.est.slotA

/-- The store with a slot written. -/
def Chip.putEstSlot (m : Chip) (b : Bool) (x : EstSlot) : Chip :=
  if b then { m with est := { m.est with slotB := x } } else { m with est := { m.est with slotA := x } }

/-- SEQ of the newest valid slot, 0 for none. -/
def Chip.storeSeq (m : Chip) : Nat :=
  match m.newestSlot with
  | some b => (m.estSlot b).seq
  | none => 0

/-- A string's values as a record (R419). -/
def Chip.estRecord (m : Chip) (n : Nat) (live : Bool) : EstRec :=
  let x := m.estr n
  { ident := (m.bstr n).ident, string := n, live := live, learned := x.learned, soc := x.soc, sigma := x.sigma,
    pcc := m.nvm.pcc, opsec := m.opsec }

/-- The live records: strings that have been started. -/
def Chip.liveRecords (m : Chip) : List EstRec :=
  ((List.range 4).filter (fun n => (m.estr n).origin != 0)).map (fun n => m.estRecord n true) ++ m.est.live

/-- The records of a store write: live, then frozen, at most 16. -/
def Chip.estRecords (m : Chip) : List EstRec := (m.liveRecords ++ m.est.frozen).take 16

/-- A store write goes to a slot (R420): COMMIT is 0 from here on. -/
def Chip.storeWrite (m : Chip) (b : Bool) : Chip :=
  let s : EstSlot := { magic := estMagic, seq := m.storeSeq + 1, pcc := m.nvm.pcc, opsec := m.opsec, crc := 0, commit := 0,
                       recs := m.estRecords.map EstRec.stored }
  let m := m.putEstSlot b { s with crc := s.crcOf }
  { m with est := { m.est with writing := some b, writeAt := m.now, abandoned := none } }

/-- A store write falls due (R420, R421): to the slot that does not hold the newest valid values; during another it
starts when that ends. Nothing is started while the collapse detector has fired (R58). -/
def Chip.storeDue (m : Chip) : Chip :=
  if m.est.writing.isSome || m.pwr.ecdFired then { m with est := { m.est with due := true } }
  else m.storeWrite (m.newestSlot = some false)

/-- A store write commits (R420). -/
def Chip.storeDone (m : Chip) : Chip :=
  match m.est.writing with
  | none => m
  | some b =>
    let m := m.elapse m.est.writeAt 2100
    let m := m.putEstSlot b { m.estSlot b with commit := (m.estSlot b).seq }
    let m : Chip := { m with est := { m.est with writing := none, doneAt := m.now, everDone := true } }
    let m := (m.eventRecord 219 0 []).event 219
    if m.est.due then ({ m with est := { m.est with due := false } } : Chip).storeDue else m

/-- The early collapse detector abandons a store write (R58, R422). -/
def Chip.storeAbandon (m : Chip) : Chip :=
  match m.est.writing with
  | some b => { m with est := { m.est with writing := none, abandoned := some b } }
  | none => m

/-- The detector has re-armed without a reset: the same values go to the same target (R422), and a write that fell due meanwhile starts
(R421). -/
def Chip.storeRetry (m : Chip) : Chip :=
  match m.est.abandoned with
  | some b =>
    if m.pwr.ecdFired || m.est.writing.isSome then m
    else { m with est := { m.est with writing := some b, writeAt := m.now, abandoned := none } }
  | none =>
    if m.est.due && !m.est.writing.isSome && !m.pwr.ecdFired then ({ m with est := { m.est with due := false } } : Chip).storeDue else m

/-- WPERIOD has elapsed (R421). -/
def Chip.storePeriodic (m : Chip) : Chip :=
  let m := m.elapse m.est.periodAt (m.fld .estStorecfg 0 10 0 * 60000000)
  ({ m with est := { m.est with periodAt := m.now } } : Chip).storeDue

/-- Boot reads the store (R423): the valid slot with the higher SEQ; a GAP ESTSLOT for an abandoned write, and
EST_STORE_CORRUPT for a committed slot that fails its check. -/
def Chip.storeBoot (m : Chip) : Chip :=
  let next := m.storeSeq + 1
  let m : Chip := [false, true].foldl (fun m b =>
    let s := m.estSlot b
    if s.magic = estMagic && s.commit = 0 then m.gapFirst 5 0 0 (b2n b) next
    else if s.commit != 0 && !s.valid then m.raise 87 0 []
    else m) m
  match m.newestSlot with
  | none => { m with est := { m.est with frozen := [], live := [], writing := none } }
  | some b =>
    let s := m.estSlot b
    { m with est := { m.est with frozen := s.recs.filter (fun r => !r.live), writing := none,
                                 live := (s.recs.filter (fun r => r.live && r.ident != 0)).map (fun r => { r with opsec := s.opsec }) } }

/-! ### The open-circuit table (R408, R409) -/

/-- Temperature of string n above TREF in 0.1 °C; 0 where its channel gives none (DESIGN CHOICE, log entry 49). -/
def Chip.overRef (m : Chip) (n : Nat) : Int :=
  match m.strTemp n with
  | some t => t - 10 * sbits (m.get .estCapcfg 0) 31 24
  | none => 0

/-- Point k of the table at string n's temperature, in mV × 2^32. -/
def Chip.ocvPoint (m : Chip) (n k : Nat) : Int :=
  let w := m.get .estOcv k
  (bits w 15 0 : Int) * e32 + sbits w 31 16 * m.overRef n * e32 / 1000

/-- The inverse of the table with its local slope: SOC in % and mV per %, both × 2^32. The slope is that of the segment
the voltage falls in; beyond the table's ends the inverse is not stated, and its value is open. -/
def Chip.ocvInverse (m : Chip) (n : Nat) (v : Int) : Chip × Int × Int :=
  let slope := fun (k : Nat) => (m.ocvPoint n (k + 1) - m.ocvPoint n k) / 5
  match (List.range 20).find? (fun k => m.ocvPoint n k ≤ v && v ≤ m.ocvPoint n (k + 1)) with
  | some k =>
    let a := m.ocvPoint n k
    let b := m.ocvPoint n (k + 1)
    (m, 5 * (k : Int) * e32 + (if b = a then 0 else 5 * (v - a) * e32 / (b - a)), slope k)
  | none => (m.spend, (m.openVal : Int), if v < m.ocvPoint n 0 then slope 0 else slope 19)

/-! ### Capacity (R413, R414) -/

/-- SOH has fallen below SOHMIN (R414). -/
def Chip.sohCheck (m : Chip) (n : Nat) : Chip :=
  let x := m.estr n
  let low := x.learned.cap * 1000 < (m.fld .estCapcfg 0 23 16 : Int) * (m.fld .estStrCnom n 15 0 : Int) * e32
  let m := m.putEstr n { x with sohLow := low }
  if low && !x.sohLow then m.raise 85 n [] else m

/-- A capacity measurement between two corrections (R413): the SOC difference in % and the charge in Ah, both × 2^32. Its
reduction to TREF uses a table that the spec does not give, so away from TREF the measurement is open (DESIGN CHOICE, log entry 50). -/
def Chip.capMeasure (m : Chip) (n : Nat) (dsoc dq : Int) : Chip :=
  let ref := m.overRef n = 0
  let meas : Int := if ref then eDiv (100 * (dq.natAbs : Int)) dsoc else (m.openVal : Int)
  let m := if ref then m else m.spend
  let x := m.estr n
  let l := x.learned
  let em := eDiv (4 * meas) dsoc
  let h := eHyp l.capsig em
  let l := { l with cap := l.cap + (m.fld .estCapcfg 0 15 8 : Int) * (meas - l.cap) / 100,
                    capsig := if h = 0 then 0 else l.capsig * em / h }
  let m := m.putEstr n { x with learned := l, tightLo := none, tightHi := none }
  ((m.estEvent 220 n).sohCheck n).storeDue

/-- A correction that left SIGMA at 2 % or below joins the pairs that measure capacity (R413). -/
def Chip.tightNote (m : Chip) (n : Nat) : Chip :=
  let x := m.estr n
  if 2 * e32 < x.sigma then m
  else
    let d : Int := (m.fld .estCapcfg 0 7 0 : Int) * e32
    let here := (x.soc, x.ah)
    let m := match x.tightHi, x.tightLo with
      | some hi, some lo =>
        if d ≤ hi.1 - x.soc then m.capMeasure n (hi.1 - x.soc) (x.ah - hi.2)
        else if d ≤ x.soc - lo.1 then m.capMeasure n (x.soc - lo.1) (x.ah - lo.2)
        else m
      | _, _ => m
    let y := m.estr n
    let lo := match y.tightLo with
      | some p => if x.soc < p.1 then here else p
      | none => here
    let hi := match y.tightHi with
      | some p => if p.1 < x.soc then here else p
      | none => here
    m.putEstr n { y with tightLo := some lo, tightHi := some hi }

/-! ### Corrections (R409 to R411) -/

/-- ESTIMATE_STALE (R411): when 2 × SIGMA first exceeds UMAX. -/
def Chip.staleCheck (m : Chip) (n : Nat) : Chip :=
  let x := m.estr n
  let beyond := (m.fld .estConf 0 15 8 : Int) * e32 < 2 * x.sigma
  let m := m.putEstr n { x with stale := beyond }
  if beyond && !x.stale then m.raise 84 n [] else m

/-- A correction (R409) with an open-circuit cell voltage in mV × 2^32, its error in 0.1 mV, and its kind. -/
def Chip.correct (m : Chip) (n : Nat) (v : Int) (e kind : Nat) : Chip :=
  let r := m.ocvInverse n v
  let slope := r.2.2
  if slope * 10 < (m.fld .estErr 0 31 24 : Int) * e32 || slope ≤ 0 then m
  else
    let m := r.1
    let x := m.estr n
    let sm := eDiv ((e : Int) * e32 / 10) slope
    let h := eHyp x.sigma sm
    let soc := if h = 0 then x.soc else x.soc + x.sigma * x.sigma * (r.2.1 - x.soc) / (h * h)
    let floor : Int := (m.fld .estConf 0 31 24 : Int) * e32 / 10
    let m := m.putEstr n { x with soc := clampI 0 (100 * e32) soc, sigma := max floor (if h = 0 then 0 else x.sigma * sm / h),
                                  lastCorr := kind, corrAt := m.now, modCorr := true,
                                  loadedAt := if kind = 3 then m.now + 1 else x.loadedAt }
    (m.tightNote n).staleCheck n

/-- A valid rest of BAT ends (R388, R410): the rest-end voltage per cell in mV × 2^32, less VPOL ÷ NCELL, which has decayed since the last
update. -/
def Chip.restReport (m : Chip) (n : Nat) (v : Int) : Chip :=
  let x := m.estr n
  if x.origin = 0 || !m.flag .estCfg 0 1 then m
  else
    let dt : Int := (m.now - x.updAt : Nat)
    let f := if x.learned.tau ≤ 0 then 0 else fxExpNeg (dt * e32 / 1000000 * e32 / x.learned.tau).toNat
    let p := x.vpol * f / fx1 / max 1 (m.ncell : Int)
    m.correct n (v - p) (m.fld .estErr 0 15 8) 2

/-! ### The update (R408, R416) -/

/-- Tone t is on (R330): its frequency in 0.1 Hz, 0 while it is off. -/
def Chip.toneFreq (m : Chip) (t : Nat) : Nat :=
  let w := (m.tone t).w
  if m.flag .cnvPertCfg 0 0 && bits w 23 16 != 0 then bits w 13 0 else 0

/-- Frequencies of the tones that are on. -/
def Chip.tonesOn (m : Chip) : List Nat := ((List.range 8).map m.toneFreq).filter (· != 0)

/-- ZFRESH (R406): both quantities are no older than ZAGE, and come from a step or from the tone that is the highest, or the lowest, of
those that are on. -/
def Chip.zFresh (m : Chip) (n : Nat) : Bool :=
  let x := m.estr n
  let hi := m.tonesOn.foldl max 0
  let fresh := fun (at_ by_ tone : Nat) =>
    at_ != 0 && m.now + 1 ≤ at_ + m.fld .estZcfg 0 15 8 * 60000000 && (by_ = 0 || tone = 0 || by_ = tone)
  fresh x.hiAt x.hiBy hi && fresh x.loAt x.loBy (m.tonesOn.foldl min hi)

/-- The estimate of string n advances by `dt` µs at its present current (R408), and the loaded correction applies. -/
def Chip.estAdvance (m : Chip) (n : Nat) : Chip :=
  let x := m.estr n
  let dt : Int := (m.now - x.updAt : Nat)
  let i := m.strI n
  let l := x.learned
  let dq := i * dt * 256 / 36000000000
  let ratio := if l.cap ≤ 0 then 0 else 100 * dq * e32 / l.cap
  let f := if l.tau ≤ 0 then 0 else fxExpNeg (dt * e32 / 1000000 * e32 / l.tau).toNat
  let vp := x.vpol * f / fx1 + i * l.rpol * 100 / q1 * (fx1 - f) / fx1
  let grow := (m.fld .estConf 0 7 0 : Int) * e32 * dt / 360000000000 +
    (m.fld .estErr 0 23 16 : Int) * (ratio.natAbs : Int) / 1000
  let cyc := if dq < 0 || l.cap ≤ 0 then 0 else 100 * dq * e32 / l.cap
  let m := m.putEstr n { x with soc := x.soc - ratio, vpol := vp, sigma := x.sigma + grow,
                                ah := x.ah + dq, learned := { l with cycles := l.cycles + cyc }, updAt := m.now }
  let m := m.staleCheck n
  let x := m.estr n
  if m.zFresh n && (x.loadedAt = 0 || decide (x.loadedAt + 59999999 ≤ m.now)) then
    let v := (m.strV n * 2560 + i * x.learned.r0 * 100 / q1 + x.vpol) / max 1 (m.ncell : Int)
    m.correct n v (m.fld .estErr 0 7 0) 3
  else m

/-- The modes the estimator runs in (R401): STANDBY and every running mode, SHADOW among them (R424). -/
def Chip.estRuns (m : Chip) : Bool := m.flag .estCfg 0 1 && m.up

/-- Every 100 ms each enabled string that has been started is updated (R401, R408). -/
def Chip.estUpdate (m : Chip) : Chip :=
  if !m.estRuns then m
  else
    let ns := (List.range 4).filter (fun n => m.strOn n && (m.estr n).origin != 0)
    match ns with
    | [] => m
    | n :: _ =>
      let m := m.elapse (m.estr n).updAt 100000
      ns.foldl Chip.estAdvance m

/-- Modules of every string, in string order: string, index, ratios (R415). -/
def Chip.estMods (m : Chip) : List (Nat × Nat × Nat × Nat) :=
  ((List.range 4).flatMap (fun n => ((m.estr n).learned.mods.zipIdx).map (fun e => (n, e.2, e.1.1, e.1.2)))).take 64

/-- The reported bounds of string n (R411, R415) in % × 2^32: lower and upper. -/
def Chip.estBounds (m : Chip) (n : Nat) : Int × Int :=
  let x := m.estr n
  let crs := (m.estMods.filter (fun e => e.1 = n)).map (fun e => e.2.2.2)
  let lo := x.soc - 2 * x.sigma
  let lo := crs.foldl (fun (a : Int) (c : Nat) => min a ((c : Int) * x.soc / 4096 - 2 * x.sigma)) lo
  (clampI 0 (100 * e32) lo, clampI 0 (100 * e32) (x.soc + 2 * x.sigma))

/-- The capacity-weighted mean over the conducting strings of a quantity in % × 2^32 (R416). -/
def Chip.shelfMean (m : Chip) (f : Nat → Int) : Int :=
  let c := m.closedStrs.foldl (fun a n => a + (m.estr n).learned.cap) 0
  if c ≤ 0 then 0 else (m.closedStrs.foldl (fun a n => a + f n * (m.estr n).learned.cap) 0) / c

/-- The lower bound that capping compares with FLOOR, in % × 2^32 (R282, R416). -/
def Chip.shelfLo (m : Chip) : Int := m.shelfMean (fun n => (m.estBounds n).1)

/-! ### Tones and steps (R403 to R407) -/

/-- A channel of string n is scanned at no less than 20 × a frequency in 0.1 Hz (R403). -/
def Chip.estFast (m : Chip) (n f : Nat) : Bool :=
  [m.fld .batStrCfg n 6 0, m.fld .batStrCfg n 14 8].all (fun c => let r := m.chRate c; 2 * f * r.2 ≤ r.1)

/-- String n's channels keep the rule of R403: 20 × the highest tone that is on, and 1 kS/s. -/
def Chip.estRateOk (m : Chip) (n : Nat) : Bool :=
  m.estFast n (m.tonesOn.foldl max 0) && [m.fld .batStrCfg n 6 0, m.fld .batStrCfg n 14 8].all (fun c =>
    let r := m.chRate c
    1000 * r.2 ≤ r.1)

/-- The estimator works on string n: it runs, and the string is enabled and started (R401, R417). -/
def Chip.estOn (m : Chip) (n : Nat) : Bool := m.estRuns && m.strOn n && (m.estr n).origin != 0

/-- R0 has been learned (R414): the first under the identity is R0NEW. -/
def Learned.withR0 (l : Learned) (r : Int) : Learned := { l with r0 := r, r0new := if l.r0new = 0 then r else l.r0new }

/-- R0 is measured, so far above TREF (R406, R407, R414): RPOL stays the rest of the real part at the lowest tone, where it comes from it. -/
def EstStr.setR0 (x : EstStr) (r above : Int) : EstStr :=
  let l := x.learned.withR0 r
  { x with r0Over := above, learned := { l with rpol := match x.reLo with
      | some q => q - r
      | none => l.rpol } }

/-- The stamp at which a correlation window's tone has turned so often since its start (R404). -/
def Corr.turnAt (k : Corr) (turn : Nat) : Nat := k.t0 + (turn * 10000000 + max 1 k.f - 1) / max 1 k.f

/-- A correlation window has begun (R404). -/
def Chip.corrBegun (m : Chip) (k : Corr) : Bool := k.turnAt k.turn ≤ m.now

/-- The end of a correlation window (R404): NCYC whole cycles from its start, as a stamp. -/
def Chip.corrEnd (m : Chip) (k : Corr) : Nat := k.turnAt (k.turn + m.fld .estZcfg 0 7 0)

/-- A window of tone t that starts at its next upward zero crossing, or now if it is at one (R404). -/
def Chip.corrNew (m : Chip) (t : Nat) : Corr :=
  { t0 := (m.tone t).t0, f := m.toneFreq t, turn := (m.toneAt (m.tone t) + 9999999) / 10000000, is := 0, ic := 0, vs := 0, vc := 0,
    ni := 0, nv := 0, ok := true }

/-- A tone that is on and slow enough for the string's channels is correlated (R403, R404). -/
def Chip.corrOn (m : Chip) (n t : Nat) : Bool := m.toneFreq t != 0 && m.estFast n (m.toneFreq t)

/-- A result of a string's channel joins the sums of a tone's window (R404): `v` tells its voltage. The sums of v count the drop below the
rest voltage, so that a resistance is positive (DESIGN CHOICE, log entry 51). -/
def Chip.corrAdd (m : Chip) (t : Nat) (v : Bool) (code : Int) (k : Corr) : Corr :=
  let at_ := m.toneAt (m.tone t)
  if k.t0 != (m.tone t).t0 || at_ < k.turn * 10000000 || m.corrEnd k ≤ m.now then k
  else
    let th := fxTurn at_ 10000000
    let s := fxSin th * code / 2 ^ 40
    let c := fxCos th * code / 2 ^ 40
    if v then { k with vs := k.vs - s, vc := k.vc - c, nv := k.nv + 1 } else { k with is := k.is + s, ic := k.ic + c, ni := k.ni + 1 }

/-- A conversion result reaches the correlators of the strings whose channels it is of (R402 to R404). -/
def Chip.estSample (m : Chip) (c : Nat) : Chip :=
  let code := let w := m.get .acqRes c; if bitOf w 18 then sbits w 15 0 else (bits w 15 0 : Int)
  (List.range 4).foldl (fun m n =>
    let isV : Bool := m.fld .batStrCfg n 6 0 = c
    if m.estOn n && (isV || m.fld .batStrCfg n 14 8 = c) then
      (List.range 8).foldl (fun m t =>
        let x := m.estr n
        match x.corr.find? (fun e => e.1 = t) with
        | some e => if m.estFast n (m.toneFreq t) then m.putEstr n { x with corr := Tab.insert ltN (Tab.erase x.corr t) t (m.corrAdd t isV code e.2) } else m
        | none => m) m
    else m) m

/-- A correlation window was valid (R405): nothing broke it, and the current amplitude at the tone was at least ZIMIN of ICC. -/
def Chip.corrValid (m : Chip) (n : Nat) (k : Corr) : Bool :=
  let ifs : Int := m.fld .batStrScale n 15 0
  let i2 := k.is * k.is + k.ic * k.ic
  let lim : Int := (m.fld .estZcfg 0 23 16 : Int) * (m.fld .batStrIchg n 15 0 : Int) * (k.ni : Int) * 2 ^ 35
  k.ok && 0 < k.nv && i2 != 0 && ifs != 0 && lim * lim ≤ i2 * ifs * ifs * 400000000

/-- The impedance of a valid window in Ω × 2^32, real and imaginary part: the ratio of its voltage sums to its current sums, each over its
samples (R405). -/
def Chip.corrZ (m : Chip) (n : Nat) (k : Corr) : Int × Int :=
  -- codes of 16 and of 15 bits, 10 mV and 0.1 A
  let den := (k.is * k.is + k.ic * k.ic) * (m.fld .batStrScale n 15 0 : Int) * 65536 * 10 * (k.nv : Int)
  let num : Int := (m.fld .batStrScale n 31 16 : Int) * 32768 * (k.ni : Int) * e32
  ((k.vs * k.is + k.vc * k.ic) * num / den, (k.vc * k.is - k.vs * k.ic) * num / den)

/-- What a valid window of tone t leaves (R405, R406): EST_STRn_Zt, R0 from the highest tone, RPOL and TAU from the lowest. -/
def Chip.corrTake (m : Chip) (n t : Nat) (k : Corr) : Chip :=
  let z := m.corrZ n k
  let mag : Int := (isqrtFrom 80 0 (z.1 * z.1 + z.2 * z.2).toNat : Nat)
  let w := wd (unI (clampI 0 65535 (rdiv (mag * 10000) e32)) 16 + unI (fxAngle z.1 z.2) 16 * 65536)
  let hi := m.tonesOn.foldl max 0
  let lo := m.tonesOn.foldl min hi
  let x := m.estr n
  let x := { x with z := NTab.set 0 x.z t w }
  let x := if k.f = hi then { x.setR0 z.1 (m.overRef n) with hiAt := m.now + 1, hiBy := k.f } else x
  let l := x.learned
  let tau := if x.tauStep then l.tau else fx1 * 10 * e32 / (2 * fxPi * k.f)
  m.putEstr n (if k.f = lo then { x with loAt := m.now + 1, loBy := k.f, reLo := some z.1,
                                         learned := { l with rpol := z.1 - l.r0, tau := tau } } else x)

/-- A correlation window of tone t ends at string n (R404, R405): a valid one gives an impedance, another counts as BAD; and the next
begins, while the tone is on. -/
def Chip.windowEnd (m : Chip) (n t : Nat) : Chip :=
  match (m.estr n).corr.find? (fun e => e.1 = t) with
  | none => m
  | some (_, k) =>
    if !m.estOn n then m
    else
      let m := m.elapse 0 (m.corrEnd k)
      let m := if m.corrValid n k then m.corrTake n t k
               else m.putEstr n { m.estr n with bad := satTo 65535 ((m.estr n).bad + 1) }
      let x := m.estr n
      let rest := Tab.erase x.corr t
      m.putEstr n { x with corr := if m.corrOn n t then Tab.insert ltN rest t (m.corrNew t) else rest }

/-- A qualifying step is present (R407): the current has changed by at least STEPI × ICC within the last 1 ms, after 100 ms in which it
varied by less than 1 % of ICC. Answers the changes of current and voltage, with the voltage before. -/
def Chip.estStepSeen (m : Chip) (n : Nat) : Option (Int × Int × Int) :=
  let x := m.estr n
  let icc : Int := m.fld .batStrIchg n 15 0
  match segAt x.iSeg (m.now - 1000), segAt x.vSeg (m.now - 1000), segAt x.iSeg (m.now - 101000) with
  | some i0, some v0, some ib =>
    let di := m.strI n - i0
    let seen := (x.iSeg.filter (fun e => m.now - 101000 < e.1 && e.1 ≤ m.now - 1000)).map (fun e => e.2)
    let vary := seen.foldl max ib - seen.foldl min ib
    if 101000 ≤ m.now && 100 * vary < icc * q1 && (m.fld .estStepcfg 0 7 0 : Int) * icc * q1 ≤ 1000 * (di.natAbs : Int) && di != 0
    then some (di, m.strV n - v0, v0) else none
  | _, _, _ => none

/-- A qualifying step (R407, R424): R0 is measured, TSTEP begins, and the correlation windows in progress are invalid. -/
def Chip.estStep (m : Chip) (n : Nat) : Chip :=
  if !m.estOn n || !m.strClosed n then m
  else
    match m.estStepSeen n with
    | none => m
    | some (di, dv, v0) =>
      let x := m.estr n
      let st : EstStep := { di := di, dv := dv, stamp := m.now, v0 := v0, iNew := m.strI n, vs := [(m.now, m.strV n)] }
      m.putEstr n { x.setR0 (-dv * e32 / (10 * di)) (m.overRef n) with
                      hiAt := m.now + 1, hiBy := 0, step := some st, modStep := true,
                      corr := x.corr.map (fun e => (e.1, { e.2 with ok := e.2.ok && !m.corrBegun e.2 })) }

/-- TSTEP has passed with the current within ±10 % of its new value (R407): RPOL from the voltage change by then, and TAU as the time of 63 %
of its rise beyond the first ms. Without a rise TAU stays as it is. -/
def Chip.estTstep (m : Chip) (n : Nat) : Chip :=
  match (m.estr n).step with
  | none => m
  | some s =>
    let m := m.elapse s.stamp (m.fld .estStepcfg 0 15 8 * 100000)
    let x := m.estr n
    let rise := m.strV n - s.v0 - s.dv
    let beyond := fun (v : Int) => (if rise < 0 then -(v - s.v0 - s.dv) else v - s.v0 - s.dv)
    let tau := match s.vs.reverse.find? (fun e => decide (63 * (rise.natAbs : Int) ≤ 100 * beyond e.2)) with
      | some e => if rise = 0 then x.learned.tau else ((e.1 - s.stamp : Nat) : Int) * e32 / 1000000
      | none => x.learned.tau
    m.putEstr n { x with learned := { x.learned with rpol := -rise * e32 / (10 * s.di), tau := tau }
                         tauStep := x.tauStep || rise != 0, loAt := m.now + 1, loBy := 0, reLo := none, step := none }

/-- Every 10 s the modules of a string with MEN = 1 are read through its module monitor (R415): item 0x011 tells how many there are, and
item 0x012 their voltages. -/
def Chip.moduleRead (m : Chip) (n : Nat) : Chip :=
  if !m.estOn n || !m.flag .batStrMon n 31 then m
  else
    let m := m.elapse (m.estr n).modAt 10000000
    (m.putEstr n { m.estr n with modAt := m.now }).vendorIssue .read (m.fld .batStrMon n 11 0) 0x011 0

/-- The module count of string n has been read: its voltages are read next, two bytes for each module. -/
def Chip.moduleBlock (m : Chip) (n : Nat) : Chip :=
  match (m.estr n).modSeen with
  | none => m
  | some c =>
    (m.putEstr n { m.estr n with modSeen := none }).vendorIssueAt .blkr (m.fld .batStrMon n 11 0) 0x012 0 (wd (2 * min c 64 * 2 ^ 24))

/-- The module voltages of string n have been read (R415). A module that is new to the estimator has ratios of 1.0; a read that follows a
qualifying step gives each module its resistance ratio, and one that follows a correction its capacity ratio since the last such
read. The spec gives no formula for them, so they are open (DESIGN CHOICE, log entry 51). -/
def Chip.modulesIn (m : Chip) (n : Nat) : Chip :=
  let x := m.estr n
  match x.modNew with
  | none => m
  | some vs =>
    let others := (m.estMods.filter (fun e => e.1 != n)).length
    let ratio := fun (due cap : Bool) (ref : List Nat) (j old : Nat) =>
      if due && !ref.isEmpty then Config.moduleRatio cap ref vs j % 65536 else old
    let ms := (List.range (min (min vs.length 64) (64 - others))).map (fun j =>
      let old := x.learned.mods.getD j (4096, 4096)
      (ratio x.modStep false x.modV j old.1, ratio x.modCorr true x.modRef j old.2))
    m.putEstr n { x with modNew := none, modV := vs, modRef := if x.modCorr then vs else x.modRef, modStep := false, modCorr := false,
                         learned := { x.learned with mods := ms } }

/-! ### What the estimator watches (R403 to R407) -/

/-- The window of tone t goes on: the tone is still on as it was when the window began. -/
def Chip.corrKept (m : Chip) (n t : Nat) (k : Corr) : Bool := m.corrOn n t && k.t0 = (m.tone t).t0 && k.f = m.toneFreq t

/-- String n's correlators (R404, R405): one for each tone that is on and slow enough for its channels, broken in its window by a pause of
the injection, however short, or an open switch. A window that has ended awaits its row. -/
def Chip.corrWatch (m : Chip) (n : Nat) : NTab Corr :=
  (List.range 8).filterMap (fun t =>
    match (m.estr n).corr.find? (fun e => e.1 = t) with
    | some (_, k) =>
      if m.corrBegun k && m.corrEnd k ≤ m.now then some (t, k)
      else if m.corrKept n t k then
        some (t, { k with ok := k.ok && (!m.corrBegun k || ((m.tone t).run && m.pertRuns && m.strClosed n)) })
      else if m.corrOn n t then some (t, m.corrNew t)
      else none
    | none => if m.corrOn n t then some (t, m.corrNew t) else none)

/-- Windows in progress whose tone has gone off or changed: they are invalid (R405). -/
def Chip.corrCut (m : Chip) (n : Nat) : Nat :=
  ((m.estr n).corr.filter (fun e => m.corrBegun e.2 && m.now < m.corrEnd e.2 && !m.corrKept n e.1 e.2)).length

/-- String n's step that waits for TSTEP (R407): it ends once the current has left ±10 % of its new value. -/
def Chip.stepWatch (m : Chip) (n : Nat) : Option EstStep :=
  (m.estr n).step.bind (fun s =>
    let off := ((m.strI n - s.iNew).natAbs : Int)
    if (s.iNew.natAbs : Int) < 10 * off then none
    else some (match s.vs with
      | e :: _ => if e.2 = m.strV n then s else { s with vs := (m.now, m.strV n) :: s.vs }
      | [] => s))

/-- EST_CONFIG of a string in use whose channels are too slow, once until they are fast enough again (R403). -/
def Chip.estSlow (m : Chip) (n : Nat) : Chip :=
  let slow := m.strOn n && !m.estRateOk n
  let was := has m.est.slow n
  let m : Chip := { m with est := { m.est with slow := if slow then setM m.est.slow n else clrM m.est.slow n } }
  if slow && !was then m.raise 86 n [] else m

/-- The estimator watches each string: its channels' rates (R403), its correlators, its last 101 ms, its step, its modules, and the limits
of R411 and R414. -/
def Chip.estWatch (m : Chip) : Chip :=
  if !m.estRuns then m
  else
    (List.range 4).foldl (fun m n =>
      let m := m.estSlow n
      if !m.estOn n then m
      else
        let x := m.estr n
        let m := m.putEstr n { x with
          corr := m.corrWatch n, bad := satTo 65535 (x.bad + m.corrCut n), step := m.stepWatch n
          iSeg := segPush x.iSeg m.now 101001 (m.strI n), vSeg := segPush x.vSeg m.now 101001 (m.strV n) }
        ((((m.moduleBlock n).modulesIn n).staleCheck n).sohCheck n)) m

/-! ### Insertion and removal (R417, R418) -/

/-- A string starts as an unknown identity (R417). -/
def Chip.estUnknown (m : Chip) (n : Nat) : Chip :=
  let cnom : Int := (m.fld .estStrCnom n 15 0 : Int) * e32 / 10
  let r0 : Int := (m.fld .estStrCnom n 31 16 : Int) * e32 / 10000
  let x := m.estr n
  let ones := x.learned.mods.map (fun _ => (4096, 4096))
  let l := { Learned.init with cap := cnom, capsig := cnom / 5, r0 := r0, rpol := r0, tau := 60 * e32, mods := ones }
  m.putEstr n { EstStr.init with origin := 2, openMv := x.openMv, z := x.z, bad := x.bad, updAt := m.now, modAt := x.modAt, learned := l }

/-- SOC at 50 %, SIGMA at SIGINS, VPOL at 0, then the insertion correction (R410, R417). -/
def Chip.estInsertion (m : Chip) (n : Nat) : Chip :=
  let x := m.estr n
  let m := m.putEstr n { x with soc := 50 * e32, sigma := (m.fld .estConf 0 23 16 : Int) * e32 / 10, vpol := 0 }
  ((m.correct n x.openMv (m.fld .estErr 0 15 8) 1).staleCheck n).sohCheck n

/-- The identity of string n has been read (R417, R423, R424): the estimator starts it, restored from the record of its
identity, or as unknown. A live record of the store gives SOC and SIGMA too, with DECAY for the hours since. -/
def Chip.estStart (m : Chip) (n : Nat) : Chip :=
  if !m.flag .estCfg 0 1 then m
  else
    let id := (m.bstr n).ident
    let inUse := id != 0 && (List.range 4).any (fun k => k != n && (m.estr k).origin != 0 && (m.bstr k).ident = id)
    let m := if inUse then m.raise 86 n [] else m
    let find := fun (l : List EstRec) => l.find? (fun r => id != 0 && !inUse && r.ident = id)
    let x := m.estr n
    match find m.est.live, find m.est.frozen with
    | some r, _ =>
      let hours := ((m.opsec - r.opsec : Nat) : Int)
      let grow := (m.fld .estConf 0 7 0 : Int) * e32 * hours / 360000
      let m : Chip := { m with est := { m.est with live := m.est.live.filter (fun q => q.ident != id) } }
      let y := { EstStr.init with origin := 1, openMv := x.openMv, z := x.z, bad := x.bad, updAt := m.now, learned := r.learned }
      ((m.putEstr n { y with soc := r.soc, sigma := r.sigma + grow }).staleCheck n).sohCheck n
    | none, some r =>
      let m : Chip := { m with est := { m.est with frozen := m.est.frozen.filter (fun q => q.ident != id) } }
      let y := { EstStr.init with origin := 1, openMv := x.openMv, z := x.z, bad := x.bad, updAt := m.now, learned := r.learned }
      (m.putEstr n y).estInsertion n
    | none, none => (m.estUnknown n).estInsertion n

/-- A record joins the frozen ones (R418): up to 12, the oldest stamp giving way. -/
def Chip.freezeRec (m : Chip) (r : EstRec) : Chip :=
  let l := m.est.frozen.filter (fun q => q.ident != r.ident) ++ [r]
  { m with est := { m.est with frozen := l.drop (l.length - 12) } }

/-- A string is removed (R418, R424): its values are frozen as they stood, unless its identity is 0. -/
def Chip.estFreeze (m : Chip) (n : Nat) : Chip :=
  let x := m.estr n
  if x.origin = 0 then m
  else
    let r := m.estRecord n false
    let m := m.putEstr n { EstStr.init with z := x.z, bad := x.bad }
    if r.ident = 0 then m else (m.freezeRec r).storeDue

/-! ### Commands, writes and views -/

/-- EST_CMDSTAT. -/
def Chip.estStatus (m : Chip) (st : Status) (code : Nat) : Chip := m.put .estCmdstat 0 (wd (st.code + code * 256))

/-- A write of EST_CMD (R421, R417, R424). -/
def estCmdAct (d : Word) (m : Chip) : Act :=
  let code := bits d 3 0
  let k := bits d 11 8
  let rej := fun (st : Status) (m : Chip) => m.estStatus st code
  match code with
  | 1 =>
    { v := { ebusy := m.est.everDone && m.now < m.est.doneAt + 10000000 }
      eff := fun m => (m.storeDue.estStatus .ok code, .ok)
      rej := rej }
  | 2 =>
    { v := { erange := 4 ≤ k, estate := (m.estr k).origin = 0 }
      eff := fun m => (((m.estUnknown k).estInsertion k).estStatus .ok code, .ok)
      rej := rej }
  | 3 =>
    let live := m.liveRecords.length
    { v := { erange := m.estRecords.length ≤ k, estate := k < live }
      eff := fun m =>
        (({ m with est := { m.est with frozen := m.est.frozen.eraseIdx (k - live) } } : Chip).estStatus .ok code, .ok)
      rej := rej }
  | _ => { v := { erange := true }, eff := fun m => (m, .ok), rej := rej }

/-- A write of an EST register (R426). -/
def estAct (r : RName) (i : Nat) (d : Word) (m : Chip) : Act :=
  match r with
  | .estCmd => estCmdAct d m
  | .estOcv =>
    let p := fun k => if k = i then bits d 15 0 else m.fld .estOcv k 15 0
    actStoreIf { erange := !(List.range 20).all (fun k => p k ≤ p (k + 1)) } r i d
  | .estStrCnom => actStoreIf { erange := m.strOn i && (bits d 15 0 = 0 || bits d 31 16 = 0) } r i d
  | _ => actStore r i d

/-- A quantity in units of 2^-32 as a number of units of 1 ÷ k, in a field that saturates. -/
def eField (x : Int) (k top : Nat) : Nat := (clampI 0 top (rdiv (x * k) e32)).toNat

/-- SOC, lower and upper bound in 0.1 %. -/
def socWord (s lo hi : Int) : Word := wd (eField s 10 1000 + eField lo 10 1000 * 2 ^ 10 + eField hi 10 1000 * 2 ^ 20)

/-- EST_SHELF_SOC. -/
def Chip.shelfSoc (m : Chip) : Word :=
  socWord (m.shelfMean (fun n => (m.estr n).soc)) m.shelfLo (m.shelfMean (fun n => (m.estBounds n).2))

/-- R0 at TREF (R414): the reduction of one measured at another temperature is open (DESIGN CHOICE, log entry 50). -/
def EstStr.r0Tref (x : EstStr) : Int := if x.r0Over = 0 then x.learned.r0 else Config.r0Tref x.learned.r0 x.r0Over

/-- The read-only registers of the estimator. -/
def Chip.estRead (m : Chip) (r : RName) (i : Nat) : Word :=
  let x := m.estr i
  let l := x.learned
  match r with
  | .estStorestat =>
    let b := m.newestSlot = some true
    wd (b2n b + b2n m.est.writing.isSome * 2 + b2n (m.estSlot (!b)).valid * 4)
  | .estStoreseq => wd m.storeSeq
  | .estShelfSoc => m.shelfSoc
  | .estShelfCap => wd (eField (m.closedStrs.foldl (fun a n => a + (m.estr n).learned.cap) 0) 10 16777215)
  | .estStrSoc => if x.origin = 0 then 0 else socWord x.soc (m.estBounds i).1 (m.estBounds i).2
  | .estStrConf =>
    let mins := if x.lastCorr = 0 then 0 else min 65535 ((m.now - x.corrAt) / 60000000)
    wd (eField x.sigma 10 1023 + b2n x.stale * 2 ^ 10 + b2n (m.zFresh i) * 2 ^ 11 + x.lastCorr * 2 ^ 12 + mins * 65536)
  | .estStrCap => wd (eField l.cap 10 65535 + eField l.capsig 10 65535 * 65536)
  | .estStrRes => wd (eField l.r0 10000 65535 + eField l.rpol 10000 65535 * 65536)
  | .estStrHlth =>
    let cnom := m.fld .estStrCnom i 15 0
    let soh := if cnom = 0 then 0 else eField (l.cap * 10 / cnom) 1000 1023
    let grow := if l.r0new ≤ 0 then 0 else eField (eDiv x.r0Tref l.r0new) 100 1023
    wd (soh + grow * 65536)
  | .estStrTau => wd (eField l.tau 10 65535 + x.bad * 65536)
  | .estStrOrigin => wd (x.origin + eField (l.cycles / 100) 1 65535 * 65536)
  | .estStrZ => NTab.get 0 (m.estr (i / 8)).z (i % 8)
  | .estMod =>
    match m.estMods[i]? with
    | some (n, j, rr, cr) =>
      wd (j % 64 + n * 64 + min 255 (rr * 100 / 4096) * 256 + min 255 (cr * 100 / 4096) * 65536 + 2 ^ 31)
    | none => 0
  | _ => m.get r i

end Sys2Proof.Machine
end

