-- ==== Sys2Proof/Machine/Partner.lean ====
section
/-!
DEFINITION. The partner block's commands (R427 to R460): writes of the partner table and of the PTN registers, polling,
timeouts, discovery, and the entry words as they read.
-/

namespace Sys2Proof.Machine

/-- The decided transactions at an entry's head complete; an entry that its failures have lost raises PARTNER_LOST. -/
def Chip.flush (m : Chip) (e : Nat) : Chip :=
  let r := m.drain e poolMax
  if r.2 then r.1.raise 88 e [] else r.1

/-- A transaction is decided and completes in its place. -/
def Chip.endTxn (m : Chip) (t : Txn) (st : Status) (v : Nat) : Chip := (m.decideTxn t.id st v).flush t.entry

/-! ### The partner table (R427 to R430, R474, R477) -/

/-- The writable bits of word w of an entry. -/
def tabMask (w : Nat) : Nat :=
  if w = 0 then 0xFFFFFFF0 else if w = 1 then 0x8FFF70FF else if w = 2 then 0x8FFF3FFF
  else if w = 3 then 0xFFFF0FFF else if w = 4 then 0x8FFFFFFF else 0

/-- Word w of entry e once d is written to word w' of it. -/
def Chip.pwAfter (m : Chip) (e w' : Nat) (d : Word) (w : Nat) : Word :=
  if w = w' then d &&& wd (tabMask w') else m.pw e w

/-- A PATH word names a permitted path: two-wire addresses 0x08 to 0x77, link segments 0 to 3 and nodes 1 to 31. -/
def pathOk (p : Word) : Bool :=
  if bitOf p 31 then bits p 27 26 = 0 && 1 ≤ bits p 6 0 && bits p 6 0 ≤ 31
  else 0x08 ≤ bits p 6 0 && bits p 6 0 ≤ 0x77

/-- Two PATH words name the same path and address. -/
def samePath (a b : Word) : Bool :=
  if bitOf a 31 != bitOf b 31 then false
  else if bitOf a 31 then bits a 25 24 = bits b 25 24 && bits a 4 0 = bits b 4 0
  else bits a 27 24 = bits b 27 24 && bits a 6 0 = bits b 6 0 && bits a 23 23 = bits b 23 23 &&
    (!bitOf a 23 || bits a 14 12 = bits b 14 12)

/-- The KIND of a path that a class travels on (R431). -/
def classKind (cls : Nat) (link : Bool) : Bool :=
  if cls = 1 ∨ cls = 2 then !link else if cls = 6 then link else true

/-- The entries that hold a table word or a state. -/
def Chip.entKeys (m : Chip) : List Nat :=
  (List.map (fun (x : Nat × Word) => x.1 / 8) m.ptn.table ++ List.map (fun (x : Nat × Ent) => x.1) m.ptn.ents).eraseDups

/-- An enabled entry names bus n. -/
def Chip.busNamed (m : Chip) (n : Nat) : Bool :=
  m.entKeys.any (fun e => m.entEn e && !m.entGroup e && !m.entLink e && bits (m.pw e 1) 27 24 = n)

/-- The rules of R429, R474 and R477 that only an enabled entry has to meet. -/
def Chip.enableOk (m : Chip) (e : Nat) (g : Nat → Word) : Bool :=
  let cls := bits (g 0) 31 24
  let p := g 1
  let link := bitOf p 31
  let n := bits p 27 24
  let others := m.entKeys.filter (fun o => o != e && m.entEn o && m.entClass o != 4)
  let sp := bits (g 3) 11 0
  let spOk := sp = 0 || (match itemOf cls sp with
    | some (_, len) => 1 ≤ len && len ≤ 4
    | none => false)
  let pathGood := cls = 4 || (cls = 0 && p = 0) ||
    (pathOk p && classKind cls link && others.all (fun o => !samePath p (m.pw o 1)) &&
      (link || (m.flag .twbNCfg n 0 && !(n = 15 && m.flag .twbNCfg 15 4) &&
        (!bitOf p 23 || others.all (fun o =>
          m.entLink o || bits (m.pw o 1) 27 24 != n || !bitOf (m.pw o 1) 23 || bits (m.pw o 1) 22 16 = bits p 22 16)))))
  spOk && pathGood

/-- The rules of R429 on an entry's words, whatever EN holds. A path is judged once it is written; 0 stands for none yet
(DEDUCED, log entry 54). -/
def Chip.wordsOk (m : Chip) (e : Nat) (g : Nat → Word) : Bool :=
  let cls := bits (g 0) 31 24
  let memb := bitOf (g 2) 31
  let grp := bits (g 2) 27 16
  let midx := bits (g 2) 13 8
  cls ≤ 6 && (cls = 4 || m.entKeys.all (fun o => o = e || !(bitOf (m.pw o 2) 31 && bits (m.pw o 2) 27 16 = e))) && bits (g 0) 19 16 ≤ 7 && midx ≤ 47 && (g 1 = 0 || cls = 4 || pathOk (g 1)) && (cls != 4 || g 1 = 0) &&
    (!bitOf (g 4) 31 || bits (g 4) 15 0 != 0) &&
    (!memb || (cls = 3 && m.entClass grp = 4 &&
      m.entKeys.all (fun o => o = e || !(bitOf (m.pw o 2) 31 && bits (m.pw o 2) 27 16 = grp && m.midx o = midx))))

/-- The polling load in readings per second (R447), the sum over polling entries of 1 ÷ TPER, as a fraction: its numerator and its
denominator. -/
def Chip.telSum (m : Chip) : Nat × Nat :=
  m.entKeys.foldl (fun (a : Nat × Nat) e =>
    let p := bits (m.pw e 4) 15 0
    if bitOf (m.pw e 4) 31 && p != 0 then (a.1 * p + 10000 * a.2, a.2 * p) else a) (0, 1)

/-- PTN_TEL_LOAD. -/
def Chip.telLoad (m : Chip) : Nat := m.telSum.1 / m.telSum.2

/-- TPER of an entry in µs. -/
def Chip.pollPer (m : Chip) (e : Nat) : Nat := bits (m.pw e 4) 15 0 * 100

/-- EN of an entry has been set or cleared (R430, R452, R453). -/
def Chip.entEnable (m : Chip) (e : Nat) (on : Bool) : Chip :=
  let x := m.ent e
  if on then m.putEnt e { x with st := .unknown, fails := 0, cr := m.creditsOf e, pollAt := m.now + m.pollPer e }
  else (m.putEnt e { x with st := .empty }).dropFence .partner e

/-- A write of word w of entry e (R428, R429). -/
def tableAct (e w : Nat) (d : Word) (m : Chip) : Act :=
  let old := m.pw e w
  let g := m.pwAfter e w d
  let nw := g w
  let diff := old ^^^ nw
  let keep : Nat := if w = 0 then 0x00F00000 else 0
  let was := m.entEn e
  let now := bitOf (g 0) 20
  let lib : Bool := (m.ent e).lib && !m.expert .ptn
  if 4 < w then { v := { ebasic := lib }, eff := fun m => (m, .ok) }
  else
    { v := { erange := !m.wordsOk e g || (now && !m.enableOk e g && (!was || w < 4)),
             estate := w < 4 && was && (diff &&& ~~~(wd keep)) != 0,
             ebasic := lib }
      eff := fun m =>
        let t : Chip := { m with ptn := { m.ptn with table := NTab.set 0 m.ptn.table (8 * e + w) nw } }
        let old := m.telSum
        let new := t.telSum
        if w = 4 && old.1 * new.2 < new.1 * old.2 && 400000 * new.2 < new.1 then (m, .efull)
        else if w = 4 && bitOf nw 31 && !bitOf (m.pw e 4) 31 then (t.putEnt e { t.ent e with pollAt := t.now + t.pollPer e }, .ok)
        else if w = 0 && was != now then (t.entEnable e now, .ok)
        else (t, .ok) }

/-- The code of an entry's state. -/
def EntSt.code : EntSt → Nat
  | .empty => 0 | .unknown => 1 | .online => 2 | .offline => 3 | .fenced => 4

/-- Word w of entry e as it reads (R427). -/
def Chip.tableRead (m : Chip) (e w : Nat) : Word :=
  let x := m.ent e
  if w < 5 then m.pw e w
  else if w = 5 then
    wd (x.st.code + b2n (m.pathFenced e) * 16 + b2n (m.entBound e) * 32 + b2n (!x.owes.isEmpty) * 64 + b2n x.lib * 128 +
      min 255 x.fails * 256 + min 255 (m.entTxns e).length * 65536 + min 255 x.tlost * 2 ^ 24)
  else if w = 6 then wd x.genf
  else wd x.genl

/-! ### Polling and timeouts (R437, R447, R448) -/

/-- A poll is lost (R448). -/
def Chip.pollLost (m : Chip) (e : Nat) : Chip :=
  let x := m.ent e
  (m.putEnt e { x with tlost := min 255 (x.tlost + 1), lostSince := min 255 (x.lostSince + 1) }).bump .ptnTelLost 0 15 0 1

/-- Polls outstanding. -/
def Chip.pollsOut (m : Chip) : Nat := (m.ptn.pool.filter (fun t => t.kind = .poll)).length

/-- TPER has elapsed at entry e since its last poll, TEN's setting or EN's (R447, R448). A write of word 4 counts from the next poll on.
In SHADOW nothing is sent (R457). -/
def Chip.pollDue (m : Chip) (e : Nat) : Chip :=
  let item := bits (m.pw e 4) 27 16
  let readable := match itemOf (m.entClass e) item with
    | some (_, n) => 1 ≤ n && n ≤ 4
    | none => false
  if !m.entDefined e || !bitOf (m.pw e 4) 31 || m.pwr.base = .shadow then m
  else
    let m := m.elapse (m.ent e).pollAt 0
    let m := m.putEnt e { m.ent e with pollAt := m.now + m.pollPer e }
    if (m.entTxns e).any (fun t => t.kind = .poll) || m.fld .ptnCfg 0 23 16 ≤ m.pollsOut || m.ringStalled ||
        m.entFenced e || m.poolFull false then m.pollLost e
    else if !readable then m.ringWrite item e .erange 0
    else m.accept e item .poll .lib 0 0 0 none false

/-- The first undecided transaction of an entry. -/
def Chip.headTxn (m : Chip) (e : Nat) : Option Txn := (m.entTxns e).find? (fun t => t.early.isNone)

/-- TMO has expired at the head of entry e (R437): counted from the moment the transaction reached the head, the wait for credit
included. -/
def Chip.txnTimeout (m : Chip) (e : Nat) : Chip :=
  match m.headTxn e with
  | some t =>
    match t.headAt with
    | some t0 =>
      let tmo := if bits (m.pw e 0) 15 8 = 0 then 50 else bits (m.pw e 0) 15 8
      (m.elapse t0 (tmo * 1000)).endTxn t .etimeout 0
    | none => m
  | none => m

/-- The earlier issued of two transactions. -/
def earlier (a : Option Txn) (t : Txn) : Option Txn :=
  match a with
  | none => some t
  | some o => if t.issued < o.issued then some t else some o

/-- QMAX has expired on the undecided transaction of entry e that was issued first (R437); none that is held counts (R446). -/
def Chip.qmaxExpiry (m : Chip) (e : Nat) : Chip :=
  match ((m.entTxns e).filter (fun t => t.early.isNone && !t.held)).foldl earlier none with
  | some t => (m.elapse t.issued (m.fld .ptnQmax 0 13 0 * 1000)).endTxn t .etimeout 0
  | none => m

/-- GHOLD in ms (R446): DROOPT + 10 ms for rectifiers and groups, 1,010 ms for neighbours. -/
def Chip.ghold (m : Chip) (shelf : Bool) : Nat := if shelf then 1010 else m.fld .shareCfg 0 17 8 + 10

/-- GHOLD has ended since the gate was opened (R446), for neighbours or for rectifiers and groups: TMO and QMAX start now. -/
def Chip.holdEnd (m : Chip) (shelf : Bool) : Chip :=
  if !(if shelf then m.ptn.holdShelf else m.ptn.holdRect) then m
  else
    let m := m.elapse m.ptn.holdAt (m.ghold shelf * 1000)
    let m : Chip := if shelf then { m with ptn := { m.ptn with holdShelf := false } }
                    else { m with ptn := { m.ptn with holdRect := false } }
    let pool := m.ptn.pool.map (fun t =>
      if t.held && (m.entClass t.entry = 6) = shelf then { t with held := false, issued := m.now } else t)
    { m with ptn := { m.ptn with pool := pool } }

/-- A class's credit has stayed at 0 for CRTO while the head transaction of entry e waits for it (R452): raised once for each stay. -/
def Chip.creditStall (m : Chip) (e cls : Nat) : Chip :=
  match (m.ent e).stall with
  | some (c, t0, false) =>
    if c != cls then m
    else
      let m := m.elapse t0 (m.fld .ptnCrto 0 7 0 * 1000)
      (m.putEnt e { m.ent e with stall := some (c, t0, true) }).raise 89 e []
  | _ => m

/-! ### Discovery (R454) -/

/-- A responder joins PTN_DISCk, until 64 are held. -/
def Chip.discAdd (m : Chip) (w : Word) : Chip :=
  if 64 ≤ m.ptn.disc.length || m.ptn.disc.contains w then m
  else { m with ptn := { m.ptn with disc := m.ptn.disc ++ [w] } }

/-- The list entry of an address: VALID, KIND, BUS, MUXEN, MUXCH, address. -/
def discWord (link : Bool) (bus : Nat) (mux : Option Nat) (a : Nat) : Word :=
  wd (2 ^ 31 + b2n link * 65536 + bus * 2 ^ 17 + b2n mux.isSome * 2 ^ 21 + mux.getD 0 * 2 ^ 22 + a)

/-- A path is fenced: bus, mux channel or segment, as PTN_CMD names it. -/
def Chip.discFenced (m : Chip) (d : Word) : Bool :=
  let n := bits d 20 17
  if bitOf d 16 then (m.seg n).fenced else m.busFenced n || (bitOf d 21 && m.muxFenced n (bits d 24 22))

/-- The mux channel a discovery goes through, on a two-wire bus. -/
def discMux (d : Word) : Option Nat := if !bitOf d 16 && bitOf d 21 then some (bits d 24 22) else none

/-- An address takes a probe of a discovery on bus n (R454): no enabled entry of that path uses it now. -/
def Chip.probed (m : Chip) (n : Nat) (d : Word) (a : Nat) : Bool :=
  !(m.entriesOn n).any (fun e => m.entMux e = discMux d && m.entAddr e = a)

/-- The address that the discovery on bus n probes next (R454, R458): the lowest from 0x08 to 0x77 not yet passed that takes a probe. -/
def Chip.probeNext (m : Chip) (n : Nat) : Option Nat :=
  match m.ptn.discRun with
  | some d =>
    if bitOf d 16 || bits d 20 17 != n then none
    else ((List.range 112).map (fun k => k + 8)).find? (fun a => m.ptn.discNext ≤ a && m.probed n d a)
  | none => none

/-- A probe of bus n has ended: its address has been passed, and joins the list where it answered. -/
def Chip.probeEnd (m : Chip) (n a : Nat) (found : Bool) : Chip :=
  let m := m.busIdle n
  let m := match m.ptn.discRun with
    | some d => if found then m.discAdd (discWord false n (discMux d) a) else m
    | none => m
  { m with ptn := { m.ptn with discNext := a + 1, discArbs := 0 } }

/-- The running discovery has nothing more to wait for but, on a segment, the 10 ms of its identity request (R454, R514): every address
has been probed, or its path is fenced or switched off, or in SHADOW. -/
def Chip.discOver (m : Chip) (d : Word) : Bool :=
  let n := bits d 20 17
  if m.pwr.base = .shadow then true
  else if bitOf d 16 then m.discFenced d || !m.flag .slkNCfg n 0 || m.ptn.idAt.isSome
  else m.discFenced d || !m.flag .twbNCfg n 0 || m.flag .twbNCfg n 4 || ((m.bus n).probe.isNone && (m.probeNext n).isNone)

/-- The discovery ends (R454): on a segment 10 ms after its identity request was sent. -/
def Chip.discovered (m : Chip) : Chip :=
  match m.ptn.discRun with
  | none => m
  | some d =>
    if !m.discOver d then m
    else
      let m := match m.ptn.idAt with
        | some t => m.elapse t 10000
        | none => m
      ((({ m with ptn := { m.ptn with discRun := none, idAt := none } } : Chip).eventRecord 222 0 [wd m.ptn.disc.length]).event 222)

/-! ### Registers -/

/-- PTN_CMDSTAT. -/
def Chip.ptnStatus (m : Chip) (st : Status) (code : Nat) : Chip := m.put .ptnCmdstat 0 (wd (st.code + code * 256))

/-- An entry is unfenced (R453, R456): OFFLINE, and the restores owed on its usable paths go first. -/
def Chip.entUnfence (m : Chip) (e : Nat) : Chip :=
  let m := (m.putEnt e { m.ent e with st := .offline }).dropFence .partner e
  (m.ent e).owes.foldl (fun m o => m.sendRetract e o.1 o.2 true) m

/-- A discovery on a link segment sends one identity request (R454, R509). -/
def Chip.idRequest (m : Chip) (d : Word) : Chip :=
  let n := bits d 20 17
  if !bitOf d 16 then m
  else
    let g := m.seg n
    let f : Frame := { typ := 11, cls := 3, tent := false, ka := false, src := m.fld .slkNCfg n 12 8, dst := 255, tag := 0,
                       item := 0, gen := 0, data := [255, 255, 255, 255], status := 0, credit := 0 }
    m.putSeg n { g with txq := g.txq ++ [f] }

/-- A write of PTN_CMD (R453, R454, R459). -/
def ptnCmdAct (d : Word) (m : Chip) : Act :=
  let code := bits d 3 0
  let e := bits d 15 4
  let rej := fun (st : Status) (m : Chip) => m.ptnStatus st code
  match code with
  | 1 =>
    { v := { estate := (m.ent e).st != .fenced || !m.fenceRead .partner e }
      eff := fun m => ((m.entUnfence e).ptnStatus .ok code, .ok)
      rej := rej }
  | 2 =>
    { v := { erange := bitOf d 16 && 4 ≤ bits d 20 17, estate := m.ptn.discRun.isSome || m.discFenced d }
      eff := fun m => ((((({ m with ptn := { m.ptn with discRun := some d, discAt := m.now, discNext := 8, discArbs := 0, idAt := none } } : Chip).wake .lnk).idRequest d)).ptnStatus .ok code, .ok)
      rej := rej }
  | 3 =>
    { eff := fun m => (({ m with ptn := { m.ptn with disc := [] } } : Chip).ptnStatus .ok code, .ok)
      rej := rej }
  | _ => { v := { erange := true }, eff := fun m => (m, .ok), rej := rej }

/-- The writer is the consumer that PTN_TEL_CFG.OWNER names (R450). -/
def Chip.telOwner (m : Chip) (ag : Agent) : Bool :=
  match ag with
  | .host => m.fld .ptnTelCfg 0 9 8 = 0
  | .svc => m.fld .ptnTelCfg 0 9 8 = 1
  | .strand k => m.fld .ptnTelCfg 0 9 8 = 2 && m.fld .ptnTelCfg 0 23 16 = k.val
  | _ => false

/-- A write of a PTN register. -/
def ptnAct (ag : Agent) (r : RName) (i : Nat) (d : Word) (m : Chip) : Act :=
  match r with
  | .ptnCmd => ptnCmdAct d m
  | .ptnTelRd =>
    let rd := m.get .ptnTelRd 0
    { v := { estate := !m.telOwner ag || (m.get .ptnTelWr 0 - rd).toNat < (d - rd).toNat }
      eff := fun m => ((m.put r i d).ringRearm, .ok) }
  | _ => actStore r i d

/-- The number of outstanding transactions of a class. -/
def Chip.occ (m : Chip) (c : Nat) : Nat := (m.ptn.pool.filter (fun t => t.cls = c)).length

/-- The read-only registers of PTN. -/
def Chip.ptnRead (m : Chip) (r : RName) (i : Nat) : Word :=
  match r with
  | .ptnStat => wd (m.ptn.pool.length + m.pollsOut * 65536)
  | .ptnOcc01 => wd (m.occ 0 + m.occ 1 * 65536)
  | .ptnOcc23 => wd (m.occ 2 + m.occ 3 * 65536)
  | .ptnTelLoad => wd m.telLoad
  | .ptnOnline => wd (m.ptn.ents.filter (fun x => x.2.st = .online)).length
  | .ptnDiscStat => wd (b2n m.ptn.discRun.isSome + m.ptn.disc.length * 256)
  | .ptnDisc => m.ptn.disc.getD i 0
  | _ => m.get r i

/-- A word of the telemetry ring (R449). -/
def Chip.ringRead (m : Chip) (k : Nat) : Word := NTab.get 0 m.ptn.ring k

end Sys2Proof.Machine
end

