-- ==== Sys2Proof/Machine/Battery.lean ====
section
/-!
DEFINITION. Battery charging and power path (R371 to R400): the string machines, the charger with its phases and its
bound, the temperature windows, and the writes of the BAT registers. Ship mode stands with the modes.
-/

namespace Sys2Proof.Machine

/-! ### The charger's holds and timers (R384) -/

/-- PROFILE: 0 native, 1 compatibility, 2 off, 3 manual. -/
def Chip.profile (m : Chip) : Nat := m.fld .batCfg 0 2 1

/-- The hold causes of R384 as BAT_CHG_STAT.HOLD shows them: base state, converter, window, SUSPEND, profile off. -/
def Chip.chgHold (m : Chip) : Nat :=
  b2n (m.pwr.base != .source) + b2n ((m.conv 0).st != .run) * 2 +
    b2n (m.closedStrs.any (fun n => 3 ≤ (m.bstr n).window)) * 4 + b2n m.bat.suspend * 8 + b2n (m.profile = 2) * 16

/-- OUT of BSLOT and of CSLOT. -/
def Chip.bslotOut (m : Chip) : Int := (m.lw (m.fld .polSlot 0 13 8) 7).toInt
def Chip.cslotOut (m : Chip) : Int := (m.lw (m.fld .batChgSlot 0 5 0) 7).toInt

/-- The phase timers are frozen because capping or the backstop is taking the charge (R384). -/
def Chip.chgTFrozen (m : Chip) : Bool := q1 / 100 < m.bslotOut - m.cslotOut

/-- The phase timers are frozen. -/
def Chip.chgFrozen (m : Chip) : Bool := m.chgHold != 0 || m.chgTFrozen

/-- The phase timers advance to the present stamp, unless they were frozen. -/
def Chip.batTick (m : Chip) (frozen : Bool) : Chip :=
  let d := if frozen then 0 else m.now - m.bat.tickAt
  { m with bat := { m.bat with phaseUs := m.bat.phaseUs + d, bulkUs := m.bat.bulkUs + d, ivUs := m.bat.ivUs + d, tickAt := m.now } }

/-- Time passes until a phase timer that reads `t` reaches `top` (DESIGN CHOICE, log entry 5). -/
def Chip.chgWait (m : Chip) (t top : Nat) : Chip := (m.advance (top - t)).batTick false

/-! ### CB and VREG (R381 to R383) -/

/-- The phase current of string n in 0.1 A (R388). -/
def Chip.phaseAmps (m : Chip) (n : Nat) : Nat :=
  match m.bat.phase with
  | .trickle => m.fld .batStrIlim n 15 0
  | .prechg => m.fld .batStrIchg n 31 16
  | _ => m.fld .batStrIchg n 15 0

/-- ichg of string n in 0.1 A × 2^24, after its temperature factor (R382, R389). -/
def Chip.ichg (m : Chip) (n : Nat) : Int :=
  let i : Int := (m.phaseAmps n : Int) * q1
  match (m.bstr n).window with
  | 0 => i
  | 1 => i * (m.fld .batTred 0 7 0 : Int) / 100
  | 2 => i * (m.fld .batTred 0 15 8 : Int) / 100
  | _ => 0

/-- The computation of R382, lowered by the thermal reduction of the charge current (R533). The least share k is kept as a
fraction. -/
def Chip.cbShare (m : Chip) : Int :=
  let ns := m.closedStrs
  let tot := ns.foldl (fun a n => a + m.ichg n) 0
  let sc := ns.foldl (fun a n => a - m.strI n) 0
  let k : Int × Int :=
    if tot < 20 * sc then
      ns.foldl (fun (k : Int × Int) n =>
        let c := -m.strI n
        if 0 < c && m.ichg n * sc * k.2 < k.1 * (c * tot) then (m.ichg n * sc, c * tot) else k) (1, 1)
    else (1, 1)
  let top : Int := (m.fld .cnvXScale 0 15 0 : Int) * q1
  let cb := if k.2 ≤ 0 then 0 else qDiv (min (tot * k.1 / k.2) top) top
  let neg : Int := -cb
  neg * (q1 - m.funcRed 1) / q1

/-- CB by the charger's phase, its holds and PROFILE (R384 to R387, R397). -/
def Chip.cbNow (m : Chip) : Int :=
  if m.chgHold != 0 || m.bat.phase = .fault then 0
  else if m.profile = 3 then (m.get .batChgIman 0).toInt
  else match m.bat.phase with
    | .trickle | .prechg | .float => m.cbShare
    | .bulk | .topoff => if m.bat.rest then 0 else m.cbShare
    | _ => 0

/-- VREG in 0.1 mV per cell (R383). -/
def Chip.vregNow (m : Chip) : Int :=
  let v : Int := if m.bat.phase = .float then m.fld .batChgVreg 0 31 16 else m.fld .batChgVreg 0 15 0
  let hot : Int := if m.closedStrs.any (fun n => (m.bstr n).window = 2) then m.fld .batTred 0 23 16 else 0
  let ts := m.closedStrs.filterMap m.strTemp
  let comp : Int := match ts with
    | [] => 0
    | t :: r => sbits (m.get .batVcomp 0) 15 0 * (r.foldl max t - 10 * sbits (m.get .batVcomp 0) 23 16) / 10
  10 * (v - hot) + comp

/-- SPSLEW of CSLOT: 10 mV per cell per s in per-unit of 5 V per ms (R381). -/
def chgSlew : Int := 34

/-- CB and VREG are recomputed and written (R381): CB to the commons, VREG to the SP of CSLOT while that slot has its
output bound. -/
def Chip.chgCompute (m : Chip) : Chip :=
  let cb := m.cbNow
  let v := m.vregNow
  let m := ({ m with bat := { m.bat with cb := cb, vreg := v } } : Chip).putCommon 0x3C1 (wdI cb)
  let s := m.fld .batChgSlot 0 5 0
  if (m.lslot s).bound && m.dest s = (0, 0) then (m.putLw s 3 (wdI chgSlew)).setSp s (wdI (-(qDiv v 50000))) else m

/-! ### The phases (R385) -/

/-- A configuration is valid (R398). -/
def Chip.batValid (m : Chip) : Bool :=
  let vlow := m.fld .batChgVphase 0 15 0
  let vpre := m.fld .batChgVphase 0 31 16
  let vrch := m.fld .batChgVlim 0 15 0
  let vovp := m.fld .batChgVlim 0 31 16
  let vcv := m.fld .batChgVreg 0 15 0
  m.ncell != 0 && vlow < vpre && vpre < vrch && vrch < vcv && vcv < vovp && m.fld .batChgVreg 0 31 16 < vovp &&
    (List.range 4).all (fun n => !m.strOn n ||
      (m.fld .batStrScale n 15 0 != 0 && m.fld .batStrScale n 31 16 != 0 && m.fld .batStrIchg n 15 0 != 0))

/-- The charger enters a phase; CHG_PHASE where the table raises it (R385). TCHG starts at entry to BULK. -/
def Chip.chgTo (m : Chip) (p : ChgPh) (ev : Bool) : Chip :=
  let m := m.batTick m.chgFrozen
  let bulk := if p = .bulk then 0 else m.bat.bulkUs
  let b : Bat := { m.bat with lowAt := none, preAt := none, rchAt := none, termAt := none }
  let m : Chip := { m with bat := { b with phase := p, phaseUs := 0, bulkUs := bulk, ivUs := 0, rest := false, steady := true } }
  let m := if ev then (m.eventRecord 218 0 []).event 218 else m
  m.chgCompute

/-- The decision from IDLE (R385): ENTRY, or BAT_CONFIG while the configuration is invalid. -/
def Chip.chgDecide (m : Chip) : Chip :=
  if 2 ≤ m.profile then m
  else if !m.batValid then m.chgFault 4
  else if m.closedStrs.isEmpty then m
  else m.chgTo .entry false

/-- A string has entered CLOSED (R385). -/
def Chip.chgStringIn (m : Chip) : Chip :=
  match m.bat.phase with
  | .idle => m.chgDecide
  | .fault => m
  | _ => m.chgTo .entry false

/-- Charging has ended for want of a string, or of a profile (R385). -/
def Chip.chgIdle (m : Chip) : Chip := if m.bat.phase = .idle then m else m.chgTo .idle false

/-- FAULT is left once every BAT_CHG_FLT flag has been read and V is at VREG or below (R385). -/
def Chip.chgLeave (m : Chip) : Chip :=
  if m.bat.phase = .fault && m.get .batChgFlt 0 = 0 && m.loCell * 10 ≤ m.vregNow * q1 then m.chgTo .idle false else m

/-! ### Temperature windows (R389, R390) -/

/-- The window of a temperature in 0.1 °C, given the present one (R389): boundaries toward NORMAL lie THYST further in. -/
def Chip.windowOf (m : Chip) (now : Nat) (t : Int) : Nat :=
  let b := fun k => 10 * sbits (m.get .batTwin 0) (8 * k + 7) (8 * k)
  let h : Int := 10 * (m.fld .batTred 0 27 24 : Int)
  let h1 := if now = 3 then h else 0
  let h2 := if now = 3 ∨ now = 1 then h else 0
  let h3 := if now = 2 ∨ now = 4 then h else 0
  let h4 := if now = 4 then h else 0
  if t < b 0 + h1 then 3 else if b 3 - h4 < t then 4 else if t < b 1 + h2 then 1 else if b 2 - h3 < t then 2 else 0

/-- Every string is placed in its window; entry of one in use to a stop window raises CHG_TEMP, and SENSOR also CHG_TSENSE. A string that
comes into use in a stop window enters it then (DEDUCED, log entry 90). -/
def Chip.batWindows (m old : Chip) : Chip :=
  (List.range 4).foldl (fun m n =>
    let b := m.bstr n
    let w := match m.strTemp n with
      | some t => m.windowOf b.window t
      | none => 5
    let enters : Bool := m.strOn n && (w != b.window || !old.strOn n)
    let m := m.putBstr n { b with window := w }
    let m := if w = 5 && enters then m.strFault n 0 else m
    if 3 ≤ w && enters then m.strFault n 1 else m) m

/-! ### Strings (R374 to R379) -/

/-- A present mode that permits connecting (R374): STANDBY, SOURCE, HOLDUP, CAPPED, DEGRADED or SERVICE. -/
def Chip.connPermits (m : Chip) : Bool :=
  m.mode = 3 || m.mode = 5 || m.mode = 6 || m.mode = 7 || m.mode = 8 || m.mode = 9

/-- Both switch flags of string n have been read (R374, R395). -/
def Chip.swRead (m : Chip) (n : Nat) : Bool := !m.flag .batStrFlt n 3 && !m.flag .batStrFlt n 4

/-- A string has left CLOSED or STUCK: with none left the charger is IDLE, the converter stops, and BAT_NONE is raised in
the running base states (R379, R385). -/
def Chip.strLeft (m : Chip) : Chip :=
  if m.closedStrs.isEmpty then
    let m := m.chgIdle
    if m.powering then (m.convStop 0).chgFault 3 else m
  else m

/-- A string enters CLOSED: SSWn high; its feedback follows unless a feedback event says otherwise (PRESUMED, log entry 52). The
first one starts the converter in the running base states (R379). -/
def Chip.strClose (m : Chip) (n : Nat) : Chip :=
  let first := m.closedStrs.isEmpty
  let m := m.putBstr n { m.bstr n with st := .closed, ssw := true, fb := true, since := m.now }
  let m := if first && m.powering && !m.pwr.condSafe then m.convStart 0 else m
  (m.batWindows m).chgStringIn

/-- A CLOSED string opens: SSWn low. -/
def Chip.strOpen (m : Chip) (n : Nat) : Chip :=
  let b := m.bstr n
  (m.putBstr n { b with st := .open_, ssw := false, fb := false, since := m.now, fellAt := m.now }).strLeft

/-- A string is within VMATCH of the LO node (R374). -/
def Chip.strNear (m : Chip) (n : Nat) : Bool :=
  ((m.perCell (m.strV n) - m.loCell).natAbs : Int) ≤ 5 * (m.fld .batSwcfg 0 15 8 : Int) * q1

/-- CONNECT or AUTOCONN at an OPEN string (R374). -/
def Chip.strConnect (m : Chip) (n : Nat) : Chip :=
  if !m.closedStrs.any (fun k => (m.bstr k).st = .closed) || m.strNear n then m.strClose n
  else m.putBstr n { m.bstr n with st := .matching, since := m.now }

/-- CONNECT, CONNECTF and AUTOCONN are permitted at string n (R374, R375). -/
def Chip.canConnect (m : Chip) (n : Nat) : Bool :=
  (m.bstr n).st = .open_ && m.strOn n && m.connPermits && m.swRead n

/-- AUTOCONN at insertion or at STANDBY entry (R374), not before the identity read has ended (R378). -/
def Chip.autoConn (m : Chip) (n : Nat) : Chip :=
  if m.flag .batStrCfg n 21 && !(m.bstr n).reading && m.canConnect n then m.strConnect n else m

/-- Entry to STANDBY: AUTOCONN acts at each string (R374). -/
def Chip.standbyConn (m old : Chip) : Chip :=
  m.when (m.pwr.base = .standby && old.pwr.base != .standby) (fun m => (List.range 4).foldl Chip.autoConn m)

/-- The identity read of string n ends at once as failed where it cannot be made: MEN = 0, or its issue is refused (R378). -/
def Chip.identIssue (m : Chip) (n : Nat) : Chip :=
  let e := m.fld .batStrMon n 11 0
  if m.flag .batStrMon n 31 && m.issueStatus .vendor .read e 0x010 0 = .ok then m.vendorIssue .read e 0x010 0
  else m.putBstr n { m.bstr n with idRes := some (false, 0) }

/-- V has been at or above VPRES for INSQ (R374, R378): the string is OPEN and its identity is read. What the estimator still
holds of an earlier string in this place is frozen first (DEDUCED, log entry 53). -/
def Chip.strInserted (m : Chip) (n : Nat) : Chip :=
  let b := m.bstr n
  match b.inAt with
  | some t =>
    if b.st = .absent && m.strOn n then
      let m := m.elapse t (m.fld .batPres 0 23 16 * 100000)
      let m := m.estFreeze n
      let m := m.putBstr n { b with st := .open_, reading := true, idRes := none, ident := 0, since := m.now }
      let m := m.putEstr n { m.estr n with openMv := m.perCell (m.strV n) * 256 }
      ((m.eventRecord 217 n [wd n]).event 217).identIssue n
    else m
  | none => m

/-- The identity read has completed (R378): its value, or 0 where it failed; EST and AUTOCONN act. -/
def Chip.strIdentity (m : Chip) (n : Nat) : Chip :=
  let b := m.bstr n
  match b.idRes with
  | some r =>
    if b.reading then
      let m := m.putBstr n { b with reading := false, idRes := none, ident := if r.1 && m.flag .batStrMon n 31 then r.2 else 0 }
      (m.estStart n).autoConn n
    else m
  | none => m

/-- A matching string that has been within VMATCH for 1 s closes (R374). -/
def Chip.strMatched (m : Chip) (n : Nat) : Chip :=
  match (m.bstr n).nearAt with
  | some t => if (m.bstr n).st = .matching && m.connPermits then (m.elapse t 1000000).strClose n else m
  | none => m

/-- MATCHT has elapsed (R374). -/
def Chip.strMatchTimeout (m : Chip) (n : Nat) : Chip :=
  let b := m.bstr n
  if b.st = .matching then
    let m := m.elapse b.since (m.fld .batSwcfg 0 31 16 * 60000000)
    (m.putBstr n { b with st := .open_, since := m.now }).strFault n 5
  else m

/-- Switch feedback is missing (R374): it has never become active since SSWn rose, and SWT has passed; or it has been inactive for 10 µs. -/
def Chip.strSwitchFail (m : Chip) (n : Nat) (never : Bool) : Chip :=
  let b := m.bstr n
  let t := m.fld .batSwcfg 0 7 0 * 1000
  if b.st = .closed && (!never || decide (m.now ≤ b.since + t)) then
    (((if never then m.elapse b.since t else m.advance 10)).strOpen n).strFault n 3
  else m

/-- Feedback still active SWT after SSWn fell (R374). -/
def Chip.strSwitchWeld (m : Chip) (n : Nat) : Chip :=
  let b := m.bstr n
  let t := m.fld .batSwcfg 0 7 0 * 1000
  if b.st = .open_ && !b.ssw && b.fellAt != 0 && m.now ≤ b.fellAt + t then
    let m := m.elapse b.fellAt t
    ((m.putBstr n { b with st := .stuck, fb := true, since := m.now }).strFault n 4)
  else m

/-- Feedback of a STUCK string goes inactive (R374). -/
def Chip.strUnstuck (m : Chip) (n : Nat) : Chip :=
  let b := m.bstr n
  if b.st = .stuck then (m.putBstr n { b with st := .open_, fb := false, since := m.now }).strLeft else m

/-- V has been below VPRES for 100 ms (R374): the table's action is a record alone, an EVENT record of BAT_INSERTED's source
without its event (DEDUCED, log entry 47). -/
def Chip.strAbsent (m : Chip) (n : Nat) : Chip :=
  let b := m.bstr n
  match b.outAt with
  | some t =>
    if b.st = .open_ || b.st = .matching then
      let m := m.elapse t 100000
      (m.putBstr n { b with st := .absent, reading := false, idRes := none, since := m.now }).eventRecord 217 n [wd n]
    else m
  | none => m

/-- A CLOSED string is removed (R374, R377, R378): SSWn low, BAT_REMOVED, its values frozen. -/
def Chip.strRemoved (m : Chip) (n : Nat) : Chip :=
  let b := m.bstr n
  if b.st = .closed then
    let m := m.putBstr n { b with st := .absent, ssw := false, fb := false, reading := false, since := m.now, fellAt := m.now }
    ((m.strFault n 2).estFreeze n).strLeft
  else m

/-- CLOSED strings whose V is below VPRES. -/
def Chip.strsGone (m : Chip) : List Nat := (List.range 4).filter (fun n => (m.bstr n).st = .closed && (m.bstr n).outAt.isSome)

/-- The CLOSED strings whose V has stayed below VPRES for 100 µs are removed (R377). -/
def Chip.ownRemoved (m : Chip) : Chip :=
  let gone := m.strsGone
  match gone.filterMap (fun n => (m.bstr n).outAt) with
  | [] => m
  | t :: ts =>
    let m := m.elapse (ts.foldl min t) 100
    (gone.filter (fun n => match (m.bstr n).outAt with
      | some t => decide (t + 100 ≤ m.now)
      | none => false)).foldl Chip.strRemoved m

/-- Removal (R377): by the strings' own voltage; after a removal that the converter signalled, every CLOSED string that is below VPRES within
1 ms, and once that has passed without one, every CLOSED string. -/
def Chip.batRemoved (m : Chip) : Chip :=
  let settled := fun (m : Chip) => ({ m with cnv := { m.cnv with removed := none, remFound := false } } : Chip)
  match m.cnv.removed with
  | some t =>
    if m.now ≤ t + 1000 && !m.strsGone.isEmpty then
      m.strsGone.foldl Chip.strRemoved { m with cnv := { m.cnv with remFound := true } }
    else if m.cnv.remFound then if t + 1000 < m.now then (settled m).ownRemoved else m
    else ((List.range 4).filter (fun n => (m.bstr n).st = .closed)).foldl Chip.strRemoved (settled (m.elapse t 1000))
  | none => m.ownRemoved

/-- A string was opened in the present microsecond, so that an opening cause meets its DISCONNECT in one evaluation (R396; DEDUCED, log entry
90). -/
def Chip.strJustOpened (m : Chip) (n : Nat) : Bool := (m.bstr n).st = .open_ && (m.bstr n).fellAt = m.now && m.now != 0

/-- V has been below VCUT for 1 s (R376): once for each excursion, and when the string was disconnected at that instant too (R396). -/
def Chip.strUndervolt (m : Chip) (n : Nat) : Chip :=
  let b := m.bstr n
  match b.cutAt with
  | some t =>
    if !b.uvDone && (b.st = .closed || (m.strJustOpened n && t + 1000000 ≤ m.now)) then
      let m := ((m.elapse t 1000000).putBstr n { b with uvDone := true }).strFault n 6
      if b.st = .closed && m.flag .batStrCfg n 22 then m.strOpen n else m
    else m
  | none => m

/-- The discharge current has been above ISTRMAX for 10 ms (R376), once for each excursion: with OCOPEN = 0 the string stays CLOSED. -/
def Chip.strOvercurrent (m : Chip) (n : Nat) : Chip :=
  let b := m.bstr n
  match b.ocAt with
  | some t =>
    if !b.ocDone && (b.st = .closed || (m.strJustOpened n && t + 10000 ≤ m.now)) then
      let m := ((m.elapse t 10000).putBstr n { b with ocDone := true }).strFault n 7
      if b.st = .closed && m.flag .batStrCfg n 23 then m.strOpen n else m
    else m
  | none => m

/-! ### What the strings and the charger see (R374 to R377, R385 to R387) -/

/-- A condition's start: kept while it goes on holding. -/
def spell (was : Option Nat) (now : Nat) (holds : Bool) : Option Nat := if holds then some (was.getD now) else none

/-- String n's conditions, since when they hold (R374, R376, R377). -/
def Chip.strSpells (m : Chip) (n : Nat) : BStr :=
  let b := m.bstr n
  let v := m.perCell (m.strV n)
  let pres : Bool := (m.fld .batPres 0 11 0 : Int) * q1 ≤ v
  let closed : Bool := b.st = .closed || m.strJustOpened n
  let cut : Bool := closed && v < (m.fld .batChgVtop 0 31 16 : Int) * q1
  let ocMax : Int := m.fld .batStrOc n 15 0
  let oc : Bool := closed && ocMax != 0 && ocMax * q1 < m.strI n
  { b with inAt := spell b.inAt m.now (m.strOn n && pres), outAt := spell b.outAt m.now (m.strOn n && !pres),
           nearAt := spell b.nearAt m.now (b.st = .matching && m.strNear n),
           cutAt := spell b.cutAt m.now cut, ocAt := spell b.ocAt m.now oc,
           uvDone := b.uvDone && cut, ocDone := b.ocDone && oc }

/-- The charge current of the closed strings, in 0.1 A × 2^24. -/
def Chip.chgAmps (m : Chip) : Int := m.closedStrs.foldl (fun a n => a - m.strI n) 0

/-- The sum of ITERM over the charging strings, in 0.1 A × 2^24. -/
def Chip.termAmps (m : Chip) : Int := m.closedStrs.foldl (fun a n => a + (m.fld .batStrIlim n 31 16 : Int) * q1) 0

/-- A closed string's current lies within 1 % of its ICC (R386). -/
def Chip.strCalm (m : Chip) (n : Nat) : Bool :=
  decide (100 * ((m.strI n).natAbs : Int) ≤ (m.fld .batStrIchg n 15 0 : Int) * q1)

/-- The charger's conditions, since when they hold (R384 to R387): but for VOVP's, they are judged while the timers are not frozen. A rest
stays steady while each new current lies within 1 % of ICC. -/
def Chip.chgSpells (m old : Chip) : Chip :=
  let b := m.bat
  let v := m.loCell
  let at_ := fun (mv : Nat) => (mv : Int) * q1
  let go := !m.chgFrozen
  let calm := m.closedStrs.all (fun n => m.strI n = old.strI n || m.strCalm n)
  { m with bat := { b with
      lowAt := spell b.lowAt m.now (go && b.phase = .trickle && at_ (m.fld .batChgVphase 0 15 0) ≤ v)
      preAt := spell b.preAt m.now (go && b.phase = .prechg && at_ (m.fld .batChgVphase 0 31 16) ≤ v)
      ovAt := spell b.ovAt m.now (at_ (m.fld .batChgVlim 0 31 16) < v)
      rchAt := spell b.rchAt m.now (go && b.phase = .float && v < at_ (m.fld .batChgVlim 0 15 0))
      termAt := spell b.termAt m.now (go && b.phase = .topoff && m.chgAmps < m.termAmps)
      loSeg := segPush b.loSeg m.now 100000 v, iSeg := segPush b.iSeg m.now 10000000 m.chgAmps
      steady := b.steady && (!(b.rest || b.phase = .entry) || calm) } }

/-- BAT watches its measurements: the strings' conditions, the temperature windows (R389), the charger's conditions, the end of the
compatibility profile's BULK at VREG and the exit from FAULT (R385). -/
def Chip.batWatch (m old : Chip) : Chip :=
  let m := (List.range 4).foldl (fun m n => m.putBstr n (m.strSpells n)) m
  let m := ((m.batWindows old).chgSpells old).chgLeave
  if m.bat.phase = .bulk && m.profile = 1 && m.chgHold = 0 && m.vregNow * q1 ≤ m.loCell * 10 then m.chgTo .topoff true else m

/-! ### The charger's events (R385 to R387) -/

/-- Every 100 ms (R381): CB and VREG. -/
def Chip.chargeRecompute (m : Chip) : Chip :=
  let m := (m.elapse m.bat.compAt 100000).batTick m.chgFrozen
  ({ m with bat := { m.bat with compAt := m.now } } : Chip).chgCompute

/-- The rest-end voltage per cell (R385): the mean over the last 100 ms, in mV × 2^24. -/
def Chip.restV (m : Chip) : Int := segMean m.bat.loSeg m.now 100000

/-- A rest that ends now was valid: every closed string's current stayed within 1 % of its ICC (R386). -/
def Chip.restSteady (m : Chip) : Bool := m.bat.steady && m.closedStrs.all m.strCalm

/-- A rest that ends now and was valid is reported to EST, for each closed string (R388). -/
def Chip.restReports (m : Chip) (v : Int) : Chip :=
  if m.restSteady then m.closedStrs.foldl (fun m n => m.restReport n (v * 256)) m else m

/-- TREST has elapsed in ENTRY (R385): the phase by the rest-end voltage. The rest of the native profile is reported as any other is
(R388); the compatibility profile has none (R387). -/
def Chip.entryRestEnd (m : Chip) : Chip :=
  let m := m.batTick m.chgFrozen
  if m.bat.phase = .entry && !m.chgFrozen then
    let m := m.chgWait m.bat.phaseUs (m.fld .batChgPulse 0 15 8 * 100000)
    let v := m.restV
    let m := m.when (m.profile = 0) (fun m => m.restReports v)
    if m.profile = 1 && v < (m.fld .batChgVphase 0 15 0 : Int) * q1 then m.chgTo .trickle true
    else if v < (m.fld .batChgVphase 0 31 16 : Int) * q1 then m.chgTo .prechg true
    else m.chgTo .bulk true
  else m

/-- V has been at or above VLOW for 10 s (R385). -/
def Chip.trickleDone (m : Chip) : Chip :=
  match m.bat.lowAt with
  | some t => if m.bat.phase = .trickle && !m.chgFrozen then (m.elapse t 10000000).chgTo .prechg true else m
  | none => m

/-- V has been at or above VPRE for 10 s (R385). -/
def Chip.prechgDone (m : Chip) : Chip :=
  match m.bat.preAt with
  | some t => if m.bat.phase = .prechg && !m.chgFrozen then (m.elapse t 10000000).chgTo .bulk true else m
  | none => m

/-- TTRK or TPRE has elapsed (R385). -/
def Chip.chgNoaccept (m : Chip) : Chip :=
  let m := m.batTick m.chgFrozen
  let t := if m.bat.phase = .trickle then m.fld .batChgTmr 0 7 0 else m.fld .batChgTmr 0 15 8
  if (m.bat.phase = .trickle || m.bat.phase = .prechg) && !m.chgFrozen then
    ((m.chgWait m.bat.phaseUs (t * 60000000)).chgTo .fault false).chgFault 1
  else m

/-- An ON interval of TON ends (R386): a native rest begins. -/
def Chip.onIntervalEnd (m : Chip) : Chip :=
  let m := m.batTick m.chgFrozen
  if (m.bat.phase = .bulk || m.bat.phase = .topoff) && m.profile = 0 && !m.bat.rest && !m.chgFrozen then
    let ton := m.fld .batChgPulse 0 7 0 * 1000000
    let m := m.chgWait m.bat.ivUs ton
    ({ m with bat := { m.bat with rest := true, ivUs := 0, steady := true,
                                  onMean := segMean m.bat.iSeg m.now (min 10000000 ton) } } : Chip).chgCompute
  else m

/-- A native rest ends (R385, R386, R388): it is valid if every closed string's current stayed within 1 % of its ICC, and a valid one is
reported to EST and may end BULK. -/
def Chip.restEnd (m : Chip) : Chip :=
  let m := m.batTick m.chgFrozen
  if m.bat.rest && !m.chgFrozen then
    let t := m.fld .batChgPulse 0 15 8 * 100000
    let m := m.chgWait m.bat.ivUs t
    let steady := m.restSteady
    let v := m.restV
    let m := ({ m with bat := { m.bat with rest := false, ivUs := 0, restOk := steady } } : Chip).restReports v
    if steady && m.bat.phase = .bulk && (m.fld .batChgVtop 0 15 0 : Int) * q1 ≤ v then m.chgTo .topoff true else m.chgCompute
  else m

/-- TOPOFF ends (R385): DONE, or FLOAT with ENDACT = 1. -/
def Chip.topoffEnd (m : Chip) : Chip := m.chgTo (if m.flag .batCfg 0 3 then .float else .done) true

/-- Termination of TOPOFF (R386, R387): natively at the end of an ON interval, by the mean current over its last 10 s; in the compatibility
profile once the current has stayed below the sum of ITERM for TTERM. -/
def Chip.chgTerminate (m : Chip) : Chip :=
  let m := m.batTick m.chgFrozen
  if m.bat.phase = .topoff && !m.chgFrozen then
    if m.profile = 0 then
      let ton := m.fld .batChgPulse 0 7 0 * 1000000
      let m := if m.bat.rest then m else m.chgWait m.bat.ivUs ton
      let mean := if m.bat.rest then m.bat.onMean else segMean m.bat.iSeg m.now (min 10000000 ton)
      if mean < m.termAmps then m.topoffEnd else m
    else
      match m.bat.termAt with
      | some t => (m.elapse t (m.fld .batChgPulse 0 23 16 * 1000000)).topoffEnd
      | none => m
  else m

/-- TCHG has elapsed since BULK entry (R385). -/
def Chip.chgTimeout (m : Chip) : Chip :=
  let m := m.batTick m.chgFrozen
  if (m.bat.phase = .bulk || m.bat.phase = .topoff) && !m.chgFrozen then
    ((m.chgWait m.bat.bulkUs (m.fld .batChgTmr 0 31 16 * 60000000)).chgTo .fault false).chgFault 0
  else m

/-- Recharge (R385): in DONE the rest-end voltage is sampled every TON and found below VRCH; in FLOAT V has been below it for 10 s. -/
def Chip.chgRecharge (m : Chip) : Chip :=
  let m := m.batTick m.chgFrozen
  if m.chgFrozen then m
  else if m.bat.phase = .done then
    let m := m.chgWait m.bat.ivUs (m.fld .batChgPulse 0 7 0 * 1000000)
    if m.restV < (m.fld .batChgVlim 0 15 0 : Int) * q1 then m.chgTo .bulk true else { m with bat := { m.bat with ivUs := 0 } }
  else
    match m.bat.rchAt with
    | some t => if m.bat.phase = .float then (m.elapse t 10000000).chgTo .bulk true else m
    | none => m

/-- V has been above VOVP for 100 ms (R385), judged even while held, and with PROFILE manual from IDLE too (R397). -/
def Chip.chgOvervolt (m : Chip) : Chip :=
  match m.bat.ovAt with
  | some t =>
    if m.bat.phase = .fault || (m.bat.phase = .idle && m.profile != 3) then m
    else ((m.elapse t 100000).chgTo .fault false).chgFault 2
  | none => m

/-! ### Commands and writes -/

/-- BAT_CMDSTAT. -/
def Chip.batStatus (m : Chip) (st : Status) (code : Nat) : Chip := m.put .batCmdstat 0 (wd (st.code + code * 256))

/-- A write of BAT_CMD (R374, R384, R385). -/
def batCmdAct (d : Word) (m : Chip) : Act :=
  let code := bits d 3 0
  let n := bits d 9 8
  let st := (m.bstr n).st
  let gated := m.pwr.base = .shadow
  let act := fun (bad : Bool) (f : Chip → Chip) =>
    ({ v := { estate := bad }, eff := fun m => ((f m).batStatus .ok code, .ok), rej := fun s m => m.batStatus s code } : Act)
  match code with
  | 1 => act (gated || !m.canConnect n) (fun m => m.strConnect n)
  | 2 => act (gated || !m.canConnect n) (fun m => m.strClose n)
  | 3 => act (gated || !(st = .closed || st = .matching)) (fun m =>
      if st = .closed then m.strOpen n else m.putBstr n { m.bstr n with st := .open_, since := m.now })
  | 4 => act false (fun m => ({ m.batTick m.chgFrozen with bat := { (m.batTick m.chgFrozen).bat with suspend := true } } : Chip).chgCompute)
  | 5 => act false (fun m => ({ m.batTick m.chgFrozen with bat := { (m.batTick m.chgFrozen).bat with suspend := false } } : Chip).chgCompute)
  | 6 => act (gated || m.bat.phase != .idle || 2 ≤ m.profile || (m.batValid && m.closedStrs.isEmpty)) Chip.chgDecide
  | _ => { v := { erange := true }, eff := fun m => (m, .ok), rej := fun s m => m.batStatus s code }

/-- A write of a BAT register (R391, R398, R399). -/
def batAct (r : RName) (i : Nat) (d : Word) (m : Chip) : Act :=
  let anyClosed := (List.range 4).any (fun n => (m.bstr n).st = .closed)
  match r with
  | .batCmd => batCmdAct d m
  | .batCfg =>
    let n := bits d 15 8
    { v := { erange := n = 0 && m.ncell != 0, estate := n != m.ncell && anyClosed }
      eff := fun m =>
        let was := m.profile
        let m := (m.batTick m.chgFrozen).store r i d
        (if 2 ≤ m.profile then m.chgIdle.chgCompute
         else if m.bat.phase = .idle && m.profile != was then m.chgDecide.chgCompute else m.chgCompute, .ok) }
  | .batChgVreg => actStoreIf { estate := anyClosed } r i d
  | .batChgVlim => actStoreIf { estate := anyClosed, erange := bits d 31 16 ≤ m.fld .batChgVreg 0 15 0 } r i d
  | .batTwin =>
    let t := fun k => sbits d (8 * k + 7) (8 * k)
    actStoreIf { erange := !(-40 ≤ t 0 && t 0 < t 1 && t 1 < t 2 && t 2 < t 3 && t 3 ≤ 85) } r i d
  | .batVcomp => actStoreIf { erange := !(-500 ≤ sbits d 15 0 && sbits d 15 0 ≤ 0) } r i d
  | .batChgIman => actStoreIf { erange := !(-q1 ≤ d.toInt && d.toInt ≤ 0) } r i d
  | .batStrScale => actStoreIf { estate := (m.bstr i).st = .closed } r i d
  | .batStrCfg =>
    let k := bits d 19 15
    let old := m.get r i
    let same := bits d 20 20 = bits old 20 20 && bits d 14 8 = bits old 14 8 && bits d 6 0 = bits old 6 0
    let st := (m.bstr i).st
    actStoreIf { erange := (22 ≤ k && k ≤ 30) || bits d 8 8 = 1 || 64 ≤ bits d 14 8,
                 estate := !same && !(st = .absent || st = .open_) } r i d
  | _ => actStore r i d

/-- BAT's quiescent point for a LEVEL change (R397). -/
def Chip.batQuiet (m : Chip) : Bool :=
  (m.bat.phase = .idle || m.bat.phase = .done || m.bat.phase = .float || m.bat.phase = .fault) &&
    (List.range 4).all (fun n => (m.bstr n).st != .matching)

/-! ### Views (R400) -/

/-- The code of a phase. -/
def ChgPh.code : ChgPh → Nat
  | .idle => 0 | .entry => 1 | .trickle => 2 | .prechg => 3 | .bulk => 4 | .topoff => 5 | .done => 6 | .float => 7 | .fault => 8

/-- The code of a string's state. -/
def StringSt.code : StringSt → Nat
  | .absent => 0 | .open_ => 1 | .matching => 2 | .closed => 3 | .stuck => 4

/-- BAT_CHG_STAT. -/
def Chip.chgStat (m : Chip) : Word :=
  wd (m.bat.phase.code + b2n m.bat.restOk * 256 + b2n m.bat.rest * 512 + b2n m.chgTFrozen * 1024 +
    (if m.pwr.base = .boot then 0 else m.chgHold * 2048))

/-- BAT_STRn_STAT. -/
def Chip.strStat (m : Chip) (n : Nat) : Word :=
  let b := m.bstr n
  wd (b.st.code + b.window * 16 + b2n b.ssw * 256 + b2n b.fb * 512)

end Sys2Proof.Machine
end

