-- ==== Sys2Proof/Machine/Branch.lean ====
section
/-!
DEFINITION. Branch protection channels (R345 to R370): the meters, the limits, the state machine of R358, the gate and
pass checks, the AUTOON walk and the writes of the BRN registers.
-/

namespace Sys2Proof.Machine

/-- What every branch fault's record carries: GFBn after GFBPOL, the current and the voltage at detection. -/
def Chip.brnPayload (m : Chip) (n : Nat) : List Word :=
  [wd (b2n ((m.branch n).gfb != bitOf (m.brnW .brnNGate n) 0)), wd (bits (m.brnMeter .brnNMeas n) 15 0),
   wd (bits (m.brnMeter .brnNMeas n) 31 16)]

/-- A branch enters INRUSH: GENn high, limit IINR, with a retry count (R358). -/
def Chip.brnInrush (m : Chip) (n retry : Nat) : Chip :=
  (m.brnTo n .inrush 0) |> fun m => (m.putBranch n { m.branch n with retry := retry, shed := false }).dropFence .branch n

/-- Entry to TRIPPED with retries used up latches the branch (R358). -/
def Chip.brnRetryLimit (m : Chip) (n : Nat) : Chip :=
  let b := m.branch n
  if b.st = .tripped && b.retry = m.brnF .brnNRetry n 3 0 then
    ((m.putBranch n { b with st := .latched, since := m.now }).holdFence .branch n 69).raise 69 n (m.brnPayload n)
  else m

/-- A trip: INRUSH or ON to TRIPPED with a cause and its fault, then the retry limit (R358). -/
def Chip.brnTrip (m : Chip) (n cause src : Nat) : Chip :=
  let m := (m.brnTo n .tripped cause).bump .brnNCnt n 15 0 1
  (m.raise src n (m.brnPayload n)).brnRetryLimit n

/-- The branch was tripped by an OLT or INRT expiry in the present 8 µs (R365). -/
def Chip.brnJustExpired (m : Chip) (n : Nat) : Bool :=
  let b := m.branch n
  (b.st = .tripped || b.st = .latched) && (b.cause = 3 || b.cause = 4) && m.now < b.genAt + 8

/-- The fast trip of branch n (R357): the current, in 1/32,768 of IFS, has a magnitude above TRIP while GENn is high. One that comes in the
same 8 µs as an OLT or INRT expiry gives the one TRIPPED its cause (R365). -/
def Chip.branchTrip (m : Chip) (n : Nat) (i : Int) : Chip :=
  if !decide (m.fld .brnNTrip n 9 0 * 32768 < 1000 * i.natAbs) then m
  else if (m.branch n).gen then m.brnTrip n 2 63
  else if m.brnJustExpired n then (m.putBranch n { m.branch n with cause := 2 }).raise 63 n (m.brnPayload n)
  else m

/-- VS at the last meter sample, in 10 mV ÷ 65,536. -/
def Chip.brnVs (m : Chip) (n : Nat) : Nat := bits (m.brnMeter .brnNMeas n) 31 16 * m.fld .brnNScale n 31 16

/-- INRUSH ends in ON (R358): VS is at VPG or above, and the limit is not acting and has not for INRQ. -/
def Chip.branchOn (m : Chip) (n : Nat) : Chip :=
  let b := m.branch n
  if b.st = .inrush && !b.limit && m.fld .brnNInr n 31 16 * 65536 ≤ m.brnVs n then
    (((m.elapse b.limAt (m.brnF .brnNRetry n 23 16 * 100)).brnTo n .on 0).eventRecord 213 n []).event 213
  else m

/-- INRT has elapsed since entry to INRUSH (R358). -/
def Chip.branchInrushTimeout (m : Chip) (n : Nat) : Chip :=
  let b := m.branch n
  if b.st = .inrush then (m.elapse b.since (m.fld .brnNTmr n 11 0 * 1000)).brnTrip n 4 65 else m

/-- VS is below VPG ÷ 10 at INSHT after entry to INRUSH, with VPG not 0 (R358). Once that moment has passed it is judged no more. -/
def Chip.branchInrushShort (m : Chip) (n : Nat) : Chip :=
  let b := m.branch n
  let t := m.fld .brnNTmr n 19 12 * 100
  if b.st = .inrush && m.fld .brnNInr n 31 16 != 0 && m.now ≤ b.since + t && 10 * m.brnVs n < m.fld .brnNInr n 31 16 * 65536 then
    (m.elapse b.since t).brnTrip n 5 66
  else m

/-- The limit has acted continuously for OLT in ON (R358). -/
def Chip.branchOverload (m : Chip) (n : Nat) : Chip :=
  let b := m.branch n
  if b.st = .on && b.limit then (m.elapse b.limAt (m.fld .brnNTmr n 31 20 * 1000)).brnTrip n 3 64 else m

/-- GFBn is active, after GFBPOL (R368). -/
def Chip.brnGfb (m : Chip) (n : Nat) : Bool := (m.branch n).gfb != bitOf (m.brnW .brnNGate n) 0

/-- A gate failure (R360): 0 the gate has not risen for GFBON since GENn rose, 1 it has been inactive for 10 µs after it had risen, 2 it has
not fallen for GFBOFF since GENn fell. The first two end GENn; the third is raised once for each fall, whatever the state. -/
def Chip.gateFail (m : Chip) (n kind : Nat) : Chip :=
  let b := m.branch n
  let latch := fun (m : Chip) =>
    (((m.brnTo n .latched 6).bump .brnNCnt n 15 0 1).holdFence .branch n 67) |> fun m => m.raise 67 n (m.brnPayload n)
  if kind = 0 then
    if b.gen && !m.brnGfb n && b.gfbAt ≤ b.genAt then latch (m.elapse b.genAt (m.brnF .brnNGate n 15 8 * 10)) else m
  else if kind = 1 then
    if b.gen && !m.brnGfb n && b.genAt < b.gfbAt then latch (m.elapse b.gfbAt 10) else m
  else if !b.gen && b.genAt != 0 && m.brnGfb n && b.gfbAt ≤ b.genAt && !b.fallRaised then
    ((m.elapse b.genAt (m.brnF .brnNGate n 23 16)).putBranch n { b with fallRaised := true }) |> fun m =>
      m.raise 67 n (m.brnPayload n)
  else m

/-- RETRYDLY has elapsed since entry to TRIPPED (R358). -/
def Chip.branchRetry (m : Chip) (n : Nat) : Chip :=
  let b := m.branch n
  if b.st = .tripped && b.retry < m.brnF .brnNRetry n 3 0 then
    (m.elapse b.since (m.brnF .brnNRetry n 15 8 * 100000)).brnInrush n (b.retry + 1)
  else m

/-- A pass short (R361): |I| has been above OFFLEAK for 10 ms in OFF, TRIPPED or LATCHED; once for each excursion. -/
def Chip.branchPassShort (m : Chip) (n : Nat) : Chip :=
  let b := m.branch n
  match b.leakAt with
  | some t =>
    if (b.st = .off || b.st = .tripped || b.st = .latched) && !b.short then
      let m := m.elapse t 10000
      let m := m.putBranch n { b with st := .latched, since := m.now, cause := 7, short := true }
      let m := (m.when (b.st != .latched) (fun m => m.bump .brnNCnt n 15 0 1)).holdFence .branch n 68
      m.raise 68 n (m.brnPayload n)
    else m
  | none => m

/-- The branch has been in ON for 10 s (R358). -/
def Chip.branchRetryReset (m : Chip) (n : Nat) : Chip :=
  let b := m.branch n
  if b.st = .on then
    (m.elapse b.since 10000000) |> fun m => m.putBranch n { m.branch n with retry := 0 }
  else m

/-! ### In SHADOW (R49, R588, R590) -/

/-- A transition that only the chip that drives makes: in SHADOW branch states follow the journal. -/
def Chip.brnLive (m : Chip) (f : Chip → Chip) : Chip := m.when (m.pwr.base != .shadow) f

/-- A branch fault: in SHADOW it raises, latches and records, and the tracked state, the counts and the fence stay as the journal has
them (R590), but for a SAFE reaction, which takes this branch to OFF as it does the others (R46, R363). -/
def Chip.brnLocal (m : Chip) (n : Nat) (f : Chip → Chip) : Chip :=
  let x := f m
  if m.pwr.base != .shadow then x
  else
    let b := x.branch n
    let fences := Tab.set ltNN (fun _ => Fence.clear) x.flt.fences (Scope.branch.idx, n)
      (Tab.get (fun _ => Fence.clear) m.flt.fences (Scope.branch.idx, n))
    let x := (x.putBranch n { m.branch n with fallRaised := b.fallRaised, short := b.short }).put .brnNCnt n (m.get .brnNCnt n)
    let x : Chip := { x with flt := { x.flt with fences := fences }, brn := { x.brn with autoLeft := m.brn.autoLeft } }
    x.when (x.pwr.condSafe && !m.pwr.condSafe && !bitOf (x.brnW .brnNCfg n) 1) (fun x => x.brnOff n 9)

/-! ### Limits (R355) -/

/-- The effective limit of branch n in 2^-24 of IFS, lowered by its thermal reduction (R355, R533). -/
def Chip.brnLimit (m : Chip) (n : Nat) : Int :=
  let b := m.branch n
  let per := fun (x : Nat) => ((x : Int) * 2 ^ 24) / 1000
  let l : Int :=
    if b.st = .inrush then per (m.fld .brnNInr n 9 0)
    else match b.loopVal with
      | some v => clampI 0 (per (m.fld .brnNTrip n 25 16)) v
      | none => per (m.brnF .brnNLim n 9 0)
  l * (2 ^ 24 - m.brnRed n) / 2 ^ 24

/-! ### Meters (R349 to R353) -/

/-- The product of one sample's codes and scales: its power in 10^-4 W ÷ 2^31 (R349). -/
def Chip.brnProduct (m : Chip) (n : Nat) (i : Int) (v : Nat) : Int :=
  i * (m.fld .brnNScale n 15 0 : Int) * (v : Int) * (m.fld .brnNScale n 31 16 : Int)

/-- |I| is above OFFLEAK (R361). -/
def Chip.brnLeaks (m : Chip) (n : Nat) (i : Int) : Bool :=
  (m.brnF .brnNGate n 31 24 : Int) * 32768 < 1000 * (if i < 0 then -i else i)

/-- Auto-zero at a sample of raw code `raw` (R350): in OFF, TRIPPED or LATCHED with GFBn inactive for 100 ms, and a mean over them that
differs from the current zero by less than OFFLEAK, the mean becomes the current zero. -/
def Chip.brnAutoZero (m : Chip) (n : Nat) (raw : Int) : Chip :=
  let b := m.branch n
  if !b.st.rests || m.brnGfb n then m.putBranch n { b with azHist := [] }
  else
    let hist := (raw :: b.azHist).take 12500
    let m := m.putBranch n { b with azHist := hist }
    let sum := hist.foldl (fun a x => a + x) 0
    let off := (sum - 12500 * sbits (m.get .brnNZero n) 15 0).natAbs
    if bitOf (m.brnW .brnNZero n) 16 && hist.length = 12500 && 1000 * off < m.brnF .brnNGate n 31 24 * 32768 * 12500 then
      m.putF .brnNZero n 15 0 (unI (rdiv sum 12500) 16)
    else m

/-- The level of GFBn, as a sample finds it. -/
def Chip.brnSeeGfb (m : Chip) (n : Nat) (gfb : Bool) : Chip :=
  let b := m.branch n
  if b.gfb = gfb then m else m.putBranch n { b with gfb := gfb, gfbAt := m.now }

/-- Since when |I| has been above OFFLEAK with the gate off for at least 1 ms (R361). -/
def Chip.brnLeak (m : Chip) (n : Nat) (i : Int) : Option Nat :=
  let b := m.branch n
  if m.brnLeaks n i && (b.st = .off || b.st = .tripped || b.st = .latched) && (b.genAt = 0 || decide (b.genAt + 1000 ≤ m.now)) then
    some (b.leakAt.getD m.now)
  else none

/-- One meter result of a branch whose meters run, 8 µs after the last (R349 to R351, R355, R361, R367): raw current and voltage codes,
the current that would flow without the active limit, and the GFBn level. What was written since the last sample takes effect, and the
current zero is subtracted. The limit acts while that current would exceed it. -/
def Chip.branchMeter (m : Chip) (n : Nat) (i : Int) (v : Nat) (want : Int) (gfb : Bool) : Chip :=
  if !m.brnConfigured n then m.brnSeeGfb n gfb
  else
    let m := (m.elapse (m.branch n).metAt 8).brnSeeGfb n gfb
    let m := ({ m with brn := { m.brn with held := [] } } : Chip).putBranch n { m.branch n with metAt := m.now, held := [] }
    let b := m.branch n
    let lim : Bool := b.gen && decide (m.brnLimit n < want * 512)
    let raw := i
    let i := clampI (-32768) 32767 (raw - sbits (m.get .brnNZero n) 15 0)
    let p := m.brnProduct n i v
    let leak := m.brnLeak n i
    let m := m.put .brnNMeas n (wd (unI i 16 + v % 65536 * 65536))
    let m := m.putBranch n { b with energy := b.energy + p, cnt := b.cnt + 1, sumI := b.sumI + i, sumV := b.sumV + v,
                                    sumP := b.sumP + p, short := b.short && m.brnLeaks n i, leakAt := leak,
                                    limit := lim, limAt := if lim = b.limit then b.limAt else m.now }
    m.brnAutoZero n raw

/-- The end of an averaging window (R353), AVGWIN after the last: means rounded to the nearest code and to the nearest mW. -/
def Chip.branchAvg (m : Chip) (n : Nat) : Chip :=
  if !m.brnConfigured n then m
  else
    let m := m.elapse (m.branch n).avgAt (m.brnShared .brnCfg 15 8 * 10000)
    let b := m.branch n
    let m := m.putBranch n { b with cnt := 0, sumI := 0, sumV := 0, sumP := 0, avgAt := m.now }
    if b.cnt = 0 then m
    else
      (m.put .brnNIavg n (wd (unI (rdiv b.sumI b.cnt) 16 + (2 * b.sumV + b.cnt) / (2 * b.cnt) * 65536))).put .brnNP n
        (wdI (rdiv b.sumP (10 * 2 ^ 31 * b.cnt)))

/-- The 64-bit energy accumulator in µJ (R351). -/
def Branch.energyUj (b : Branch) : Nat := unI (b.energy.fdiv (1250 * 2 ^ 31)) 64

/-! ### Commands and writes -/

/-- ON is refused in the present mode (R363): the base state carries no branches, or SAFE holds a branch whose SAFEACT
is 0. -/
def Chip.brnModeRefuses (m : Chip) (n : Nat) : Bool := !m.powering || (m.pwr.condSafe && !bitOf (m.brnW .brnNCfg n) 1)

/-- An ON that is accepted (R358). -/
def Chip.brnOn (m : Chip) (n : Nat) : Chip :=
  let b := m.branch n
  match b.st with
  | .off => m.brnInrush n 0
  | .tripped => m.brnInrush n (b.retry + 1)
  | .latched => m.brnInrush n 0
  | _ => m

/-- The state of branch n refuses an ON (R358). -/
def Chip.brnStateRefuses (m : Chip) (n : Nat) : Bool :=
  let b := m.branch n
  b.st = .fenced || (b.st = .latched && !m.fenceRead .branch n) ||
    (b.st = .tripped && m.brnF .brnNRetry n 3 0 ≤ b.retry)

/-- An ON command at the branch (R358, R363). -/
def brnOnAct (n : Nat) (m : Chip) : Act :=
  { v := { erange := !m.brnConfigured n, estate := m.brnModeRefuses n || m.brnStateRefuses n }
    eff := fun m => (m.brnOn n, .ok)
    rej := fun st m => if st = .erange then m.raise 70 n (m.brnPayload n) else m }

/-- A write of BRN_n_CMD (R369). In SHADOW the branch states are tracked: what would change one is ESTATE (R590). -/
def brnCmdAct (n : Nat) (d : Word) (m : Chip) : Act :=
  let b := m.branch n
  let gated := m.pwr.base = .shadow
  match bits d 3 0 with
  | 1 => brnOnAct n m
  | 2 =>
    { v := { estate := b.st = .fenced || (gated && b.st != .off) }
      eff := fun m => (m.brnOffCmd n, .ok) }
  | 3 =>
    { v := { estate := b.st != .fenced || !m.fenceRead .branch n || gated }
      eff := fun m => ((m.brnTo n .off 0).dropFence .branch n, .ok) }
  | 4 => { eff := fun m => (m.putBranch n { m.branch n with energy := 0 }, .ok) }
  | _ => { v := { erange := true }, eff := fun m => (m, .ok) }

/-- TRIP keeps its distance of 5 % of IFS above IMAX, ILIM and IINR (R357). -/
def tripOk (trip imax ilim iinr : Nat) : Bool := imax + 50 ≤ trip && ilim + 50 ≤ trip && iinr + 50 ≤ trip

/-- A write of a BRN register (R356, R357, R366, R367, R369). -/
def brnAct (r : RName) (n : Nat) (d : Word) (m : Chip) : Act :=
  let b := m.branch n
  match r with
  | .brnNCmd => brnCmdAct n d m
  | .brnNScale =>
    { v := { estate := b.gen }
      eff := fun m =>
        let b := m.branch n
        let was := m.brnConfigured n
        let m := m.store r n d
        -- the meters and their windows start anew when both scales have become non-zero
        let m := m.when (!was) (fun m => m.putBranch n { b with metAt := m.now, avgAt := m.now, leakAt := none, cnt := 0, sumI := 0,
                                                                sumV := 0, sumP := 0, azHist := [] })
        (m.when (!m.brnConfigured n) (fun m => ((m.put .brnNMeas n 0).put .brnNIavg n 0).put .brnNP n 0), .ok) }
  | .brnCfg | .brnStagger => { eff := fun m => ((m.brnHoldShared r).store r n d, .ok) }
  | .brnNTmr => actStoreIf { estate := b.gen } r n d
  | .brnNTrip =>
    actStoreIf { estate := b.gen,
                 erange := !tripOk (bits d 9 0) (bits d 25 16) (m.fld .brnNLim n 9 0) (m.fld .brnNInr n 9 0) } r n d
  | .brnNInr =>
    actStoreIf { estate := b.gen,
                 erange := !tripOk (m.fld .brnNTrip n 9 0) (m.fld .brnNTrip n 25 16) (m.fld .brnNLim n 9 0) (bits d 9 0) } r n d
  | .brnNLim =>
    { v := { estate := b.bound.isSome,
             erange := !tripOk (m.fld .brnNTrip n 9 0) (m.fld .brnNTrip n 25 16) (bits d 9 0) (m.fld .brnNInr n 9 0) }
      eff := fun m => ((m.brnHold r n).store r n d, .ok) }
  | .brnNThm =>
    { v := { erange := 22 ≤ bits d 4 0 && bits d 4 0 ≤ 30 }, eff := fun m => ((m.brnHold r n).store r n d, .ok) }
  | .brnNCfg | .brnNRetry | .brnNGate | .brnNZero => { eff := fun m => ((m.brnHold r n).store r n d, .ok) }
  | _ => actStore r n d

/-! ### The AUTOON walk (R362) -/

/-- The ONs of the walk from a list of branches, up to the first that enters INRUSH. -/
def Chip.brnWalk (m : Chip) : List Nat → Chip
  | [] => { m with brn := { m.brn with auto := [], autoCur := none, autoLeft := none } }
  | n :: rest =>
    let a := brnOnAct n m
    match a.v.first with
    | some st => (a.rej st m).brnWalk rest
    | none =>
      if (m.branch n).gen then m.brnWalk rest
      else
        let m := m.brnOn n
        { m with brn := { m.brn with auto := rest, autoCur := some n, autoLeft := none } }

/-- The walk begins at entry to SOURCE or HOLDUP from STANDBY (R362). -/
def Chip.brnAutoStart (m : Chip) : Chip :=
  m.brnWalk ((List.range 24).filter (fun n => bitOf (m.brnW .brnNCfg n) 0))

/-- BRN_STAGGER has passed since the previous branch of the walk left INRUSH (R362). -/
def Chip.brnAutoNext (m : Chip) : Chip :=
  match m.brn.autoLeft with
  | some t => (m.elapse t (m.brnShared .brnStagger 9 0 * 1000)).brnWalk m.brn.auto
  | none => m

/-- BRN_n_STAT (R368). -/
def Chip.brnStat (m : Chip) (n : Nat) : Word :=
  let b := m.branch n
  let st := match b.st with
    | .off => 0 | .inrush => 1 | .on => 2 | .tripped => 3 | .latched => 4 | .fenced => 5
  wd (b.retry * 65536 + b.cause * 256 + b2n b.bound.isSome * 128 + b2n (m.brnGfb n) * 64 +
    b2n (has m.pins.gen n) * 32 + b2n b.limit * 16 + st)

/-- The mask of branches in a state. -/
def Chip.brnMask (m : Chip) (st : BrnSt) : Word :=
  wd ((List.range 24).foldl (fun a n => if (m.branch n).st = st then setM a n else a) 0)

end Sys2Proof.Machine
end

