-- ==== Sys2Proof/Machine/Acquire.lean ====
section
/-!
DEFINITION. Acquisition and the AC monitor (R163 to R204): conversion results and their consumers, interleaving, the
result queue, the window comparators, the sag and swell detectors and the writes of the ACQ registers.
-/

namespace Sys2Proof.Machine

/-! ### The AC monitor's configuration (R190) -/

/-- The AC monitor's named channels, as PHASES names them. -/
def Chip.acmChs (m : Chip) : List Nat :=
  let a := m.fld .acqAcmCh 0 6 0
  let b := m.fld .acqAcmCh 0 14 8
  let c := m.fld .acqAcmCh 0 22 16
  if m.fld .acqAcmCfg 0 2 1 = 3 then [a, b, c] else if m.fld .acqAcmCfg 0 2 1 = 1 then [a] else []

/-- Converter n samples a channel at 50 kS/s to 1.25 MS/s (R166, R190). -/
def Chip.acmRateOk (m : Chip) (n : Nat) : Bool :=
  let u := m.cvUse n
  let k := u.div * popM 96 u.mask
  4 ≤ k && k ≤ 100

/-- The phases that break R190, as a mask: not in the one converter's mask, or at a rate out of its bounds. Which converter is the one, where
the phases lie in several, is not stated: it is the one that scans phase A (DESIGN CHOICE, log entry 87). -/
def Chip.acmBad (m : Chip) : Nat :=
  let chs := m.acmChs
  let conv := (List.range 4).find? (fun n => has (m.cvUse n).mask (chs.headD 0))
  (List.range chs.length).foldl (fun b k =>
    let ok := match conv with
      | some n => has (m.cvUse n).mask (chs.getD k 0) && m.acmRateOk n
      | none => false
    if ok then b else setM b k) 0

/-- The rules of R190 are judged anew: a new breach sets RATEBAD and raises ACM_CONFIG. -/
def Chip.acmCheck (m : Chip) : Chip :=
  let bad := if m.flag .acqAcmCfg 0 0 then m.acmBad else 0
  let was := m.acq.rateBad
  let m : Chip := { m with acq := { m.acq with rateBad := bad } }
  if was = 0 && bad != 0 then m.raise 34 0 [] else m

/-! ### Comparators (R186 to R188) -/

/-- A code of channel c as a number: signed for a differential channel. -/
def Chip.code (m : Chip) (c : Nat) (w : Nat) : Int := if m.chDiff c then sxN w 16 else w

/-- The candidate state of comparator w for a result (R186). -/
def Chip.wcCand (m : Chip) (w : Nat) (x : Int) : Nat :=
  let c := m.fld .acqWcCfg w 14 8
  let l := m.code c (m.fld .acqWcLim w 15 0)
  let u := m.code c (m.fld .acqWcLim w 31 16)
  let h : Int := m.fld .acqWcHyst w 15 0
  let st := (NTab.get Wcmp.init m.acq.wc w).st
  if st = 1 then (if x ≤ l + h then 1 else if u < x then 2 else 0)
  else if st = 2 then (if x < l then 1 else if u - h ≤ x then 2 else 0)
  else if x < l then 1 else if u < x then 2 else 0

/-- The chip with comparator w written. -/
def Chip.putWc (m : Chip) (w : Nat) (k : Wcmp) : Chip :=
  { m with acq := { m.acq with wc := NTab.set Wcmp.init m.acq.wc w k } }

/-- A comparator changes state: its event and its fault (R188, R543). -/
def Chip.wcChange (m : Chip) (w st : Nat) : Chip :=
  let ev := m.flag .acqWcCfg w (if st = 1 then 24 else if st = 2 then 25 else 26)
  let flt := m.flag .acqWcCfg w 27 && st != 0
  let m := m.putWc w { st := st, cand := st, cnt := 0 }
  let m := if flt then m.raise (128 + w) w [] else m
  if ev then (if flt then m.deliver (128 + w) else m.event (128 + w)) else m

/-- A result reaches comparator w (R187). -/
def Chip.wcResult (m : Chip) (w : Nat) (x : Int) : Chip :=
  let k := NTab.get Wcmp.init m.acq.wc w
  let cand := m.wcCand w x
  if cand = k.st then m.putWc w { k with cand := cand, cnt := 0 }
  else
    let cnt := if cand = k.cand then k.cnt + 1 else 1
    if m.fld .acqWcCfg w 23 16 ≤ cnt then m.wcChange w cand else m.putWc w { k with cand := cand, cnt := cnt }

/-- A result of channel c reaches the comparators that watch it. -/
def Chip.wcResults (m : Chip) (c : Nat) (x : Int) : Chip :=
  (List.range 64).foldl (fun m w =>
    if m.flag .acqWcCfg w 0 && m.fld .acqWcCfg w 14 8 = c then m.wcResult w x else m) m

/-! ### The queue (R176 to R183) -/

/-- Entries the queue holds. -/
def acqDepth : Nat := 4096

/-- The queue's level with its watermark and its overflow arming judged (R181, R183). -/
def Chip.setQueue (m : Chip) (q : List (Word × Word)) : Chip :=
  let was := m.acq.queue.length
  let water := m.fld .acqQcfg 0 27 16
  let m : Chip := { m with acq := { m.acq with queue := q, ovf := m.acq.ovf && acqDepth ≤ q.length } }
  if was < water && water ≤ q.length then m.event 192 else m

/-- A result is enqueued, or dropped when the queue is full (R177, R180, R181). -/
def Chip.enqResult (m : Chip) (n c : Nat) (ilv : Bool) (code sub : Nat) : Chip :=
  if !m.flag .acqQmask (c / 32) (c % 32) then m
  else if acqDepth ≤ m.acq.queue.length then
    let m := m.bump .acqQdrop 0 15 0 1
    let first := !m.acq.ovf
    let m : Chip := { m with acq := { m.acq with gaps := NTab.set false m.acq.gaps c true, ovf := true } }
    if first then m.raise 32 0 [] else m
  else
    let gap := NTab.get false m.acq.gaps c
    let w0 := wd (2 ^ 31 + b2n (m.chDiff c) * 2 ^ 30 + b2n gap * 2 ^ 29 + b2n ilv * 2 ^ 28 + n * 2 ^ 26 + c * 65536 + code)
    let w1 := wd (m.now % 2 ^ 24 * 256 + sub)
    let m : Chip := { m with acq := { m.acq with gaps := NTab.set false m.acq.gaps c false } }
    m.setQueue (m.acq.queue ++ [(w0, w1)])

/-- The reader named by ACQ_QCFG.OWNER (R179). -/
def Chip.qReader (m : Chip) (ag : Agent) : Bool :=
  match m.fld .acqQcfg 0 9 8, ag with
  | 0, .host => true
  | 1, .svc => true
  | 2, .strand k => m.fld .acqQcfg 0 7 0 = k.val
  | _, _ => false

/-- The oldest entry, or two zero words. -/
def Chip.qHead (m : Chip) : Word × Word := m.acq.queue.headD (0, 0)

/-- The oldest entry is removed (R178). -/
def Chip.qPop (m : Chip) : Chip := m.setQueue m.acq.queue.tail

/-- A flush (R182): every entry goes, and the gap flag of each channel that lost one becomes pending. -/
def Chip.qFlush (m : Chip) : Chip :=
  let gaps := m.acq.queue.foldl (fun g e => NTab.set false g (bits e.1 22 16) true) m.acq.gaps
  ({ m with acq := { m.acq with gaps := gaps } } : Chip).setQueue []

/-! ### Results (R168 to R172, R184, R195) -/

/-- The correction of converter 2p + 1 toward converter 2p (R172), rounded with ties upward (DESIGN CHOICE, log entry 76) and saturated
to the channel's 16 bits. -/
def Chip.ilvCorrect (m : Chip) (p c : Nat) (raw : Int) : Int :=
  let offs := sbits (m.get .acqIlvOffs p) 15 0
  let gain := sbits (m.get .acqIlvGain p) 15 0
  let r := rdiv ((16 * raw - offs) * (2 ^ 20 + gain)) (2 ^ 24)
  if m.chDiff c then clampI (-32768) 32767 r else clampI 0 65535 r

/-- The integer square root of a number below 2^34. -/
def isqrt (x : Nat) : Nat := isqrtFrom 17 0 x

/-- The latest result of a channel as a number of codes. -/
def Chip.latest (m : Chip) (c : Nat) : Int :=
  let w := m.get .acqRes c
  if bitOf w 18 then sbits w 15 0 else bits w 15 0

/-- Converter n converts channel c next (R166, R170). -/
def Chip.converts (m : Chip) (n c : Nat) : Bool := (m.convUse n).next == some c

/-- A result of converter n for channel c, a raw code with the stamp's fraction in 5 ns units (R169). Answers the corrected
result's code. -/
def Chip.resultCode (m : Chip) (n c raw : Nat) : Nat :=
  let x := m.code c (raw % 65536)
  if m.ilvEn (n / 2) && n % 2 = 1 then unI (m.ilvCorrect (n / 2) c x) 16 else raw % 65536

/-- The other converter of a pair. -/
def pairMate (n : Nat) : Nat := if n % 2 = 0 then n + 1 else n - 1

/-- A conversion of channel c by converter n has ended: the scan moves on, of an interleaved pair the turn passes to the other converter,
and a converter whose RUN has been cleared stops (R166, R167, R170). -/
def Chip.convMoves (m : Chip) (n c : Nat) : Chip :=
  let u := m.convUse n
  if u.ending then
    (m.putUse n ConvUse.init).when (m.ilvEn (n / 2)) (fun m => m.putUse (pairMate n) ConvUse.init)
  else
    (m.putUse n { u with pos := c + 1 }).when (m.ilvEn (n / 2)) (fun m =>
      m.putUse (pairMate n) { m.convUse (pairMate n) with pos := 0 })

/-- A result of an interleaved pair counts toward TRACK's comparison (R175). -/
def Chip.pairNote (m : Chip) (n : Nat) (x : Int) : Chip :=
  let p := n / 2
  if m.ilvEn p && m.flag .acqIlvCfg p 1 then
    let e := NTab.get (0, (0 : Int)) m.acq.pairs p
    let e := if n % 2 = 1 then (e.1 + 1, e.2 + x) else (e.1, e.2 - x)
    { m with acq := { m.acq with pairs := NTab.set (0, 0) m.acq.pairs p e } }
  else m

/-! ### The AC monitor's tracker (R191, R193, R196) -/

/-- Frequency and phase are tracked: not frozen, or in the end qualification of a detector (R193). -/
def Chip.acmTracks (m : Chip) : Bool :=
  let a := m.acq
  !a.frozen || (a.sag = .confirmed && a.sagDet.restored.isSome) || (a.swell = .confirmed && a.swellDet.restored.isSome)

/-- θ now, in 10^-9 turn: it advances at the tracked or held frequency while the monitor is enabled. -/
def Chip.acmTheta (m : Chip) : Nat :=
  let t := m.acq.track
  (t.theta + (if m.flag .acqAcmCfg 0 0 then t.freq * (m.now - t.thetaAt) else 0)) % 10 ^ 9

/-- √2 × HCRMS of phase k, in units of 2^-16 code. -/
def Chip.acmPeak (m : Chip) (k : Nat) : Nat := isqrtFrom 34 0 (2 * m.fld .acqAcmHcrms k 15 0 ^ 2 * 2 ^ 32)

/-- A_k now, in units of 2^-16 code: it follows √2 × HCRMS with a time constant of 100 ms, unless it is held (R191, R193). -/
def Chip.acmAmp (m : Chip) (k : Nat) : Nat :=
  let t := m.acq.track
  let a := NTab.get 0 t.amp k
  if m.acq.frozen || !m.flag .acqAcmCfg 0 0 then a
  else
    let p : Int := m.acmPeak k
    (p + rdiv (((a : Int) - p) * fxExpNeg ((m.now - t.ampAt) * 2 ^ 32 / 100000)) fx1).toNat

/-- θ and the amplitudes as they stand now become what the tracker goes on from. -/
def Chip.trackRebase (m : Chip) : Chip :=
  let amps := (List.range 3).foldl (fun t k => NTab.set 0 t k (m.acmAmp k)) []
  { m with acq := { m.acq with track :=
    { m.acq.track with theta := m.acmTheta, thetaAt := m.now, amp := amps, ampAt := m.now } } }

/-- A frequency that the tracker finds: of a fundamental between 45 Hz and 66 Hz while it is locked, any below 2^17 mHz otherwise (R191). -/
def lockFreq (lock : Bool) (z : Nat) : Nat := if lock then 45000 + z % 21001 else z % 2 ^ 17

/-- At a scan the tracker follows the input where it tracks. How it finds θ and the frequency is not stated: they are open values
(log entry 17). -/
def Chip.trackScan (m : Chip) : Chip :=
  if m.acmTracks then
    let th := m.openVal % 10 ^ 9
    let f := lockFreq m.acq.lock m.spend.openVal
    let m := m.spend.spend
    { m with acq := { m.acq with track := { m.acq.track with theta := th, thetaAt := m.now, freq := f } } }
  else m

/-- The angle of phase k's reference, θ − k × 120°, as a numerator over 3 × 10^9 of a turn (R191). -/
def Chip.acmTurn (m : Chip) (k : Nat) : Nat := (3 * m.acmTheta + (3 - k) * 10 ^ 9) % (3 * 10 ^ 9)

/-- A sample of phase k enters its half cycle; where its reference has crossed zero since the last one, HCRMS and the count are updated
first (R196), and A_k goes on from where it stood. HCRMS is rounded down, which no rule states (DESIGN CHOICE, log entry 87). -/
def Chip.halfCycle (m : Chip) (k : Nat) (sq : Nat) : Chip :=
  let t := m.acq.track
  let h := m.acmTurn k * 2 / (3 * 10 ^ 9)
  let n := NTab.get 0 t.cnt k
  let crossed := h != NTab.get 0 t.half k
  let m := if crossed then
      let m := m.trackRebase
      let v := if n = 0 then m.fld .acqAcmHcrms k 15 0 else min 65535 (isqrt (NTab.get 0 t.sum k / n))
      m.put .acqAcmHcrms k (wd (v + (m.fld .acqAcmHcrms k 31 16 + 1) % 65536 * 65536))
    else m
  { m with acq := { m.acq with track := { m.acq.track with
      half := NTab.set 0 t.half k h,
      sum := NTab.set 0 t.sum k ((if crossed then 0 else NTab.get 0 t.sum k) + sq),
      cnt := NTab.set 0 t.cnt k ((if crossed then 0 else n) + 1) } } }

/-! ### The AC monitor's detection quantities (R194, R195) -/

/-- The quarter of the tracked period, in µs. -/
def Chip.acmQuarter (m : Chip) : Nat := 250000000 / m.acq.track.freq

/-- VEQ of the scans kept, newest first, rounded down (R195): with three phases the mean over WIN of the sum of squares ÷ 3; with one
phase the mean of the squares a quarter period apart, over the scans of WIN that have one as old (DEDUCED, log entry 17). -/
def Chip.veqOf (m : Chip) (scans : List AcmScan) : Option Nat :=
  let recent := scans.filter (fun e => m.now < e.stamp + m.fld .acqAcmWin 0 11 0)
  if m.acmChs.length = 3 then some (isqrt (recent.foldl (fun a e => a + e.sq) 0 / (3 * recent.length)))
  else
    let both := recent.filterMap (fun e =>
      (scans.find? (fun o => o.stamp + m.acmQuarter ≤ e.stamp)).map (fun o => e.sq + o.sq))
    if both.isEmpty then none else some (isqrt (both.foldl (· + ·) 0 / (2 * both.length)))

/-- A scan's sum of squares enters VEQ. -/
def Chip.veqScan (m : Chip) (sq : Nat) : Chip :=
  let scans := (⟨m.now, sq⟩ :: m.acq.scans : List AcmScan).filter
    (fun e => m.now < e.stamp + m.fld .acqAcmWin 0 11 0 + (if m.acmChs.length = 3 then 0 else m.acmQuarter))
  let m : Chip := { m with acq := { m.acq with scans := scans } }
  match m.veqOf scans with
  | some v => m.put .acqAcmVeq 0 (wd (min 65535 v))
  | none => m

/-- Phase k deviates in the present scan (R194), for sag or for swell. The deviation against an amplitude of 0 is not stated: `z`, an
open value, decides it. -/
def Chip.phaseDeviates (m : Chip) (swell : Bool) (k c z : Nat) : Bool :=
  let a : Int := m.acmAmp k
  let s : Int := (fxSin (fxTurn (m.acmTurn k) (3 * 10 ^ 9))).natAbs
  let v : Int := (m.latest c).natAbs
  if a = 0 then has z (k + (if swell then 3 else 0))
  else
    let beyond := v * 65536 * fx1 - a * s
    (m.fld .acqAcmDev 0 15 8 : Int) * fx1 ≤ 100 * s &&
      (if swell then (m.fld .acqAcmDev 0 31 24 : Int) * a * fx1 < 100 * beyond
       else (m.fld .acqAcmDev 0 7 0 : Int) * a * fx1 < -100 * beyond)

/-- The register that a detector's parameters stand in. -/
def detReg (swell : Bool) : RName := if swell then .acqAcmSwell else .acqAcmSag

/-- VEQ lies beyond THR × N (R197, R198). -/
def Chip.veqBeyond (m : Chip) (swell : Bool) : Bool :=
  let v := 100 * m.fld .acqAcmVeq 0 15 0
  let t := m.fld (detReg swell) 0 7 0 * m.fld .acqAcmNom 0 15 0
  if swell then t < v else v < t

/-- VEQ lies at or within (THR ± HYST) × N, as the end of a disturbance asks (R197, R198). -/
def Chip.veqRestored (m : Chip) (swell : Bool) : Bool :=
  let v := 100 * m.fld .acqAcmVeq 0 15 0
  let n := m.fld .acqAcmNom 0 15 0
  let t := m.fld (detReg swell) 0 7 0
  let h := m.fld (detReg swell) 0 15 8
  if swell then v ≤ (t - h) * n else (t + h) * n ≤ v

/-- Onset and confirmation detection run: EN set and no rule of R190 broken. -/
def Chip.acmDetects (m : Chip) : Bool := m.flag .acqAcmCfg 0 0 && m.acq.rateBad = 0

/-- What a detector has counted. -/
def Chip.acmDet (m : Chip) (swell : Bool) : AcmDet := if swell then m.acq.swellDet else m.acq.sagDet

/-- What a detector counts at a scan (R197, R198); no detection counts while it is stopped. -/
def Chip.detScan (m : Chip) (swell : Bool) (z : Nat) : Chip :=
  let d := m.acmDet swell
  let chs := m.acmChs
  let ph := (List.range chs.length).foldl (fun a k => if m.phaseDeviates swell k (chs.getD k 0) z then setM a k else a) 0
  let on := m.acmDetects
  let b := m.veqBeyond swell
  let r := m.veqRestored swell
  let d : AcmDet :=
    { dev := if on && ph != 0 then satTo 64 (d.dev + 1) else 0
      clean := if ph = 0 then satTo 64 (d.clean + 1) else 0
      conf := if on && b then satTo 64 (d.conf + 1) else 0
      restored := if r then some (d.restored.getD m.now) else none
      beyond := b, phases := ph }
  if swell then { m with acq := { m.acq with swellDet := d, swellEnds := m.acq.swellEnds && r } }
  else { m with acq := { m.acq with sagDet := d, sagEnds := m.acq.sagEnds && r } }

/-- A scan of the AC monitor is complete with the result of its last channel (R191 to R198). -/
def Chip.acmScan (m : Chip) (c : Nat) : Chip :=
  let chs := m.acmChs
  if m.flag .acqAcmCfg 0 0 && c = chs.foldl max 0 then
    let sqs := chs.map (fun k => (m.latest k * m.latest k).toNat)
    let m := m.trackScan
    let m := (List.range chs.length).foldl (fun m k => m.halfCycle k (sqs.getD k 0)) m
    let m := m.veqScan (sqs.foldl (· + ·) 0)
    let z := m.openVal
    (m.spend.detScan false z).detScan true z
  else m

/-! ### Results and boundaries -/

/-- A conversion result reaches every consumer in ACQ (R169): the result register, the comparators, the AC monitor and
the queue. -/
def Chip.conversionResult (m : Chip) (n c raw sub : Nat) : Chip :=
  if !(m.chExists c && m.converts n c) then m
  else
    let code := m.resultCode n c raw
    let old := m.get .acqRes c
    let m := m.put .acqRes c (wd (b2n (m.chDiff c) * 2 ^ 18 + b2n (bitOf old 16 || bitOf old 17) * 2 ^ 17 + 2 ^ 16 + code))
    let m : Chip := { m with acq := { m.acq with hist := NTab.set [] m.acq.hist c ((code :: NTab.get [] m.acq.hist c).take 8) } }
    let m := (m.convMoves n c).pairNote n (m.code c code)
    ((m.wcResults c (m.code c code)).acmScan c).enqResult n c (m.ilvEn (n / 2)) code sub

/-- A scan boundary of a running converter, after its highest masked channel: the written mask and DIV are taken (R167). A pair that
is interleaved passes one at each conversion, and takes nothing. -/
def Chip.scanBoundary (m : Chip) (n : Nat) : Chip :=
  if !m.cvRuns n then m
  else if m.ilvEn (n / 2) then { m with acq := { m.acq with toPass := clrM m.acq.toPass n } }
  else if (m.convUse n).next.isSome then m
  else
    let old := m
    let m := m.putUse n (m.writtenUse n)
    ({ m with acq := { m.acq with toPass := clrM m.acq.toPass n } } : Chip).acmCheck.loopSources old

/-- ACQ_CMDSTAT (R174). -/
def Chip.acqStatus (m : Chip) (st : Status) (code : Nat) (busy : Bool) : Chip :=
  m.put .acqCmdstat 0 (wd (st.code + code * 256 + b2n busy * 65536))

/-- A calibration ends with the trims it computed (R174): written, or left unchanged with ACQ_CAL_FAIL. ACQ_CMDSTAT shows it, a QFLUSH
since notwithstanding (DESIGN CHOICE, log entry 76). -/
def Chip.calDone (m : Chip) (offs gain : Int) : Chip :=
  match m.acq.cal with
  | none => m
  | some p =>
    let ok := -32768 ≤ offs && offs ≤ 32767 && -32768 ≤ gain && gain ≤ 32767
    let m : Chip := { m with acq := { m.acq with cal := none } }
    let m := if ok then (m.put .acqIlvOffs p (wd (unI offs 16))).put .acqIlvGain p (wd (unI gain 16)) else m
    let m := m.acqStatus (if ok then .ok else .erange) (p + 1) false
    let m := if ok then m else m.raise 31 0 []
    m.event 239

/-- Sample pairs of a comparison of TRACK (R175). -/
def trackPairs : Nat := 65536

/-- TRACK (R175): after 65,536 sample pairs OFFS moves by at most 1 toward equal means of the two converters. -/
def Chip.trackUpdate (m : Chip) (p : Nat) : Chip :=
  let e := NTab.get (0, (0 : Int)) m.acq.pairs p
  if m.ilvOn p && m.flag .acqIlvCfg p 1 && trackPairs ≤ e.1 then
    let o := sbits (m.get .acqIlvOffs p) 15 0
    let o := clampI (-32768) 32767 (if 0 < e.2 then o + 1 else if e.2 < 0 then o - 1 else o)
    ({ m with acq := { m.acq with pairs := NTab.set (0, 0) m.acq.pairs p (0, 0) } } : Chip).put .acqIlvOffs p (wd (unI o 16))
  else m

/-! ### The detectors (R192, R193, R197, R198) -/

/-- A detector of the AC monitor: sag or swell. -/
def Chip.det (m : Chip) (swell : Bool) : AcmSt := if swell then m.acq.swell else m.acq.sag

/-- The chip with a detector's state written; FROZEN is set while either is active (R193), and the tracker goes on from where it
stands. -/
def Chip.putDet (m : Chip) (swell : Bool) (st : AcmSt) : Chip :=
  let m := m.trackRebase
  let a := m.acq
  let sag := if swell then a.sag else st
  let swl := if swell then st else a.swell
  { m with acq := { a with sag := sag, swell := swl, frozen := sag != .idle || swl != .idle,
                           sagEnds := a.sagEnds && sag = .confirmed, swellEnds := a.swellEnds && swl = .confirmed } }

/-- The first event number of a detector: ONSET, CONFIRM, CANCEL, END follow. -/
def detEvt (swell : Bool) (k : Nat) : Nat := (if swell then 198 else 194) + k

/-- QDEV. -/
def Chip.acmQdev (m : Chip) : Nat := m.fld .acqAcmDev 0 23 16

/-- The phases that deviated in the scan that completes an onset are noted (R204), with its event and its note to PREDICT. -/
def Chip.acmOnsets (m : Chip) (swell : Bool) : Chip :=
  (({ m with acq := { m.acq with onsetPh := (m.acmDet swell).phases } } : Chip).event (detEvt swell 0)).predNote swell .onset

/-- QDEV consecutive deviating scans with LOCK set (R197): ONSET. -/
def Chip.acmOnset (m : Chip) (swell : Bool) : Chip :=
  if m.acmDetects && m.det swell = .idle && m.acq.lock && m.acmQdev ≤ (m.acmDet swell).dev then
    (m.putDet swell .onset).acmOnsets swell
  else m

/-- VEQ beyond THR for CONFQ consecutive scans (R197): from IDLE the onset comes in the same scan. -/
def Chip.acmConfirm (m : Chip) (swell : Bool) : Chip :=
  if m.acmDetects && m.det swell != .confirmed && m.fld (detReg swell) 0 23 16 ≤ (m.acmDet swell).conf then
    let first := m.det swell = .idle
    let m := (m.putDet swell .confirmed).when first (fun m => m.acmOnsets swell)
    (m.event (detEvt swell 1)).predNote swell .confirm
  else m

/-- QDEV consecutive scans not deviating with VEQ within THR (R197). -/
def Chip.acmCancel (m : Chip) (swell : Bool) : Chip :=
  if m.det swell = .onset && m.acmQdev ≤ (m.acmDet swell).clean && !(m.acmDet swell).beyond then
    ((m.putDet swell .idle).event (detEvt swell 2)).predNote swell .cancel
  else m

/-- VEQ restored continuously for ENDQ (R197): the end, or the wait for LOCK. -/
def Chip.acmEnd (m : Chip) (swell : Bool) : Chip :=
  match m.det swell, (m.acmDet swell).restored with
  | .confirmed, some t =>
    let m := m.elapse t (1000 * m.fld (detReg swell) 0 31 24)
    if m.acq.lock then ((m.putDet swell .idle).event (detEvt swell 3)).predNote swell .ends
    else if swell then { m with acq := { m.acq with swellEnds := true } }
    else { m with acq := { m.acq with sagEnds := true } }
  | _, _ => m

/-- The phase error has exceeded 20° for 40 ms (R192). -/
def Chip.acmUnlock (m : Chip) : Chip :=
  if m.flag .acqAcmCfg 0 0 && m.acq.lock && !m.acq.frozen then
    ({ m with acq := { m.acq with lock := false } } : Chip).raise 33 0 []
  else m

/-- The phase error has stayed below 5° for 100 ms (R192): the frequency tracked is the fundamental's (R191). A detector whose end awaits LOCK
ends (R197). -/
def Chip.acmLock (m : Chip) : Chip :=
  if m.flag .acqAcmCfg 0 0 && !m.acq.lock then
    let m := m.trackRebase
    let m : Chip := { m with acq := { m.acq with lock := true, track := { m.acq.track with freq := lockFreq true m.openVal } } }
    let m := m.spend.event 193
    let m := if m.acq.sagEnds then m.acmEnd false else m
    if m.acq.swellEnds then m.acmEnd true else m
  else m

/-! ### Writes -/

/-- The bits of a 96-bit mask are channels that exist. -/
def Chip.maskExists (m : Chip) (mask : Nat) : Bool := (List.range 96).all (fun c => !has mask c || m.chExists c)

/-- A mask write breaks no rule of R164 and R165. -/
def Chip.maskOk (m : Chip) (n : Nat) (mask : Nat) : Bool :=
  m.maskExists mask &&
  (List.range 4).all (fun k => k = n || (m.scanMask k &&& mask) = 0) &&
  (List.range 2).all (fun p => !m.flag .acqIlvCfg p 0 || !has mask (m.ilvCh p))

/-- Channel c is named in a scan mask. -/
def Chip.inMasks (m : Chip) (c : Nat) : Bool := (List.range 4).any (fun k => has (m.scanMask k) c)

/-- Channel c is named anywhere that R164 lists. -/
def Chip.chNamed (m : Chip) (c : Nat) : Bool :=
  m.inMasks c || (List.range 2).any (fun p => m.ilvCh p = c) ||
  (List.range 64).any (fun w => m.fld .acqWcCfg w 14 8 = c) ||
  m.fld .acqAcmCh 0 6 0 = c || m.fld .acqAcmCh 0 14 8 = c || m.fld .acqAcmCh 0 22 16 = c

/-- LIM and HYST of a comparator keep U at L + 2 × H or above (R189), signed for a differential channel. -/
def Chip.wcLimOk (m : Chip) (w : Nat) (lim : Word) (hyst : Nat) : Bool :=
  let c := m.fld .acqWcCfg w 14 8
  m.code c (bits lim 15 0) + 2 * hyst ≤ m.code c (bits lim 31 16)

/-- A comparator write restarts the qualification count; EN = 0 sets MID with no change of state (R189). -/
def Chip.wcTouch (m : Chip) (w : Nat) : Chip :=
  let k := NTab.get Wcmp.init m.acq.wc w
  if m.flag .acqWcCfg w 0 then m.putWc w { k with cand := k.st, cnt := 0 } else m.putWc w Wcmp.init

/-- TRACK's comparison of pair p begins anew: a result left without its mate counts in none (R175). -/
def Chip.pairsClear (m : Chip) (p : Nat) : Chip :=
  { m with acq := { m.acq with pairs := NTab.set (0, 0) m.acq.pairs p (0, 0) } }

/-- Converter n starts (R166, R170): a scan of its mask from the lowest channel, or with converter 2p first the interleaved conversion of its
pair. The results its channels held before count no longer (R226). RUN of the second converter of an interleaved pair is ignored. -/
def Chip.convStarts (m : Chip) (n : Nat) : Chip :=
  let p := n / 2
  let fresh := fun (m : Chip) (mask : Nat) =>
    ({ m with acq := { m.acq with hist := m.acq.hist.filter (fun e => !has mask e.1) } } : Chip)
  if !m.ilvEn p then (m.putUse n (m.writtenUse n)) |> fun m => fresh m (m.scanMask n)
  else if n % 2 = 1 then m
  else
    let u : ConvUse := { mask := 2 ^ m.ilvCh p, div := m.fld .acqIlvCfg p 23 16, pos := 0, ending := false }
    ((m.pairsClear p).putUse n u).putUse (n + 1) { u with pos := 96 } |> fun m => fresh m u.mask

/-- RUN of converter n is cleared (R167): it stops once its present conversion has ended, with the other converter of an interleaved
pair. For the quiescent point a converter so stopped counts as past its boundary, which R200 does not say (DESIGN CHOICE, log entry 87). -/
def Chip.convStops (m : Chip) (n : Nat) : Chip :=
  let stop := fun (m : Chip) (k : Nat) =>
    let u := m.convUse k
    m.putUse k (if u.next.isNone && !m.ilvEn (n / 2) then ConvUse.init else { u with ending := true })
  let m : Chip := { m with acq := { m.acq with toPass := clrM m.acq.toPass n } }
  if !m.ilvEn (n / 2) then stop m n
  else if n % 2 = 1 then m
  else stop (stop m n) (n + 1)

/-- A write of ACQ_CMD (R174, R182). A CAL while a calibration runs is EBUSY (DESIGN CHOICE, log entry 76). -/
def acqCmdAct (d : Word) (m : Chip) : Act :=
  let k := bits d 3 0
  let note := fun (st : Status) (m : Chip) => m.acqStatus st k m.acq.cal.isSome
  if k = 1 ∨ k = 2 then
    let p := k - 1
    { v := { estate := m.cvRuns (2 * p) || m.cvRuns (2 * p + 1), ebasic := !m.expert .acq, ebusy := m.acq.cal.isSome }
      eff := fun m => (({ m with acq := { m.acq with cal := some p } } : Chip).acqStatus .ok k true, .ok)
      rej := note }
  else if k = 3 then { eff := fun m => ((m.qFlush).acqStatus .ok k m.acq.cal.isSome, .ok), rej := note }
  else { v := { erange := true }, eff := fun m => (m, .ok), rej := note }

/-- A write of an ACQ register (R164, R165, R167, R171, R189, R190). Two points that no rule states (DESIGN CHOICE, log entry 87): RUN = 1 is
accepted while the pair's calibration runs, and EN = 0 of the AC monitor sends both detectors to IDLE and clears LOCK, FROZEN and RATEBAD
with no event, while ONSETPH and the sums of the present half cycles stay. -/
def acqAct (r : RName) (i : Nat) (d : Word) (m : Chip) : Act :=
  match r with
  | .acqCmd => acqCmdAct d m
  | .acqCvCfg =>
    { eff := fun m =>
        let old := m
        let m := m.store r i d
        let m := if old.cvRuns i = m.cvRuns i then m else if m.cvRuns i then m.convStarts i else m.convStops i
        (m.acmCheck.loopSources old, .ok) }
  | .acqCvMask =>
    let n := i / 3
    let m' := m.put r i d
    { v := { erange := !m'.maskOk n (m'.scanMask n) }
      eff := fun m => ((m.store r i d).acmCheck, .ok) }
  | .acqIlvCfg =>
    let c := bits d 14 8
    { v := { erange := !m.chExists c || (bitOf d 0 && m.inMasks c), estate := m.cvRuns (2 * i) || m.cvRuns (2 * i + 1) }
      eff := fun m => (((m.store r i d).pairsClear i).acmCheck, .ok) }
  | .acqDiff =>
    let new := d &&& ~~~(m.get .acqDiff 0)
    let sets := (List.range 32).filter (fun k => bitOf new k)
    actStoreIf { erange := sets.any (fun k => m.chNamed (2 * k + 1)),
                 estate := sets.any (fun k => (List.range 4).any (fun n => m.cvRuns n && has (m.scanMask n) (2 * k))) } r i d
  | .acqWcCfg =>
    { v := { erange := !m.chExists (bits d 14 8) }
      eff := fun m => ((m.store r i d).wcTouch i, .ok) }
  | .acqWcLim =>
    { v := { erange := !m.wcLimOk i d (m.fld .acqWcHyst i 15 0) }, eff := fun m => ((m.store r i d).wcTouch i, .ok) }
  | .acqWcHyst =>
    { v := { erange := !m.wcLimOk i (m.get .acqWcLim i) (bits d 15 0) }, eff := fun m => ((m.store r i d).wcTouch i, .ok) }
  | .acqAcmCfg =>
    let m' := m.put r 0 d
    { v := { erange := bitOf d 0 && (!(bits d 2 1 = 1 || bits d 2 1 = 3) || m'.acmBad != 0) }
      eff := fun m =>
        let m := m.trackRebase.store r i d
        if bitOf d 0 then (m.acmCheck, .ok)
        else ({ m with acq := { m.acq with lock := false, frozen := false, sag := .idle, swell := .idle, sagEnds := false,
                                           swellEnds := false, rateBad := 0, scans := [], sagDet := .init, swellDet := .init } }, .ok) }
  | .acqAcmCh =>
    { v := { erange := !(m.chExists (bits d 6 0) && m.chExists (bits d 14 8) && m.chExists (bits d 22 16)) }
      eff := fun m => ((m.store r i d).acmCheck, .ok) }
  | .acqCfg =>
    { eff := fun m =>
        let m := m.store r i d
        ({ m with acq := { m.acq with toPass := (List.range 4).foldl (fun a n => if m.cvRuns n then setM a n else a) 0 } }, .ok) }
  | _ => actStore r i d

/-- ACQ's quiescent point for a LEVEL change (R200). -/
def Chip.acqQuiet (m : Chip) : Bool := m.acq.toPass = 0 && m.acq.cal.isNone

/-! ### Status views -/

/-- ACQ_QSTAT. -/
def Chip.acqQstat (m : Chip) : Word :=
  wd (m.acq.queue.length + b2n (m.fld .acqQcfg 0 27 16 ≤ m.acq.queue.length) * 65536)

/-- ACQ_WCw_STAT. -/
def Chip.acqWcStat (m : Chip) (w : Nat) : Word :=
  let k := NTab.get Wcmp.init m.acq.wc w
  wd (k.st + k.cnt * 256)

/-- The code of a detector's state (R204). -/
def AcmSt.code : AcmSt → Nat
  | .idle => 0 | .onset => 1 | .confirmed => 2

/-- ACQ_ACM_PHASE: θ in 1/65,536 turn. -/
def Chip.acqAcmPhase (m : Chip) : Word := wd (m.acmTheta * 65536 / 10 ^ 9)

/-- ACQ_ACM_AMPk: A_k in codes. -/
def Chip.acqAcmAmp (m : Chip) (k : Nat) : Word := wd (min 65535 (m.acmAmp k / 65536))

/-- ACQ_ACM_STAT (R204). -/
def Chip.acqAcmStat (m : Chip) : Word :=
  let a := m.acq
  wd (b2n a.lock + a.sag.code * 2 + a.swell.code * 8 + b2n a.frozen * 32 + a.rateBad * 64 + a.onsetPh * 512)

end Sys2Proof.Machine
end

