-- ==== Sys2Proof/Machine/LoopCalc.lean ====
section
/-!
DEFINITION. The arithmetic of a loop block (R207 to R210) and the NOTCH coefficients (R235).
-/

namespace Sys2Proof.Machine

/-- A value with the mark that a saturation took place on the way (R208). -/
structure Sat where
  v : Int
  sat : Bool
  deriving DecidableEq, Repr

/-- A Q8.24 value brought into a Q16.32 accumulator. -/
def accOf (x : Int) : Sat := { v := x * 256, sat := false }

/-- A product of two Q8.24 values, rounded to nearest with ties upward to Q16.32. -/
def accMul (a b : Int) : Sat := { v := rdiv (a * b) 65536, sat := false }

/-- A shifted product: the exact value is shifted and rounded once (R208). -/
def accMulShift (a b : Int) (k : Nat) : Sat := { v := rdiv (a * b) (65536 * 2 ^ k), sat := false }

/-- A sum in a 48-bit accumulator, saturating at its limits. -/
def accAdd (a b : Sat) : Sat :=
  let s := a.v + b.v
  let r := clampI (-140737488355328) 140737488355327 s
  { v := r, sat := a.sat || b.sat || r != s }

/-- A difference in a 48-bit accumulator. -/
def accSub (a b : Sat) : Sat := accAdd a { b with v := -b.v }

/-- A result moved into a Q8.24 word: rounded to nearest with ties upward, and saturated. -/
def accQ (a : Sat) : Sat :=
  let r := rdiv a.v 256
  { v := qSat r, sat := a.sat || qSat r != r }

/-- A Q8.24 difference. -/
def subQ (a b : Int) : Sat := accQ (accSub (accOf a) (accOf b))

/-- A Q8.24 product. -/
def mulQ (a b : Int) : Sat := accQ (accMul a b)

/-- A quotient of two Q8.24 values, exact and rounded once; a divisor of 0 saturates with the dividend's sign (R208,
R210). -/
def divQ (a b : Int) : Sat :=
  if b = 0 then { v := if a < 0 then -2147483648 else 2147483647, sat := true }
  else
    let r := if 0 < b then rdiv (a * 16777216) b else rdiv (-a * 16777216) (-b)
    { v := qSat r, sat := qSat r != r }

/-- A Q16.32 state held in two words (R209). -/
def accOfWords (lo hi : Word) : Sat := { v := (lo.toNat : Int) + sbits hi 15 0 * 4294967296, sat := false }

/-- The low word of a Q16.32 state. -/
def accLo (a : Sat) : Word := wdI a.v

/-- The high word of a Q16.32 state: bits [47:32], sign-extended. -/
def accHi (a : Sat) : Word := wdI (a.v.fdiv 4294967296)

/-- The NOTCH coefficients (R235) for a centre f0 and a width bw in mHz, DEPTH in Q8.24 and the rate n ÷ d Hz: B0, B1, B2,
A1, A2 in Q8.24, each rounded once, with its SAT mark. Inside, 60 fraction bits are kept. -/
def notchCoef (f0 bw depth n d : Nat) : List Sat :=
  if n = 0 then []
  else
    let mul := fun (a b : Int) => a * b / fx1
    let c := fxCos (fxTurn (f0 * d) (1000 * n))
    let drop : Int := fxPi * (bw * d : Nat) / (1000 * n : Nat)
    let rp := fx1 - drop
    let rz := fx1 - drop * depth / 16777216
    let a1 := -2 * mul rp c
    let a2 := mul rp rp
    let n1 := -2 * mul rz c
    let n2 := mul rz rz
    let dn := fx1 + n1 + n2
    let k := if dn = 0 then 0 else (fx1 + a1 + a2) * fx1 / dn
    [k, mul k n1, mul k n2, a1, a2].map (fun x => { v := qSat (rdiv x (2 ^ 36)), sat := qSat (rdiv x (2 ^ 36)) != rdiv x (2 ^ 36) })

end Sys2Proof.Machine
end

