-- ==== Sys2Proof/Machine/LoopCheck.lean ====
section
/-!
DEFINITION. What a loop slot's words are judged by: the ranges of every block type (R216, R217, R234 to R237, R245), the
chain rules (R219), the nominal rate (R223), the cost of a sample (R229) and the admitted load (R230).
-/

namespace Sys2Proof.Machine

/-- A source word names a source that exists (R216). -/
def srcOk (nblk : Nat) (w : Word) : Bool :=
  let i := bits w 15 0
  let k := bits w 23 20
  bits w 31 24 = 0 && bits w 19 16 = 0 &&
  (if k = 0 ∨ k = 1 then i = 0
   else if k = 2 then i ≤ nblk
   else if k = 3 then i ≤ 94
   else if k = 4 then i ≤ 63
   else if k = 5 then true
   else if k = 6 then i ≤ 4
   else if k = 7 then i < 24 || (32 ≤ i && i < 56)
   else false)

/-- The PARAM words a type lists, with the bits each may hold; every other word must be 0. -/
def paramMask (t i : Nat) : Nat :=
  let all := 0xFFFFFFFF
  if t = 1 then (if i < 2 then all else if i = 2 then 3 else 0)
  else if t = 2 then (if i < 5 then all else 0)
  else if t = 3 then (if i < 6 then all else 0)
  else if t = 4 then (if i < 7 then all else if i = 7 then 0xF else 0)
  else if t = 5 then (if i < 4 then all else 0)
  else if t = 6 then (if i < 3 then all else 0)
  else if t = 7 then (if i < 7 then all else if i < 9 then 0xFFFF else 0)
  else if t = 8 then (if i < 10 then all else 0)
  else if t = 9 then (if i = 0 then 0x0F00FFFF else if i = 1 then 0xFFF else if i = 7 then 0xFFFF else if i < 10 then all else 0)
  else 0

/-- The FLAGS bits a type lists. -/
def flagMask (t : Nat) : Nat :=
  if t = 2 ∨ t = 3 then 0x10000 else if t = 4 then 0x70000 else if 5 ≤ t ∧ t ≤ 9 then 0x30000 else 0

/-- A FILTER is stable (R234). -/
def stableOk (a1 a2 : Int) : Bool := a2.natAbs < 16777216 && (a1.natAbs : Int) < q1 + a2

/-- A destination exists (R245); slot s is not its own destination. -/
def destOk (s : Nat) (w : Word) : Bool :=
  let i := bits w 15 0
  let k := bits w 27 24
  if k ≤ 4 then i = 0
  else if k = 5 then i < 24
  else if k = 6 then i < 4096
  else if k = 7 then i < 64 && i != s
  else if k = 8 then 0x4000 ≤ i
  else false

/-- The limits of R236 that depend on the rate n ÷ d Hz. -/
def notchRateOk (g : Nat → Word) (n d : Nat) : Bool :=
  let p := fun i => (g (2 + i)).toNat
  let inBand := fun f => n ≤ f * d && f * d ≤ 450 * n
  n ≤ 10 * (p 1 * d) && p 1 * d ≤ 150 * n &&
  (if bitOf (g 0) 16 then inBand (p 4) && inBand (p 5) else inBand (p 0))

/-- The ranges of one block's own words, without what depends on the rate. A largest change or dead band is no negative
number (DEDUCED, log entry 45). -/
def typeOk (s nblk tkind : Nat) (g : Nat → Word) : Bool :=
  let t := bits (g 0) 3 0
  let p := fun i => (g (2 + i)).toInt
  let u := fun i => (g (2 + i)).toNat
  let fl := bits (g 0) 17 16
  if t = 1 then 3 ≤ bits (g 1) 23 20 && (u 2 % 4 = 0 || bits (g 1) 23 20 = 3)
  else if t = 2 then stableOk (p 3) (p 4)
  else if t = 3 then 0 ≤ p 2 && p 2 ≤ q1 && (fl % 2 = 0 || (u 4 ≤ u 5 && (tkind = 1 || tkind = 2 || tkind = 4)))
  else if t = 4 then fl != 3 && 0 ≤ p 3 && p 3 < q1 && p 4 ≤ p 5 && 0 ≤ p 6 && p 6 ≤ q1
  else if t = 5 then p 0 ≤ p 1 && 0 ≤ p 2 && srcOk nblk (g 5)
  else if t = 6 then fl != 3 && (fl != 2 || 0 < p 2)
  else if t = 7 then
    fl != 3 && 0 ≤ p 3 && p 3 ≤ q1 && srcOk nblk (g 6) && 0 < p 5 && p 5 ≤ q1 && 0 < p 6 && 1 ≤ u 7
  else if t = 8 then
    0 < p 2 && 0 ≤ p 3 && (u 4 = 0 || (100 ≤ u 4 && u 4 ≤ 100000)) && 0 ≤ p 5 && p 5 < q1 && srcOk nblk (g 10)
  else destOk s (g 2) && p 4 ≤ p 5 && 0 ≤ p 8 && 0 ≤ p 9

/-- Block k's words lie in range and obey the chain rules (R219, R237): g gives every block's words; the rate, when it is
known, is n ÷ d Hz. -/
def blockOk (s nblk tkind : Nat) (rate : Option (Nat × Nat)) (g : Nat → Nat → Word) (k : Nat) : Bool :=
  let b := g k
  let ty := fun j => bits (g j 0) 3 0
  let t := ty k
  let count := fun x => ((List.range (nblk + 1)).filter (fun j => ty j = x)).length
  1 ≤ t && t ≤ 9 && ((k == 0) == (t == 1)) && ((k == nblk) == (t == 9)) &&
  (t != 4 || count 4 ≤ 1) && (t != 8 || count 8 ≤ 1) &&
  (b 0).toNat &&& (0xFFFFFFFF - 0xF - flagMask t) = 0 &&
  (List.range 16).all (fun i => (b (2 + i)).toNat &&& (0xFFFFFFFF - paramMask t i) = 0) &&
  (if t = 2 ∨ t = 9 then b 1 = 0 else srcOk nblk (b 1)) &&
  typeOk s nblk tkind b &&
  (t != 4 || bits (b 0) 17 16 = 0 || (List.range (nblk + 1)).any (fun j => k < j && ty j = 5)) &&
  (t != 3 || (match rate with
    | some (n, d) => notchRateOk b n d
    | none => true))

/-! ### Rates and load -/


/-- TRIG is valid for its TKIND, and NOMRATE where the kind has no fixed rate (R213, R223). -/
def Chip.trigOk (m : Chip) (s : Nat) : Bool :=
  let t := m.trigOf s
  let i := t.2.1
  let nom := (m.lw s 5).toNat
  1 ≤ t.2.2 &&
  (if t.1 = 0 then i = 0 && 1 ≤ nom && nom ≤ 1000000
   else if t.1 = 1 then 1 ≤ i && i ≤ 1000000
   else if t.1 = 2 then i ≤ 94
   else if t.1 = 3 then i ≤ 255 && 1 ≤ nom && nom ≤ 1000000
   else if t.1 = 4 then i ≤ 1
   else if t.1 = 5 then i ≤ 63 && i != s
   else false)

/-- The nominal rate of slot s in Hz as a fraction (R223); of a slot that runs, the rate fixed at RUN. A rate of 0 stands for
none: an invalid TRIG, a channel that is not scanned, or a ring of slots that trigger each other. -/
def Chip.nomRate (m : Chip) : Nat → Nat → Nat × Nat
  | 0, _ => (0, 1)
  | fuel + 1, s =>
    let t := m.trigOf s
    let x := m.lslot s
    if x.st != .stopped then (x.rateN, x.rateD)
    else if !m.trigOk s then (0, 1)
    else if t.1 = 0 ∨ t.1 = 3 then ((m.lw s 5).toNat, 1)
    else if t.1 = 1 then (1000000, t.2.1 * t.2.2)
    else if t.1 = 2 then
      let r := m.chRate t.2.1
      (r.1, r.2 * t.2.2)
    else if t.1 = 4 then (800000000, m.fld .cnvXPer t.2.1 15 0 * t.2.2)
    else
      let r := m.nomRate fuel t.2.1
      (r.1, r.2 * t.2.2)

/-- Cycles of a block (R229); `pred` is what a PREDICT costs. -/
def blockCost (g : Nat → Word) (pred : Nat) : Nat :=
  let t := bits (g 0) 3 0
  let base :=
    if t = 1 then (if bits (g 4) 1 0 = 0 then 4 else 6)
    else if t = 2 then 8
    else if t = 3 then (if bitOf (g 0) 16 then 40 else 8)
    else if t = 4 then (if bits (g 0) 17 16 = 2 then 18 else 14)
    else if t = 5 then 6
    else if t = 6 then (if bits (g 0) 17 16 = 2 then 20 else 4)
    else if t = 7 then 16
    else if t = 8 then pred
    else (if bits (g 2) 27 24 = 6 then 10 else 6)
  base + 2 * ((blkSources g).filter (fun w => bits w 23 20 = 5)).length

/-- Cycles of a sample of a chain (R229). -/
def chainCost (g : Nat → Nat → Word) (nblk pred : Nat) : Nat :=
  (List.range (nblk + 1)).foldl (fun a k => a + blockCost (g k) pred) 12

/-- A load in 0.01 % of 1,600 M cycles/s, rounded up (R230). -/
def loadOf (cost n d : Nat) : Nat := (cost * n + 160000 * d - 1) / (160000 * d)

/-- CLE_LOAD.ADMIT (R230). -/
def Chip.cleAdmit (m : Chip) : Nat :=
  ((List.range 64).map (fun s => if (m.lslot s).bound then (m.lslot s).load else 0)).foldl (· + ·) 0

/-- Staged words of slot s, as validation reads them. -/
def Chip.staged (m : Chip) (s k j : Nat) : Word := m.lw s (blkWord k j)

/-! ### The checks of RUN and commit -/

/-- A converter has one output, whichever kind of command drives it (R299). -/
def outKey (d : Nat × Nat) : Nat × Nat := if 1 ≤ d.1 ∧ d.1 ≤ 4 then (1, (d.1 - 1) / 2) else d

/-- The range conditions of RUN for a CTL word (R219, first four items and TRIG). -/
def Chip.runRange (m : Chip) (s : Nat) (ctl : Word) : Bool :=
  let nblk := bits ctl 10 8
  let m := m.putLw s 0 ctl
  let r := m.nomRate 65 s
  let unscanned := bits ctl 15 12 = 2 && !m.chUsable (m.trigOf s).2.1
  1 ≤ nblk && m.trigOk s && (unscanned || (r.1 != 0 && r.1 ≤ 1000000 * r.2)) &&
  (List.range (nblk + 1)).all
    (blockOk s nblk (bits ctl 15 12) (if unscanned then none else some r) (m.staged s))

/-- The state conditions of RUN (R219): every channel scanned or of an enabled interleaved pair, the output free. -/
def Chip.runState (m : Chip) (s : Nat) (ctl : Word) : Bool :=
  let nblk := bits ctl 10 8
  let w := m.staged s nblk 2
  let dk := bits w 27 24
  (chainChannels (m.staged s) nblk (bits ctl 15 12) (bits (m.lw s 1) 19 0)).all m.chUsable &&
  (dk = 0 || (List.range 64).all (fun o => o = s || !(m.lslot o).bound || outKey (m.dest o) != outKey (dk, bits w 15 0)))

/-- The load RUN would admit, in 0.01 %. -/
def Chip.runLoad (m : Chip) (s : Nat) (ctl : Word) : Nat :=
  let r := (m.putLw s 0 ctl).nomRate 65 s
  loadOf (chainCost (m.staged s) (bits ctl 10 8) 12) r.1 r.2

/-- The words a commit request judges: staged for the named blocks, else what waits in the buffer, else active. -/
def Chip.afterCommit (m : Chip) (s mask k j : Nat) : Word :=
  if has mask k then m.staged s k j
  else if has (m.lslot s).cpend k then NTab.get 0 m.cle.buffer (256 * s + blkWord k j)
  else m.aw s k j

/-- The range conditions of a commit (R231). -/
def Chip.commitRange (m : Chip) (s mask : Nat) : Bool :=
  let nblk := m.nblk s
  let x := m.lslot s
  let rate := if x.st = .stopped then none else some (x.rateN, x.rateD)
  (List.range 8).all (fun k => !has mask k ||
    blockOk s nblk (m.trigOf s).1 rate (m.afterCommit s mask) k)

/-- A commit changes nothing that only a STOPPED slot may change (R231): TYPE, an OUTPUT destination, TRACK. -/
def Chip.commitState (m : Chip) (s mask : Nat) : Bool :=
  (m.lslot s).st = .stopped ||
  (List.range 8).all (fun k => !has mask k ||
    (let o := m.aw s k 0
     let n := m.staged s k 0
     bits o 3 0 = bits n 3 0 && (bits n 3 0 != 9 || m.aw s k 2 = m.staged s k 2) &&
       (bits n 3 0 != 3 || bitOf o 16 = bitOf n 16)))

end Sys2Proof.Machine
end

