-- ==== Sys2Proof/Machine/LoopBlocks.lean ====
section
/-!
DEFINITION. What a sample does (R221, R222, R226, R233 to R244): the latched sources, each block type's computation on its
STATE words, and the PREDICT transitions.
-/

namespace Sys2Proof.Machine

/-! ### Sources (R216, R226) -/

/-- The latest result of a channel in Q8.24, or the mean of its last `n` results, of those that have arrived (R226). -/
def Chip.chanMean (m : Chip) (c n : Nat) : Int :=
  let h := (NTab.get [] m.acq.hist c).take n
  if n ≤ 1 || h.isEmpty then m.chanQ c
  else rdiv ((h.foldl (fun a w => a + m.code c w) 0) * (if m.chDiff c then 512 else 256)) h.length

/-- A quotient of two whole numbers in Q8.24; a divisor of 0 saturates with the dividend's sign (R208, R210). -/
def ratioQ (a b : Nat) : Sat :=
  if b = 0 then { v := 2147483647, sat := true }
  else
    let r := rdiv ((a : Int) * q1) b
    { v := qSat r, sat := qSat r != r }

/-- A quantity of the AC monitor in Q8.24 (R216): VEQ or an HCRMS ÷ NOM, or the frequency in Hz. -/
def Chip.acmSource (m : Chip) (i : Nat) : Sat :=
  if i = 1 then ratioQ m.acq.track.freq 1000
  else ratioQ (if i = 0 then m.fld .acqAcmVeq 0 15 0 else m.fld .acqAcmHcrms (i - 2) 15 0) (m.fld .acqAcmNom 0 15 0)

/-- A latched source (R226): the kinds that are read at the start of a sample. The others, a slot's own SPACT and block
outputs, are read as the chain computes. -/
def Chip.latchSource (m : Chip) (w : Word) (n : Nat) : Sat :=
  let i := bits w 15 0
  let k := bits w 23 20
  let of := fun (v : Int) => ({ v := v, sat := false } : Sat)
  if k = 3 then of (m.chanMean i n)
  else if k = 4 then of (m.lw i 7).toInt
  else if k = 5 then of (m.common i).toInt
  else if k = 6 then m.acmSource i
  else if k = 7 then
    of (if i < 32 then sbits (m.brnMeter .brnNMeas i) 15 0 * 512 else (bits (m.brnMeter .brnNMeas (i - 32)) 31 16 : Int) * 256)
  else of 0

/-- The results an INPUT block forms the mean of (R226). -/
def avgOf (g : Nat → Word) : Nat := if bits (g 0) 3 0 = 1 then 2 ^ bits (g 4) 1 0 else 1

/-- Every source the chain of slot s reads, two for each block (R226). -/
def Chip.latchAll (m : Chip) (s : Nat) : List (Int × Bool) :=
  (List.range (m.nblk s + 1)).flatMap (fun k =>
    let ws := blkSources (m.aw s k)
    [m.latchSource (ws.getD 0 0) (avgOf (m.aw s k)), m.latchSource (ws.getD 1 0) 1].map (fun x => (x.v, x.sat)))

/-- What a block sees of the sample under way: the slot, the outputs of the blocks before it, its latched values. -/
structure BlkIn where
  s : Nat
  k : Nat
  x : Int
  ys : List Int
  sm : Sample
  frozen : Bool

/-- The value of source word `w`, the j-th of the block (R216): an earlier block's output is this sample's, a later one's
the previous sample's. -/
def Chip.srcVal (m : Chip) (b : BlkIn) (w : Word) (j : Nat) : Int :=
  let kind := bits w 23 20
  let i := bits w 15 0
  if kind = 1 then (m.lw b.s 6).toInt
  else if kind = 2 then (if i < b.ys.length then b.ys.getD i 0 else (m.lslot b.s).ys.getD i 0)
  else (b.sm.latch.getD (2 * b.k + j) (0, false)).1

/-- A latched source of the block saturated on the way in (R208). -/
def BlkIn.srcSat (b : BlkIn) : Bool := (b.sm.latch.getD (2 * b.k) (0, false)).2 || (b.sm.latch.getD (2 * b.k + 1) (0, false)).2

/-! ### Blocks -/

/-- A block's result: its output with its SAT mark. -/
abbrev BlkOut := Chip × Sat

/-- A Q16.32 state of two words. -/
def Chip.stAcc (m : Chip) (s k j : Nat) : Sat := accOfWords (m.stw s k j) (m.stw s k (j + 1))

/-- A Q16.32 state written to its two words (R209). -/
def Chip.putAcc (m : Chip) (s k j : Nat) (a : Sat) : Chip := (m.putStw s k j (accLo a)).putStw s k (j + 1) (accHi a)

/-- A Q8.24 state. -/
def Chip.stQ (m : Chip) (s k j : Nat) : Int := (m.stw s k j).toInt

/-- INPUT. -/
def Chip.blkInput (m : Chip) (b : BlkIn) : BlkOut :=
  let d := subQ (m.srcVal b (m.aw b.s b.k 1) 0) (m.ap b.s b.k 0)
  let y := mulQ (m.ap b.s b.k 1) d.v
  (m, { y with sat := y.sat || d.sat })

/-- The second-order filter of FILTER and NOTCH with its coefficients and the places of S1 and S2. -/
def Chip.biquad (m : Chip) (b : BlkIn) (c : List Int) (j1 j2 : Nat) : BlkOut :=
  let g := fun i => c.getD i 0
  let y := accQ (accAdd (accMul (g 0) b.x) (m.stAcc b.s b.k j1))
  let s1 := accAdd (accSub (accMul (g 1) b.x) (accMul (g 3) y.v)) (m.stAcc b.s b.k j2)
  let s2 := accSub (accMul (g 2) b.x) (accMul (g 4) y.v)
  ((m.putAcc b.s b.k j1 s1).putAcc b.s b.k j2 s2, { y with sat := y.sat || s1.sat || s2.sat })

/-- FILTER. -/
def Chip.blkFilter (m : Chip) (b : BlkIn) : BlkOut :=
  if bitOf (m.aw b.s b.k 0) 16 then
    ((List.range 4).foldl (fun m j => m.putStw b.s b.k j 0) m, { v := b.x, sat := false })
  else m.biquad b ((List.range 5).map (fun i => m.ap b.s b.k i)) 0 2

/-- The coefficients of a NOTCH for a centre in mHz at the rate of its slot (R235). -/
def Chip.notchAt (m : Chip) (s k f0 : Nat) : List Sat :=
  notchCoef f0 (m.aw s k 3).toNat (m.aw s k 4).toNat (m.lslot s).rateN (m.lslot s).rateD

/-- The coefficients of a NOTCH for a centre in mHz, in STATE0 to STATE4 with FACT (R235). -/
def Chip.notchSet (m : Chip) (s k f0 : Nat) : Chip :=
  let c := (m.notchAt s k f0).map (fun x => x.v)
  ((List.range 5).foldl (fun m j => m.putStw s k j (wdI (c.getD j 0))) m).putStw s k 9 (wd f0)

/-- NOTCH (R235): a tracking notch moves its centre to MULT × SRC, clamped, while SRC is above 0. -/
def Chip.blkNotch (m : Chip) (b : BlkIn) : BlkOut :=
  let f := m.srcVal b (m.aw b.s b.k 1) 0
  let f0 := if 0 < f then
      clampI (m.aw b.s b.k 6).toNat (m.aw b.s b.k 7).toNat (rdiv (m.ap b.s b.k 3 * f * 1000) (2 ^ 48))
    else (m.stw b.s b.k 9).toNat
  let tracks := bitOf (m.aw b.s b.k 0) 16
  let sat := tracks && (m.notchAt b.s b.k f0.toNat).any (fun c => c.sat)
  let m := if tracks then m.notchSet b.s b.k f0.toNat else m
  let r := m.biquad b ((List.range 5).map (fun j => m.stQ b.s b.k j)) 5 7
  (r.1, { r.2 with sat := r.2.sat || sat })

/-- The nearest LIMIT downstream of block k (R237). -/
def Chip.nextLimit (m : Chip) (s k : Nat) : Option Nat :=
  (List.range (m.nblk s + 1)).find? (fun j => k < j && m.blkType s j = 5)

/-- PID (R237). -/
def Chip.blkPid (m : Chip) (b : BlkIn) : BlkOut :=
  let p := fun i => m.ap b.s b.k i
  let fl := m.aw b.s b.k 0
  let awm := bits fl 17 16
  let x := m.lslot b.s
  let e := subQ (m.srcVal b (m.aw b.s b.k 1) 0) b.x
  let frozen := b.frozen || (awm = 1 && ((x.limMove = 1 && 0 < e.v) || (x.limMove = 2 && e.v < 0)))
  let i := m.stAcc b.s b.k 0
  let i := if frozen then i else accAdd i (accMulShift (p 1) e.v (m.aw b.s b.k 9).toNat)
  let ulim := match m.nextLimit b.s b.k with
    | some j => m.stQ b.s j 0
    | none => m.stQ b.s b.k 4
  let back := subQ ulim (m.stQ b.s b.k 4)
  let i := if awm = 2 then accAdd { i with sat := i.sat || back.sat } (accMul (p 6) back.v) else i
  let i := { i with v := clampI (p 4 * 256) (p 5 * 256) i.v }
  let xp := m.stQ b.s b.k 3
  let dx := if bitOf fl 18 then subQ xp b.x else subQ e.v xp
  let g := mulQ (subQ q1 (p 3)).v (p 2)
  let d := accQ (accAdd (accMul (p 3) (m.stQ b.s b.k 2)) (accMul g.v dx.v))
  let u := accQ (accAdd (accAdd (accMul (p 0) e.v) i) (accOf d.v))
  let m := (((m.putAcc b.s b.k 0 i).putStw b.s b.k 2 (wdI d.v)).putStw b.s b.k 3 (wdI (if bitOf fl 18 then b.x else e.v)))
  (m.putStw b.s b.k 4 (wdI u.v), { u with sat := u.sat || e.sat || i.sat || dx.sat || g.sat || d.sat })

/-- LIMIT. The slot keeps which way the nearest LIMIT behind a PID moved its input (R237). -/
def Chip.blkLimit (m : Chip) (b : BlkIn) : BlkOut :=
  let p := fun i => m.ap b.s b.k i
  let fl := m.aw b.s b.k 0
  let hi := if bitOf fl 16 then min (p 1) (m.srcVal b (m.aw b.s b.k 1) 0) else p 1
  let lo := if bitOf fl 17 then max (p 0) (m.srcVal b (m.aw b.s b.k 5) 1) else p 0
  let inv := decide (hi < lo)
  let lo := if inv then hi else lo
  let y := clampI lo hi b.x
  let yp := m.stQ b.s b.k 0
  let dn := subQ yp (p 2)
  let up := accQ (accAdd (accOf yp) (accOf (p 2)))
  let y := if p 2 = 0 then y else clampI dn.v up.v y
  let m := (m.putStw b.s b.k 0 (wdI y)).putStw b.s b.k 1 (wd (b2n inv))
  let x := m.lslot b.s
  let near : Bool := match (List.range b.k).find? (fun j => m.blkType b.s j = 4) with
    | some j => m.nextLimit b.s j = some b.k
    | none => false
  let x := { x with satHi := x.satHi || y < b.x, satLo := x.satLo || b.x < y }
  let x := if near then { x with limMove := if y < b.x then 1 else if b.x < y then 2 else 0 } else x
  (m.putLslot b.s x, { v := y, sat := p 2 != 0 && (dn.sat || up.sat) })

/-- FFWD (R210). -/
def Chip.blkFfwd (m : Chip) (b : BlkIn) : BlkOut :=
  let p := fun i => m.ap b.s b.k i
  let op := bits (m.aw b.s b.k 0) 17 16
  let d := subQ (m.srcVal b (m.aw b.s b.k 1) 0) (p 1)
  let f := accMul (p 0) d.v
  let y :=
    if op = 0 then accQ (accAdd (accOf b.x) f)
    else
      let q := accQ f
      let r := if op = 1 then mulQ b.x q.v
        else divQ b.x (if (q.v.natAbs : Int) < p 2 then (if q.v < 0 then -(p 2) else p 2) else q.v)
      { r with sat := r.sat || q.sat }
  (m, { y with sat := y.sat || d.sat })

/-- Block k of slot s as a PLANT (R238). -/
def Chip.plant (m : Chip) (s k : Nat) : Plant := NTab.get Plant.init (m.lslot s).plants k

/-- The chip with a PLANT block written. -/
def Chip.putPlant (m : Chip) (s k : Nat) (p : Plant) : Chip :=
  m.putLslot s { m.lslot s with plants := NTab.set Plant.init (m.lslot s).plants k p }

/-- A plausibility reaction of a kind is in force at a slot, whichever PLANT applied it (R222, R238): 1 HOLD, 2 SAFEVAL. -/
def Slot.reacts (x : Slot) (react : Nat) : Bool := x.plants.any (fun (e : Nat × Plant) => e.2.react = react)

/-- A plausibility reaction is in force (R214). -/
def Slot.plaus (x : Slot) : Bool := x.reacts 1 || x.reacts 2

/-- What a PLANT's fence mark is kept under: the flag of PLAUSIBILITY must be read after its raise (R239). -/
def plantMark (s k : Nat) : Nat := 8 * s + k

/-- PLANT (R238, R239). Its main input passes through. The raise of PLAUSIBILITY has a row of its own; the reaction
REACT applies in the sample in which CNT reaches TIME. -/
def Chip.blkPlant (m : Chip) (b : BlkIn) : BlkOut :=
  let p := fun i => m.ap b.s b.k i
  let q := m.plant b.s b.k
  let time := bits (m.aw b.s b.k 9) 15 0
  let msrc := m.aw b.s b.k 6
  let meas := if msrc = 0 then b.ys.getD 0 0 else m.srcVal b msrc 1
  let dist := m.srcVal b (m.aw b.s b.k 1) 0
  let w2 := m.stw b.s b.k 2
  let xh := m.stQ b.s b.k 0
  let cnt := bits w2 15 0
  let left := bits w2 31 16
  let r := subQ meas xh
  let dr := subQ r.v (m.stQ b.s b.k 1)
  let rf := accQ (accAdd (accOf (m.stQ b.s b.k 1)) (accMul (p 5) dr.v))
  let out := p 6 < (rf.v.natAbs : Int)
  let cnt' := if left != 0 then cnt else if out then satTo 65535 (cnt + 1) else 0
  let hit := left = 0 && cnt' = time && cnt != time
  let react := bits (m.aw b.s b.k 0) 17 16
  let q := { q with inBand := if out then 0 else q.inBand + 1, raised := q.raised && cnt' != 0 }
  let calm := time ≤ q.inBand && m.fenceRead .mark (plantMark b.s b.k)
  let q := if hit && react != 0 then { q with react := react } else if calm then { q with react := 0 } else q
  let m := if hit then m.holdFence .mark (plantMark b.s b.k) 38 else m
  let xn := accQ (accAdd (accAdd (accAdd (accMul (p 0) xh) (accMul (p 1) b.x)) (accMul (p 2) dist)) (accMul (p 3) r.v))
  let m := ((m.putPlant b.s b.k q).putStw b.s b.k 0 (wdI xn.v)).putStw b.s b.k 1 (wdI rf.v)
  (m.putStw b.s b.k 2 (wd (cnt' + (left - 1) * 65536)), { v := b.x, sat := r.sat || dr.sat || rf.sat || xn.sat })

/-- The measurement a PLANT starts from: its source, or block 0's output, of the values at hand (R240). -/
def Chip.plantMeas (m : Chip) (s k : Nat) : Int :=
  let b : BlkIn := { s := s, k := k, x := 0, ys := (m.lslot s).ys,
                     sm := { trig := 0, latch := m.latchAll s, omode := 0, manout := 0, events := [] }, frozen := true }
  let w := m.aw s k 6
  if w = 0 then (m.blkInput { b with k := 0 }).2.v else m.srcVal b w 1

/-- A PLANT restarts at RUN and at a commit of the block (R240). -/
def Chip.plantStart (m : Chip) (s k : Nat) : Chip :=
  let arm := bits (m.aw s k 10) 15 0
  let left := if arm = 0 then bits (m.aw s k 9) 15 0 else arm
  let q := m.plant s k
  let m := (m.putStw s k 0 (wdI (m.plantMeas s k))).putStw s k 1 0
  (m.putStw s k 2 (wd (left * 65536))).putPlant s k { q with raised := false, inBand := 0 }

/-- PREDICT's depth D (PARAM2 REFV). -/
def Chip.predDepth (m : Chip) (b : BlkIn) : Sat :=
  let q := divQ (m.srcVal b (m.aw b.s b.k 1) 0) (m.ap b.s b.k 2)
  let d := if bitOf (m.aw b.s b.k 0) 16 then subQ q.v q1 else subQ q1 q.v
  { v := max 0 d.v, sat := q.sat || d.sat }

/-- A RETRACT record with the slot, T, TSTART, the time since onset, the cause and the energy (R244). The cause's codes are the model's: 0
CANCEL, 1 the window (DESIGN CHOICE, log entry 88). -/
def Chip.retractRecord (m : Chip) (s k : Nat) : Chip :=
  let x := m.lslot s
  let e := ((m.aw s k 11).toNat : Int) * (m.stAcc s k 3).v
  m.systemRecord 4 [wd s, wd x.tgen, m.stw s k 2, wd (m.now - x.onsetAt), wd x.cause,
    wdI (clampI (-2147483648) 2147483647 (e.tdiv 4294967296))]

/-- PREDICT (R241): its output by its state, the hand-back offset, the energy, and the end of RETRACTING (R242). -/
def Chip.blkPredict (m : Chip) (b : BlkIn) : BlkOut :=
  let p := fun i => m.ap b.s b.k i
  let x := m.lslot b.s
  let yp := m.stQ b.s b.k 5
  let slew := p 3
  let step := fun (t : Int) => if slew = 0 then t else clampI (yp - slew) (yp + slew) t
  let back := subQ yp b.x
  let kept := b.sm.events.isEmpty
  let m := if kept then m else m.putStw b.s b.k 1 (wdI back.v)
  match x.pstate with
  | .tentative | .retracting =>
    let d := m.predDepth b
    let t := accQ (accAdd (accAdd (accOf (m.stQ b.s b.k 0)) (accOf (p 0))) (accMul (p 1) d.v))
    let tent := x.pstate = .tentative
    let y := qSat (step (if tent then clampI (p 6) (p 7) t.v else b.x))
    let es := m.srcVal b (m.aw b.s b.k 10) 1
    let diff := subQ y b.x
    let e := accAdd (m.stAcc b.s b.k 3)
      { v := rdiv ((accMul diff.v es).v * (x.rateD : Int)) ((max x.rateN 1 : Nat) : Int), sat := diff.sat }
    let m := (m.putAcc b.s b.k 3 e).putStw b.s b.k 5 (wdI y)
    let m := if !tent && (y - b.x).natAbs ≤ 16 then
        (m.retractRecord b.s b.k).putLslot b.s { m.lslot b.s with pstate := .idle } else m
    (m, { v := y, sat := (tent && (d.sat || t.sat)) || e.sat })
  | _ =>
    let ofs := m.stQ b.s b.k 1
    let y := accQ (accAdd (accOf b.x) (accOf ofs))
    let o := mulQ ofs (p 5)
    ((m.putStw b.s b.k 1 (wdI o.v)).putStw b.s b.k 5 (wdI y.v), { y with sat := y.sat || o.sat || (!kept && back.sat) })

/-- A value moves from `a` toward `b` by at most `d`. -/
def slewTo (a b d : Int) : Int := clampI (a - d) (a + d) b

/-- OUTPUT (R222, R244): the computed value, the choice of R222 and its move at OSLEW. VLAST takes the value written. -/
def Chip.blkOutput (m : Chip) (b : BlkIn) : BlkOut :=
  let p := fun i => m.ap b.s b.k i
  let x := m.lslot b.s
  let v := accQ (accAdd (accMul (p 2) b.x) (accOf (p 3)))
  let comp := clampI (p 4) (p 5) v.v
  let vlast := m.stQ b.s b.k 0
  let choice : Nat :=
    if x.reacts 2 then 1 else if x.reacts 1 then 2 else if b.sm.omode = 2 then 3 else if b.sm.omode = 1 then 4 else 5
  let goal := if choice = 1 then p 6 else if choice = 2 ∨ choice = 4 then vlast
    else if choice = 3 then clampI (p 4) (p 5) b.sm.manout else comp
  let moved := choice != x.choice
  let slewing := if moved then x.choice != 0 && choice != 2 && choice != 4 else x.slewing
  let w := if slewing && p 9 != 0 then slewTo vlast goal (p 9) else goal
  let m := m.putLslot b.s { x with choice := choice, slewing := slewing && w != goal,
                                   satHi := x.satHi || comp < v.v, satLo := x.satLo || v.v < comp }
  (m.putStw b.s b.k 0 (wdI w), { v := b.x, sat := v.sat })

/-- A block's computation by its active TYPE. -/
def Chip.blkCompute (m : Chip) (b : BlkIn) : BlkOut :=
  let t := m.blkType b.s b.k
  if t = 1 then m.blkInput b
  else if t = 2 then m.blkFilter b
  else if t = 3 then m.blkNotch b
  else if t = 4 then m.blkPid b
  else if t = 5 then m.blkLimit b
  else if t = 6 then m.blkFfwd b
  else if t = 7 then m.blkPlant b
  else if t = 8 then m.blkPredict b
  else m.blkOutput b

/-- One block, with what its sources saturated. -/
def Chip.runBlock (m : Chip) (b : BlkIn) : BlkOut :=
  let o := m.blkCompute b
  (o.1, { o.2 with sat := o.2.sat || b.srcSat })

end Sys2Proof.Machine
end

