-- ==== Sys2Proof/Machine/Loop.lean ====
section
/-!
DEFINITION. The control loop engine's commands (R212 to R252): RUN, stop, commit, triggers, samples, and the writes of
loop memory and of the CLE registers.
-/

namespace Sys2Proof.Machine

/-! ### Commit (R231 to R233) -/

/-- The words DESC, SRC and PARAM of block k become active. -/
def Chip.activate (m : Chip) (s k : Nat) (g : Nat → Word) : Chip :=
  let t := (List.range 18).foldl (fun t j => NTab.set 0 t (256 * s + blkWord k j) (g j)) m.cle.active
  { m with cle := { m.cle with active := t } }

/-- What a new active copy does to the STATE words (R233, R235, R240). In a STOPPED slot the rate that fixes a NOTCH's
coefficients does not exist yet, so they are open until RUN (DESIGN CHOICE, log entry 46). At RUN's own commit of every block a PID's
integrator outside IMIN to IMAX stays as it stands, since R221 keeps the STATE words (DESIGN CHOICE, log entry 88). -/
def Chip.prepare (m : Chip) (s k : Nat) (run : Bool) : Chip :=
  let t := m.blkType s k
  if t = 4 && !run then
    let i := m.stAcc s k 0
    m.putAcc s k 0 { i with v := clampI (m.ap s k 4 * 256) (m.ap s k 5 * 256) i.v }
  else if t = 7 then
    m.plantStart s k
  else if t = 3 then
    let fact := (m.stw s k 9).toNat
    let lo := (m.aw s k 6).toNat
    let f0 := if bitOf (m.aw s k 0) 16 then (if lo ≤ fact && fact ≤ (m.aw s k 7).toNat then fact else lo) else (m.aw s k 2).toNat
    if (m.lslot s).st = .stopped && !run then
      ((List.range 5).foldl (fun m j => (m.putStw s k j (wd m.openVal)).spend) m).putStw s k 9 (wd f0)
    else m.notchSet s k f0
  else if t = 8 && run then
    (m.putStw s k 1 0).putLslot s { m.lslot s with pstate := .idle, events := [] }
  else m

/-- The buffered copies of a slot become active together (R232). -/
def Chip.applyBuf (m : Chip) (s : Nat) : Chip :=
  let ks := (List.range 8).filter (has (m.lslot s).cpend)
  let m := ks.foldl (fun m k => m.activate s k (fun j => NTab.get 0 m.cle.buffer (256 * s + blkWord k j))) m
  let none := ks.foldl (fun b k => (List.range 18).foldl (fun t j => NTab.set 0 t (256 * s + blkWord k j) 0) b) m.cle.buffer
  let m : Chip := { m with cle := { m.cle with buffer := none } }
  let m := m.putLslot s { m.lslot s with cpend := 0 }
  ks.foldl (fun m k => m.prepare s k false) m

/-- An accepted commit request (R232). -/
def Chip.commit (m : Chip) (s mask : Nat) : Chip :=
  let ks := (List.range 8).filter (has mask)
  let buf := ks.foldl (fun b k =>
    (List.range 18).foldl (fun t j => NTab.set 0 t (256 * s + blkWord k j) (m.staged s k j)) b) m.cle.buffer
  let m : Chip := { m with cle := { m.cle with buffer := buf } }
  let x := m.lslot s
  let m := m.putLslot s { x with dirty := ks.foldl clrM x.dirty, cpend := ks.foldl setM x.cpend }
  if x.st = .stopped then m.applyBuf s else m

/-- CLE_CMDSTAT (R252, Registers). -/
def Chip.cleStatus (m : Chip) (s mask : Nat) (st : Status) : Chip :=
  m.put .cleCmdstat 0 (wd (st.code + s * 256 + mask * 65536))

/-- A slot held by the library refuses everyone else (R252). -/
def Chip.libSlot (m : Chip) (s : Nat) : Bool := has m.cle.lib s

/-- A commit request (R231): from CLE_COMMIT or from a strand. -/
def commitAct (s mask : Nat) (m : Chip) : Act :=
  { v := { erange := !m.commitRange s mask, estate := !m.commitState s mask, ebasic := m.libSlot s }
    eff := fun m => ((m.commit s mask).cleStatus s mask .ok, .ok)
    rej := fun st m => m.cleStatus s mask st }

/-! ### RUN and stop (R218 to R221) -/

/-- A slot enters ARMED (R218, R221). Its load and its part of ADMIT are fixed here; a later commit that changes a block's cost does not
change them, which R230 does not say (DESIGN CHOICE, log entry 88). What its output block last sent stays known (R247). -/
def Chip.slotArm (m : Chip) (s : Nat) (ctl : Word) : Chip :=
  let r := (m.putLw s 0 ctl).nomRate 65 s
  let load := m.runLoad s ctl
  let ks := List.range (bits ctl 10 8 + 1)
  let m := (m.putLslot s { m.lslot s with cpend := 0 }).putLw s 0 ctl
  let m := ks.foldl (fun m k => m.activate s k (m.staged s k)) m
  let x := m.lslot s
  let m := m.putLslot s
    { Slot.init with dirty := ks.foldl clrM x.dirty, trig := m.lw s 1, rateN := r.1, rateD := r.2, load := load, first := true,
                     spRamp := m.lw s 3 != 0, spDone := x.spDone, limMove := x.limMove, choice := 0, sinceSub := 65535, carried := x.carried,
                     tgen := x.tgen, onsetAt := x.onsetAt, cause := x.cause, ys := x.ys }
  let m := ks.foldl (fun m k => m.prepare s k true) m
  let m := [11, 12, 13, 14].foldl (fun m w => m.putLw s w 0) m
  let m := if m.lw s 3 = 0 then m.putLw s 6 (m.lw s 2) else m
  let m := (m.bindOut s).wake .cle
  m.putLslot s { m.lslot s with st := .armed }

/-- A write of RUN = 1 to a STOPPED slot that passed its checks: EFULL when the load does not fit (R219, R230). -/
def Chip.slotRun (m : Chip) (s : Nat) (ctl : Word) : Chip × Status :=
  if m.fld .cleCfg 0 14 8 * 100 < m.cleAdmit + m.runLoad s ctl then (m, .efull) else (m.slotArm s ctl, .ok)

/-- A slot enters STOPPED and its buffered commits apply (R218, R232). -/
def Chip.loopStop (m : Chip) (s : Nat) : Chip := (m.slotStopped s).applyBuf s

/-- A write of RUN = 0 to an ARMED slot: a running sample finishes first, a pending one is discarded (R218). -/
def Chip.slotStop (m : Chip) (s : Nat) : Chip :=
  let x := m.lslot s
  if x.run.isSome then m.putLslot s { x with after := .stop, pend := none } else m.loopStop s

/-- A FENCED slot whose flag has been read returns to STOPPED (R218): the output is released, and STOPACT applies at every
transition to STOPPED (R249). -/
def Chip.slotRelease (m : Chip) (s : Nat) : Chip := (m.loopStop s).dropFence .slot s

/-- A write of CTL (R213, R218). -/
def ctlAct (s : Nat) (d : Word) (m : Chip) : Act :=
  let d := d &&& wd 0xF737
  let x := m.lslot s
  let old := m.lw s 0
  let run := bitOf d 0
  let other := (d ^^^ old) &&& wd 0xF730 != 0
  let starts := run && x.st = .stopped
  let v : Verdict :=
    { erange := bits d 2 1 = 3 || (starts && !m.runRange s d)
      estate := (x.st != .stopped && other) || (starts && !m.runState s d) ||
        (!run && x.st = .fenced && (x.run.isSome || !m.fenceRead .slot s))
      ebasic := m.libSlot s
      ebusy := run && x.after = .stop }
  { v := v
    eff := fun m =>
      if starts then m.slotRun s d
      else
        let m := m.putLw s 0 d
        if x.after = .stop then (m, .ok)
        else if !run && x.st = .armed then (m.slotStop s, .ok)
        else if !run && x.st = .fenced then (m.slotRelease s, .ok)
        else (m, .ok) }

/-- A write of word w of slot s (R211 to R215, R220, R227). -/
def loopAct (s w : Nat) (d : Word) (m : Chip) : Act :=
  let x := m.lslot s
  let lib := m.libSlot s
  let plain := fun (e : Bool) (st : Bool) (mask : Nat) =>
    ({ v := { erange := e, estate := st, ebasic := lib }, eff := fun m => (m.putLw s w (d &&& wd mask), .ok) } : Act)
  if w = 0 then ctlAct s d m
  else if w = 1 then plain false false 0x0FFFFFFF
  else if w = 2 then { v := { estate := m.spBound s, ebasic := lib }, eff := fun m => (m.setSp s d, .ok) }
  else if w = 3 then plain (d.toInt < 0) false 0xFFFFFFFF
  else if w < 6 then plain false false 0xFFFFFFFF
  else if w < 32 then { v := { ebasic := lib }, eff := fun m => (m, .ok) }
  else
    let k := (w - 32) / 28
    let j := (w - 32) % 28
    if j < 18 then
      { v := { ebasic := lib }
        eff := fun m =>
          let m := m.putLw s w (if j = 0 then d &&& wd 0x00FF000F else d)
          (m.putLslot s { m.lslot s with dirty := setM (m.lslot s).dirty k }, .ok) }
    else if m.blkType s k = 3 && (j < 23 || j = 27) then { v := { ebasic := lib }, eff := fun m => (m, .ok) }
    else plain false (x.st != .stopped) 0xFFFFFFFF

/-! ### Triggers and samples (R223 to R228) -/

/-- A slot's trigger source occurs for the DECIM-th time (R223): the command stands for that occurrence. Kick is the only trigger of TKIND
0x0, a channel that is not scanned triggers nothing (R250), and a converter's boundaries trigger by themselves (R302). -/
def Chip.loopTrigger (m : Chip) (s : Nat) : Chip :=
  let t := m.trigOf s
  if t.1 = 0 || t.1 = 4 || (t.1 = 2 && !m.chScanned t.2.1) then m else m.slotTrigger s

/-- The running samples. -/
def Chip.lanesUsed (m : Chip) : Nat := ((List.range 64).filter (fun s => (m.lslot s).run.isSome)).length

/-- Slot a's pending sample goes before slot b's (R224): PRIO, trigger time, index. -/
def Chip.before (m : Chip) (a b : Nat) : Bool :=
  let p := fun s => bits (m.lw s 0) 5 4
  let t := fun s => (m.lslot s).pend.getD 0
  decide (p b < p a) || (p a = p b && (decide (t a < t b) || (t a = t b && decide (a < b))))

/-- The pending sample that is dispatched next. -/
def Chip.nextSample (m : Chip) : Option Nat :=
  (List.range 64).foldl (fun (a : Option Nat) s =>
    if (m.lslot s).pend.isNone || (m.lslot s).run.isSome then a
    else match a with
      | none => some s
      | some o => if m.before s o then some s else a) none

/-- The window has elapsed, or a CANCEL: T is retracted at once (R242). A FENCED slot sends its partner nothing further (R249). -/
def Chip.predRetract (m : Chip) (s cause : Nat) : Chip :=
  let x := m.lslot s
  let m := m.putLslot s { x with pstate := .retracting, cause := cause }
  ((m.eventRecord 205 s [wd s, wd x.tgen]).event 205).when (x.st != .fenced) (fun m => m.retract s x.tgen)

/-- T takes the next number (R242, R243). -/
def Chip.predNumber (m : Chip) (s : Nat) : Chip :=
  let t := m.lw s 9 + 1
  (m.putLw s 9 t).putLslot s { m.lslot s with tgen := t.toNat }

/-- The confirm window of block k in µs (PARAM4). -/
def Chip.confWin (m : Chip) (s k : Nat) : Nat := if m.aw s k 6 = 0 then 1500 else (m.aw s k 6).toNat

/-- One detector event at a PREDICT block (R242). Answers whether it confirmed. -/
def Chip.predEvent (m : Chip) (s k : Nat) (e : PredEv × Nat) : Chip × Bool :=
  let x := m.lslot s
  let onset := fun (m : Chip) =>
    let m := (m.predNumber s).putStw s k 0 (m.stw s k 5)
    let m := (m.putAcc s k 3 { v := 0, sat := false }).putStw s k 2 (wd (e.2 % 2 ^ 32))
    let m := m.putLslot s { m.lslot s with pstate := .tentative, onsetAt := e.2 }
    (m.eventRecord 203 s [wd s, wd (m.lslot s).tgen]).event 203
  let final := fun (m : Chip) =>
    let m := m.putLw s 10 (wd (m.lslot s).tgen)
    let m := m.putLslot s { m.lslot s with pstate := .final }
    (m.eventRecord 204 s [wd s, wd (m.lslot s).tgen]).event 204
  match e.1, x.pstate with
  | .onset, .idle => (onset m, false)
  | .onset, .retracting => (onset (m.retractRecord s k), false)
  | .confirm, .idle => (final (m.predNumber s), true)
  | .confirm, .retracting => (final (m.predNumber s), true)
  | .confirm, .tentative => ((final m).finalise s x.tgen, true)
  | .cancel, .tentative => (m.predRetract s 0, false)
  | .ends, .final => (m.putLslot s { x with pstate := .idle }, false)
  | _, _ => (m, false)

/-- The detector events held for a slot take effect at the start of its sample (R242); an event after the confirm window
finds it elapsed. The events answered are those that confirmed. -/
def Chip.predStart (m : Chip) (s k : Nat) : Chip × List (PredEv × Nat) :=
  let evs := (m.lslot s).events
  let m := m.putLslot s { m.lslot s with events := [] }
  let late := fun (m : Chip) (t : Nat) =>
    let x := m.lslot s
    if x.pstate = .tentative && x.onsetAt + m.confWin s k < t then m.predRetract s 1 else m
  let r := evs.foldl (fun (r : Chip × List (PredEv × Nat)) e =>
    let q := (late r.1 e.2).predEvent s k e
    (q.1, if q.2 then r.2 ++ [e] else r.2)) (m, [])
  (late r.1 m.now, r.2)

/-- SPACT moves toward SP (R227). -/
def Chip.spMove (m : Chip) (s dt : Nat) : Chip :=
  let slew := (m.lw s 3).toInt
  let a := (m.lw s 6).toInt
  let t := (m.lw s 2).toInt
  m.putLw s 6 (wdI (if slew = 0 then t else slewTo a t (rdiv (slew * dt) 1000)))

/-- Where BLOCKED has cleared since LOOP_OUTPUT was raised, a new episode may begin (R247). -/
def Chip.unblockedNotes (m : Chip) : Chip :=
  (m.cle.slots.map (fun (e : Nat × Slot) => e.1)).foldl (fun m s =>
    if (m.lslot s).outRaised && !m.blocked s then m.putLslot s { m.lslot s with outRaised := false } else m) m

/-- The next pending sample starts, `delay` ns after its trigger (R224, R226 to R228). -/
def Chip.sampleStart (m : Chip) (delay : Nat) : Chip :=
  if 4 ≤ m.lanesUsed then m
  else match m.nextSample with
    | none => m
    | some s =>
      let x := m.lslot s
      let m := (m.putLslot s { x with pend := none, satLo := false, satHi := false }).applyBuf s
      let m := m.putLw s 14 (wd (delay % 65536 + max (bits (m.lw s 14) 31 16) (delay % 65536) * 65536))
      let dt := if x.first then 0 else m.now - x.lastAt
      let p := match m.predBlk s with
        | some k => m.predStart s k
        | none => (m, [])
      let sm : Sample := { trig := x.pend.getD 0, latch := p.1.latchAll s, omode := bits (m.lw s 0) 2 1, manout := (m.lw s 4).toInt,
                           events := p.2 }
      let m := p.1.putLslot s { p.1.lslot s with run := some sm, lastAt := p.1.now }
      if x.first && x.spRamp then m else (m.spMove s dt).spReached s

/-- The whole chain of a sample: the outputs of its blocks. Integration is frozen in HOLD and MANUAL, while the output is blocked and under
a plausibility reaction, one that a PLANT earlier in the chain applies in this sample among them (R237). -/
def Chip.runChain (m : Chip) (s : Nat) (sm : Sample) (frozen : Bool) : Chip × List Int :=
  (List.range (m.nblk s + 1)).foldl (fun (r : Chip × List Int) k =>
    let b : BlkIn := { s := s, k := k, x := r.2.getLast?.getD 0, ys := r.2, sm := sm,
                       frozen := frozen || (r.1.lslot s).plaus }
    let o := r.1.runBlock b
    let m := if o.2.sat then o.1.bump .cleSatcnt 0 15 0 1 else o.1
    let m := if k = 0 && (m.lslot s).first && (m.lslot s).spRamp then (m.putLw s 6 (wdI o.2.v)).spReached s else m
    (m, r.2 ++ [o.2.v])) (m, [])

/-- The value written goes to a partner when it is due (R247). In SHADOW nothing is submitted (R251). -/
def Chip.partnerOut (m : Chip) (s : Nat) : Chip :=
  let k := m.nblk s
  let x := m.lslot s
  let e := (m.dest s).2
  let v := m.stQ s k 0
  let tent := x.pstate = .tentative
  let carried := if tent then x.tgen else (m.lw s 10).toNat
  let pdec := max 1 (bits (m.aw s k 9) 15 0)
  let due := x.resubmit || (carried != x.carried) ||
    (pdec ≤ x.sinceSub + 1 && m.ap s k 8 < ((v - m.stQ s k 1).natAbs : Int))
  let m := m.putLslot s { x with sinceSub := satTo 65535 (x.sinceSub + 1) }
  if !due || m.pwr.base = .shadow then m
  else
    let r := m.submit s e (bits (m.aw s k 3) 11 0) (unI v 32) (if tent then some (s, x.tgen) else none)
    let m := r.1
    if r.2 = .ok then
      (m.putStw s k 1 (wdI v)).putLslot s { m.lslot s with sinceSub := 0, carried := carried, resubmit := false }
    else if r.2 = .efull then m.putLslot s { m.lslot s with resubmit := true }
    else if (m.lslot s).outRaised || !m.blocked s then m
    else (m.putLslot s { m.lslot s with outRaised := true }).raise 37 s []

/-- The running sample of slot s completes (R222, R226, R246): its chain, its output, its figures; then what waited for
it. -/
def Chip.sampleDone (m : Chip) (s : Nat) : Chip :=
  let x := m.lslot s
  match x.run with
  | none => m
  | some sm =>
    let m := m.putLslot s { m.lslot s with satLo := false, satHi := false }
    let pred := if x.pstate = .tentative || x.pstate = .retracting then 12 else 6
    let cyc := chainCost (m.aw s) (m.nblk s) pred
    let frozen := sm.omode != 0 || m.blocked s
    let r := m.runChain s sm frozen
    let m := r.1
    let m := m.putLw s 7 (wdI (r.2.getLast?.getD 0))
    let m := m.putLw s 11 (m.lw s 11 + 1)
    let m := m.putLw s 13 (wd (cyc % 65536 + max (bits (m.lw s 13) 31 16) (cyc % 65536) * 65536))
    let m : Chip := { m with cle := { m.cle with cost := ((m.now, cyc) :: m.cle.cost).filter (fun c => m.now < c.1 + 10000) } }
    let m := (m.putLslot s { m.lslot s with run := none, first := false, ys := r.2 }).slotSampled s
    let dk := (m.dest s).1
    let m := if dk = 0 then m else if dk = 6 then m.partnerOut s else m.writeDest s (m.stQ s (m.nblk s) 0)
    match (m.lslot s).after with
    | .none => m
    | .stop => m.loopStop s
    | .fence => m.slotFenced s

/-- A stopping slot's running sample finishes, and the slot is STOPPED (R218). -/
def Chip.slotStopComplete (m : Chip) (s : Nat) : Chip := if (m.lslot s).after = .stop then m.sampleDone s else m

/-- CNT of a PLANT block has reached TIME (R238): PLAUSIBILITY is raised, once per excursion. -/
def Chip.plausDue (m : Chip) (s k : Nat) : Bool :=
  m.blkType s k = 7 && !(m.plant s k).raised && bits (m.stw s k 2) 31 16 = 0 && 1 ≤ bits (m.stw s k 2) 15 0 &&
    bits (m.aw s k 9) 15 0 ≤ bits (m.stw s k 2) 15 0

/-- The first PLANT block of slot s whose count is due raises PLAUSIBILITY with the slot, RF and XH (R238). -/
def Chip.plausibility (m : Chip) (s : Nat) : Chip :=
  match (List.range (m.nblk s + 1)).find? (fun k => m.plausDue s k) with
  | none => m
  | some k =>
    if (m.lslot s).bound then
      ((m.putPlant s k { m.plant s k with raised := true }).holdFence .mark (plantMark s k) 38).raise 38 s
        [wd s, m.stw s k 1, m.stw s k 0]
    else m

/-- The confirm window of slot s elapses (R242). -/
def Chip.confElapsed (m : Chip) (s : Nat) : Chip :=
  let x := m.lslot s
  match m.predBlk s with
  | none => m
  | some k =>
    if x.bound && x.pstate = .tentative then (m.elapse x.onsetAt (m.confWin s k)).predRetract s 1 else m

/-! ### Registers -/

/-- A write of a CLE register. -/
def cleAct (r : RName) (i : Nat) (d : Word) (m : Chip) : Act :=
  match r with
  | .cleCommit => commitAct (bits d 5 0) (bits d 15 8) m
  | .cleKick =>
    let s := bits d 5 0
    { v := { estate := (m.lslot s).st != .armed, ebasic := m.libSlot s }
      eff := fun m => ((m.slotTrigger s).cleStatus s 0 .ok, .ok)
      rej := fun st m => m.cleStatus s 0 st }
  | _ => actStore r i d

/-- CLE_LOAD: ADMIT and MEAS in 0.01 % (R230). -/
def Chip.cleLoad (m : Chip) : Word :=
  let c := (m.cle.cost.filter (fun c => m.now < c.1 + 10000)).foldl (fun a c => a + c.2) 0
  wd (min 65535 m.cleAdmit + min 65535 (c * 10000 / 16000000) * 65536)

/-- STAT of slot s (R214). -/
def Chip.loopStat (m : Chip) (s : Nat) : Word :=
  let x := m.lslot s
  let ps := match x.pstate with
    | .idle => 0 | .tentative => 1 | .final => 2 | .retracting => 3
  let st := match x.st with
    | .stopped => 0 | .armed => 1 | .fenced => 2
  wd (st + b2n (x.pend.isSome || x.run.isSome) * 8 + b2n (m.blocked s) * 16 + b2n x.satHi * 32 + b2n x.satLo * 64 +
    b2n x.plaus * 128 + x.dirty % 256 * 256 + x.cpend % 256 * 65536 + ps * 2 ^ 24 + b2n (m.lw s 6 != m.lw s 2) * 2 ^ 27)

/-- Word w of slot s as a port or a strand reads it. -/
def Chip.loopRead (m : Chip) (s w : Nat) : Word := if w = 8 then m.loopStat s else m.lw s w

/-- The slots in a state, as a mask of 64. -/
def Chip.slotMask (m : Chip) (p : Slot → Bool) : Nat :=
  (List.range 64).foldl (fun a s => if p (m.lslot s) then setM a s else a) 0

/-! ### Voltage retargeting (R323, R324) -/

/-- A voltage command of stage x (R323, R324): TARGET and TAG. -/
def vcmdAct (x : Nat) (d : Word) (m : Chip) : Act :=
  let target := bits d 15 0
  let tag := bits d 23 16
  let s := m.vslot x
  let base := m.fld .cnvXVref x 15 0
  let ps := m.get .polSlot 0
  let named := s = bits ps 5 0 || s = bits ps 13 8 || (bitOf ps 24 && s = bits ps 21 16)
  { v := { erange := base = 0 || 5 * base < 4 * target,
           estate := (m.lslot s).st != .armed || m.spBound s || named }
    eff := fun m =>
      let c := m.conv x
      if 8 ≤ c.vdone.length then (m, .efull)
      else
        let q := fun (a b : Nat) => qSat (rdiv ((a : Int) * q1) (b : Int))
        let m := match c.vtag with
          | some t => m.vdonePush x t .esuperseded
          | none => m
        let m := m.putLw s 3 (wdI (q (m.fld .cnvXVrate x 15 0) base))
        let sp := wdI (q target base)
        let held := m.lw s 2 = sp
        let m := if held then m else m.spTarget s sp
        let m := m.putConv x { m.conv x with vtag := some tag, vcSlot := s }
        (if !held then m.spReached s else if m.lw s 6 = sp then m.vdonePush x tag .ok else m, .ok) }

/-- A read of CNV_x_VDONE takes its oldest entry (R324). -/
def Chip.vdoneRead (m : Chip) (x : Nat) : Chip × Word :=
  let c := m.conv x
  match c.vdone with
  | [] => (m, 0)
  | e :: t => (m.putConv x { c with vdone := t }, wd (e.toNat + 65536 + t.length * 131072))

end Sys2Proof.Machine
end

