-- ==== Sys2Proof/Machine/Policy.lean ====
section
/-!
DEFINITION. The power policy (R253 to R296): the source condition, the hand-over machine, the capping machine, RLIM, the
sharing strand and shedding, and the writes of the policy registers.
-/

namespace Sys2Proof.Machine

/-! ### The vendor slots (R255, R292) -/

/-- RSLOT and BSLOT. -/
def Chip.rslot (m : Chip) : Nat := m.fld .polSlot 0 5 0
def Chip.bslot (m : Chip) : Nat := m.fld .polSlot 0 13 8

/-- DSLOT, while it is present. -/
def Chip.dslot (m : Chip) : Option Nat := if m.flag .polSlot 0 24 then some (m.fld .polSlot 0 21 16) else none

/-- The share group entry. -/
def Chip.shareEntry (m : Chip) : Nat := m.fld .shareEntry 0 11 0

/-- BSLOT is ARMED on the battery converter and RSLOT on the share group entry (R293). -/
def Chip.vendorOk (m : Chip) : Bool :=
  (m.lslot m.bslot).st = .armed && (m.dest m.bslot).1 = 1 &&
    (m.lslot m.rslot).st = .armed && m.dest m.rslot = (6, m.shareEntry)

/-- The vendor chains exist (R291): both slots end in an output of the vendor chain's kind. -/
def Chip.vendorBuilt (m : Chip) : Bool := (m.dest m.bslot).1 = 1 && (m.dest m.rslot).1 = 6

/-- A write of BSLOT's SP (R258), with its slew in Q8.24 per ms. -/
def Chip.bslotSp (m : Chip) (v slew : Int) : Chip := (m.putLw m.bslot 3 (wdI slew)).setSp m.bslot (wdI v)

/-- 1.0 − VBACK in Q8.24. -/
def Chip.backSp (m : Chip) : Int := q1 - (m.fld .busCfg 0 23 16 : Int) * q1 / 1000

/-- 0.1 % of VBUS per ms in Q8.24 (R258). -/
def spCreep : Int := 16777

/-- OMODE and MANOUT of RSLOT (R292): 0 AUTO, 1 HOLD, 2 MANUAL. -/
def Chip.rslotMode (m : Chip) (omode : Nat) (manout : Int) : Chip :=
  (m.putLw m.rslot 0 (setBits (m.lw m.rslot 0) 2 1 omode)).putLw m.rslot 4 (wdI manout)

/-- KPR and TOFF of a slot's first PREDICT block are committed (R275, R292). -/
def Chip.predGains (m : Chip) (s : Nat) (g : Word × Word) : Chip :=
  match m.predBlk s with
  | some k => ((m.putLw s (blkWord k 3) g.1).putLw s (blkWord k 2) g.2).commit s (2 ^ k)
  | none => m

/-- KPR and TOFF of a slot's first PREDICT block, as staged. -/
def Chip.gainsOf (m : Chip) (s : Nat) : Word × Word :=
  match m.predBlk s with
  | some k => (m.lw s (blkWord k 3), m.lw s (blkWord k 2))
  | none => (0, 0)

/-- The gains of both PREDICT blocks are saved, unless they are already, and set to 0 (R272, R275). -/
def Chip.gainsZero (m : Chip) : Chip :=
  let p := m.pol
  let m : Chip := { m with pol := { p with savedR := some (p.savedR.getD (m.gainsOf m.rslot)), savedB := some (p.savedB.getD (m.gainsOf m.bslot)) } }
  (m.predGains m.rslot (0, 0)).predGains m.bslot (0, 0)

/-- The saved gains are restored, while ANTIC = 1 (R272, R274). -/
def Chip.gainsBack (m : Chip) : Chip :=
  if m.flag .polCfg 0 2 then
    let p := m.pol
    let m : Chip := match p.savedR with
      | some g => m.predGains m.rslot g
      | none => m
    let m : Chip := match p.savedB with
      | some g => m.predGains m.bslot g
      | none => m
    { m with pol := { m.pol with savedR := none, savedB := none } }
  else m

/-- A slot's PREDICT has gains that are not 0: staged, or in force with no commit of the block under way. -/
def Chip.gainsLive (m : Chip) (s : Nat) : Bool :=
  match m.predBlk s with
  | some k => m.gainsOf s != (0, 0) || ((m.aw s k 3 != 0 || m.aw s k 2 != 0) && !has (m.lslot s).cpend k)
  | none => false

/-- While ANTIC = 0 the strands keep the gains of both PREDICT blocks at 0 (R272): values that a chain has been given since are saved in
place of the earlier ones. -/
def Chip.gainsKeep (m : Chip) : Chip :=
  if m.flag .polCfg 0 2 || !m.up then m
  else
    let m : Chip := if m.gainsLive m.rslot then
        ({ m with pol := { m.pol with savedR := some (m.gainsOf m.rslot) } } : Chip).predGains m.rslot (0, 0) else m
    if m.gainsLive m.bslot then
      ({ m with pol := { m.pol with savedB := some (m.gainsOf m.bslot) } } : Chip).predGains m.bslot (0, 0) else m

/-! ### Rectifiers (R266, R267) -/

/-- The online members of the share group. -/
def Chip.onlineMembers (m : Chip) : List Nat := (m.members m.shareEntry).filter (fun e => (m.ent e).st = .online)

/-- PWRM_RECT_CAP: their capacity in 0.1 A. -/
def Chip.rectCap (m : Chip) : Nat := m.onlineMembers.foldl (fun a e => a + (m.ent e).rated) 0

/-- A member counts as in droop (R266). -/
def Chip.inDroop (m : Chip) (e : Nat) : Bool := m.entFenced e || has (m.ent e).status 1

/-- Members in droop, by MIDX. -/
def Chip.droopMask (m : Chip) : Nat :=
  (m.members m.shareEntry).foldl (fun a e => if m.inDroop e then setM a (m.midx e) else a) 0

/-- Online rectifiers that report input good (R267). -/
def Chip.goodRects (m : Chip) : Nat :=
  ((m.ptn.ents.map (fun x => x.1)).filter (fun e =>
    m.entDefined e && m.entClass e = 3 && (m.ent e).st = .online && has (m.ent e).status 2)).length

/-- BSLOT OUT against a level in 0.1 %. -/
def Chip.outAtLeast (m : Chip) (lev : Nat) : Bool := (lev : Int) * q1 ≤ 1000 * m.bslotOut
def Chip.outAtMost (m : Chip) (lev : Nat) : Bool := 1000 * m.bslotOut ≤ (lev : Int) * q1

/-! ### The source condition (R267, R268) -/

/-- HCRMS of the configured phases and the frequency lie within their bounds (R267). -/
def Chip.acGood (m : Chip) : Bool :=
  let nom := m.fld .acqAcmNom 0 15 0
  let lo := (m.fld .acqAcmSag 0 7 0 + m.fld .acqAcmSag 0 15 8) * nom
  let hi := (m.fld .acqAcmSwell 0 7 0 - m.fld .acqAcmSwell 0 15 8) * nom
  let f := m.acq.track.freq
  let f0 := if m.flag .acqAcmCfg 0 3 then 60000 else 50000
  let tol := m.fld .srcCfg 0 23 16 * 100
  (List.range m.acmChs.length).all (fun k =>
    let r := 100 * m.fld .acqAcmHcrms k 15 0
    lo ≤ r && r ≤ hi) && f0 ≤ f + tol && f ≤ f0 + tol

/-- The source condition at this instant (R267). -/
def Chip.srcCondition (m : Chip) : Bool :=
  (!m.flag .acqAcmCfg 0 0 || (m.acq.lock && m.acq.sag = .idle && m.acq.swell = .idle && m.acGood)) &&
    decide (m.fld .srcCfg 0 31 24 ≤ m.goodRects)

/-- The source has been qualified: the condition has held without a break for SRCQ (R268). -/
def Chip.srcQualified (m : Chip) : Bool :=
  match m.pol.srcSince with
  | some t => t + m.fld .srcCfg 0 15 0 * 10000 ≤ m.now
  | none => false

/-- The start of a spell: where it holds, the stamp it had or now. -/
def Chip.spell (m : Chip) (b : Bool) (t : Option Nat) : Option Nat := if b then some (t.getD m.now) else none

/-- The spells that the machines time (R268, R274, R282): a break of the source condition restarts SRCQ, and in HANDOVER it is not
evaluated (R276); BSLOT OUT at BACKI or above, and at RETDONE or below. -/
def Chip.polSpells (m : Chip) : Chip :=
  if !m.up then m
  else
    let p := m.pol
    { m with pol := { p with srcSince := m.spell (p.ho != .handover && m.srcCondition) p.srcSince,
                             lostAt := m.spell (p.ho = .ret && !m.srcCondition) p.lostAt,
                             outHi := m.spell (m.outAtLeast (m.fld .hoLev 0 15 0)) p.outHi,
                             outLo := m.spell (m.outAtMost (m.fld .hoRet 0 15 0)) p.outLo } }

/-! ### RLIM (R256, R257, R279) -/

/-- The capping value counts only while capping has a limit; a return ramps toward it, or toward 1.0 while capping is OFF
(R279, R281). -/
def Chip.rampTop (m : Chip) : Int := if m.pol.cap = .off then q1 else m.pol.capVal

/-- What the hand-over value rises to: 1.0 in a walk-in (R270). -/
def Chip.rampGoal (m : Chip) : Int := if m.pol.walkIn then q1 else m.rampTop

/-- The hand-over value rises at RETRATE (R270, R279). -/
def Chip.rampStep (m : Chip) : Chip :=
  if m.pol.ramping then
    let d : Int := (m.now - m.pol.rampAt : Nat)
    let v := m.pol.hoVal + (m.fld .hoLev 0 31 16 : Int) * q1 * d / 1000000000
    let fin : Bool := m.rampGoal ≤ v
    { m with pol := { m.pol with hoVal := min v m.rampGoal, ramping := !fin, rampAt := m.now } }
  else m

/-- The hand-over value of RLIM (R256). -/
def Chip.hoTerm (m : Chip) : Int :=
  if m.pol.ho = .handover || m.pol.ho = .onbatt then 0 else if m.pol.ramping then m.pol.hoVal else q1

/-- RLIM is written (R256): the least of its three terms, to the commons word that PWRM_RLIM mirrors. -/
def Chip.rlimWrite (m : Chip) : Chip :=
  let m := m.rampStep
  let v := min (min m.hoTerm m.pol.capVal) (q1 - m.funcRed 2)
  ({ m with pol := { m.pol with rlimAt := m.now } } : Chip).putCommon 0x3C0 (wdI (clampI 0 q1 v))

/-! ### The hand-over machine (R274 to R280) -/

/-- The machine makes no transition (R44, R47, R277): the SAFE reaction in force stopped the battery converter. -/
def Chip.polFrozen (m : Chip) : Bool := m.pwr.condSafe && !has m.pwr.safeWord 0

/-- A transition with its action on the slots, after the check of R293, and the RLIM part. -/
def Chip.hoTo (m : Chip) (st : HoSt) (f : Chip → Chip) : Chip :=
  let ok := m.vendorOk
  let m := if ok then f m else m.raise 42 0 []
  ({ m with pol := { m.pol with ho := st, hoAt := m.now } } : Chip).rlimWrite

/-- The HANDOVER record (R275): cause, onset stamp, GEN and ACTGEN of BSLOT, once its PREDICT has taken the detector's events that wait
for the sample they kick. -/
def Chip.handoverRecord (m : Chip) (cause : Nat) : Chip :=
  let c := match m.predBlk m.bslot with
    | some k => (m.predStart m.bslot k).1
    | none => m
  let x := c.lslot m.bslot
  m.systemRecord 2 [wd cause, wd (x.onsetAt % 2 ^ 32), wd (x.onsetAt / 2 ^ 32), c.lw m.bslot 9, c.lw m.bslot 10]

/-- The capping machine's state outside CAPPED: ARMED, or OFF while no cap is set (R275, R282). -/
def Chip.capRest (m : Chip) : CapMSt := if m.flag .polCfg 0 4 && m.get .capLimit 0 != 0 then .armed else .off

/-- The hand-over actions (R275) on the way to a state: HANDOVER, or ONBATT at a START into HOLDUP. SRCQ starts over, no earlier than in
ONBATT (R276, R278). -/
def Chip.handOver (m : Chip) (st : HoSt) (cause : Nat) : Chip :=
  let m : Chip := { m with pol := { m.pol with hoVal := 0, ramping := false, hoCause := cause, srcSince := none } }
  m.hoTo st (fun m =>
    let m := (m.bslotSp q1 0).gainsZero
    let m : Chip := if m.pol.cap = .capped then
        { m with pol := { m.pol with cap := if m.flag .polCfg 0 4 then .armed else .off } } else m
    ((m.eventRecord 206 0 [wd cause]).event 206).handoverRecord cause)

/-- The ramp of RLIM from 0 begins (R270, R279). -/
def Chip.rampFrom0 (m : Chip) (walkIn : Bool) : Chip :=
  { m with pol := { m.pol with hoVal := 0, ramping := true, walkIn := walkIn, rampAt := m.now } }

/-- The base state enters SOURCE or CAPPED from STANDBY (R270, R274): BSLOT's SP at 1.0 − VBACK, or for a capping machine still in CAPPED
at 1.0 by its creep (R258), and RSLOT regulating with its gains, as both do outside a hand-over (R254, R271; DEDUCED, log entry 77). -/
def Chip.polSource (m : Chip) : Chip :=
  (m.rampFrom0 true).hoTo .onsrc (fun m =>
    let m := if m.pol.cap = .capped then m.bslotSp q1 spCreep else m.bslotSp m.backSp 0
    (m.rslotMode 0 0).gainsBack)

/-- The base state enters HOLDUP from STANDBY (R274). -/
def Chip.polHoldup (m : Chip) : Chip := m.handOver .onbatt 5

/-- A confirm in the 100 µs evaluation that began a hand-over by the backstop gives it its cause (R288): HOCAUSE, and the records that wait. -/
def Chip.recause (m : Chip) (cause : Nat) : Chip :=
  let fix := fun (r : Rec) =>
    if r.stamp = m.pol.hoAt && ((r.kind = 2 && r.source = 206) || (r.kind = 6 && r.code = 2)) then
      { r with payload := wd cause :: r.payload.tail } else r
  { m with pol := { m.pol with hoCause := cause }
           rcd := { m.rcd with queue := m.rcd.queue.map (fun w => { w with rcd := fix w.rcd }) } }

/-- In RETURN the source condition is false at an evaluation of the machine's time-based guards (R274): a multiple of 100 µs after it broke,
so that an onset's run-ahead acts first (R288; DEDUCED, log entry 77). -/
def Chip.srcLost (m : Chip) : Bool :=
  m.pol.ho = .ret && (match m.pol.lostAt with
    | some t => t / 100 < m.now / 100
    | none => false)

/-- The detectors and the vendor PREDICTs have moved (R274, R288): what this command's change makes the machine do. EN = 0 of the AC monitor
is no cancel (R197). -/
def Chip.hoEvents (m old : Chip) : Chip :=
  if m.polFrozen then m
  else
    let onset := old.acq.sag = .idle && m.acq.sag = .onset
    let sag := old.acq.sag != .confirmed && m.acq.sag = .confirmed
    let swell := old.acq.swell != .confirmed && m.acq.swell = .confirmed && m.flag .polCfg 0 3
    let cancel := old.acq.sag = .onset && m.acq.sag = .idle && m.flag .acqAcmCfg 0 0
    let retr := [m.rslot, m.bslot].any (fun s => (old.lslot s).pstate = .tentative && (m.lslot s).pstate = .retracting)
    match m.pol.ho with
    | .onsrc | .antic | .ret =>
      if sag then m.handOver .handover 1
      else if swell then m.handOver .handover 2
      else if m.pol.ho = .onsrc && onset then m.hoTo .antic id
      else if m.pol.ho = .antic && (cancel || retr) then m.hoTo .onsrc id
      else if m.srcLost then m.handOver .handover 6
      else m
    | .handover =>
      if m.pol.hoCause = 3 && m.pol.hoAt = m.now && (sag || swell) then m.recause (if sag then 1 else 2) else m
    | _ => m

/-- The base state has left SOURCE, HOLDUP and CAPPED (R274): a transition like any other (R293), with BSLOT's SP back at 1.0 − VBACK
(R258) and RLIM written (R256). What a hand-over did to RSLOT and to the gains stays until the next START (log entry 77), and so does the
state of the capping machine (R282). In SHADOW the machines go on from
the secondary's measurements (R288). -/
def Chip.polLeave (m : Chip) : Chip :=
  if m.pol.ho != .idle && !m.powering && m.pwr.base != .shadow then
    ({ m with pol := { m.pol with ramping := false } } : Chip).hoTo .idle (fun m => m.bslotSp m.backSp 0)
  else m

/-- The base state that the machines give (R253). -/
def Chip.polBase (m : Chip) : Base :=
  if m.pol.ho = .handover || m.pol.ho = .onbatt || m.pol.ho = .ret then .holdup
  else if m.pol.cap = .capped then .capped else .source

/-- The base state follows the machines (R44, R46, R253). -/
def Chip.polBaseSet (m : Chip) : Chip :=
  if m.powering && m.pol.ho != .idle then { m with pwr := { m.pwr with base := m.polBase } } else m

/-! ### The capping machine (R281 to R284) -/

/-- SoC is at or below FLOOR (R282, R283). -/
def Chip.socLow (m : Chip) : Bool := m.shelfLo ≤ (m.fld .capSoc 0 7 0 : Int) * e32

/-- A branch that shedding may turn off: one that is on or, in INRUSH or TRIPPED, on its way to it, and in the mask (R285, R365; DEDUCED, log
entry 77). -/
def Chip.shedNext (m : Chip) : Option Nat :=
  ((List.range 24).reverse).find? (fun n => m.flag .shedMask 0 n && ((m.branch n).gen || (m.branch n).st = .tripped))

/-- The capping value 1.0 (R281, R282). -/
def Chip.capFull (m : Chip) : Chip := { m with pol := { m.pol with capVal := q1 } }

/-- The measured bus voltage in 10 mV × 2^24: BSLOT's INPUT block, where 1.0 is VBUS (R255). -/
def Chip.busV (m : Chip) : Int := (m.lslot m.bslot).ys.headD 0 * (m.fld .busCfg 0 15 0 : Int)

/-- The capping value as R281 gives it, raised by the thermal headroom (R533). Without a voltage or a capacity there is no quotient, and
it is 1.0. -/
def Chip.capFormula (m : Chip) : Int :=
  let den := m.busV * (m.rectCap : Int)
  if m.capRest != .armed || den ≤ 0 then q1
  else min q1 (((m.fld .capCfg 0 9 0 * (m.get .capLimit 0).toNat : Nat) : Int) * q1 * q1 / den + m.funcRed 4)

/-- The capping value is recomputed; in FLOOR the cap is lifted (R282). -/
def Chip.capSet (m : Chip) : Chip :=
  { m with pol := { m.pol with capVal := if m.pol.cap = .floor then q1 else m.capFormula } }

/-- A transition of the capping machine with its action, and the write of RLIM that follows (R256, R282). -/
def Chip.capTo (m : Chip) (c : CapMSt) (f : Chip → Chip) : Chip := (f { m with pol := { m.pol with cap := c } }).rlimWrite

/-- FLOOR is entered (R282). In RETURN BSLOT's SP stays at 1.0, as R258 has it while the base state is HOLDUP. -/
def Chip.capFloor (m : Chip) : Chip :=
  m.capTo .floor (fun m => (if m.pol.ho = .ret then m.capFull else m.capFull.bslotSp m.backSp spCreep).raise 41 0 [])

/-- The transitions that settings and SoC make (R282), evaluated in ONSRC and ANTIC, and in RETURN (R280); none out of CAPPED while the base
state stands still (R44). -/
def Chip.capEval (m : Chip) : Chip :=
  if !(m.pol.ho = .onsrc || m.pol.ho = .antic || m.pol.ho = .ret) then m
  else
    let lift := m.socLow && (!(m.fld .polCfg 0 7 6 = 1) || m.shedNext.isNone)
    match m.pol.cap with
    | .off => if m.capRest = .armed then m.capTo .armed Chip.capSet else m
    | .armed => if m.capRest = .off then m.capTo .off Chip.capFull else if lift then m.capFloor else m
    | .capped => if lift && !m.polFrozen then m.capFloor else m
    | .floor =>
      if ((m.fld .capSoc 0 7 0 + m.fld .capSoc 0 15 8 : Nat) : Int) * e32 ≤ m.shelfLo then m.capTo m.capRest Chip.capSet else m

/-! ### Droop (R263, R266) -/

/-- The droop items of a member (R263). -/
def Chip.droopItems (m : Chip) (e : Nat) : Chip :=
  let vbus := m.fld .busCfg 0 15 0
  let d := m.fld .shareCfg 0 7 0
  ((m.vendorIssue .write e 0x103 ((vbus * (2000 + d) + 1000) / 2000)).vendorIssue .write e 0x104 ((vbus * d + 500) / 1000)).vendorIssue
    .write e 0x105 (m.fld .shareCfg 0 17 8)

/-- A member of the share group whose path is usable. -/
def Chip.memberUsable (m : Chip) (e : Nat) : Bool := (m.members m.shareEntry).contains e && !m.pathFenced e

/-- Members whose path has become usable with this command get their droop items (R263). -/
def Chip.droopWrites (m old : Chip) : Chip :=
  (m.members m.shareEntry).foldl (fun m e => if m.memberUsable e && !(old.up && old.memberUsable e) then m.droopItems e else m) m

/-- Every online member is in droop (R266). -/
def Chip.allDroop (m : Chip) : Bool := !m.onlineMembers.isEmpty && m.onlineMembers.all m.inDroop

/-- SHARE_DROOP when the first member enters droop; while every online member is in droop the rectifier loop is held, and it goes
back to AUTO after that (R266). -/
def Chip.droopEval (m old : Chip) : Chip :=
  let m := if old.droopMask = 0 && m.droopMask != 0 then m.raise 40 0 [wd m.droopMask] else m
  let om := bits (m.lw m.rslot 0) 2 1
  if !m.vendorOk then m
  else if m.allDroop && om = 0 then m.rslotMode 1 0
  else if !m.allDroop && old.allDroop && om = 1 then m.rslotMode 0 0
  else m

/-! ### Trims (R261, R262) -/

/-- A vendor PREDICT is TENTATIVE or RETRACTING (R261, R289). -/
def Chip.predBusy (m : Chip) : Bool :=
  [m.rslot, m.bslot].any (fun s => (m.lslot s).pstate = .tentative || (m.lslot s).pstate = .retracting)

/-- What a member should deliver less what it does, p × I_rated − I, in 0.1 A × 2^24 (R261, R262). -/
def Chip.shareErr (m : Chip) (e : Nat) : Int :=
  sw (wd (m.ent m.shareEntry).genv) * ((m.ent e).rated : Int) - (m.share e).iout * q1

/-- A member's trim moves a quarter of its error and is written to it (R261). Trims are in 0.01 %. -/
def Chip.trimOne (m : Chip) (e : Nat) : Chip :=
  let r := (m.ent e).rated
  let top : Int := (m.fld .shareTrim 0 7 0 : Int) * 10
  let t := clampI (-top) top ((m.share e).trim + rdiv (m.shareErr e * 2500) ((r : Int) * q1))
  (m.putShare e { m.share e with trim := t }).vendorIssue .write e 0x102 (unI t 16)

/-- The share strand has a member's current (R261): it writes the trim, but not while a vendor PREDICT is TENTATIVE or RETRACTING, nor
outside ONSRC, nor to a member in droop. Without a rating there is no error to trim by. -/
def Chip.shareTrims (m : Chip) : Chip :=
  (m.members m.shareEntry).foldl (fun m e =>
    if !(m.share e).due then m
    else
      let m := m.putShare e { m.share e with due := false }
      if m.predBusy || m.pol.ho != .onsrc || m.inDroop e || (m.ent e).rated = 0 then m else m.trimOne e) m

/-- What SHARE_IMBALANCE times for a member (R262): a deviation of a measured current above SHDEV, and a trim at ±TRIMMAX. -/
def Chip.shareSpells (m : Chip) : Chip :=
  (m.members m.shareEntry).foldl (fun m e =>
    let x := m.share e
    let r := (m.ent e).rated
    let top := m.fld .shareTrim 0 7 0 * 10
    let dev := x.seen && r != 0 && decide ((m.fld .shareTrim 0 15 8 * r : Nat) * q1 < 100 * ((m.shareErr e).natAbs : Int))
    let sat := top != 0 && x.trim.natAbs = top
    m.putShare e { x with devAt := m.spell dev x.devAt, satAt := m.spell sat x.satAt, raised := x.raised && (dev || sat) }) m

/-! ### Shedding (R285 to R287) -/

/-- A shedding condition holds (R285). -/
def Chip.shedding (m : Chip) : Bool :=
  let hs := m.fld .capSoc 0 23 16
  (m.pol.cap = .capped && m.fld .polCfg 0 7 6 = 1 && m.socLow && !m.outAtMost (m.fld .hoRet 0 15 0)) ||
    (m.pwr.base = .holdup && hs != 0 && m.shelfLo ≤ (hs : Int) * e32)

/-- When shedding conditions stopped holding (R286): one that holds again starts RESTORE over. -/
def Chip.calmEval (m : Chip) : Chip :=
  let p := m.pol
  if m.shedding then { m with pol := { p with calmAt := none, restAt := none } }
  else { m with pol := { p with calmAt := some (p.calmAt.getD m.now) } }

/-- The mask of branches that the policy has shed (PWRM_SHED_STAT). -/
def Chip.shedStat (m : Chip) : Nat := (List.range 24).foldl (fun a n => if (m.branch n).shed then setM a n else a) 0

/-! ### The policy's watch -/

/-- Everything of the policy that follows at once from what a command changed (R258, R261, R263, R266, R268, R272, R274, R282, R286). -/
def Chip.polReact (m old : Chip) : Chip :=
  let m := (m.polLeave.polSpells).hoEvents old
  if m.up then
    let m := (m.gainsKeep.droopWrites old).droopEval old
    let m := m.shareTrims.shareSpells.capEval
    m.calmEval
  else m

/-! ### Rows -/

/-- The policy strands write RLIM every 10 ms (R256). -/
def Chip.rlimTick (m : Chip) : Chip := m.when m.up (fun m => (m.elapse m.pol.rlimAt 10000).rlimWrite)

/-- The share group's keep-alive every KEEPALIVE (R260). -/
def Chip.keepAlive (m : Chip) : Chip :=
  let m := m.elapse m.pol.keepAt (m.fld .shareCfg 0 27 20 * 1000)
  ({ m with pol := { m.pol with keepAt := m.now } } : Chip).vendorIssue .cmd m.shareEntry 0x110 0

/-- Every PERIOD the share strand reads the members' output currents (R261), item 0x08C, in MIDX order. -/
def Chip.shareTrimTick (m : Chip) : Chip :=
  let m := m.elapse m.pol.trimAt (m.fld .shareTrim 0 31 24 * 10000)
  let m : Chip := { m with pol := { m.pol with trimAt := m.now } }
  (m.membersByMidx m.shareEntry).foldl (fun m e => m.vendorIssue .read e 0x08C 0) m

/-- A member's deviation or saturated trim has lasted SHDEVT (R262): SHARE_IMBALANCE, once while it goes on. -/
def Chip.shareImbalance (m : Chip) (e : Nat) : Chip :=
  let x := m.share e
  let since := match x.devAt, x.satAt with
    | some a, some b => some (min a b)
    | some a, none => some a
    | none, b => b
  match since with
  | some t =>
    if (m.members m.shareEntry).contains e && !x.raised then
      let m := m.elapse t (m.fld .shareTrim 0 23 16 * 1000000)
      (m.putShare e { m.share e with raised := true }).raise 39 e []
    else m
  | none => m

/-- The source condition has held for SRCQ (R268). -/
def Chip.sourceQualified (m : Chip) : Chip :=
  match m.pol.srcSince with
  | some t => m.elapse t (m.fld .srcCfg 0 15 0 * 10000)
  | none => m

/-- The next evaluation of the machine's time-based guards (R274): each multiple of 100 µs of the stamp (DESIGN CHOICE, log entry 77). -/
def Chip.evalTick (m : Chip) : Chip := m.advance ((100 - m.now % 100) % 100)

/-- The backstop has held for BACKT (R274): a hand-over, if the source condition is false. -/
def Chip.hoBackstop (m : Chip) : Chip :=
  match m.pol.outHi with
  | some t =>
    if (m.pol.ho = .onsrc || m.pol.ho = .antic) && !m.srcCondition && !m.polFrozen then
      ((m.elapse t (m.fld .hoCfg 0 31 24 * 1000)).evalTick).handOver .handover 3
    else m
  | none => m

/-- The rectifier current in 0.1 A × 2^24 (R274): what DSLOT takes off the load current, in per-unit of the battery converter's rating, or
without DSLOT the sum of the members' last readings. -/
def Chip.rectCurrent (m : Chip) : Int :=
  match m.dslot with
  | some s =>
    match (List.range (m.nblk s + 1)).find? (fun k => m.blkType s k = 6) with
    | some k => -(rdiv (m.ap s k 0 * ((m.latchSource (m.aw s k 1) 1).v - m.ap s k 1)) q1) * (m.fld .cnvXScale 0 15 0 : Int)
    | none => 0
  | none => (m.members m.shareEntry).foldl (fun a e => a + (m.share e).iout) 0 * q1

/-- The rectifiers have let go (R274): RSLOT OUT at 0.01 or below and their current at 2 % of capacity or below. -/
def Chip.rectsDown (m : Chip) : Bool :=
  (m.lw m.rslot 7).toInt * 100 ≤ q1 && 50 * m.rectCurrent ≤ (m.rectCap : Int) * q1

/-- HANDOVER ends (R274): with the rectifiers down, without DSLOT after 2 ms at least, else after MAXT. -/
def Chip.hoDone (m : Chip) : Chip :=
  if m.pol.ho = .handover && !m.polFrozen then
    let wait := if !m.rectsDown then m.fld .hoCfg 0 23 16 * 1000 else if m.dslot.isSome then 0 else 2000
    ((m.elapse m.pol.hoAt wait).evalTick).hoTo .onbatt (fun m => ((m.rslotMode 2 0).eventRecord 207 0 []).event 207)
  else m

/-- DWELL has elapsed with the source qualified (R274, R278). -/
def Chip.retStart (m : Chip) : Chip :=
  match m.pol.srcSince with
  | some t =>
    if m.pol.ho = .onbatt && !m.polFrozen then
      let m := ((m.elapse m.pol.hoAt (m.fld .hoCfg 0 15 0 * 1000)).elapse t (m.fld .srcCfg 0 15 0 * 10000)).evalTick
      (m.rampFrom0 false).hoTo .ret (fun m => ((m.gainsBack.rslotMode 0 0).eventRecord 208 0 []).event 208)
    else m
  | none => m

/-- BSLOT OUT has been at RETDONE or below for RETDWELL in RETURN (R274). -/
def Chip.retDone (m : Chip) : Chip :=
  match m.pol.outLo with
  | some t =>
    if m.pol.ho = .ret && !m.polFrozen then
      let m := (m.elapse (max t m.pol.hoAt) (m.fld .hoRet 0 31 16 * 1000)).evalTick
      m.hoTo .onsrc (fun m => (((m.bslotSp m.backSp 0).eventRecord 209 0 []).event 209).openRecord 3)
    else m
  | none => m

/-- Every 10 ms the capping value is computed anew (R281). -/
def Chip.capRecompute (m : Chip) : Chip :=
  let m := (m.elapse m.pol.capAt 10000).capSet
  { m with pol := { m.pol with capAt := m.now } }

/-- The capping machine may enter or leave CAPPED (R282), which moves the base state, but not while the SAFE programme has stopped the
battery converter (R44). -/
def Chip.capRuns (m : Chip) : Bool := (m.pol.ho = .onsrc || m.pol.ho = .antic) && !m.polFrozen

/-- BSLOT OUT has been at BACKI or above for ENTRYT (R282). -/
def Chip.capEnter (m : Chip) : Chip :=
  match m.pol.outHi with
  | some t =>
    if (m.pol.cap = .off || m.pol.cap = .armed) && m.capRuns && m.srcCondition && !m.socLow then
      (m.elapse t (m.fld .capCfg 0 19 12 * 100000)).capTo .capped (fun m =>
        let m : Chip := { m with pol := { m.pol with capacity := !(m.pol.capVal < q1 : Bool) } }
        ((m.bslotSp q1 spCreep).eventRecord 210 0 [wd (b2n m.pol.capacity)]).event 210)
    else m
  | none => m

/-- BSLOT OUT has been at RETDONE or below for EXITT (R282). -/
def Chip.capExit (m : Chip) : Chip :=
  match m.pol.outLo with
  | some t =>
    if m.pol.cap = .capped && m.capRuns then
      let m := m.elapse t (m.fld .capCfg 0 31 24 * 1000000)
      m.capTo m.capRest (fun m =>
        let m := if m.pol.cap = .off then m.capFull else m
        ((m.bslotSp m.backSp spCreep).eventRecord 211 0 []).event 211)
    else m
  | none => m

/-- One branch is shed (R285): the highest-numbered that is on and in the mask. -/
def Chip.branchShed (m : Chip) : Chip :=
  if m.shedding && m.pwr.base != .shadow then
    match m.shedNext with
    | some n =>
      let m := m.elapse m.pol.shedAt (m.fld .shedCfg 0 7 0 * 10000)
      let m := m.brnOff n 1
      let m := m.putBranch n { m.branch n with shed := true }
      let m : Chip := { m with pol := { m.pol with shedAt := m.now, calmAt := none, restAt := none } }
      (m.eventRecord 212 n [wd n]).event 212
    | none => m
  else m

/-- The shed branch that is turned on next (R286): the lowest-numbered one that takes its ON now, else the lowest-numbered one. -/
def Chip.restoreNext (m : Chip) : Option Nat :=
  let shed := (List.range 24).filter (fun n => (m.branch n).shed)
  match shed.find? (fun n => (brnOnAct n m).v.first.isNone) with
  | some n => some n
  | none => shed.head?

/-- One shed branch is turned on again (R286): RESTORE after the last condition, then one every STEP, lowest first. -/
def Chip.shedRestore (m : Chip) : Chip :=
  match m.pol.calmAt, m.restoreNext with
  | some t, some n =>
    if m.shedding || m.pwr.base = .shadow then m
    else
    let m := match m.pol.restAt with
      | some r => m.elapse r (m.fld .shedCfg 0 7 0 * 10000)
      | none => m.elapse t (m.fld .shedCfg 0 15 8 * 1000000)
    let m : Chip := { m with pol := { m.pol with restAt := some m.now } }
    let a := brnOnAct n m
    match a.v.first with
    | some st => a.rej st m
    | none => (a.eff m).1
  | _, _ => m

/-! ### Writes and views -/

/-- PWRM_POL_CMD (R274, R276): the status is kept in PWRM_POL_STAT.CMDST. -/
def polCmdAct (d : Word) (m : Chip) : Act :=
  let note := fun (st : Status) (m : Chip) => ({ m with pol := { m.pol with cmdst := st.code } } : Chip)
  { v := { erange := bits d 3 0 != 1, estate := m.pol.ho != .onsrc || m.polFrozen || m.pwr.base = .shadow }
    eff := fun m => (note .ok (m.handOver .handover 4), .ok)
    rej := note }

/-- DROOP < 2 × VBACK and KEEPALIVE ≤ DROOPT ÷ 3, with their ranges (R263, R265). -/
def shareOk (share bus : Word) : Bool :=
  bits share 7 0 < 2 * bits bus 23 16 && 3 * bits share 27 20 ≤ bits share 17 8

/-- A write of a policy register (R265, R272). -/
def polAct (r : RName) (i : Nat) (d : Word) (m : Chip) : Act :=
  match r with
  | .polCmd => polCmdAct d m
  | .polCfg =>
    { eff := fun m =>
        let m := m.store r i d
        let held := m.pol.ho = .handover || m.pol.ho = .onbatt
        (if !bitOf d 2 then m.gainsZero else if held then m else m.gainsBack, .ok) }
  | .shareCfg => actStoreIf { erange := !shareOk d (m.get .busCfg 0) } r i d
  | .busCfg => actStoreIf { erange := !shareOk (m.get .shareCfg 0) d } r i d
  | _ => actStore r i d

/-- The policy's quiescent point for a LEVEL change (R289). -/
def Chip.polQuiet (m : Chip) : Bool :=
  (m.pol.ho = .idle || m.pol.ho = .onsrc) && m.pol.cap != .capped && !m.predBusy

/-- The code of a hand-over state. -/
def HoSt.code : HoSt → Nat
  | .idle => 0 | .onsrc => 1 | .antic => 2 | .handover => 3 | .onbatt => 4 | .ret => 5

/-- The code of a capping state. -/
def CapMSt.code : CapMSt → Nat
  | .off => 0 | .armed => 1 | .capped => 2 | .floor => 3

/-- PWRM_POL_STAT (R295). -/
def Chip.polStat (m : Chip) : Word :=
  wd (m.pol.ho.code + b2n m.srcCondition * 64 + b2n m.srcQualified * 128 + m.pol.cap.code * 512 + b2n m.pol.capacity * 2048 +
    m.pol.hoCause * 4096 + popM 24 m.shedStat * 65536 + m.pol.cmdst * 2 ^ 24)

/-- The read-only policy registers. -/
def Chip.polRead (m : Chip) (r : RName) (i : Nat) : Word :=
  match r with
  | .polStat => m.polStat
  | .shareDroop => wd (m.droopMask / 2 ^ (32 * i) % 2 ^ 32)
  | .shedStat => wd m.shedStat
  | .rectCap => wd (min 65535 m.rectCap + min 63 m.onlineMembers.length * 65536)
  | .rlim => m.common 0x3C0
  | _ => m.get r i

end Sys2Proof.Machine
end

