-- ==== Sys2Proof/Machine/TwoWire.lean ====
section
/-!
DEFINITION. The two-wire buses (R461 to R485): the choice of the transaction a path starts, transfers and their endings,
arbitration, hails, stuck-bus recovery, muxes, and bus 15 as target.
-/

namespace Sys2Proof.Machine

/-! ### What a path starts (R434) -/

/-- A transaction is the undecided head of its entry's queue (R434). -/
def Chip.atHead (m : Chip) (t : Txn) : Bool := t.early.isNone && m.isHead t

/-- A group's two-wire parts start in MIDX order (R444). -/
def legTurn (t : Txn) (l : Leg) : Bool :=
  16 ≤ l.path || (t.legs.takeWhile (fun o => !(o.path = l.path && o.entry = l.entry))).all (fun o =>
    16 ≤ o.path || o.active || o.done)

/-- A transaction that drives a partner's setpoint waits while the chip's output gate is closed (R24, R25, R578). -/
def Chip.gateHolds (m : Chip) (t : Txn) : Bool :=
  !m.gateOpen && (t.kind = .setp || t.kind = .final || t.kind = .retract || t.kind = .restore || t.kind = .keep)

/-- A restore owed on a path has yet to be sent: nothing else is sent there before it (R456, R517). -/
def Chip.restoring (m : Chip) (p : Nat) : Bool :=
  m.gateOpen && m.allTxns.any (fun t => t.first && t.kind = .restore && t.early.isNone && !t.held &&
    (if m.entGroup t.entry then t.legs.any (fun l => l.path = p && !l.active && !l.done)
     else m.entPath t.entry = p && !t.wire && (m.ent t.entry).st != .fenced))

/-- The parts a path could start now, a transaction with the member for a group's part (the entry itself otherwise): what is held by R446
and the parts of fenced paths aside, owed restores alone while one has yet to be sent (R456), and no keep-alive beside a retract (R520). -/
def Chip.startable (m : Chip) (p : Nat) : List (Txn × Nat) :=
  let only : Bool := m.restoring p
  let cands := m.ptn.pool.flatMap (fun t =>
    if !m.atHead t || m.gateHolds t || (only && !t.first) || (t.held && (16 ≤ p || !m.entGroup t.entry)) then []
    else if m.entGroup t.entry then
      (t.legs.filter (fun l => l.path = p && !l.active && !l.done && legTurn t l && (16 ≤ p || !m.pathFenced l.entry))).map
        (fun l => (t, l.entry))
    else if m.entPath t.entry = p && !t.wire && !m.pathFenced t.entry then [(t, t.entry)]
    else [])
  if cands.any (fun c => c.1.kind = .retract) then cands.filter (fun c => c.1.kind != .keep) else cands

/-- The order in which a path serves what it could start: class, owed restores (R456), time of issue, then as issued. -/
def startKey (t : Txn) : List Nat :=
  [t.cls, b2n (!t.first), t.issued, t.id]

/-- The first of the startable parts in that order. -/
def firstOf : List (Txn × Nat) → Option (Txn × Nat)
  | [] => none
  | c :: cs =>
    match firstOf cs with
    | none => some c
    | some d => if startKey d.1 < startKey c.1 then some d else some c

/-- A generation recorded with a tentative T goes out on a path (R440). -/
def Chip.genSent (m : Chip) (t : Txn) (p : Nat) : Chip :=
  let x := m.ent t.entry
  if t.kind = .setp && x.gens.any (fun g => g.gen = t.gen && !g.sent.contains p) then
    m.putEnt t.entry { x with gens := x.gens.map (fun g =>
      if g.gen = t.gen && !g.sent.contains p then { g with sent := g.sent ++ [p] } else g) }
  else m

/-- The value a transaction carries: what is in force at its entry for keep-alives, retracts and restores (R441, R445). -/
def Chip.txnValue (m : Chip) (t : Txn) : Nat :=
  match t.kind with
  | .keep | .retract | .restore => (m.ent t.entry).genv
  | _ => t.data

/-- A part of a group's transaction changed. -/
def Chip.mapLeg (m : Chip) (id p e : Nat) (f : Leg → Leg) : Chip :=
  m.mapTxn id (fun t => { t with legs := t.legs.map (fun l => if l.path = p && l.entry = e then f l else l) })

/-! ### The wire form (R464, R476) -/

/-- The low bytes of a number, byte 0 first. -/
def bytesOf (n v : Nat) : List Nat := (List.range n).map (fun k => v / 256 ^ k % 256)

/-- The number of little-endian bytes. -/
def ofBytes : List Nat → Nat
  | [] => 0
  | b :: bs => b % 256 + 256 * ofBytes bs

/-- Bytes of the commons. -/
def Chip.commonsGet (m : Chip) (off n : Nat) : List Nat :=
  (List.range n).map (fun k => (m.common ((off + k) / 4)).toNat / 256 ^ ((off + k) % 4) % 256)

/-- The item a transaction sends to entry e: a group sends SHARE_VALUE to its members. -/
def Chip.wireItem (m : Chip) (t : Txn) (e : Nat) : Nat × Nat :=
  (itemOf (m.entClass e) (if m.entGroup t.entry then 0x100 else t.item)).getD (0, 0)

/-- Whether a transaction reads. -/
def TxKind.reads (k : TxKind) : Bool := k = .read || k = .poll || k = .blkr

/-- The bytes the bus sends for a transaction to entry e (R464). -/
def Chip.wireBytes (m : Chip) (t : Txn) (e : Nat) : List Nat :=
  let aw := 2 * m.entAddr e
  let (code, len) := m.wireItem t e
  let out :=
    if t.kind.reads then [aw, code, aw + 1]
    else if t.kind = .cmd then [aw, code]
    else if t.kind = .blkw then
      aw :: code :: bits t.desc 31 24 :: m.commonsGet (bits t.desc 17 0) (bits t.desc 31 24)
    else aw :: code :: bytesOf len (m.txnValue t)
  if bitOf (m.pw e 1) 7 && !t.kind.reads then out ++ [crc8 out] else out

/-! ### Muxes (R474, R475) -/

/-- A mux lies on a bus: an enabled entry of it has MUXEN. -/
def Chip.busMuxed (m : Chip) (n : Nat) : Bool := (m.entriesOn n).any (fun e => (m.entMux e).isSome)

/-- A transfer through a mux channel of bus n, or to an address that lies behind none, needs a select first (R475). -/
def Chip.needsSelect (m : Chip) (n : Nat) (mux : Option Nat) : Bool :=
  match mux with
  | some ch => (m.bus n).mux != some ch
  | none => m.busMuxed n

/-- A select has failed (R475). After a failure no channel counts as selected (PRESUMED, log entry 55). -/
def Chip.muxFailed (m : Chip) (n : Nat) (mux : Option Nat) : Chip :=
  let b := m.bus n
  match mux with
  | none => m.putBus n { b with mux := none }
  | some ch =>
    let k := NTab.get 0 b.muxFails ch + 1
    let full := m.fld .twbNTmo n 23 20 ≤ k
    let m := m.putBus n { b with mux := none, muxFails := NTab.set 0 b.muxFails ch (if full then 0 else k) }
    if full then m.raise 107 (8 * n + ch) [] else m

/-- A select has succeeded. -/
def Chip.muxSelected (m : Chip) (n : Nat) (mux : Option Nat) : Chip :=
  let b := m.bus n
  match mux with
  | none => m.putBus n { b with mux := none }
  | some ch => m.putBus n { b with mux := some ch, muxFails := NTab.set 0 b.muxFails ch 0 }

/-- The address of the mux of bus n, that every entry behind it names (R474). -/
def Chip.muxAddr (m : Chip) (n : Nat) : Nat :=
  match (m.entriesOn n).find? (fun e => (m.entMux e).isSome) with
  | some e => bits (m.pw e 1) 22 16
  | none => 0

/-- The bytes of a mux select (R464, R474, R475): the control byte written has only the channel's bit, or none. `sel` is how it ends: one
that is not acknowledged is not read back. -/
def selBytes (a : Nat) (mux : Option Nat) (sel : Nat) : List Nat :=
  let ctl := match mux with
    | some ch => 2 ^ ch
    | none => 0
  if sel = 1 then [2 * a, ctl] else [2 * a, ctl, 2 * a + 1]

/-- The bytes read, with the acknowledge of each: all but the last (R464). -/
def ackedBytes (bs : List Nat) : List (Nat × Bool) :=
  (bs.zip (List.range bs.length)).map (fun x => (x.1, x.2 + 1 < bs.length))

/-! ### Endings (R434, R444, R465) -/

/-- A member's part of a group transaction ends: it counts at the member, and the member may be lost (R444, R453). -/
def Chip.legEnd (m : Chip) (t : Txn) (p e : Nat) (st : Status) : Chip :=
  let m := m.mapLeg t.id p e (fun l => { l with active := false, done := true, ok := st = .ok })
  let r := m.entOutcome e st
  if r.2 then r.1.raise 88 e [] else r.1

/-- The transfer of bus n to entry e ends with a status. A failed transaction, or a failed write to a group's member, with retries left
stays at its entry's head (R434, R465). -/
def Chip.wireEnd (m : Chip) (n : Nat) (t : Txn) (e : Nat) (st : Status) (v : Nat) : Chip :=
  let m := m.busIdle n
  let again := (st = .enack || st = .etimeout || st = .eproto) && 0 < t.retries
  if m.entGroup t.entry then
    let left := t.legs.foldl (fun a l => if l.path = n && l.entry = e then l.retries else a) 0
    if (st = .enack || st = .etimeout || st = .eproto) && 0 < left then
      m.mapLeg t.id n e (fun l => { l with active := false, retries := l.retries - 1 })
    else m.legEnd t n e st
  else if again then m.mapTxn t.id (fun o => { o with wire := false, retries := o.retries - 1 })
  else m.endTxn t st v

/-- The transaction on a bus's wire, with the entry it addresses. -/
def Chip.onBus (m : Chip) (n : Nat) : Option (Txn × Nat) :=
  match (m.bus n).onWire with
  | none => none
  | some id => (m.ptn.pool.find? (fun t => t.id = id)).map (fun t => (t, (m.bus n).wireEntry))

/-- A bus may carry a transfer as controller: enabled, not the target bus, and not in SHADOW (R477, R480). -/
def Chip.busRuns (m : Chip) (n : Nat) : Bool :=
  m.flag .twbNCfg n 0 && !m.flag .twbNCfg n 4 && m.pwr.base != .shadow && m.dom 9 != .off

/-- Arbitration is lost on bus n by a transaction to entry e (R466): it competes again, or completes with EARB after ARBRETRY further
losses. -/
def Chip.arbLost (m : Chip) (n : Nat) (t : Txn) (e : Nat) : Chip :=
  let m := m.bump .twbNCnt0 n 31 16 1
  let group := m.entGroup t.entry
  let losses := if group then (t.legs.foldl (fun a l => if l.path = n && l.entry = e then l.arbs else a) 0) else t.arbs
  let m := if m.fld .twbNTmo n 19 16 < losses + 1 then m.wireEnd n t e .earb 0
    else if group then (m.busIdle n).mapLeg t.id n e (fun l => { l with active := false, arbs := l.arbs + 1 })
    else (m.busIdle n).mapTxn t.id (fun o => { o with wire := false, arbs := o.arbs + 1 })
  m.putBus n { m.bus n with other := true }

/-- A probe of bus n loses arbitration (R466): it is repeated, or after ARBRETRY further losses its address is passed. -/
def Chip.probeArb (m : Chip) (n a : Nat) : Chip :=
  let m := m.bump .twbNCnt0 n 31 16 1
  let m := if m.fld .twbNTmo n 19 16 < m.ptn.discArbs + 1 then m.probeEnd n a false
    else { m.busIdle n with ptn := { (m.busIdle n).ptn with discArbs := m.ptn.discArbs + 1 } }
  m.putBus n { m.bus n with other := true }

/-- Bus n starts the transfer of a transaction to entry e (R434, R464, R475); after the transaction that a failed select ends, TW_MUX_FAIL is judged. `sel` is how a select that it needs ends: 0 for well, 1 for not
acknowledged, 2 for another value read back, 3 for lost arbitration. -/
def Chip.busTransfer (m : Chip) (n sel : Nat) (t : Txn) (e : Nat) : Chip :=
  let need := m.needsSelect n (m.entMux e)
  if need && sel = 3 then m.arbLost n t e
  else if need && sel != 0 then
    let m := m.putBus n { m.bus n with sel := selBytes (m.muxAddr n) (m.entMux e) sel }
    (m.wireEnd n t e (if sel = 1 then .enack else .eproto) 0).muxFailed n (m.entMux e)
  else
    let m := if need then m.muxSelected n (m.entMux e) else m
    let m := m.putBus n { m.bus n with sel := if need then selBytes (m.muxAddr n) (m.entMux e) 0 else [], got := [] }
    let m := m.genSent t (if m.entGroup t.entry then 32 + e else n)
    let m := m.mapTxn t.id (fun o => { o with wire := true, started := true })
    let m := if m.entGroup t.entry then m.mapLeg t.id n e (fun l => { l with active := true }) else m
    m.putBus n { m.bus n with st := .active, onWire := some t.id, wireEntry := e, sent := m.wireBytes t e, since := m.now }

/-- The mux address that a discovery names. -/
def discMuxAddr (d : Word) : Nat := bits d 31 25

/-- Bus n starts the Receive Byte of a discovery's probe (R454). -/
def Chip.busProbe (m : Chip) (n sel a : Nat) (d : Word) : Chip :=
  let need := m.needsSelect n (discMux d)
  if need && sel = 3 then m.probeArb n a
  else if need && sel != 0 then
    let m := m.putBus n { m.bus n with sel := selBytes (discMuxAddr d) (discMux d) sel }
    (m.probeEnd n a false).muxFailed n (discMux d)
  else
    let m := if need then m.muxSelected n (discMux d) else m
    let m := m.putBus n { m.bus n with sel := if need then selBytes (discMuxAddr d) (discMux d) 0 else [], got := [] }
    m.putBus n { m.bus n with st := .active, probe := some a, sent := [2 * a + 1], since := m.now }

/-- What a discovery's probe, of class 3 and issued with the discovery, is served by (R433, R434). -/
def Chip.probeKey (m : Chip) : List Nat := [3, 1, m.ptn.discAt, 0]

/-- Another controller holds bus n from its START on, seen while this device sends nothing: SCL has followed SDA within 20 µs (R466, R468,
R481). -/
def Chip.otherStart (m : Chip) (n : Nat) : Chip :=
  let b := m.bus n
  if !m.flag .twbNCfg n 0 || m.busFenced n || b.st = .recover || b.onWire.isSome || b.probe.isSome || b.ara then m
  else m.putBus n { b with other := true, sda := false, since := m.now }

/-- Its STOP leaves bus n idle. -/
def Chip.otherStop (m : Chip) (n : Nat) : Chip :=
  let b := m.bus n
  if b.other then m.putBus n { b with other := false, scl := true, sda := true, since := m.now } else m

/-- Bus n starts the transfer its turn falls to, on an idle bus only (R434, R454, R466, R475). What is seen there may be, in place of a
start, the START of another controller (`sel` = 4) or its STOP (5). -/
def Chip.busStart (m : Chip) (n : Nat) (sel : Nat) : Chip :=
  if sel = 4 then m.otherStart n
  else if sel = 5 then m.otherStop n
  else if !m.busRuns n || (m.bus n).st != .idle || (m.bus n).other then m
  else
    let free := m.putBus n { m.bus n with scl := true, sda := true }
    match firstOf (m.startable n), m.probeNext n with
    | none, none => m
    | some (t, e), none => free.busTransfer n sel t e
    | none, some a => free.busProbe n sel a (m.ptn.discRun.getD 0)
    | some (t, e), some a =>
      if startKey t < m.probeKey then free.busTransfer n sel t e else free.busProbe n sel a (m.ptn.discRun.getD 0)

/-- How a transfer to entry e ends for the bytes read (R465): none where the bytes are not those such a transfer reads. -/
def Chip.readEnd (m : Chip) (t : Txn) (e : Nat) (bytes : List Nat) : Option (Status × Nat) :=
  if t.kind = .blkr then
    match bytes with
    | [] => none
    | c :: ds =>
      if bits t.desc 31 24 < c then (if ds.isEmpty then some (.eproto, 0) else none)
      else if ds.length = c then some (.ok, c) else none
  else if t.kind.reads then (if bytes.length = (m.wireItem t e).2 then some (.ok, ofBytes bytes) else none)
  else if bytes.isEmpty then some (.ok, 0) else none

/-- A transfer of bus n ends (R465): 0 acknowledged and, where the entry uses it, with a good PEC; 1 not acknowledged; 2
with a PEC that does not match. Bytes are committed only when it ends OK. A probe that reads its byte has found a partner (R454). -/
def Chip.twEnd (m : Chip) (n out : Nat) (bytes : List Nat) : Chip :=
  match (m.bus n).probe, m.onBus n with
  | some a, _ =>
    if out = 1 then (m.bump .twbNCnt0 n 15 0 1).probeEnd n a false
    else if out = 0 && bytes.length = 1 then m.probeEnd n a true
    else m
  | none, none => m
  | none, some (t, e) =>
    let m := m.putBus n { m.bus n with got := ackedBytes bytes }
    if out = 1 then (m.bump .twbNCnt0 n 15 0 1).wireEnd n t e .enack 0
    else if out = 2 then
      if t.kind.reads && bitOf (m.pw e 1) 7 then
        ((m.bump .twbNCnt1 n 15 0 1).bump .twbNCnt1 n 31 16 1).wireEnd n t e .eproto 0
      else m
    else
      match m.readEnd t e bytes with
      | none => m
      | some (st, v) =>
        let m := if st = .ok && t.kind = .blkr then m.blockIn t (bytes.drop 1) else m
        m.wireEnd n t e st v

/-- An ARA read runs on bus n. -/
def Chip.inHail (m : Chip) (n : Nat) : Bool := (m.bus n).st = .hail && (m.bus n).ara

/-- Something that this device sends is on the wire of bus n: a transfer, a probe or an ARA read. -/
def Chip.busBusy (m : Chip) (n : Nat) : Bool := m.inHail n || (m.bus n).probe.isSome || (m.onBus n).isSome

/-- What is on the wire of bus n is given up with a status: an ARA read is abandoned, a probe's address passed (R465, R471, R481). -/
def Chip.wireAbort (m : Chip) (n : Nat) (st : Status) : Chip :=
  if m.inHail n then m.busIdle n
  else match (m.bus n).probe, m.onBus n with
    | some a, _ => m.probeEnd n a false
    | none, some (t, e) => m.wireEnd n t e st 0
    | none, none => m

/-- A target holds SCL of bus n low, since a stamp. -/
def Chip.sclLow (m : Chip) (n t0 : Nat) : Chip := m.putBus n { m.bus n with scl := false, sclAt := t0 }

/-- STRETCHTO and STUCKTO of bus n in µs (R465, R471). -/
def Chip.stretchTo (m : Chip) (n : Nat) : Nat := m.fld .twbNTmo n 7 0 * 1000
def Chip.stuckTo (m : Chip) (n : Nat) : Nat := m.fld .twbNTmo n 15 8 * 1000

/-- SCL has been held low by a target for STRETCHTO, at the earliest from the start of what is on the wire (R465). -/
def Chip.twStretch (m : Chip) (n : Nat) : Chip :=
  if !m.busBusy n then m
  else
    let m := m.elapse (m.bus n).since (m.stretchTo n)
    ((m.bump .twbNCnt2 n 15 0 1).wireAbort n .etimeout).sclLow n (m.now - m.stretchTo n)

/-- Arbitration is lost on bus n (R466). An ARA read that loses it is repeated, and does not count toward HAILMAX (R481). -/
def Chip.twArb (m : Chip) (n : Nat) : Chip :=
  if m.inHail n then (m.putBus n { m.bus n with ara := false, other := true }).bump .twbNCnt0 n 31 16 1
  else match (m.bus n).probe, m.onBus n with
    | some a, _ => m.probeArb n a
    | none, some (t, e) => m.arbLost n t e
    | none, none => m

/-- A START or STOP falls within a byte (R467). As target, bus 15 only counts it. -/
def Chip.twProto (m : Chip) (n : Nat) : Chip :=
  if m.flag .twbNCfg n 4 && m.flag .twbNCfg n 0 then m.bump .twbNCnt1 n 15 0 1
  else if m.busBusy n then (m.bump .twbNCnt1 n 15 0 1).wireAbort n .eproto
  else m

/-! ### Hails (R468 to R470) -/

/-- A hail is taken 20 µs after SDA fell (R468). In SHADOW and on a fenced bus it is only counted (R480, R481). -/
def Chip.hailDetect (m : Chip) (n : Nat) : Chip :=
  let b := m.bus n
  if !m.flag .twbNCfg n 0 || !m.flag .twbNCfg n 3 || m.flag .twbNCfg n 4 then m
  else if m.pwr.base = .shadow || m.busFenced n then m.bump .twbNCnt3 n 15 0 1
  else if b.st = .idle && b.onWire.isNone && !b.other then
    (m.putBus n { b with st := .hail, aras := 0, ara := false, sda := false, hailAt := m.now, since := m.now }).advance 20
  else m

/-- The enabled entry of bus n at an address: unmuxed, or behind the selected channel (R470). -/
def Chip.hailEntry (m : Chip) (n a : Nat) : Option Nat :=
  (m.entriesOn n).find? (fun e => m.entAddr e = a && (m.entMux e = none || m.entMux e = (m.bus n).mux))

/-- An ARA read starts on bus n, ahead of queued transactions (R464, R468). -/
def Chip.araStart (m : Chip) (n : Nat) : Chip :=
  let b := m.bus n
  if b.st = .hail && !b.ara && !b.other then
    m.putBus n { b with ara := true, sda := true, since := m.now, sent := [0x19], sel := [], got := [] }
  else m

/-- A hail holds SDA beyond 100 µs (R481): counted, and its first ARA read waits. -/
def Chip.hailLong (m : Chip) (n : Nat) : Chip :=
  let b := m.bus n
  if b.st = .hail && !b.ara && b.aras = 0 then (m.elapse b.hailAt 100).bump .twbNCnt3 n 31 16 1 else m

/-- The mux channel that a record of bus n names, where one is selected (R485). -/
def Chip.muxWord (m : Chip) (n : Nat) : Word :=
  let mux := (m.bus n).mux
  wd (mux.getD 0 * 256 + b2n mux.isSome * 2048)

/-- An ARA read of bus n ends (R464, R468, R470): not acknowledged, or answered with an address and bit 0; the byte is acknowledged where a
PEC follows it. -/
def Chip.araEnd (m : Chip) (n : Nat) (ack : Bool) (a b0 : Nat) : Chip :=
  let b := m.bus n
  if !m.inHail n then m
  else if !ack then m.busIdle n
  else
    let e := m.hailEntry n a
    let pec := match e with
      | some k => bitOf (m.pw k 1) 7
      | none => false
    let w := wd (a + b0 * 128 + e.getD 0xFFF * 256 + 2 ^ 31)
    let m := (m.put .twbNHail n w).bump .twbNCnt3 n 15 0 1
    let m := (m.eventRecord 223 n [wd a, wd (e.getD 0xFFF), wd b0, m.muxWord n]).event 223
    let m := if e.isNone then m.discAdd (discWord false n b.mux a) else m
    let m := m.putBus n { m.bus n with aras := b.aras + 1, ara := false, since := m.now, got := [(2 * a + b0, pec)] }
    if m.fld .twbNTmo n 28 24 ≤ b.aras + 1 then m.busIdle n else m

/-! ### Recovery (R471 to R473) -/

/-- The payload of a BUS_STUCK record, from payload word 6 on (R485). -/
def Chip.stuckPayload (m : Chip) (n cause : Nat) : List Word :=
  [wd cause ||| m.muxWord n]

/-- SDA has stayed low for STUCKTO, at the earliest from when the bus came to what it does, where bus n needs it high (R471): the transaction on the wire completes with EABORT, and
recovery begins. -/
def Chip.stuckDetect (m : Chip) (n : Nat) : Chip :=
  let b := m.bus n
  if !m.busRuns n || !(b.st = .idle || b.st = .active || b.st = .hail) then m
  else
    let m := (m.elapse b.since (m.stuckTo n)).wireAbort n .eabort
    m.putBus n { m.bus n with st := .recover, onWire := none, ara := false, sda := false, byCmd := 0, wasFenced := false, since := m.now }

/-- The outcome of a recovery that the last command of TWB_CMDSTAT started (R473). -/
def Chip.recoverStat (m : Chip) (n code : Nat) (st : Status) : Chip :=
  let w := m.get .twbCmdstat 0
  if code != 0 && bits w 7 0 = Status.ebusy.code && bits w 15 8 = code && bits w 19 16 = n then
    m.putF .twbCmdstat 0 7 0 st.code
  else m

/-- The mux segments of bus n whose TW_MUX_FAIL flag has been read are usable again (R546). -/
def Chip.muxUsable (m : Chip) (n : Nat) : Chip :=
  (List.range 8).foldl (fun m ch =>
    if m.muxFenced n ch && m.fenceRead .mux (8 * n + ch) then
      (({ m with twb := { m.twb with muxFence := NTab.set false m.twb.muxFence (8 * n + ch) false } } : Chip).dropFence .mux
        (8 * n + ch))
    else m) m

/-- The recovery of bus n has succeeded: no mux channel is selected, and a bus that was fenced is fenced no more (R471,
R473). -/
def Chip.recovered (m : Chip) (n : Nat) : Chip :=
  let b := m.bus n
  let m := m.bump .twbNCnt2 n 31 16 1
  let m := (m.eventRecord 224 n [m.muxWord n]).event 224
  let m := (m.putBus n { b with st := .idle, mux := none, scl := true, sda := true, byCmd := 0, wasFenced := false }).busIdle n
  let m := m.recoverStat n b.byCmd .ok
  let m := if b.wasFenced then m.dropFence .bus n else m
  let lifted := (List.range 8).any (fun ch => m.muxFenced n ch && m.fenceRead .mux (8 * n + ch))
  let m := m.muxUsable n
  if b.wasFenced || lifted then m.pathUsable n else m

/-- The recovery of bus n has ended with SDA high but SCL low (R473): a bus that was fenced stays so; another waits for R472. -/
def Chip.sclHeld (m : Chip) (n : Nat) : Chip :=
  let b := m.bus n
  let m := m.recoverStat n b.byCmd .etimeout
  m.putBus n { b with st := if b.wasFenced then .fenced else .idle, sda := true, scl := false, sclAt := m.now, byCmd := 0, wasFenced := false,
                      since := m.now }

/-- The recovery of bus n has failed with SDA low: the bus is fenced, whatever the severity of BUS_STUCK (R471, R473). -/
def Chip.notRecovered (m : Chip) (n : Nat) : Chip :=
  let b := m.bus n
  let pay := m.stuckPayload n 1
  let b := { b with sda := false, scl := true }
  let m := (m.putBus n b).recoverStat n b.byCmd .etimeout
  let m := if b.wasFenced then m.putBus n { b with st := .fenced, byCmd := 0 } else m.busFence n (91 + n)
  m.raise (91 + n) n pay

/-- The period of SCL on bus n in ns (R462). -/
def Chip.sclPeriod (m : Chip) (n : Nat) : Nat :=
  let b := m.bus n
  if b.useSpeed = 0 then 10000 else if b.useSpeed = 1 then 2500 else if b.useSpeed = 2 then 1000 else 20 * (b.useDiv + 1)

/-- The recovery of bus n ends (R471, R473): with SDA low after the ninth clock (`lines` = 0), with both lines high after one of the nine
(1), or with SCL low (2). -/
def Chip.recoveryEnd (m : Chip) (n lines : Nat) : Chip :=
  if (m.bus n).st != .recover then m
  else
    let clocks := if lines = 0 then 9 else 1
    let m := m.elapse (m.bus n).since ((clocks * m.sclPeriod n + 999) / 1000)
    if lines = 1 then m.recovered n else if lines = 0 then m.notRecovered n else m.sclHeld n

/-- Every bus releases both lines in SHADOW (R480): a transfer goes back to its entry's queue, an ARA read and a probe end, and a recovery ends
without success (DEDUCED, log entry 55). -/
def Chip.busRelease (m : Chip) (n : Nat) : Chip :=
  let b := m.bus n
  if b.st = .idle || b.st = .fenced then m
  else
    let m := if b.st = .recover then m.recoverStat n b.byCmd .etimeout else m
    let m := match b.onWire with
      | some id => m.mapTxn id (fun t =>
          { t with wire := false, legs := t.legs.map (fun (l : Leg) => if l.path = n then { l with active := false } else l) })
      | none => m
    let m := m.busIdle n
    m.putBus n { m.bus n with st := if b.wasFenced then .fenced else .idle, aras := 0, byCmd := 0, wasFenced := false }

/-- The chip leaves the lines of every bus and the transmit queue of every segment in SHADOW (R480, R518). -/
def Chip.linesRelease (m : Chip) : Chip :=
  let m := (List.range 16).foldl (fun m n => m.busRelease n) m
  (List.range 4).foldl (fun m n => m.putSeg n { m.seg n with txq := [] }) m

/-- SCL has stayed low for STUCKTO from the start of a target's stretch (R472), which has ended its transfer before, since STRETCHTO is
shorter (R465). -/
def Chip.stuckScl (m : Chip) (n : Nat) : Chip :=
  let m := if (m.bus n).scl && m.busBusy n then m.twStretch n else m
  let b := m.bus n
  if b.scl || !m.busRuns n || !(b.st = .idle || b.st = .active || b.st = .hail) then m
  else
    let m := m.elapse b.sclAt (m.stuckTo n)
    let pay := m.stuckPayload n 2
    ((m.busFence n (91 + n)).sclLow n b.sclAt).raise (91 + n) n pay

/-- TWB_CMDSTAT. -/
def Chip.twbStatus (m : Chip) (n code : Nat) (st : Status) : Chip :=
  m.put .twbCmdstat 0 (wd (st.code + code * 256 + n * 65536))

/-- A write of TWB_n_CMD (R473). -/
def twbCmdAct (n : Nat) (d : Word) (m : Chip) : Act :=
  let code := bits d 3 0
  let b := m.bus n
  let rej := fun (st : Status) (m : Chip) => m.twbStatus n code st
  let run := fun (fenced : Bool) (m : Chip) =>
    ((m.putBus n { m.bus n with st := .recover, byCmd := code, wasFenced := fenced, since := m.now }).twbStatus n code .ebusy, Status.ok)
  match code with
  | 1 => { v := { estate := !m.busRuns n || m.busBusy n || b.other || m.busFenced n }, eff := run false, rej := rej }
  | 2 => { v := { estate := b.st != .fenced || m.pwr.base = .shadow || !m.fenceRead .bus n }, eff := run true, rej := rej }
  | _ => { v := { erange := true }, eff := fun m => (m, .ok), rej := rej }

/-! ### Registers (R463, R472, R477, R479) -/

/-- A write of TWB_n_CFG. -/
def twbCfgAct (n : Nat) (d : Word) : Act :=
  let d := if n = 15 then d else setBits d 4 4 0
  { v := {}, eff := fun m =>
      let m := m.store .twbNCfg n d
      let b := m.bus n
      (if b.st = .idle && b.onWire.isNone then m.busIdle n else m, .ok) }

/-- A write of a TWB register. -/
def twbAct (r : RName) (i : Nat) (d : Word) (m : Chip) : Act :=
  match r with
  | .twbNCmd => twbCmdAct i d m
  | .twbNCfg =>
    { twbCfgAct i d with v := { estate := m.busNamed i && (!bitOf d 0 || (i = 15 && bitOf d 4)) } }
  | .twbNTmo => actStoreIf { erange := bits d 15 8 ≤ bits d 7 0 } r i d
  | .twbTgtMir => actStoreIf { ebasic := i < 8 && !m.expert .twb } r i d
  | _ => actStore r i d

/-- The state code of bus n (R484). -/
def Chip.busState (m : Chip) (n : Nat) : Nat :=
  if !m.flag .twbNCfg n 0 then 0
  else if m.pwr.base = .shadow then 6
  else match (m.bus n).st with
    | .idle => 1 | .active => 2 | .hail => 3 | .recover => 4 | .fenced => 5

/-- The read-only registers of TWB. -/
def Chip.twbRead (m : Chip) (r : RName) (i : Nat) : Word :=
  match r with
  | .twbNStat =>
    let b := m.bus i
    wd (m.busState i + b2n (m.flag .twbNCfg i 0 && b.sda) * 16 + b2n (m.flag .twbNCfg i 0 && b.scl) * 32 + b2n b.other * 64 + b.mux.getD 0 * 256 + b2n b.mux.isSome * 2048 +
      (if b.onWire.isSome then b.wireEntry else 0) * 4096)
  | .twbTgtStat => wd m.twb.tgtPtr
  | _ => m.get r i

/-! ### Bus 15 as target (R477 to R479) -/

/-- Bus 15 serves as target and acknowledges its address (R477, R480). -/
def Chip.tgtRuns (m : Chip) : Bool :=
  m.flag .twbNCfg 15 0 && m.flag .twbNCfg 15 4 && m.pwr.base != .shadow && m.dom 9 != .off

/-- A write to the target: a code byte, and how many data bytes the other controller sends after it, each of which is refused and counted
(R478). -/
def Chip.tgtWrite (m : Chip) (code extra : Nat) : Chip :=
  if !m.tgtRuns then m
  else if 0x20 ≤ code then { m with twb := { m.twb with tgtAck := false } }
  else
    let m : Chip := { m with twb := { m.twb with tgtPtr := code, tgtAck := extra = 0 } }
    if extra = 0 then m else m.bump .twbTgtWrej 0 15 0 extra

/-- A read of `count` bytes from the target, after a repeated START behind a code byte or alone (R478): the pointed word
at one instant, the PEC byte if TPEC is set, then 0xFF. -/
def Chip.tgtRead (m : Chip) (code : Option Nat) (count : Nat) : Chip :=
  if !m.tgtRuns then m
  else if 0x20 ≤ code.getD 0 then m.tgtWrite (code.getD 0) 0
  else
    let a := m.fld .twbTgtCfg 0 6 0
    let m := match code with
      | some c => m.tgtWrite c 0
      | none => m
    let ds := leBytes (m.get .twbTgtMir m.twb.tgtPtr)
    let pre := match code with
      | some c => [2 * a, c, 2 * a + 1]
      | none => [2 * a + 1]
    let pec := if m.flag .twbTgtCfg 0 7 then [crc8 (pre ++ ds)] else []
    let out := (ds ++ pec ++ List.replicate (count - 4) 0xFF).take count
    { m with twb := { m.twb with tgtOut := out, tgtAck := true } }

/-- The library updates mirror words 0 to 7, 100 ms after the last time (R479), with the bus voltage in 10 mV and the shelf load current in 0.1 A. -/
def Chip.mirrorUpdate (m : Chip) (vbus : Nat) (iload : Int) : Chip :=
  if m.expert .twb then m
  else
    let m := m.elapse m.twb.mirAt 100000
    let m : Chip := { m with twb := { m.twb with mirAt := m.now } }
    let bits4 := b2n (!m.pins.errN) + b2n m.pwr.condSafe * 2 + b2n m.nvm.lock * 4 + b2n m.pwr.condDegr * 8
    let ws := [m.modeWord, wd (vbus % 65536), wdI iload, m.estRead .estShelfSoc 0, wd bits4, m.polStat, wd m.opsec, wd m.nvm.pcc]
    (ws.zip (List.range 8)).foldl (fun m x => m.put .twbTgtMir x.2 x.1) m

end Sys2Proof.Machine
end

