-- ==== Sys2Proof/Machine/Link.lean ====
section
/-!
DEFINITION. The shelf link (R506 to R522): the frames sent and received, transmit opportunities, segment faults, and the
answers to neighbouring shelf controllers.
-/

namespace Sys2Proof.Machine

/-! ### Frames (R508, R509) -/

/-- A frame to node 0 with nothing in it. -/
def Frame.blank : Frame :=
  { typ := 0, cls := 0, tent := false, ka := false, src := 0, dst := 0, tag := 0, item := 0, gen := 0, data := [], status := 0,
    credit := 0 }

/-- The Ethernet payload of a shelf frame: header, data, and padding to 46 bytes (R508). -/
def Frame.bytes (f : Frame) : List Nat :=
  let head := [0x10 + f.typ, f.cls * 64 + b2n f.tent * 32 + b2n f.ka * 16, f.src, f.dst] ++ bytesOf 2 f.tag ++
    bytesOf 2 f.item ++ bytesOf 4 f.gen ++ [f.data.length, f.status] ++ bytesOf 2 f.credit
  let all := head ++ f.data
  all ++ List.replicate (46 - all.length) 0

/-- The octets of a frame as sent on a segment (R507): the destination MAC address, this device's, the EtherType, and the payload. -/
def Frame.octets (f : Frame) : List Nat :=
  let mac := Config.mac.toNat
  [0x03, 0x00, 0x00, 0x00, 0x88, 0xB5] ++ (bytesOf 6 mac).reverse ++ [0x88, 0xB5] ++ f.bytes

/-- The node of this device on a segment (R506). -/
def Chip.node (m : Chip) (n : Nat) : Nat := m.fld .slkNCfg n 12 8

/-- The MASK of a group's members on a segment (R509). -/
def Chip.groupMask (m : Chip) (g n : Nat) : Nat :=
  ((m.members g).filter (fun e => m.entLink e && m.entPath e = 16 + n)).foldl (fun a e => setM a (bits (m.pw e 1) 4 0)) 0

/-- The frame a transaction sends on a segment (R444, R445, R511). -/
def Chip.frameOf (m : Chip) (n : Nat) (t : Txn) (tag : Nat) : Frame :=
  let e := t.entry
  let group := m.entGroup e
  let mask := if group then bytesOf 4 (m.groupMask e n) else []
  let value := bytesOf 4 (m.txnValue t)
  let f := { Frame.blank with
    cls := t.cls, src := m.node n, dst := if group then 255 else bits (m.pw e 1) 4 0, tag := if group then e else tag,
    item := t.item }
  let len := ((itemOf (m.entClass e) t.item).getD (0, 0)).2
  match t.kind with
  | .read | .poll => { f with typ := 1, data := [len] }
  | .blkr => { f with typ := 1, data := [bits t.desc 31 24] }
  | .write => { f with typ := 2, data := bytesOf len t.data }
  | .blkw => { f with typ := 2, data := m.commonsGet (bits t.desc 17 0) (bits t.desc 31 24) }
  | .cmd => { f with typ := 3 }
  | .setp => { f with typ := if group then 5 else 4, tent := t.tent.isSome, gen := t.gen, data := value ++ mask }
  | .keep => { f with typ := 5, ka := true, item := m.spItem e, gen := (m.ent e).genf, data := value ++ mask }
  | .retract | .restore =>
    { f with typ := 6, gen := t.gen, data := value ++ bytesOf 4 (m.ent e).genf ++ mask }
  | .final => { f with typ := 7, gen := t.gen, data := mask }

/-! ### Starting a transaction (R434, R452, R510, R513) -/

/-- Transactions in flight on a segment, by their tags. -/
def Chip.inFlight (m : Chip) (n : Nat) : List Txn :=
  m.ptn.pool.filter (fun t => t.wire && !m.entGroup t.entry && m.entLink t.entry && m.entPath t.entry = 16 + n)

/-- A tag that no transaction in flight on the segment carries (R510). -/
def Chip.freeTag (m : Chip) (n : Nat) : Nat :=
  let used := (m.inFlight n).map (fun t => t.tag)
  let k := (m.seg n).nextTag
  (((List.range 33).map (fun j => (k + j) % 65536)).find? (fun x => !used.contains x)).getD k

/-- The present credit of an entry for a class. -/
def Chip.credit (m : Chip) (e cls : Nat) : Nat := (m.ent e).cr.getD cls 0

/-- One credit of a class is taken (R452). -/
def Chip.takeCredit (m : Chip) (e cls : Nat) : Chip :=
  m.putEnt e { m.ent e with cr := (List.range 4).map (fun k => if k = cls then m.credit e k - 1 else m.credit e k) }

/-- A segment may send: enabled, not fenced, not in SHADOW, its domain on (R517, R518). -/
def Chip.segSends (m : Chip) (n : Nat) : Bool :=
  m.flag .slkNCfg n 0 && !(m.seg n).fenced && m.pwr.base != .shadow && m.dom 9 = .on

/-- Segment n starts the transaction its turn falls to: its frame joins those waiting for an opportunity (R434). -/
def Chip.segStart (m : Chip) (n : Nat) : Chip :=
  if !m.segSends n then m
  else
    let room := (m.inFlight n).length < 32
    let cands := (m.startable (16 + n)).filter (fun c =>
      m.entGroup c.1.entry || (room && 0 < m.credit c.1.entry c.1.cls))
    match firstOf cands with
    | none => m
    | some (t, _) =>
      let tag := m.freeTag n
      let g := m.seg n
      let f := m.frameOf n t tag
      let m := m.genSent t (16 + n)
      let m := m.mapTxn t.id (fun o => { o with wire := true, started := true, tag := tag })
      if m.entGroup t.entry then
        (m.mapLeg t.id (16 + n) 0 (fun l => { l with active := true })).putSeg n { g with txq := g.txq ++ [f] }
      else
        (m.takeCredit t.entry t.cls).putSeg n { g with txq := g.txq ++ [f], nextTag := (tag + 1) % 65536 }

/-- A path starts the transaction its turn falls to: bus 0 to 15, or segment path − 16 (R434). -/
def Chip.pathStart (m : Chip) (p sel : Nat) : Chip := if p < 16 then m.busStart p sel else m.segStart (p - 16)

/-- The rank of a queued frame: its class, and retracts before other frames of it (R456, R515, R520). -/
def Frame.rank (f : Frame) : Nat := 2 * f.cls + b2n (f.typ != 6)

/-- The frame with the lowest rank, the first queued within it (R515). -/
def nextFrame : List Frame → Option Frame
  | [] => none
  | f :: fs =>
    match nextFrame fs with
    | none => some f
    | some g => if g.rank < f.rank then some g else some f

/-- The frames of one opportunity, and what stays queued. -/
def takeFrames : Nat → List Frame → List Frame × List Frame
  | 0, q => ([], q)
  | k + 1, q =>
    match nextFrame q with
    | none => ([], q)
    | some f =>
      let r := takeFrames k (q.erase f)
      (f :: r.1, r.2)

/-- A group's frame has been sent: that part of its transaction has ended (R444). From an identity request on its answers are awaited
(R514). -/
def Chip.frameSent (m : Chip) (n : Nat) (f : Frame) : Chip :=
  if f.typ = 11 then
    match m.ptn.discRun with
    | some d => if bitOf d 16 && bits d 20 17 = n then { m with ptn := { m.ptn with idAt := some m.now } } else m
    | none => m
  else if f.dst = 255 then
    { m with ptn := { m.ptn with pool := m.ptn.pool.map (fun t =>
        if t.entry = f.tag && m.entGroup t.entry then
          { t with legs := t.legs.map (fun l =>
              if l.path = 16 + n && l.active then { l with active := false, done := true, ok := true } else l) }
        else t) } }
  else m

/-- The frame sets what a partner does (R511): SETP, SHARE, RETRACT and FINAL. -/
def Frame.setting (f : Frame) : Bool := 4 ≤ f.typ && f.typ ≤ 7

/-- A beacon of another node has been seen on segment n (R506, R516). -/
def Chip.beaconSeen (m : Chip) (n : Nat) : Chip :=
  if m.flag .slkNCfg n 0 && m.dom 9 = .on && m.flag .slkNCfg n 1 && m.fld .slkNCfg n 12 8 != 0 then
    m.putSeg n { m.seg n with beacon := true, beaconAt := m.now }
  else m

/-- Segment n's transmit opportunity (R515): up to BURST + 1 queued frames go out in class order, owed restores before any other (R517).
With PLCA an opportunity follows a beacon, its own if the node is 0 (R506); a fenced segment and a chip in SHADOW only see it (R517, R518). -/
def Chip.plcaTx (m : Chip) (n : Nat) : Chip :=
  if !m.segSends n then m.beaconSeen n
  else
    let g := m.seg n
    let may := g.txq.filter (fun f => (m.gateOpen || !f.setting) && (!m.restoring (16 + n) || f.typ = 6))
    let r := takeFrames (m.fld .slkNPlca n 15 8 + 1) may
    let plca : Bool := m.flag .slkNCfg n 1
    let m := m.putSeg n { g with txq := r.1.foldl (fun q f => q.erase f) g.txq, sent := r.1, wire := r.1.map Frame.octets, beacon := plca,
                                 beaconAt := if plca then m.now else g.beaconAt }
    let m := m.bump .slkNCnt0 n 15 0 r.1.length
    r.1.foldl (fun m f => m.frameSent n f) m

/-! ### Frames received (R510, R513, R514) -/

/-- A segment receives: enabled, its domain on (R518). A fenced one does too (R517). -/
def Chip.segHears (m : Chip) (n : Nat) : Bool := m.flag .slkNCfg n 0 && m.dom 9 = .on

/-- The enabled entry of a segment's node. -/
def Chip.nodeEntry (m : Chip) (n src : Nat) : Option Nat :=
  (m.entriesOn (16 + n)).find? (fun e => m.entLink e && bits (m.pw e 1) 4 0 = src)

/-- The four credits of a CREDIT field (R508). -/
def creditList (c : Nat) : List Nat := [c / 4096 % 16, c / 256 % 16, c / 16 % 16, c % 16]

/-- A frame from the node of SLK_OFFERSRC has been received (R519). -/
def Chip.offerHeard (m : Chip) (n src : Nat) : Chip :=
  if m.fld .slkOffersrc 0 1 0 = n && m.fld .slkOffersrc 0 12 8 = src then { m with slk := { m.slk with offerAt := m.now } } else m

/-- A partner's frame has been received from a node: its credits replace PTN's, or the node is offered to discovery (R454,
R513). -/
def Chip.partnerFrame (m : Chip) (n src credit : Nat) : Chip :=
  let m := (m.bump .slkNCnt0 n 31 16 1).offerHeard n src
  match m.nodeEntry n src with
  | some e => m.putEnt e { m.ent e with cr := creditList credit }
  | none => if 1 ≤ src && src ≤ 31 then m.discAdd (discWord true n none src) else m

/-- A frame is discarded and counted in SLK_n_CNT2. -/
def Chip.dropFrame (m : Chip) (n : Nat) : Chip := m.bump .slkNCnt2 n 15 0 1

/-- The status and value a response gives its transaction (R510). A read's bytes that are not its item's length count as
a protocol error (DEDUCED, log entry 57). -/
def Chip.respEnd (m : Chip) (t : Txn) (st : Nat) (bytes : List Nat) : Status × Nat :=
  let len := ((itemOf (m.entClass t.entry) t.item).getD (0, 0)).2
  if st = 6 then (.erange, 0)
  else if st != 0 then (.eproto, 0)
  else if t.kind = .blkr then (if bits t.desc 31 24 < bytes.length then (.eproto, 0) else (.ok, bytes.length))
  else if t.kind.reads then (if bytes.length = len then (.ok, ofBytes bytes) else (.eproto, 0))
  else (.ok, 0)

/-- A RESP frame (R510): the transaction with its tag completes, or is sent again under a new tag while retries are left. -/
def Chip.linkResp (m : Chip) (n src tag st credit : Nat) (bytes : List Nat) : Chip :=
  if !m.segHears n then m
  else
    let hit := (m.inFlight n).find? (fun t => t.tag = tag)
    let m := m.partnerFrame n src credit
    match hit with
    | none => m.dropFrame n
    | some t =>
      let r := m.respEnd t st bytes
      if r.1 = .eproto && 0 < t.retries then
        (m.freeFrames t).mapTxn t.id (fun o => { o with wire := false, retries := o.retries - 1 })
      else
        let m := if r.1 = .ok && t.kind = .blkr then m.blockIn t bytes else m
        m.endTxn t r.1 r.2

/-- A STREAM frame (R514): its readings join the ring, or are discarded where the ring is full in STALL mode (R451) or its node has no
enabled entry. -/
def Chip.linkStream (m : Chip) (n src credit : Nat) (readings : List (Nat × Nat)) : Chip :=
  if !m.segHears n || readings.isEmpty || 16 < readings.length then m
  else
    let m := m.partnerFrame n src credit
    match m.nodeEntry n src with
    | some e => readings.foldl (fun m r =>
        ((if m.ringStalled then m.bump .slkNCnt2 n 31 16 1 else m).ringWrite r.1 e .ok r.2).reading e r.1 r.2 false) m
    | none => (m.dropFrame n).bump .slkNCnt2 n 31 16 readings.length

/-- A CREDIT frame (R513). -/
def Chip.linkCredit (m : Chip) (n src credit : Nat) : Chip :=
  if m.segHears n then m.partnerFrame n src credit else m

/-- An IDRESP frame within 10 ms of it answers the identity request of a discovery on its segment (R454, R514). -/
def Chip.linkIdResp (m : Chip) (n src credit : Nat) : Chip :=
  if !m.segHears n then m
  else
    let m := m.partnerFrame n src credit
    match m.ptn.discRun with
    | some d =>
      let asked := match m.ptn.idAt with
        | some t => m.now ≤ t + 10000
        | none => false
      if bitOf d 16 && bits d 20 17 = n && asked && 1 ≤ src && src ≤ 31 then m.discAdd (discWord true n none src) else m
    | none => m

/-- A frame is discarded (R507, R509): 0 for an FCS error, 1 for another EtherType or a VLAN tag, 2 for another version,
type or node. -/
def Chip.linkDiscard (m : Chip) (n kind : Nat) : Chip :=
  if !m.segHears n then m
  else if kind = 0 then
    let g := m.seg n
    (m.putSeg n { g with fcs := m.now :: g.fcs.filter (fun t => m.now < t + 1000000) }).bump .slkNCnt1 n 15 0 1
  else m.dropFrame n

/-! ### Segment faults (R516, R517) -/

/-- Four PLCA cycles of a segment in µs: each the beacon of 20 bit times and a silent opportunity for each node (R516). -/
def Chip.plca4 (m : Chip) (n : Nat) : Nat := (4 * (20 + m.fld .slkNCfg n 21 16 * m.fld .slkNPlca n 7 0) + 9) / 10

/-- A segment fault (R516): 1 more than ERRMAX FCS errors in a second, 2 more than COLMAX collisions while PLCA is enabled, 3 no beacon for
four cycles with NODE not 0. The FCS errors that raised one count no further. -/
def Chip.linkFault (m : Chip) (n cause : Nat) : Chip :=
  let g := m.seg n
  let plca : Bool := m.flag .slkNCfg n 1
  let late := (g.fcs.filter (fun t => m.now < t + 1000000)).length
  let can := if cause = 1 then m.fld .slkNErr n 7 0 < late else if cause = 2 then plca else cause = 3 && plca && m.node n != 0
  if !m.segHears n || !can then m
  else
    let m := if cause = 3 then m.elapse g.beaconAt (m.plca4 n) else m
    let m := m.putSeg n { g with cause := cause, beacon := g.beacon && cause != 3, fcs := if cause = 1 then [] else g.fcs }
    let m := if cause = 2 then m.bump .slkNCnt1 n 31 16 (m.fld .slkNErr n 15 8 + 1) else m
    m.raise (108 + n) n []

/-- A segment is unfenced: restores go before any other frame (R456, R517). -/
def Chip.segUnfence (m : Chip) (n : Nat) : Chip :=
  ((m.putSeg n { m.seg n with fenced := false, cause := 0, beaconAt := m.now }).dropFence .link n).pathUsable (16 + n)

/-- A write of SLK_n_CMD (R517). -/
def slkCmdAct (n : Nat) (d : Word) (m : Chip) : Act :=
  if bits d 3 0 != 1 then { v := { erange := true }, eff := fun m => (m, .ok) }
  else { v := { estate := !(m.seg n).fenced || !m.fenceRead .link n }, eff := fun m => (m.segUnfence n, .ok) }

/-- A write of an SLK register. -/
def slkAct (r : RName) (i : Nat) (d : Word) (m : Chip) : Act :=
  match r with
  | .slkNCmd => slkCmdAct i d m
  | .slkNCfg =>
    -- beacons are awaited from here on (R516)
    let await : Bool := bitOf d 0 && bitOf d 1 && (!m.flag .slkNCfg i 0 || !m.flag .slkNCfg i 1 || bits d 12 8 != m.fld .slkNCfg i 12 8)
    { actStore r i d with eff := fun m =>
        let m := m.store r i d
        (if await then m.putSeg i { m.seg i with beaconAt := m.now } else m, .ok) }
  | _ => actStore r i d

/-- The read-only registers of SLK. -/
def Chip.slkRead (m : Chip) (r : RName) (i : Nat) : Word :=
  match r with
  | .slkMaclo => wd (Config.mac.toNat % 2 ^ 32)
  | .slkMachi => wd (Config.mac.toNat / 2 ^ 32)
  | .slkNStat =>
    let g := m.seg i
    let st := if !m.flag .slkNCfg i 0 then 0 else if m.pwr.base = .shadow then 3 else if g.fenced then 2 else 1
    wd (st + b2n g.beacon * 4 + min 32 (m.inFlight i).length * 256 + g.cause * 65536)
  | _ => m.get r i

/-! ### Neighbouring shelf controllers (R512, R519) -/

/-- An answer to a neighbour's request. -/
def Chip.answer (m : Chip) (n src tag item cls status : Nat) (data : List Nat) : Chip :=
  if !m.segSends n then m
  else
    let g := m.seg n
    let f := { Frame.blank with typ := 8, cls := cls, src := m.node n, dst := src, tag := tag, item := item, data := data,
                                status := status }
    m.putSeg n { g with txq := g.txq ++ [f] }

/-- A request of a neighbour has been received. -/
def Chip.nbFrame (m : Chip) (n src : Nat) : Chip := (m.bump .slkNCnt0 n 31 16 1).offerHeard n src

/-- A neighbour reads item 0x120 (R519). `want` is the most bytes it takes. -/
def Chip.nbRead (m : Chip) (n src tag want : Nat) : Chip :=
  if !m.segHears n then m
  else (m.nbFrame n src).answer n src tag 0x120 2 0 ((leBytes (m.get .slkShelfstat 0)).take want)

/-- A neighbour's SETP of item 0x121 (R519): stored, unless its generation is below SLK_OFFERGEN while they are compared. -/
def Chip.nbSetp (m : Chip) (n src tag gen value : Nat) (tent : Bool) : Chip :=
  if !m.segHears n then m
  else
    let m := m.nbFrame n src
    if m.slk.offerCmp && gen < (m.get .slkOffergen 0).toNat then m
    else
      let m := (m.put .slkOffer 0 (wd value)).put .slkOffergen 0 (wd gen)
      let m := m.put .slkOffersrc 0 (wd (n + src * 256 + b2n tent * 65536))
      let m : Chip := { m with slk := { m.slk with offerCmp := true, offerAt := m.now } }
      ((m.eventRecord 227 n []).event 227).answer n src tag 0x121 0 0 []

/-- A neighbour's RETRACT of item 0x121 (R512): where the last generation taken lies above the carried GENF and at or below
the named one, the carried value is taken at the carried GENF. -/
def Chip.nbRetract (m : Chip) (n src tag gen value genf : Nat) : Chip :=
  if !m.segHears n then m
  else
    let m := m.nbFrame n src
    let last := (m.get .slkOffergen 0).toNat
    let m := if m.slk.offerCmp && genf < last && last ≤ gen then
        ((m.put .slkOffer 0 (wd value)).put .slkOffergen 0 (wd genf)).putF .slkOffersrc 0 16 16 0
      else m
    m.answer n src tag 0x121 0 0 []

/-- A neighbour's FINAL of item 0x121 (R512): a tentative generation at or below the named one is final. -/
def Chip.nbFinal (m : Chip) (n src tag gen : Nat) : Chip :=
  if !m.segHears n then m
  else
    let m := m.nbFrame n src
    let m := if m.slk.offerCmp && (m.get .slkOffergen 0).toNat ≤ gen then m.putF .slkOffersrc 0 16 16 0 else m
    m.answer n src tag 0x121 0 0 []

/-- Any other request of a neighbour (R519). -/
def Chip.nbOther (m : Chip) (n src tag item cls : Nat) : Chip :=
  if !m.segHears n then m else ((m.nbFrame n src).dropFrame n).answer n src tag item cls 6 []

/-- 1 s has passed with no frame from the offering node (R519): generations are compared no longer. -/
def Chip.offerExpiry (m : Chip) : Chip :=
  if m.slk.offerCmp then
    let m := m.elapse m.slk.offerAt 1000000
    { m with slk := { m.slk with offerCmp := false } }
  else m

end Sys2Proof.Machine
end

