-- ==== Sys2Proof/Machine/Sequencer.lean ====
section
/-!
DEFINITION. The shelf rail sequencer's steps (R71 to R87, R703): qualification, chatter, timeouts and their policies,
discharge, reset outputs, and the writes of the SEQ registers.
-/

namespace Sys2Proof.Machine

/-- The window in which transitions of PG count as chatter, in µs (R76). -/
def Chip.chatterUs (m : Chip) : Nat := m.fld .seqChatter 0 17 8 * 1000

/-- PG of a rail changes level (R75, R76, R79, R83): a change at the rail of a WAIT_GOOD step restarts its qualification time and
is a transition that counts toward chatter. -/
def Chip.seqPgChange (m : Chip) (rail : Nat) (level : Bool) : Chip :=
  if has m.seq.pg rail = level then m
  else
    let old := m
    let m := { m with seq := { m.seq with pg := putM m.seq.pg rail level } }
    let m := m.seqGood old
    if m.seq.wait = .good && m.seq.wrail = rail then
      { m with seq := { m.seq with qualAt := m.now, edges := (m.now :: m.seq.edges).take 256 } }
    else m

/-- More than LIMIT transitions lie within one WINDOW (R76): of stamps newest first, one and the LIMIT-th before it. -/
def Chip.chattered (m : Chip) : Bool :=
  (m.seq.edges.zip (m.seq.edges.drop (m.fld .seqChatter 0 7 0))).any (fun e => e.1 ≤ e.2 + m.chatterUs)

/-- The rail that a discharge wait waits for is discharged (R71, R74): its PG is inactive, or its comparator is below its lower
limit. -/
def Chip.railDischarged (m : Chip) (k : Nat) : Bool :=
  if m.flag .seqRailCfg k 30 then (NTab.get Wcmp.init m.acq.wc (m.fld .seqRailCfg k 29 24)).st = 1 else !m.pgActive k

/-- STRETCH of a reset output in µs. -/
def Chip.stretchUs (m : Chip) (n : Nat) : Nat := m.fld .seqRstCfg n 9 0 * 1000

/-- A reset output may rise once its stretch has passed (R83, R84): its release step has run, its rails are good, and the sequencer
is not OFF. A gated chip follows its twin (R49). -/
def Chip.mayRelease (m : Chip) (n : Nat) : Bool :=
  has m.seq.released n && m.watchGood n && m.seq.st != .off && m.pwr.base != .shadow

/-- The duration of a DELAY step has elapsed (R71). -/
def Chip.seqDelayElapsed (m : Chip) : Chip :=
  if m.seq.wait = .delay then (m.elapse m.seq.stepAt (m.stepQual m.seq.step)).seqStepDone else m

/-- The first rail of a reset output's watch mask that is not good, 0xFF for none (R76). -/
def Chip.firstBad (m : Chip) (n : Nat) : Nat :=
  ((List.range 24).find? (fun k => m.flag .seqRstWatch n k && !m.pgActive k)).getD 0xFF

/-- A WAIT_GOOD or RESET_RELEASE step has failed with RAIL_CHATTER (1) or RAIL_TIMEOUT (2): the trace, the fault, and the
step's policy (R76, R77, R85, R86). The failed step waits no more, so an OFF of the fault's SAFE reaction leaves none unfinished
(R703). -/
def Chip.seqFail (m : Chip) (res : Nat) : Chip :=
  let n := m.seq.step
  let t := m.stepTarget n
  let reset := m.seq.wait = .release
  let rail := if reset then 0x80 + t else t
  let m := (m.seqTrace res false n).seqNote res rail
  let m := ({ m with seq := { m.seq with wait := .none } } : Chip).raise (14 + res) 0
    (if reset then [wd rail, wd (m.firstBad t)] else [wd rail])
  if m.seq.st != .up then m else
  let pol := m.fld .seqStepCtl n 7 6
  if pol = 0 then
    ({ m with seq := { m.seq with st := .halted, wait := .none } }).seqSummary 2 n
  else if pol = 1 && m.seq.retry < m.fld .seqStepCtl n 5 3 then
    let m := ({ m with seq := { m.seq with retry := m.seq.retry + 1 } }).seqTrace 4 false n
    if reset then
      ({ m with seq := { m.seq with rst := clrM m.seq.rst t, released := clrM m.seq.released t } }).seqWait n .retryDelay
    else ({ m with seq := { m.seq with en := clrM m.seq.en t } }).seqWait n .retryDisch
  else ({ m with seq := { m.seq with req := false } }).seqDown false

/-- The stamp at which the timeout of a WAIT_GOOD or RESET_RELEASE step passes. -/
def Chip.seqDue (m : Chip) : Nat := m.seq.stepAt + m.stepTmo m.seq.step

/-- The timeout of the present step has passed: the step fails (R76). -/
def Chip.seqExpire (m : Chip) : Chip := (m.elapse m.seqDue 0).seqFail 2

/-- PG has stayed active for the qualification time of a WAIT_GOOD step (R75); a timeout that passes before then comes first (R76). -/
def Chip.seqQualified (m : Chip) : Chip :=
  if m.seq.wait = .good && m.pgActive m.seq.wrail then
    if m.seqDue < m.seq.qualAt + m.stepQual m.seq.step then m.seqExpire
    else (m.elapse m.seq.qualAt (m.stepQual m.seq.step)).seqStepDone
  else m

/-- A RESET_RELEASE step waits for this output. -/
def Chip.awaitsReset (m : Chip) (n : Nat) : Bool := m.seq.st = .up && m.seq.wait = .release && m.seq.wrail = n

/-- STRETCH has elapsed since the release step of an output had run and its watched rails were all good (R83); a timeout that passes before
then comes first (R76). -/
def Chip.stretchElapsed (m : Chip) (n : Nat) : Chip :=
  let g := NTab.get 0 m.seq.goodAt n
  if !m.mayRelease n then m
  else if m.awaitsReset n && m.seqDue < g + m.stretchUs n then m.seqExpire
  else
    let m := m.elapse g (m.stretchUs n)
    let m := { m with seq := { m.seq with rst := setM m.seq.rst n } }
    if m.awaitsReset n then m.seqStepDone else m

/-- The timeout of a WAIT_GOOD or RESET_RELEASE step has passed. A condition met by the tick of the timeout wins (R76). -/
def Chip.seqTimeout (m : Chip) : Chip :=
  if m.seq.st = .up && m.seq.wait = .good then
    if m.pgActive m.seq.wrail && m.seq.qualAt + m.stepQual m.seq.step ≤ m.seqDue then m.seqQualified
    else m.seqExpire
  else if m.seq.st = .up && m.seq.wait = .release then
    if m.mayRelease m.seq.wrail && NTab.get 0 m.seq.goodAt m.seq.wrail + m.stretchUs m.seq.wrail ≤ m.seqDue then
      m.stretchElapsed m.seq.wrail
    else m.seqExpire
  else m

/-- PG has made more than LIMIT transitions within WINDOW during a WAIT_GOOD step (R76). -/
def Chip.seqChatter (m : Chip) : Chip :=
  if m.seq.st = .up && m.seq.wait = .good && m.chattered then m.seqFail 1 else m

/-- A discharge wait ends well (R71, R77, R81, R82). -/
def Chip.seqDischOk (m : Chip) : Chip :=
  match m.seq.wait with
  | .disch => m.seqStepDone
  | .downDisch => m.seqWalkOn 0
  | .restDisch => m.seqDownEnd
  | .retryDisch => m.seqWait m.seq.step .retryDelay
  | _ => m

/-- The rail that a discharge wait waits for is discharged (R74). -/
def Chip.seqDischarged (m : Chip) : Chip := if m.railDischarged m.seq.wrail then m.seqDischOk else m

/-- A discharge wait is under way. -/
def Chip.seqDischWait (m : Chip) : Bool :=
  m.seq.wait = .disch || m.seq.wait = .downDisch || m.seq.wait = .restDisch || m.seq.wait = .retryDisch

/-- RAIL_NODISCHARGE of the rail waited for, noted for the summary (R78, R86). -/
def Chip.seqStuck (m : Chip) : Chip := (m.seqNote 3 m.seq.wrail).raise 17 0 [wd m.seq.wrail]

/-- A discharge wait reaches its timeout (R78): a WAIT_DISCH step's own, or the rail's. A rail discharged by then wins (R76). The
step has ended and is traced before its fault is raised; a SAFE reaction to the fault may begin the down sequence (R703). -/
def Chip.seqNoDischarge (m : Chip) : Chip :=
  let n := m.seq.step
  if !m.seqDischWait then m
  else if m.railDischarged m.seq.wrail then m.seqDischOk
  else
    let m := m.elapse m.seq.stepAt (if m.seq.wait = .disch then m.stepTmo n else m.railDisch m.seq.wrail)
    match m.seq.wait with
    | .disch =>
      let m := ({ m with seq := { m.seq with retry := 0, wait := .none } } : Chip).seqTrace 3 false n
      let m := m.seqStuck
      if m.seq.st != .up then m else m.seqUp (n + 1) 64
    | .downDisch => m.seqStuck.seqWalkOn 3
    | .restDisch => m.seqStuck.seqDownEnd
    | _ =>
      let m := m.seqStuck
      if m.seq.st != .up then m else m.seqWait n .retryDelay

/-- RDELAY of a retry has elapsed: SEQ_EN is asserted again and the step restarts (R77). -/
def Chip.seqRetryDelay (m : Chip) : Chip :=
  let n := m.seq.step
  let t := m.stepTarget n
  if m.seq.wait = .retryDelay then
    let m := m.elapse m.seq.stepAt (m.fld .seqChatter 0 27 20 * 1000)
    if m.stepType n = 6 then (m.seqRelease t).seqWait n .release
    else ({ m with seq := { m.seq with en := setM m.seq.en t } }).seqWait n .good
  else m

/-- The PG of an enabled rail has been inactive for 50 µs without a break while the sequencer is ON (R79): no rail is turned off, and every
reset output that watches the rail is asserted. A rail that was never enabled cannot be lost (DEDUCED, log entry 70). A gated chip
follows its twin (R49). -/
def Chip.railPgLost (m : Chip) (rail : Nat) : Chip :=
  if m.seq.st = .on && m.seqOnRail rail && !m.pgActive rail && m.pwr.base != .shadow then
    let m := (m.elapse (NTab.get 0 m.seq.pgAt rail) 50).raise 18 0 [wd rail]
    let rst := (List.range 4).foldl (fun a n => if m.flag .seqRstWatch n rail then clrM a n else a) m.seq.rst
    { m with seq := { m.seq with rst := rst } }
  else m

/-! ### Writes -/

/-- A step's two words are permitted (R72): TYPE, POLICY, TARGET, and the times its TYPE uses. -/
def stepOk (ctl tmo : Word) : Bool :=
  let ty := bits ctl 31 28
  let t := bits ctl 27 23
  let q := bits ctl 19 8 * unitUs (bits ctl 21 20)
  let o := bits tmo 19 8 * unitUs (bits tmo 21 20)
  ty ≤ 6 && bits ctl 7 6 != 3 &&
    (if ty = 5 || ty = 6 then t < 4 else if ty = 1 || ty = 2 || ty = 4 then t < 24 else true) &&
    (if ty = 2 then 10 ≤ q && q ≤ 100000 else if ty = 3 then 1 ≤ q && q ≤ 40950000 else true) &&
    (if ty = 2 || ty = 4 || ty = 6 then 100 ≤ o && o ≤ 10000000 else true)

/-- A write of SEQ_CMD (R80, R703). In SHADOW the sequencer tracks the primary's (R49, R590). -/
def seqCmdAct (d : Word) (m : Chip) : Act :=
  let shut := m.nvm.lock || m.pwr.base = .shadow
  match bits d 1 0 with
  | 1 =>
    { v := { estate := shut || (m.pwr.condSafe && has m.pwr.safeWord 2) }
      eff := fun m => (m.seqOn, .ok) }
  | 2 => { v := { estate := shut }, eff := fun m => (m.seqOff, .ok) }
  | _ => { v := { erange := true }, eff := fun m => (m, .ok) }

/-- A write of a SEQ register (R72 to R74, R80). -/
def seqAct (r : RName) (i : Nat) (d : Word) (m : Chip) : Act :=
  let busy : Bool := m.seq.st = .up || m.seq.st = .down || m.seq.st = .halted
  match r with
  | .seqCmd => seqCmdAct d m
  | .seqStepCtl => actStoreIf { erange := !stepOk d (m.get .seqStepTmo i), estate := busy } r i d
  | .seqStepTmo => actStoreIf { erange := !stepOk (m.get .seqStepCtl i) d, estate := busy } r i d
  | .seqRailCfg =>
    let t := bits d 19 8 * unitUs (bits d 21 20)
    { v := { erange := !(100 ≤ t && t ≤ 10000000) }, eff := fun m => ((m.store r i d).seqGood m, .ok) }
  | .seqRstWatch => { eff := fun m => ((m.store r i d).seqGood m, .ok) }
  | _ => actStore r i d

/-- SEQ_STATUS. -/
def Chip.seqStatus (m : Chip) : Word :=
  let st := match m.seq.st with
    | .off => 0 | .up => 1 | .on => 2 | .down => 3 | .halted => 4
  wd (st + m.seq.step * 256 + b2n m.seq.req * 65536 + m.seq.retry * 2 ^ 24)

/-- SEQ_TRACE_n and SEQ_TRACE_n_T (R85): 0 until written. -/
def Chip.seqTraceEntry (m : Chip) (n : Nat) : Word × Word := m.seq.trace.getD n (0, 0)

end Sys2Proof.Machine
end

