-- ==== Sys2Proof/Machine/Capture.lean ====
section
/-!
DEFINITION. Waveform capture (R616 to R621) and the registers of the recorder: commands, cursor and export reads.
-/

namespace Sys2Proof.Machine

/-! ### Capture units -/

/-- The source code of channel k of unit u with the words that hold the codes (R616). -/
def srcCode (w0 w1 : Word) (k : Nat) : Nat := if k < 4 then bits w0 (8 * k + 7) (8 * k) else bits w1 (8 * (k - 4) + 7) (8 * (k - 4))

/-- The source code of channel k of unit u. -/
def Chip.capSrc (m : Chip) (u k : Nat) : Nat := srcCode (m.get .rcdCapSrc0 u) (m.get .rcdCapSrc1 u) k

/-- A source code is none or names a channel or a meter that exists (R616). -/
def codeValid (c : Nat) : Bool := c = 0xFF || c ≤ 94 || (128 ≤ c && c % 64 < 24)

/-- The latest result of a source as coded by R163 and R349; 0 for none (R617). -/
def Chip.capValue (m : Chip) (c : Nat) : Nat :=
  if c ≤ 94 then m.fld .acqRes c 15 0
  else if c = 0xFF then 0
  else if c < 192 then bits (m.brnMeter .brnNMeas (c % 64)) 15 0
  else bits (m.brnMeter .brnNMeas (c % 64)) 31 16

/-- A unit's configuration is valid (R616): channel 0 names a source, every code is valid, ACQ sources are scanned. -/
def Chip.capConfigured (m : Chip) (u : Nat) : Bool :=
  m.capSrc u 0 != 0xFF && (List.range 8).all (fun k =>
    codeValid (m.capSrc u k) && (94 < m.capSrc u k || m.chScanned (m.capSrc u k)))

/-- The interval of a unit's samples in 5 ns units (R620): DECIM results of channel 0, at the channel's rate (R166, R170) or every 8 µs
(R349). -/
def Chip.capInterval (m : Chip) (u : Nat) : Nat :=
  let src := m.capSrc u 0
  let n := m.fld .rcdCapPace u 7 0
  if src ≤ 94 then (if (m.chRate src).1 = 0 then 0 else n * 200000000 * (m.chRate src).2 / (m.chRate src).1) else n * 1600

/-- A unit stores one sample of each of its channels (R617, R618). -/
def Chip.capStore (m : Chip) (u : Nat) : Chip :=
  let c := { m.cap u with step := m.capInterval u }
  let s := (List.range 8).map (fun k => m.capValue (m.capSrc u k))
  let pre := m.fld .rcdCapCfg u 27 16
  match c.st with
  | .filling =>
    let p := (s :: c.pre).take pre
    m.putCap u { c with pre := p, dec := 0, st := if pre ≤ p.length then .armed else .filling }
  | .armed => m.putCap u { c with pre := (s :: c.pre).take pre, dec := 0 }
  | .post => m.putCap u { c with post := if c.post.length < 4096 - c.preValid then s :: c.post else c.post, dec := 0 }
  | _ => m

/-- A result of a source paces the units whose channel 0 it is: every DECIM-th one is stored (R617). -/
def Chip.capPace (m : Chip) (code : Nat) : Chip :=
  (List.range 8).foldl (fun m u =>
    let c := m.cap u
    if m.capSrc u 0 != code || !(c.st = .filling || c.st = .armed || c.st = .post) then m
    else if m.fld .rcdCapPace u 7 0 ≤ c.dec + 1 then m.capStore u
    else m.putCap u { c with dec := c.dec + 1 }) m

/-- A trigger reaches a unit (R618, R619). -/
def Chip.capTrigger (m : Chip) (u t : Nat) : Chip :=
  let c := m.cap u
  match c.st with
  | .filling | .armed => m.putCap u { c with st := .post, stamp := t, preValid := c.pre.length, post := [] }
  | .post | .commit => m.putCap u { c with missed := min 65535 (c.missed + 1) }
  | _ => m

/-- The oldest raise that capture units wait for triggers every unit set to trigger on it (R619). -/
def Chip.capTriggers (m : Chip) : Chip :=
  match m.rcd.trig with
  | [] => m
  | (src, t) :: rest =>
    let m : Chip := { m with rcd := { m.rcd with trig := rest } }
    (List.range 8).foldl (fun m u => if m.capOn src u then m.capTrigger u t else m) m

/-- The post-trigger samples are held, or channel 0 is no longer scanned (R618): the unit commits. -/
def Chip.captureFull (m : Chip) (u : Nat) : Chip :=
  let c := m.cap u
  let src := m.capSrc u 0
  let lost := src ≤ 94 && !m.chScanned src
  if c.st = .post && (4096 - c.preValid ≤ c.post.length || lost) then m.putCap u { c with st := .commit } else m

/-- The unit whose turn it is to commit: the lowest one (R622). -/
def Chip.committing (m : Chip) : Option Nat := (List.range 8).find? (fun u => (m.cap u).st = .commit)

/-- The bytes of a unit in the capture partition (R620): channel by channel, 4,096 samples each. -/
def capBytes (samples : List (List Nat)) : List Nat :=
  (List.range 8).flatMap (fun k =>
    (samples.flatMap (fun s => [s.getD k 0 % 256, s.getD k 0 / 256 % 256])) ++ List.replicate (2 * (4096 - samples.length)) 0)

/-- A capture commit writes the samples, and its CAPTURE record waits for writing (R618, R620). No MRAM write starts while the early
collapse detector has fired. A record that the queue refuses (R606) leaves the unit in COMMIT, to commit again (DEDUCED, log entry 85). -/
def Chip.capCommit (m : Chip) (u : Nat) : Chip :=
  let c := m.cap u
  if m.committing != some u || m.pwr.ecdFired || c.sent then m
  else
    let all := c.pre.reverse ++ c.post.reverse
    let w6 := wd (u + m.fld .rcdCapCfg u 15 8 * 256 + c.preValid * 65536)
    let pay := [w6, wd (c.stamp % 2 ^ 32), wd (c.stamp / 2 ^ 32 % 256 + c.post.length % 4096 * 256), wd c.step,
      wd (crc32 (capBytes all)), m.get .rcdCapSrc0 u, m.get .rcdCapSrc1 u]
    let room : Bool := m.rcd.queue.length < queueMax
    let m := m.putCap u { c with valid := false, stored := all, sent := room }
    m.enqueue { kind := 5, source := 0x200, code := u, inst := 0, sev := 0, stamp := m.now, payload := pay } none

/-- The early collapse detector abandons the capture commit under way (R58, R622): the one whose samples are being written, or whose
record was. `rec` is the record write that has just been abandoned. -/
def Chip.capAbandon (m : Chip) (rec : Option Rec) : Chip :=
  match m.committing with
  | some u =>
    let mine := match rec with
      | some r => r.kind = 5 && r.code = u
      | none => false
    if !(m.cap u).sent || mine then m.putCap u { m.cap u with torn := true, stored := [], sent := false } else m
  | none => m

/-- A unit's abandoned commit is found: VALID 0 and a GAP CAPTURE (R620, R700). -/
def Chip.capLost (m : Chip) (u : Nat) : Chip :=
  (m.putCap u { m.cap u with valid := false, torn := false }).gapFirst 6 0 0 u 0

/-- On re-arm, a unit whose commit was abandoned enters DONE (R618, R700). -/
def Chip.capTorn (m : Chip) : Chip :=
  (List.range 8).foldl (fun m u =>
    if (m.cap u).torn then (m.capLost u) |> fun m => m.capDone u (m.cap u) else m) m

/-- The newest CAPTURE record of unit u: word 10 of it, the CRC of the unit's slot (R620). -/
def Chip.capCrc (m : Chip) (u : Nat) : Option Word :=
  let mine := m.stored.filter (fun e => bits (e.2.2.getD 1 0) 31 24 = 5 && bits (e.2.2.getD 5 0) 15 0 = u)
  (mine.find? (fun e => e.2.1 = greatestOf (mine.map (fun e => e.2.1)))).map (fun e => e.2.2.getD 10 0)

/-- Boot checks each unit's slot against its newest CAPTURE record (R620). A slot that no stored record names is left as it is (DEDUCED,
log entry 85). -/
def Chip.capScan (m : Chip) : Chip :=
  (List.range 8).foldl (fun m u =>
    let c := m.cap u
    let differs := match m.capCrc u with
      | some w => c.valid && w != wd (crc32 (capBytes c.stored))
      | none => false
    if c.torn || differs then m.capLost u else m) m

/-- A write of RCD_CAPu_CFG (R618). -/
def capCfgAct (u : Nat) (d : Word) (m : Chip) : Act :=
  let en := bitOf d 0
  { v := { erange := en && !m.capConfigured u }
    eff := fun m =>
      let m := m.store .rcdCapCfg u d
      let c := m.cap u
      if en then (if c.st = .idle || c.st = .done then m.capFill u else m, .ok)
      else if c.st = .filling || c.st = .armed || c.st = .post then
        (m.putCap u { c with st := .idle, pre := [], post := [] }, .ok)
      else (m, .ok) }

/-- RCD_CAPu_STAT. -/
def Chip.capStat (m : Chip) (u : Nat) : Word :=
  let c := m.cap u
  wd (c.st.ctorIdx + b2n c.valid * 8 + c.preValid * 16 + c.missed * 65536)

/-- A read of RCD_CAP_DATA (R621): two samples, and IDX moves on by 2. -/
def Chip.capData (m : Chip) : Chip × Word × Status :=
  let u := m.fld .rcdCapSel 0 2 0
  let k := m.fld .rcdCapSel 0 6 4
  let i := m.fld .rcdCapSel 0 27 16
  let c := m.cap u
  if c.st = .commit then (m, 0, .ebusy)
  else
    let s := fun (j : Nat) => (c.stored.getD j []).getD k 0
    (m.putF .rcdCapSel 0 27 16 (i + 2), wd (s i % 65536 + s (i + 1) % 65536 * 65536), .ok)

/-! ### The recorder's registers -/

/-- RCD_CMDSTAT. -/
def Chip.rcdStatus (m : Chip) (st : Status) (code : Nat) : Chip := m.put .rcdCmdstat 0 (wd (st.code + code * 256))

/-- A write of RCD_CMD (R613, R614, R619). -/
def rcdCmdAct (bank : Nat) (d : Word) (m : Chip) : Act :=
  let code := bits d 3 0
  let rej := fun (st : Status) (m : Chip) => m.rcdStatus st code
  if code = 1 then
    { v := { estate := !m.upd.present || m.rcd.clear.isSome || m.rcd.expRun, ebusy := m.pwr.ecdFired }
      eff := fun m =>
        let m : Chip := { m with rcd := { m.rcd with clear := some (leastOf m.seqs, greatestOf m.seqs, bitOf d 8) } }
        (m.rcdStatus .ok code, .ok)
      rej := rej }
  else if code = 2 then { eff := fun m => ((m.capTrigger (bits d 6 4) m.now).rcdStatus .ok code, .ok), rej := rej }
  else if code = 3 then
    { v := { estate := m.nvm.key0.isNone, ebusy := m.rcd.clear.isSome || m.rcd.expRun }
      eff := fun m => ((m.exportStart bank).rcdStatus .ebusy code, .ok)
      rej := rej }
  else { v := { erange := true }, eff := fun m => (m, .ok), rej := rej }

/-- A write of an RCD register by a reader's bank. -/
def rcdAct (bank : Nat) (r : RName) (i : Nat) (d : Word) (m : Chip) : Act :=
  match r with
  | .rcdCmd => rcdCmdAct bank d m
  | .rcdCur => actDo {} (fun m => m.put .rcdCur bank d)
  | .rcdCapCfg => capCfgAct i d m
  | _ => actStore r i d

/-- A read of a cursor register is held while the slot it would show is being written (R610). -/
def Chip.cursorHeld (m : Chip) (bank : Nat) : Bool :=
  match m.rcd.writing with
  | none => false
  | some (_, n, _) =>
    let cur := (m.get .rcdCur bank).toNat
    let circLo := leastOf ((m.stored.filter (fun e => 1024 ≤ e.1)).map (fun e => e.2.1))
    cur = n || (m.rcd.wrapped && cur + 1 = circLo)

/-- A read of an RCD register by a reader's bank: the chip, the word and the status. -/
def Chip.rcdRead (m : Chip) (bank : Nat) (r : RName) (i : Nat) : Chip × Word × Status :=
  match r with
  | .rcdCur | .rcdSeq | .rcdWin | .rcdSeqchk =>
    if m.rcd.clear.isSome then (m, 0, .ebusy)
    else
      let x := m.cursorRead r i bank
      (x.1, x.2, .ok)
  | .rcdExpWin =>
    if m.rcd.clear.isSome then (m, 0, .ebusy)
    else if m.rcd.expBank != bank then (m, 0, .estate)
    else (m, m.exportWord i, .ok)
  | .rcdCapData => m.capData
  | .rcdStat => (m, m.rcdStat, .ok)
  | .rcdFirst => (m, wd (leastOf m.seqs), .ok)
  | .rcdLast => (m, wd (greatestOf m.seqs), .ok)
  | .rcdNext => (m, wd m.rcd.next, .ok)
  | .rcdCapStat => (m, m.capStat i, .ok)
  | _ => (m, m.get r i, .ok)

end Sys2Proof.Machine
end

