-- ==== Sys2Proof/Machine/Thermal.lean ====
section
/-!
DEFINITION. Thermal management (R523 to R539): a sensor's reading and the writes of the THM registers.
-/

namespace Sys2Proof.Machine

/-- Sensor k's TYPE is not off: an on-die sensor always, a remote one by TYPE (R523, R527). -/
def Chip.thmOn (m : Chip) (k : Nat) : Bool := 16 ≤ k || m.fld .thmSCfg k 1 0 != 0

/-- A THM fault or event names the sensor and its reading (R539). -/
def Chip.thmPayload (m : Chip) (k : Nat) : List Word := [wd k, wdI (m.sensor k).t]

/-- A reading lies within MARGIN of one of the six points (R527). -/
def Chip.thmNear (m : Chip) (k : Nat) (t : Int) : Bool :=
  let g : Int := 10 * (m.fld .thmCfg 0 12 8 : Int)
  let near := fun (p : Int) => p - g ≤ t && t ≤ p + g
  (List.range 3).any (fun i => near (m.thmPoint k i) || near (m.thmPoint k i - m.thmHyst k i))

/-- THM_WARN of sensor k. -/
def Chip.thmWarn (m : Chip) (k : Nat) : Chip := m.raise 112 k (m.thmPayload k)

/-- Entry to SHUTDOWN (R529, R531): the branches that name the sensor are switched off while SHUTBRN = 1. -/
def Chip.thmShut (m : Chip) (k : Nat) (fromNormal : Bool) : Chip :=
  let m := m.putSensor k { m.sensor k with st := .shutdown }
  let m := m.raise 113 k (m.thmPayload k)
  let m := if fromNormal then m.thmWarn k else m
  if m.flag .thmCfg 0 1 && m.pwr.base != .shadow then m.eachBranch (fun n m => if m.brnF .brnNThm n 4 0 = k then m.brnOffCmd n else m) else m

/-- The upward transition that a reading makes, or the downward ones together in table order (R529). -/
def Chip.thmStep (m : Chip) (k : Nat) : Chip :=
  let s := m.sensor k
  let shut := m.thmPoint k 2
  let throt := m.thmPoint k 1
  let warn := m.thmPoint k 0
  let low := s.st = .normal || s.st = .warn
  if (low || s.st = .throttle) && 2 ≤ s.nShut then m.thmShut k (s.st = .normal)
  else if low && 2 ≤ s.nThrot && s.t < shut then
    let m := m.putSensor k { s with st := .throttle }
    let m := (m.eventRecord 228 k (m.thmPayload k)).event 228
    if s.st = .normal then m.thmWarn k else m
  else if s.st = .normal && 2 ≤ s.nWarn && s.t < throt then (m.putSensor k { s with st := .warn }).thmWarn k
  else
    let st := if s.st = .shutdown && s.t ≤ shut - m.thmHyst k 2 then ThmSt.throttle else s.st
    let st := if st = .throttle && s.t ≤ throt - m.thmHyst k 1 then ThmSt.warn else st
    let down := st = .warn && s.t ≤ warn - m.thmHyst k 0
    let m := m.putSensor k { s with st := if down then .normal else st }
    -- the table's action is a record alone: an EVENT record of THM_THROTTLE's source, without its event (DEDUCED, log entry 47)
    if down then m.eventRecord 228 k (m.thmPayload k) else m

/-- The time between two readings of a sensor in µs: 10 Hz, or 1 kHz (R527). -/
def Sensor.period (s : Sensor) : Nat := if s.fast then 1000 else 100000

/-- A reading of sensor k, due since its last one (R525 to R529): its temperature in 0.1 °C, or an open or shorted remote channel. -/
def Chip.thmReading (m : Chip) (k : Nat) (t : Int) (bad : Bool) : Chip :=
  if !m.thmOn k then m
  else
    let m := m.elapse (m.sensor k).readAt (m.sensor k).period
    let m := m.putSensor k { m.sensor k with readAt := m.now, held := none }
    let s := m.sensor k
    let s := if s.st = .off then { s with st := .normal } else s
    if bad && k < 16 then
      let m := m.putSensor k { s with st := .fault, valid := false, nOk := 0, nShut := 0, nThrot := 0, nWarn := 0 }
      if s.st = .fault then m else m.raise 114 k (m.thmPayload k)
    else
      let near := m.thmNear k t
      let out := if near then 0 else s.nOut + 1
      let up := fun (i n : Nat) => if m.thmPoint k i ≤ t then n + 1 else 0
      let s := { s with t := t, fast := near || (s.fast && out < 100), nOut := min 100 out,
                        die := 16 ≤ k && (1300 < t || t < -450) }
      if s.st = .fault then
        if 10 ≤ s.nOk + 1 then
          m.putSensor k { s with st := .normal, valid := true, nOk := 0, nShut := 0, nThrot := 0, nWarn := 0 }
        else m.putSensor k { s with nOk := s.nOk + 1 }
      else
        let s := { s with valid := true, nShut := min 2 (up 2 s.nShut), nThrot := min 2 (up 1 s.nThrot),
                          nWarn := min 2 (up 0 s.nWarn) }
        (m.putSensor k s).thmStep k

/-- A write of a THM register (R529, R530). -/
def thmAct (r : RName) (i : Nat) (d : Word) (_m : Chip) : Act :=
  match r with
  | .thmFuncMask => if i = 0 then actNone else actStore r i d
  | .thmSCfg =>
    if 16 ≤ i then { eff := fun m => (m.put r i (setBits (m.get r i) 15 8 (bits d 15 8)), .ok) }
    else
      { v := { erange := bits d 1 0 = 3 }
        eff := fun m =>
          let was := m.fld .thmSCfg i 1 0
          let m := m.store r i d
          let now := bits d 1 0
          (if now = 0 then m.putSensor i Sensor.init
           else if was = 0 then m.putSensor i { Sensor.init with st := .normal, readAt := m.now }
           else m, .ok) }
  | .thmSThr =>
    let w := sbits d 7 0
    let t := sbits d 15 8
    let s := sbits d 23 16
    { v := { erange := !(w ≤ t && t < s) || (16 ≤ i && 125 < s) }
      eff := fun m =>
        ((m.store r i d).putSensor i { m.sensor i with nShut := 0, nThrot := 0, nWarn := 0, held := some (m.thmWords i) }, .ok) }
  | .thmSHyst => actDo {} (fun m => (m.store r i d).putSensor i { m.sensor i with held := some (m.thmWords i) })
  | _ => actStore r i d

/-- The code of a sensor's state. -/
def ThmSt.code : ThmSt → Nat
  | .off => 0 | .normal => 1 | .warn => 2 | .throttle => 3 | .shutdown => 4 | .fault => 5

/-- THM_Sk_STAT. -/
def Chip.thmStat (m : Chip) (k : Nat) : Word :=
  let s := m.sensor k
  wd (unI s.t 16 + s.st.code * 65536 + b2n s.fast * 2 ^ 19 + b2n s.valid * 2 ^ 20)

/-- THM_FUNCf_RED in 0.1 %. -/
def Chip.thmFuncRed (m : Chip) (f : Nat) : Word := wdI (rdiv (m.funcRed f * 1000) 16777216)

end Sys2Proof.Machine
end

