-- ==== Sys2Proof/Machine/Security.lean ====
section
/-!
DEFINITION. Security (R566 to R572), the end of a service session (R635), and the registers of FLT, EVT and SEC (R548 to
R558, R574, R575).
-/

namespace Sys2Proof.Machine

/-! ### The end of a service session (R635, R636) -/

/-- A staging slot that is loading becomes empty (R639). -/
def Chip.stageDrop (m : Chip) : Chip :=
  if m.upd.stg = .loading then { m with upd := { m.upd with stg := .empty, bytes := [], stgImg := Img.none } } else m

/-- The queues of channels lo to hi are emptied (R502). -/
def Chip.emptyQueues (m : Chip) (lo hi : Nat) : Chip :=
  let out := fun (t : NTab (List Word)) => t.filter (fun e => e.1 < lo || hi < e.1)
  let gone := fun (t : NTab (List Nat)) => t.filter (fun e => e.1 / 2 < lo || hi < e.1 / 2)
  { m with hst := { m.hst with ab := out m.hst.ab, ba := out m.hst.ba, arrived := gone m.hst.arrived } }

/-- An SVC_SESSION record and its event (R636): opening or end, the mode (true for key), the end cause. -/
def Chip.sessionRecord (m : Chip) (opening key : Bool) (cause : Nat) : Chip :=
  (m.eventRecord 238 0 [wd (b2n opening + b2n key * 2 + cause * 256)]).event 238

/-- A service session ends (R635): 0 CLOSE, 1 idle, 2 presence, 3 ERASE. A handshake that has not opened a session is
dropped without a record. -/
def Chip.sessionEnd (m : Chip) (cause : Nat) : Chip :=
  let u := m.upd
  let drop := fun (m : Chip) => ({ m with upd := { m.upd with session := 0, nh := [], nd := [], ks := [], resp := [] } } : Chip)
  if u.session = 0 then m
  else if u.session = 1 then drop m
  else
    let m := (drop m).stageDrop.emptyQueues 24 43
    let m : Chip := { m with pwr := { m.pwr with condSvc := false }, sec := { m.sec with prov := none },
                             upd := { m.upd with rate := 0, fallback := none } }
    m.sessionRecord false (u.session = 3) cause

/-! ### Responses (R567 to R569) -/

/-- Security watches something: from BOOT onward (R566). -/
def Chip.secOn (m : Chip) : Bool := m.pwr.base != .off && m.pwr.base != .ship

/-- An open bundle load of a port is cancelled, its region stays empty (R130, R568). -/
def Chip.loadCancel (m : Chip) (o : Owner) : Chip :=
  match m.lay.load with
  | some l => if l.port = o then { m with lay := { m.lay with load := none } } else m
  | none => m

/-- A LOCKDOWN response (R568). With COND_LOCK already set nothing is left to do. -/
def Chip.lockdown (m : Chip) : Chip :=
  if m.nvm.lock then m
  else
    let m : Chip := { m with nvm := { m.nvm with lock := true } }
    let m := ((m.haltOwner .host).loadCancel .host).stageDrop
    let m := (List.range 16).foldl (fun m k => m.put .evtPend k 0) m
    m.openRecord 6

/-- An ERASE response's second part (R569): the key slots are zeroed, an export that runs ends with ESTATE (R622), a session
ends. While the early collapse detector has fired, no MRAM write starts, and the erase waits for its re-arming (R58, DEDUCED, log entry 60). -/
def Chip.eraseKeys (m : Chip) : Chip :=
  if m.pwr.ecdFired then { m with sec := { m.sec with eraseDue := true } }
  else
    let m : Chip := { m with nvm := { m.nvm with key0 := none, key1 := none, key2 := none, erasing := false },
                             sec := { m.sec with prov := none, eraseDue := false } }
    let m := if m.rcd.expRun then
        ({ m with rcd := { m.rcd with expRun := false, expBuf := [], expTrailer := [] } } : Chip).put .rcdCmdstat 0
          (wd (0x300 + Status.estate.code))
      else m
    let m := (m.eventRecord 237 0 []).event 237
    m.sessionEnd 3

/-- Alarm k is raised (R566): its flag, its source, its response. -/
def Chip.secAlarm (m : Chip) (k : Nat) : Chip :=
  if !m.secOn then m
  else
    let resp := m.fld .secAlarmCfg 0 (2 * k + 1) (2 * k)
    let m := (m.putF .secAlarmFlg 0 k k 1).raise (119 + k) 0 []
    if resp = 0 then m
    else if resp = 1 then m.lockdown
    else m.lockdown.eraseKeys

/-- An alarm condition begins or ends (SEC_ALARM_NOW); its beginning raises the alarm. -/
def Chip.secCondition (m : Chip) (k : Nat) (present : Bool) : Chip :=
  let was := has m.sec.now k
  let m : Chip := { m with sec := { m.sec with now := putM m.sec.now k present } }
  if present && !was then m.secAlarm k else m

/-- Tamper input k is away from its alarm level, or its settings have been written. -/
def Chip.tamperQuiet (m : Chip) (k : Nat) : Chip := { m with sec := { m.sec with quietAt := NTab.set 0 m.sec.quietAt k m.now } }

/-- Tamper input k has stayed at its alarm level for DEBOUNCE, while its EN bit is 1 (R566). -/
def Chip.tamper (m : Chip) (k : Nat) : Chip :=
  if !m.secOn || !m.flag .secTamperCfg 0 k || has m.sec.now k then m
  else (m.elapse (NTab.get 0 m.sec.quietAt k) (m.fld .secTamperCfg 0 15 8 * 1000)).secCondition k true

/-- A write of SEC_TAMPER_CFG: where EN or POL of an input changes, its condition ends and its DEBOUNCE starts anew (R566). -/
def Chip.tamperCfg (m : Chip) (d : Word) : Chip :=
  let w := m.get .secTamperCfg 0
  let m := m.store .secTamperCfg 0 d
  (List.range 4).foldl (fun m k =>
    if bitOf w k != bitOf d k || bitOf w (4 + k) != bitOf d (4 + k) then (m.secCondition k false).tamperQuiet k else m) m

/-- An on-die reading lies outside the bounds of R526. -/
def Chip.dieBad (m : Chip) : Bool := (List.range 6).any (fun j => (m.sensor (16 + j)).die)

/-- An alarm condition has ceased; that of the die temperature is what the readings say. -/
def Chip.alarmCeased (m : Chip) (k : Nat) : Chip :=
  if k = 6 then m.secCondition 6 m.dieBad
  else (m.secCondition k false).when (k < 4) (fun m => m.tamperQuiet k)

/-- A sensor reading with what SEC makes of an on-die one (R526, R566), in the modes that THM runs in (R536). -/
def Chip.thmRow (m : Chip) (k : Nat) (t : Int) (bad : Bool) : Chip :=
  m.when m.up (fun m =>
    let m := m.thmReading k t bad
    m.secCondition 6 m.dieBad)

/-! ### The flood counts (R566, R118, R496) -/

/-- The windows of a width that run back to back from reset: a stamp and a later one fall in the same (R566). -/
def sameWindow (width t now : Nat) : Bool := width = 0 || t / width = now / width

/-- An EAUTH rejection is counted to a port: 0 host, 1 service, 2 peer (R496). The first past EAUTHMAX in a window raises the alarm. -/
def Chip.eauthPort (m : Chip) (p : Nat) : Chip :=
  let m := m.bump .hstEauth p 15 0 1
  let s := m.sec
  let s := if sameWindow (m.fld .secFloodCfg 0 15 8 * 100000) s.eauthAt m.now then s
    else { s with eauthHost := 0, eauthSvc := 0, eauthPeer := 0, hit := s.hit / 8 * 8 }
  let n := if p = 0 then s.eauthHost + 1 else if p = 1 then s.eauthSvc + 1 else s.eauthPeer + 1
  let s := if p = 0 then { s with eauthHost := n } else if p = 1 then { s with eauthSvc := n } else { s with eauthPeer := n }
  let flood := m.fld .secFloodCfg 0 7 0 < n && !has s.hit p
  let m : Chip := { m with sec := { s with eauthAt := m.now, hit := if flood then setM s.hit p else s.hit } }
  if flood then m.secAlarm 7 else m

/-- An EAUTH rejection of an agent's access (R118, R496). -/
def Chip.eauthNote (m : Chip) (ag : Agent) : Chip :=
  let owner := fun (o : Owner) (m : Chip) => match o with
    | .host => m.eauthPort 0
    | .svc => m.eauthPort 1
    | .vendor => m
  match ag with
  | .host => m.eauthPort 0
  | .svc => m.eauthPort 1
  | .strand k => owner (m.strand k).owner (m.bump .layEauthcnt 0 15 0 1)
  | _ => m

/-- A malformed service frame is counted toward the framing alarm (R566, R627). -/
def Chip.frameNote (m : Chip) : Chip :=
  let s := m.sec
  let same := sameWindow (m.fld .secFloodCfg 0 31 24 * 100000) s.framesAt m.now
  let n := if same then s.frames + 1 else 1
  let hit := if same then s.hit else clrM s.hit 3
  let flood := m.fld .secFloodCfg 0 23 16 < n && !has hit 3
  let m : Chip := { m with sec := { s with frames := n, framesAt := m.now, hit := if flood then setM hit 3 else hit } }
  if flood then m.secAlarm 8 else m

/-! ### Keys (R570, R571) -/

/-- Whether a key slot holds a key. -/
def Chip.keyOf (m : Chip) (slot : Nat) : Option (List Word) :=
  if slot = 0 then m.nvm.key0 else if slot = 1 then m.nvm.key1 else if slot = 2 then m.nvm.key2 else none

/-- A key slot takes a key. -/
def Chip.putKey (m : Chip) (slot : Nat) (k : List Word) : Chip :=
  if slot = 0 then { m with nvm := { m.nvm with key0 := some k } }
  else if slot = 1 then { m with nvm := { m.nvm with key1 := some k } }
  else { m with nvm := { m.nvm with key2 := some k } }

/-- The check value of a key: bytes 0 to 3 of its SHA-256 (R571). -/
def keyCheck (key : List Word) : Word := ofLe (sha256 (key.flatMap leBytes))

/-- Alarm conditions present (SEC_ALARM_NOW). -/
def Chip.alarmNow (m : Chip) : Nat := m.sec.now

/-- A COMMIT of the open key (R571): EPROTO where the check value does not match. -/
def Chip.keyCommit (m : Chip) (slot : Nat) : Chip × Status :=
  match m.sec.prov with
  | some (s, ws) =>
    if s = slot && keyCheck ws = m.get .secKeyChk 0 then
      (({ m with sec := { m.sec with prov := none } } : Chip).putKey slot ws, .ok)
    else (m, .eproto)
  | none => (m, .erange)

/-- A write of SEC_KEY_CTL (R571). -/
def keyCtlAct (d : Word) (m : Chip) : Act :=
  let op := bits d 9 8
  let slot := bits d 1 0
  let stat := fun (st : Status) (m : Chip) => m.put .secCmdstat 0 (wd (st.code + op * 256))
  let gate := !m.upd.present || m.alarmNow != 0
  let eight := match m.sec.prov with
    | some (_, ws) => ws.length = 8
    | none => false
  if op = 1 then
    { v := { erange := slot = 3, estate := gate }
      eff := fun m => (stat .ok { m with sec := { m.sec with prov := some (slot, []) } }, .ok), rej := stat }
  else if op = 2 then
    { v := { erange := slot = 3 || !eight, estate := gate, ebusy := m.pwr.ecdFired }
      eff := fun m => let r := m.keyCommit slot; (stat r.2 r.1, r.2), rej := stat }
  else if op = 3 then
    { v := { erange := slot = 3 }
      eff := fun m => (stat .ok { m with sec := { m.sec with prov := none } }, .ok), rej := stat }
  else { v := { erange := true }, eff := fun m => (m, .ok), rej := stat }

/-- A key word arrives (R571). More than eight are counted as nine, which no COMMIT accepts. -/
def keyDataAct (d : Word) (m : Chip) : Act :=
  match m.sec.prov with
  | some (s, ws) =>
    actDo {} (fun m => { m with sec := { m.sec with prov := some (s, if ws.length < 9 then ws ++ [d] else ws) } })
  | none => { v := { estate := true }, eff := fun m => (m, .ok) }

/-- A write of SEC_ALARM_CFG (R567): lowering any response needs presence. -/
def alarmCfgAct (d : Word) (m : Chip) : Act :=
  let f := fun (w : Word) (k : Nat) => bits w (2 * k + 1) (2 * k)
  let old := m.get .secAlarmCfg 0
  actStoreIf { erange := (List.range 9).any (fun k => f d k = 3)
               estate := !m.upd.present && (List.range 9).any (fun k => f d k < f old k) } .secAlarmCfg 0 d

/-- A write of a SEC register. -/
def secAct (r : RName) (i : Nat) (d : Word) (m : Chip) : Act :=
  match r with
  | .secAlarmCfg => alarmCfgAct d m
  | .secKeyCtl => keyCtlAct d m
  | .secKeyData => keyDataAct d m
  | .secTamperCfg => actDo {} (fun m => m.tamperCfg d)
  | _ => actStore r i d

/-- The read-only registers of SEC. -/
def Chip.secRead (m : Chip) (r : RName) (i : Nat) : Word :=
  match r with
  | .secAlarmNow => wd m.alarmNow
  | .secKeystat =>
    wd (b2n m.nvm.key0.isSome + b2n m.nvm.key1.isSome * 2 + b2n m.nvm.key2.isSome * 4 + b2n (m.nvm.erasing || m.sec.eraseDue) * 256 +
      (match m.sec.prov with
        | some (s, _) => 512 + s * 65536
        | none => 0))
  | _ => m.get r i

/-! ### FLT and EVT -/

/-- The owner under whose port's authority an agent stands, if it is not the vendor's. -/
def Chip.portOf (m : Chip) (ag : Agent) : Owner := m.authOf ag

/-- A write of FLT_SRCs (R548). -/
def fltSrcAct (ag : Agent) (s : Nat) (d : Word) (m : Chip) : Act :=
  let sev := bits d 2 0
  let keep := s ≤ 2 || (19 ≤ s && s ≤ 22) || (119 ≤ s && s ≤ 127)
  let unscoped := match scopeOf s with
    | .none | .string | .sensor | .comparator => true
    | _ => false
  actStoreIf { eauth := m.portOf ag = .host && keep
               erange := 4 < sev || (sev = 3 && unscoped) || (s ≤ 2 && sev < 2) || (119 ≤ s && s ≤ 127 && sev = 0) }
    .fltSrc s d

/-- A write of FLT_SWRAISE (R558). -/
def swraiseAct (ag : Agent) (d : Word) (m : Chip) : Act :=
  let code := bits d 7 0
  match m.portOf ag with
  | .host => actDo {} (fun m => m.raise 13 0 [wd code])
  | .svc => actDo {} (fun m => m.raise 14 0 [wd code])
  | .vendor => { v := { erange := true }, eff := fun m => (m, .ok) }

/-- A write of EVT_PENDd_w (R556): bits written 1 are acknowledged; destinations 2 and 3 only by the firmware. -/
def evtPendAct (ag : Agent) (i : Nat) (d : Word) : Act :=
  if 16 ≤ i && i < 32 && ag != .fw then actNone
  else actDo {} (fun m => m.put .evtPend i (m.get .evtPend i &&& ~~~d))

/-- A write of EVT_ROUTEs (R555): bits [3:2] only by the firmware. -/
def evtRouteAct (ag : Agent) (s : Nat) (d : Word) : Act :=
  actDo {} (fun m => m.put .evtRoute s (wd (if ag = .fw then bits d 7 0
    else bits d 7 4 * 16 + m.fld .evtRoute s 3 2 * 4 + bits d 1 0)))

/-- A write of an FLT or EVT register. -/
def fltAct (ag : Agent) (r : RName) (i : Nat) (d : Word) (m : Chip) : Act :=
  match r with
  | .fltSrc => fltSrcAct ag i d m
  | .fltSwraise => swraiseAct ag d m
  | .evtSwset => actDo {} (fun m => m.event (240 + bits d 3 0))
  | .evtPend => evtPendAct ag i d
  | .evtRoute => evtRouteAct ag i d
  | _ => actStore r i d

/-- Sources whose flag is latched. -/
def Chip.latched (m : Chip) : List Nat := (List.range 192).filter (fun s => m.flag .fltFlag s 31)

/-- The read-only registers of FLT and EVT. -/
def Chip.fltRead (m : Chip) (r : RName) (i : Nat) : Word :=
  match r with
  | .fltSum =>
    let ls := m.latched
    wd (ls.foldl (fun a s => max a (m.fld .fltFlag s 30 28)) 0 + b2n (!ls.isEmpty) * 8 + ls.length * 256 +
      b2n (!m.pins.errN) * 65536)
  | .fltLatch => wd ((List.range 32).foldl (fun a b => if m.flag .fltFlag (32 * i + b) 31 then setM a b else a) 0)
  | .evtDsum => wd ((List.range 8).foldl (fun a w => a + popM 32 (m.get .evtPend (8 * i + w)).toNat) 0)
  | _ => m.get r i

/-- The deliveries of a source that still wait no longer pull ERR_N low: its flag has been read (R552). -/
def Chip.quietErr (m : Chip) (s : Nat) : Chip :=
  let q := fun (d : Deliv) => if d.src = s then { d with err := false } else d
  let r := m.rcd
  { m with rcd := { r with queue := r.queue.map (fun x => { x with deliv := x.deliv.map q })
                           writing := r.writing.map (fun x => (x.1, x.2.1, { x.2.2 with deliv := x.2.2.deliv.map q }))
                           deliver := r.deliver.map q } }

/-- A read of FLT_FLAGs (R550, R552, R553): the word; the flag is cleared, fences of the source count as read, and COND_DEGR
clears with the last flag of severity DEGRADE. -/
def Chip.flagRead (m : Chip) (s : Nat) : Chip × Word :=
  let w := m.get .fltFlag s
  let was := 2 ≤ bits w 30 28
  let m := ((m.put .fltFlag s 0).readFences s).quietErr s
  let m : Chip := { m with flt := { m.flt with err := NTab.set false m.flt.err s false, last := NTab.set 0 m.flt.last s 0 } }
  let degr := (List.range 192).any (fun k => m.fld .fltFlag k 30 28 = 2)
  let m := if m.pwr.condDegr && was && !degr then
      ({ m with pwr := { m.pwr with condDegr := false } } : Chip).modeRecord
    else m
  (m, w)

/-- Step 4 of R549: the record of the oldest occurrence not yet delivered is readable; its event is delivered, and ERR_N
falls if the occurrence raised LSEV to WARN or above. -/
def Chip.faultDeliver (m : Chip) : Chip :=
  match m.rcd.deliver with
  | [] => m
  | d :: rest =>
    let m : Chip := { m with rcd := { m.rcd with deliver := rest } }
    let m : Chip := if d.err then { m with flt := { m.flt with err := NTab.set false m.flt.err d.src true } } else m
    m.deliver d.src

/-- A policy pair's lockstep has mismatched (R23). -/
def Chip.lockstep (m : Chip) (p : Pair) : Chip :=
  match p with
  | .a => m.raise 0 0 []
  | .b => m.raise 1 0 []

/-- A heartbeat has been missing for 3 consecutive periods of 10 ms (R23). -/
def Chip.heartbeat (m : Chip) : Chip :=
  let m := m.elapse m.flt.hbAt 30000
  ({ m with flt := { m.flt with hbAt := m.now } } : Chip).raise 2 0 []

end Sys2Proof.Machine
end

