-- ==== Sys2Proof/Machine/Journal.lean ====
section
/-!
DEFINITION. The journal of the redundant pair (R588, R589): the items of the tracked state, what a command's change adds to
the journal, and how the secondary applies an item.
-/

namespace Sys2Proof.Machine

/-! ### Coded states -/

/-- The branch state of a number. -/
def brnOf (n : Nat) : BrnSt := ([.off, .inrush, .on, .tripped, .latched, .fenced] : List BrnSt).getD n .off
/-- The sequencer state of a number. -/
def seqOf (n : Nat) : SeqSt := ([.off, .up, .on, .down, .halted] : List SeqSt).getD n .off
/-- The string state of a number. -/
def strOf (n : Nat) : StringSt := ([.absent, .open_, .matching, .closed, .stuck] : List StringSt).getD n .absent
/-- The charger phase of a number. -/
def chgOf (n : Nat) : ChgPh :=
  ([.idle, .entry, .trickle, .prechg, .bulk, .topoff, .done, .float, .fault] : List ChgPh).getD n .idle
/-- The stage state of a number. -/
def stageOf (n : Nat) : StageSt := ([.stopped, .softstart, .run, .stopping, .hiccup, .fenced] : List StageSt).getD n .stopped
/-- The hand-over state of a number. -/
def hoOf (n : Nat) : HoSt := ([.idle, .onsrc, .antic, .handover, .onbatt, .ret] : List HoSt).getD n .idle
/-- The capping state of a number. -/
def capOf (n : Nat) : CapMSt := ([.off, .armed, .capped, .floor] : List CapMSt).getD n .off
/-- The base state of a mode code. -/
def baseOf (n : Nat) : Base :=
  ([.off, .ship, .boot, .standby, .shadow, .source, .holdup, .capped] : List Base).getD n .standby

/-! ### The items (R588) -/

/-- A spell's start in an item: 0 for none. -/
def optNat (o : Option Nat) : Nat :=
  match o with
  | some t => t + 1
  | none => 0

/-- Saved gains in an item. -/
def optGains (o : Option (Word × Word)) : List Nat :=
  match o with
  | some g => [1, g.1.toNat, g.2.toNat]
  | none => [0, 0, 0]

/-- The POLICY item (R588): the states of both machines with what they time, as stamps of this chip, the hand-over and capping values
behind RLIM, RLIM, the words of BSLOT and RSLOT, the shed set and the saved gains. -/
def Chip.policyItem (m : Chip) : List Nat :=
  let p := m.pol
  [p.ho.ctorIdx, p.hoAt, p.cap.ctorIdx, p.capAt, (m.common 0x3C0).toNat, (m.lw m.bslot 2).toNat, bits (m.lw m.rslot 0) 2 1,
    (m.lw m.rslot 4).toNat, m.shedStat, p.hoCause, b2n p.capacity, optNat p.srcSince, optNat p.outHi, optNat p.outLo, unI p.hoVal 32,
    b2n p.ramping, b2n p.walkIn, p.rampAt, unI p.capVal 32, p.shedAt, optNat p.calmAt, optNat p.restAt] ++
    optGains p.savedR ++ optGains p.savedB

/-- The stamp at which a POLICY item is sent joins it, for the twin to tell what has elapsed (R588). -/
def Chip.stampItem (m : Chip) (j : JItem) : JItem := if j.kind = 6 then { j with vals := j.vals ++ [m.now] } else j

/-- The items of the state that is journalled as it stands: kinds 0x03 to 0x0C. -/
def Chip.journalItems (m : Chip) : List JItem :=
  let gens := m.ptn.ents.map (fun (x : Nat × Ent) => (⟨3, x.1, [x.2.genl, x.2.genf, x.2.genv]⟩ : JItem))
  let slots := m.cle.slots.map (fun (x : Nat × Slot) =>
    (⟨4, x.1, [(m.lw x.1 9).toNat, (m.lw x.1 10).toNat]⟩ : JItem))
  let pol : JItem := ⟨6, 0, m.policyItem⟩
  let brs := m.brn.ch.map (fun (x : Nat × Branch) => (⟨7, x.1, [x.2.st.ctorIdx, x.2.retry, x.2.cause]⟩ : JItem))
  let sq : JItem := ⟨8, 0, [m.seq.st.ctorIdx, m.seq.step, b2n m.seq.req, m.seq.en, m.seq.rst]⟩
  let bat : JItem := ⟨9, 0, (List.range 4).map (fun n => (m.bstr n).st.ctorIdx) ++
    [m.bat.phase.ctorIdx, m.bat.phaseUs, m.bat.bulkUs, unI m.bat.cb 32]⟩
  let stages := m.cnv.stages.map (fun (x : Nat × Conv) => (⟨10, x.1, [x.2.st.ctorIdx, x.2.retry, x.2.active]⟩ : JItem))
  gens ++ slots ++ [⟨5, 0, [m.rcd.next - 1]⟩, pol] ++ brs ++ [sq, bat] ++ stages ++ [⟨11, 0, [m.pwr.base.code]⟩]

/-- The SLOTOUT items of the slots of a mask (R588, kind 0x0C). -/
def Chip.slotOuts (m : Chip) (mask : Nat) : List JItem :=
  ((List.range 64).filter (has mask)).map (fun s => (⟨12, s, [(m.lw s 7).toNat]⟩ : JItem))

/-- The slots that are compared. -/
def Chip.compared (m : Chip) : Nat := (m.get .splCmp 0).toNat + (m.get .splCmp 1).toNat * 2 ^ 32
/-- The kind of a transaction from its number. -/
def txKindOf (n : Nat) : TxKind :=
  ([.read, .write, .cmd, .blkr, .blkw, .setp, .final, .retract, .restore, .keep, .poll] : List TxKind).getD n .read

/-- The TXN_ACCEPT item of a transaction (R588, kind 0x01), with the class it was issued in. What the twin sends again has to be of the
same kind, on the same paths of a group: these join the item (DEDUCED, log entry 58). -/
def Chip.acceptItem (m : Chip) (t : Txn) : JItem :=
  let paths := if t.kind = .retract || t.kind = .restore then t.legs.map Leg.key else []
  ⟨1, t.entry, [t.id, kindClass t.kind, t.item, t.gen, b2n t.tent.isSome, m.txnValue t, t.kind.ctorIdx] ++ paths⟩

/-- The TXN_DONE item of a transaction (R588, kind 0x02). -/
def doneItem (x : Nat × Nat × Nat) : JItem := ⟨2, x.1, [x.2.1, x.2.2]⟩

/-- What a change from `old` to `m` adds to the journal, in the order of the kinds. -/
def Chip.journalDiff (old m : Chip) : List JItem :=
  let ids := old.ptn.pool.map (fun t => t.id)
  let was := old.journalItems
  (m.ptn.pool.filter (fun t => !ids.contains t.id)).map (fun t => m.acceptItem t) ++ m.ptn.done.map doneItem ++
    (m.journalItems.filter (fun j => !was.contains j)).map m.stampItem ++ m.slotOuts m.spl.outDue

/-- The bytes an item counts for in the retention of 64 KB: four, and four for each number it carries (DEDUCED, log entry 58). -/
def itemBytes (j : JItem) : Nat := 4 + 4 * j.vals.length

/-- Bytes of the journal items not yet acknowledged. -/
def Chip.retained (m : Chip) : Nat :=
  m.spl.unacked.foldl (fun a (x : Nat × PFrame) => match x.2 with
    | .journal js => a + js.foldl (fun b j => b + itemBytes j) 0
    | _ => a) 0

/-- A SNAPSHOT is sent: every item in its present value (R589). -/
def Chip.sendSnapshot (m : Chip) : Chip :=
  let js := m.ptn.pool.map (fun t => m.acceptItem t) ++ m.journalItems.map m.stampItem ++ m.slotOuts m.compared
  let m := m.peerSend (.snapshot js)
  { m with spl := { m.spl with jOn := true } }

/-- The acting primary journals (R588): its line is asserted, the link is up and the journal has been started. -/
def Chip.journalling (m : Chip) : Bool := m.spl.out && m.spl.link && m.spl.jOn

/-- What the present command has completed and sampled is dealt with. -/
def Chip.journalClear (m : Chip) : Chip :=
  if m.ptn.done.isEmpty && m.spl.outDue = 0 then m
  else { m with ptn := { m.ptn with done := [] }, spl := { m.spl with outDue := 0 } }

/-- The items of a command's change are sent. Items that fall out of retention unacknowledged raise PEER_JOURNAL, and a SNAPSHOT takes
their place (R589). -/
def Chip.journalSend (m : Chip) (js : List JItem) : Chip :=
  if js.isEmpty then m
  else
    let m := m.peerSend (.journal js)
    if 65536 < m.retained then
      let m : Chip := { m with spl := { m.spl with unacked := [] } }
      (m.raise 118 0 []).sendSnapshot
    else m

/-- A command's change is journalled (R588). -/
def Chip.journal (m old : Chip) : Chip :=
  (if m.journalling then m.journalSend (m.journalDiff old) else m).journalClear

/-! ### Applying an item (R588) -/

/-- The policy's state is taken over with its elapsed timers: a stamp of the twin's becomes the stamp of this chip that lies as far
back (R588; DEDUCED, log entry 58). -/
def Chip.applyPolicy (m : Chip) (v : List Nat) : Chip :=
  let g := fun k => v.getD k 0
  let at_ := fun (t : Nat) => m.now - (g 28 - t)
  let opt := fun (t : Nat) => if t = 0 then none else some (at_ (t - 1))
  let gains := fun (k : Nat) => if g k = 1 then some (wd (g (k + 1)), wd (g (k + 2))) else none
  let p : Pol := { m.pol with
    ho := hoOf (g 0), hoAt := at_ (g 1), cap := capOf (g 2), capAt := at_ (g 3), hoCause := g 9, capacity := g 10 = 1
    srcSince := opt (g 11), outHi := opt (g 12), outLo := opt (g 13), hoVal := sxN (g 14) 32, ramping := g 15 = 1
    walkIn := g 16 = 1, rampAt := at_ (g 17), capVal := sxN (g 18) 32, shedAt := at_ (g 19), calmAt := opt (g 20)
    restAt := opt (g 21), savedR := gains 22, savedB := gains 25 }
  let m := ({ m with pol := p } : Chip).putCommon 0x3C0 (wd (g 4))
  let m := (m.putLw m.bslot 2 (wd (g 5))).rslotMode (g 6) (wd (g 7)).toInt
  m.eachBranch (fun n m => m.putBranch n { m.branch n with shed := has (g 8) n })

/-- A branch's state is taken over (R364): a state that it was not in is entered now, so that its timers and checks run from here. -/
def Chip.applyBranch (m : Chip) (n : Nat) (st : BrnSt) (retry cause : Nat) : Chip :=
  let m := m.when ((m.branch n).st != st) (fun m => m.brnTo n st cause)
  m.putBranch n { m.branch n with retry := retry, cause := cause }

/-- The battery state is taken over, with SSWn closed in CLOSED (R374). -/
def Chip.applyBat (m : Chip) (v : List Nat) : Chip :=
  let g := fun k => v.getD k 0
  let m := (List.range 4).foldl (fun m n =>
    let st := strOf (g n)
    m.putBstr n { m.bstr n with st := st, ssw := st = .closed }) m
  { m with bat := { m.bat with phase := chgOf (g 4), phaseUs := g 5, bulkUs := g 6, cb := sxN (g 7) 32 } }

/-- The rails whose ENABLE step has run with the sequence at step n (R81). -/
def Chip.stepsEnabled (m : Chip) (n : Nat) : Nat :=
  (List.range n).foldl (fun a k => if m.stepType k = 1 then setM a (m.stepTarget k) else a) 0

/-- The reset outputs whose release step has run once the steps below n have (R83). -/
def Chip.stepsReleased (m : Chip) (n : Nat) : Nat :=
  (List.range n).foldl (fun a k =>
    if m.stepType k = 6 then setM a (m.stepTarget k) else if m.stepType k = 5 then clrM a (m.stepTarget k) else a) 0

/-- The sequencer's state is taken over (R588). What the item does not carry follows from the step table: the rails whose ENABLE step and
the outputs whose release step has run, and the first step of a sequence that begins. The faults that the twin raised in it stay the
twin's (DEDUCED, log entry 72). -/
def Chip.applySeq (m : Chip) (v : List Nat) : Chip :=
  let g := fun k => v.getD k 0
  let old := m.seq
  let st := seqOf (g 0)
  let n := g 1
  let q := { old with st := st, step := n, req := g 2 = 1, en := g 3, rst := g 4, wait := .none
                      enabled := if st = SeqSt.off then 0 else g 3 ||| m.stepsEnabled n
                      released := if st = SeqSt.off then 0 else g 4 ||| m.stepsReleased (if st = SeqSt.up then n + 1 else n) }
  let good := (List.range 4).foldl (fun t k => if has q.released k && !has old.released k then NTab.set 0 t k m.now else t) old.goodAt
  let m : Chip := { m with seq := { q with goodAt := good } }
  if st = .down && old.st != .down then m.seqBegin old.step
  else if st = .up && old.st != .up && old.st != .halted then m.seqBegin 0
  else m

/-- A journal item is applied in shadow (R588). -/
def Chip.applyItem (m : Chip) (j : JItem) : Chip :=
  let g := fun k => j.vals.getD k 0
  let u := j.unit
  if j.kind = 1 then
    let t : MTxn := { entry := u, serial := g 0, cls := g 1, item := g 2, gen := g 3, tent := g 4 = 1, value := g 5, kind := g 6,
                      paths := j.vals.drop 7 }
    { m with spl := { m.spl with txns := m.spl.txns ++ [t] } }
  else if j.kind = 2 then
    { m with spl := { m.spl with txns := m.spl.txns.filter (fun t => !(t.entry = u && t.serial = g 0)) } }
  else if j.kind = 3 then m.putEnt u { m.ent u with genl := max (m.ent u).genl (g 0), genf := g 1, genv := g 2 }
  else if j.kind = 4 then (m.putLw u 9 (wd (max (m.lw u 9).toNat (g 0)))).putLw u 10 (wd (g 1))
  else if j.kind = 5 then { m with spl := { m.spl with recSeq := max m.spl.recSeq (g 0) } }
  else if j.kind = 6 then m.applyPolicy j.vals
  else if j.kind = 7 then m.applyBranch u (brnOf (g 0)) (g 1) (g 2)
  else if j.kind = 8 then m.applySeq j.vals
  else if j.kind = 9 then m.applyBat j.vals
  else if j.kind = 10 then m.applyStage u (stageOf (g 0)) (g 1) (g 2)
  else if j.kind = 11 then { m with spl := { m.spl with shadowBase := baseOf (g 0) } }
  else if j.kind = 12 then { m with spl := { m.spl with slotOut := NTab.set none m.spl.slotOut u (some (wd (g 0))) } }
  else m

end Sys2Proof.Machine
end

