-- ==== Sys2Proof/Machine/Splice.lean ====
section
/-!
DEFINITION. The redundant pair (R576 to R601): the peer link, the states of R591, the take of R593, the interlock lines and
the SPL commands.
-/

namespace Sys2Proof.Machine

/-! ### The peer link (R585, R586) -/

/-- The HELLO that the chip sends (R585). -/
def Chip.ownHello (m : Chip) : Hello :=
  { role := m.pwr.role, acting := m.acting, state := m.spl.st.ctorIdx, digest := m.upd.act.dig, bundle := m.upd.act.bver,
    safe := m.pwr.condSafe, ack := m.spl.rxSeq }

/-- Every 100 µs a HELLO is sent (R586). -/
def Chip.sendHello (m : Chip) : Chip :=
  let m := m.elapse m.spl.helloAt 100
  { m with spl := { m.spl with hello := some m.ownHello, helloAt := m.now } }

/-- READY's conditions (R591): the link is up, the last SNAPSHOT has been applied, the digests and the bundle versions agree, and COND_SAFE
is clear. -/
def Chip.readyOk (m : Chip) : Bool :=
  match m.spl.twin with
  | none => false
  | some h => m.spl.link && m.spl.snap && h.digest = m.upd.act.dig && h.bundle = m.upd.act.bver && !m.pwr.condSafe

/-- The twin's state is SOLO or ACTIVE. -/
def Chip.twinDrives (m : Chip) : Bool :=
  match m.spl.twin with
  | none => false
  | some h => h.state = 1 || h.state = 2

/-- The twin's state is READY. -/
def Chip.twinReady (m : Chip) : Bool :=
  match m.spl.twin with
  | none => false
  | some h => m.spl.link && h.state = 4

/-- The chip's SPL state is changed. -/
def Chip.splTo (m : Chip) (st : SplSt) : Chip := { m with spl := { m.spl with st := st } }

/-- The transitions that follow from what the twin last said and from COND_SAFE (R591). -/
def Chip.splEval (m : Chip) : Chip :=
  match m.spl.st with
  | .solo => if m.twinReady then m.splTo .active else m
  | .active => if m.twinReady then m else m.splTo .solo
  | .sync =>
    if m.readyOk && m.twinDrives then
      { m with spl := { m.spl with st := .ready, readyAt := m.now, tbWait := false } }
    else m
  | .ready =>
    if m.readyOk then m
    else ({ m with spl := { m.spl with st := .sync, tbWait := false, tbMine := false } } : Chip).raise (if m.spl.link then 118 else 115) 0 []
  | .leaving | .init => m

/-- The peer link is lost (R586): what was kept for the twin is of no more use. PEER_LINK is raised here, or by the step
from READY to SYNC. -/
def Chip.linkLost (m : Chip) : Chip :=
  if !m.spl.link then m
  else
    let s := m.spl
    let wasReady := s.st = .ready
    let m : Chip := { m with spl := { s with link := false, snap := false, jOn := false, unacked := [] } }
    let m := if wasReady then m else m.raise 115 0 []
    m.splEval

/-- No valid frame has arrived for 300 µs (R586). -/
def Chip.linkSilent (m : Chip) : Chip := if m.spl.link then (m.elapse m.spl.rxAt 300).linkLost else m

/-- A peer frame arrives (R585, R597): none of its content is used unless its CRC and TYPE are good and HST_AUTH_PEER has
bit 11; a good one keeps the link up. -/
def Chip.peerRx (m : Chip) (good : Bool) (f : Chip → Chip) : Chip :=
  if !good then m.bump .splLnkcnt 0 15 0 1
  else if !m.flag .hstAuthPeer 0 11 then (m.eauthPort 2).linkLost
  else f { m with spl := { m.spl with link := true, rxAt := m.now } }

/-- A frame that must come in order (R585): one behind the highest SEQ received is taken, another is left to be resent. -/
def Chip.inOrder (m : Chip) (seq : Nat) (f : Chip → Chip) : Chip :=
  if seq = (m.spl.rxSeq + 1) % 65536 then f { m with spl := { m.spl with rxSeq := seq } } else m

/-- Frames up to a SEQ are acknowledged; with none of them newly so, those that wait are sent again (R585). -/
def Chip.peerAck (m : Chip) (ack : Nat) : Chip :=
  let s := m.spl
  let left := s.unacked.filter (fun (x : Nat × PFrame) => 32768 ≤ (ack + 65536 - x.1) % 65536)
  let again := if left.length = s.unacked.length then left.length else 0
  (({ m with spl := { s with unacked := left, ackSeq := if left.length = s.unacked.length then s.ackSeq else ack } } : Chip).bump
    .splLnkcnt 0 31 16 again)

/-- A HELLO is received (R585, R589, R591, R597). -/
def Chip.helloRx (m : Chip) (h : Hello) : Chip :=
  let m := ({ m with spl := { m.spl with twin := some h } } : Chip).peerAck h.ack
  let differs := h.digest != m.upd.act.dig
  -- a chip that leaves READY for the mismatch raises PEER_JOURNAL by that step
  let first := differs && !m.spl.mismatch && m.spl.st != .ready
  let drives := h.state = 1 || h.state = 2
  let m : Chip := { m with spl := { m.spl with mismatch := differs, note := if drives then none else m.spl.note } }
  let m := if first then m.raise 118 0 [] else m
  let waits := m.spl.unacked.any (fun (x : Nat × PFrame) => match x.2 with
    | .snapshot _ => true
    | _ => false)
  let m := if h.state = 3 && m.acting && !waits then m.sendSnapshot else m
  m.splEval

/-- The chip follows its twin's journal: SYNC and READY. -/
def Chip.follows (m : Chip) : Bool := m.spl.st = .sync || m.spl.st = .ready

/-- A JOURNAL frame is received (R588). -/
def Chip.journalRx (m : Chip) (seq : Nat) (js : List JItem) : Chip :=
  m.inOrder seq (fun m => if m.follows && m.spl.snap then js.foldl (fun m j => m.applyItem j) m else m)

/-- A SNAPSHOT frame is received (R589). The order of SEQ starts from it (DEDUCED, log entry 58). -/
def Chip.snapshotRx (m : Chip) (seq : Nat) (js : List JItem) : Chip :=
  if !m.follows then m
  else
    let m : Chip := { m with spl := { m.spl with rxSeq := seq, txns := [], slotOut := [] } }
    let m := js.foldl (fun m j => m.applyItem j) m
    ({ m with spl := { m.spl with snap := true } } : Chip).splEval

/-- A SPLICE_NOTE is received (R591): the twin is leaving, for the cause it names. -/
def Chip.noteRx (m : Chip) (seq cause : Nat) : Chip :=
  m.inOrder seq (fun m => { m with spl := { m.spl with note := some cause } })

/-- The acting primary is quiet (R595). -/
def Chip.quiet (m : Chip) : Bool :=
  (m.pol.ho = .idle || m.pol.ho = .onsrc) &&
  (List.range 64).all (fun s => !(m.libSlot s &&
    ((m.lslot s).pstate = .tentative || (m.lslot s).pstate = .retracting))) &&
  (m.seq.st = .on || m.seq.st = .off) &&
  (List.range 2).all (fun x => (m.conv x).st != .softstart && (m.conv x).st != .stopping) &&
  (List.range 24).all (fun n => (m.branch n).st != .inrush)

/-- A TAKEBACK_REQ is received (R591, R595). -/
def Chip.takebackRx (m : Chip) (seq : Nat) : Chip :=
  m.inOrder seq (fun m =>
    if m.spl.st != .active then m
    else if m.quiet then (m.peerSend .takebackAck).splTrigger 4
    else m.peerSend .takebackNak)

/-- A TAKEBACK_ACK is received: the next take is a take-back (R591). -/
def Chip.takebackAckRx (m : Chip) (seq : Nat) : Chip :=
  m.inOrder seq (fun m =>
    if m.spl.st = .ready && m.spl.tbWait then { m with spl := { m.spl with tbWait := false, tbMine := true } } else m)

/-- A TAKEBACK_NAK is received: the request will be repeated (R591). -/
def Chip.takebackNakRx (m : Chip) (seq : Nat) : Chip := m.inOrder seq id

/-- A PWMMARK is received (R587): a gated chip locks its stage boundaries to it. -/
def Chip.pwmMark (m : Chip) (x ticks : Nat) : Chip :=
  if m.gateOpen then m
  else
    let old := NTab.get 0 m.spl.marks x
    let gap := (ticks + 2 ^ 32 - old) % 2 ^ 32
    let per := if old = 0 || gap < 1600 || 16000 < gap then 0 else gap
    { m with spl := { m.spl with marks := NTab.set 0 m.spl.marks x ticks, markPer := NTab.set 0 m.spl.markPer x per } }

/-! ### Taking control (R593) -/

/-- Step 2: numbering goes on above the mirrored numbers, and a GAP TWIN under the first of them names what is skipped. -/
def Chip.raiseNumber (m : Chip) : Chip :=
  let n := m.rcd.next
  let top := m.spl.recSeq
  if top + 1 ≤ n then m
  else { m with rcd := { m.rcd with next := top + 1,
                                    urgent := { rcd := gapRec m.now 3 n top 0 0, deliv := none } :: m.rcd.urgent } }

/-- Step 3: tentative PREDICTs end as if their window had elapsed; journalled tentative setpoints are retracted. -/
def Chip.endTentative (m : Chip) : Chip :=
  let m := (List.range 64).foldl (fun m s => if (m.lslot s).pstate = .tentative then m.predRetract s 1 else m) m
  (m.spl.txns.filter (fun t => t.tent)).foldl (fun m t =>
    let paths := if m.entGroup t.entry then ((m.groupLegs t.entry).map Leg.key).eraseDups else [m.entPath t.entry]
    paths.foldl (fun m p => m.sendRetract t.entry p t.gen false) m) m

/-- Step 4: the class 0 transactions of the outstanding lists are sent again, in order; the others have completed with
EABORT, their results discarded. -/
def Chip.replay (m : Chip) : Chip :=
  let m := (m.spl.txns.filter (fun t => !t.tent && t.cls = 0)).foldl (fun m t =>
    let legs := if m.entGroup t.entry then (m.groupLegs t.entry).filter (fun l => t.paths.isEmpty || t.paths.contains l.key) else []
    ((m.acceptOn legs t.entry t.item (txKindOf t.kind) .lib t.value 0 t.gen none false).drain t.entry poolMax).1) m
  { m with spl := { m.spl with txns := [] } }

/-- The times of SPL_GAP (R596): measured, so open; step 4 lies within 3 µs. -/
def Chip.gapTimes (m : Chip) : Chip :=
  let a := m.openVal % 301
  let m := m.spend
  let b := m.openVal % 65536
  (m.put .splGap 0 (wd (a + b * 65536))).spend

/-- The base state that a take gives (R591): the journalled one, or with no journal the one that the policy's machines, which run in
SHADOW, give. -/
def Chip.takeBase (m : Chip) (solo : Bool) : Base :=
  if m.pwr.base != .shadow then m.pwr.base
  else if solo && m.pol.ho != .idle then m.polBase
  else m.spl.shadowBase

/-- The chip takes control (R591, R593), with the journal applied or, for cause SOLO, without one. -/
def Chip.take (m : Chip) (solo : Bool) : Chip :=
  let s := m.spl
  let cause := if solo then 5 else if s.tbMine then 4 else s.note.getD 1
  let m : Chip := { m with spl := { s with st := .solo, out := true, cause := cause, note := none, tbMine := false, tbWait := false },
                           pwr := { m.pwr with base := m.takeBase solo },
                           ptn := m.ptn.hold solo m.now }
  let m := m.raiseNumber.gapTimes
  let m := (m.endTentative.replay).seqResume
  let src := if cause = 4 then 232 else 231
  let m := if cause = 4 then m.bump .splCnt 0 31 16 1 else m.bump .splCnt 0 15 0 1
  (m.splRecord src cause).event src

/-! ### The interlock lines (R578, R579, R591, R597) -/

/-- INTLK_IN is deasserted for 1 µs (R591): in READY the chip takes control; in SYNC the wait of TSOLO runs from
here. -/
def Chip.intlkInFall (m : Chip) : Chip :=
  if !m.spl.inp then m
  else
    let m := ({ m with spl := { m.spl with inp := false, inLowAt := m.now } } : Chip).advance 1
    if m.spl.st = .ready then m.take false
    else m

/-- In LEAVING, INTLK_OUT falls at the latest 50 µs after the splice trigger (R591). -/
def Chip.flushTimeout (m : Chip) : Chip :=
  if m.spl.st = .leaving && m.spl.out then (m.elapse m.spl.fellAt 50).intlkFall else m

/-- 100 µs have passed in LEAVING without INTLK_IN (R591): the chip goes on as SOLO. -/
def Chip.peerIntlk (m : Chip) : Chip :=
  if m.spl.st != .leaving || m.spl.inp || m.spl.out then m
  else
    let m := m.elapse m.spl.fellAt 100
    (({ m with spl := { m.spl with st := .solo, out := true } } : Chip).raise 116 0 []).splEval

/-- INTLK_IN is asserted (R591): in LEAVING, within 100 µs of the fall of INTLK_OUT, the splice away completes, and the chip goes to SHADOW,
where the sequencer only tracks (R49) and the buses release their lines (R480). A chip in any base state that runs goes there, STANDBY too,
which R591 includes and R46's row does not list (DEDUCED, log entry 58). -/
def Chip.intlkInRise (m : Chip) : Chip :=
  if m.spl.inp then m
  else if m.spl.st != .leaving || m.spl.out then { m with spl := { m.spl with inp := true } }
  else if m.spl.fellAt + 100 < m.now then
    let m := m.peerIntlk
    { m with spl := { m.spl with inp := true } }
  else
    let b := m.pwr.base
    let m := if m.up then m.linesRelease else m
    { m with spl := { m.spl with st := .sync, inp := true, snap := false, jOn := false, unacked := [], shadowBase := b },
             pwr := { m.pwr with base := if m.up then .shadow else b },
             seq := { m.seq with wait := .none } }

/-- Both lines are asserted (R597): the chip with ROLE secondary gives way, or with equal straps the one with the higher
SLK_MACLO. The twin's strap is what its HELLO said; `twinRole` is that of a twin not yet heard, and `higher` says that this chip's SLK_MACLO
is the higher one. -/
def Chip.intlkConflict (m : Chip) (twinRole higher : Bool) : Chip :=
  if !m.spl.out then m
  else
    let twin := match m.spl.twin with
      | some h => h.role
      | none => twinRole
    let yield := if m.pwr.role != twin then m.pwr.role else higher
    ({ m with spl := { m.spl with inp := true, out := !yield } } : Chip).raise 116 0 []

/-- INTLK_IN has been deasserted for TSOLO while the link is lost (R591). -/
def Chip.soloTake (m : Chip) : Chip :=
  if m.spl.st = .sync && !m.spl.inp && !m.spl.link then
    (m.elapse m.spl.inLowAt (m.fld .splCfg 0 27 20 * 100000)).take true
  else m

/-- A TAKEBACK_REQ is sent. -/
def Chip.askBack (m : Chip) : Chip :=
  let m := m.peerSend .takebackReq
  { m with spl := { m.spl with tbWait := true, reqAt := m.now } }

/-- READY has lasted TBTIME, or 1 s has passed since a request that was not acknowledged (R591). -/
def Chip.takebackTimer (m : Chip) : Chip :=
  if m.spl.st != .ready || m.pwr.role || !m.flag .splCfg 0 1 || m.spl.tbMine then m
  else if m.spl.tbWait then (m.elapse m.spl.reqAt 1000000).askBack
  else (m.elapse m.spl.readyAt (m.fld .splCfg 0 19 8 * 1000000)).askBack

/-- A compared slot's OUT differs from the journalled one by more than DIVTHR (R594). -/
def Chip.slotDiffers (m : Chip) (s : Nat) : Bool :=
  let thr : Int := (m.fld .splDiv 0 7 0 : Int) * 16777216
  m.flag .splCmp (s / 32) (s % 32) && (match NTab.get none m.spl.slotOut s with
    | some w => decide (thr < 1000 * (((m.lw s 7).toInt - w.toInt).natAbs : Int))
    | none => false)

/-- A slot's difference begins, goes on or ends. -/
def Chip.divMark (m : Chip) (s : Nat) : Chip :=
  let old := NTab.get none m.spl.divs s
  let new := if m.slotDiffers s then some (old.getD (m.now, false)) else none
  if new = old then m else { m with spl := { m.spl with divs := NTab.set none m.spl.divs s new } }

/-- In READY the differences of the compared slots are watched (R594). -/
def Chip.divWatch (m : Chip) : Chip :=
  if m.spl.st = .ready then (List.range 64).foldl (fun m s => m.divMark s) m
  else if m.spl.divs.isEmpty then m
  else { m with spl := { m.spl with divs := [] } }

/-- The difference of a compared slot's OUT from the journalled one has lasted DIVT (R594): PEER_DIVERGE, once while it goes on. -/
def Chip.peerDiverge (m : Chip) (s : Nat) : Chip :=
  match NTab.get none m.spl.divs s with
  | some (t, false) =>
    let m := m.elapse t (m.fld .splDiv 0 15 8 * 1000)
    ({ m with spl := { m.spl with divs := NTab.set none m.spl.divs s (some (t, true)) } } : Chip).raise 117 0 []
  | _ => m

/-! ### Registers -/

/-- A SNAPSHOT is asked for (R598, RESYNC): the acting primary sends one; the secondary reports SYNC until it has one. -/
def Chip.resync (m : Chip) : Chip :=
  if m.acting then (if m.spl.link then m.sendSnapshot else m)
  else { m with spl := { m.spl with snap := false, st := if m.spl.st = .ready then .sync else m.spl.st } }

/-- A write of SPL_CMD. -/
def splCmdAct (d : Word) (m : Chip) : Act :=
  let code := bits d 3 0
  let stat := fun (st : Status) (m : Chip) => m.put .splCmdstat 0 (wd (st.code + code * 256))
  if code = 1 then
    { v := { estate := m.spl.st != .active }, eff := fun m => (stat .ok (m.splTrigger 3), .ok), rej := stat }
  else if code = 2 then { eff := fun m => (stat .ok m.resync, .ok), rej := stat }
  else if code = 3 then
    { v := { estate := m.spl.st != .ready || m.pwr.role }, eff := fun m => (stat .ok m.askBack, .ok), rej := stat }
  else { v := { erange := true }, eff := fun m => (m, .ok), rej := stat }

/-- A write of an SPL register. -/
def splAct (r : RName) (i : Nat) (d : Word) (m : Chip) : Act :=
  match r with
  | .splCmd => splCmdAct d m
  | _ => actStore r i d

/-- The read-only registers of SPL. -/
def Chip.splRead (m : Chip) (r : RName) (i : Nat) : Word :=
  let s := m.spl
  match r with
  | .splStat =>
    wd (s.st.ctorIdx + b2n m.pwr.role * 16 + b2n (!s.out && s.st != .init) * 32 + b2n s.out * 64 + b2n s.inp * 128 + b2n m.gateOpen * 256 +
      b2n s.link * 512 + b2n s.snap * 1024 + (match s.twin with
        | some h => h.state
        | none => 0) * 65536 + s.cause * 2 ^ 20)
  | .splJseq => wd (s.sentSeq + s.ackSeq * 65536)
  | .splPeerid => wd (match s.twin with
      | some h => h.digest
      | none => 0)
  | _ => m.get r i

end Sys2Proof.Machine
end

