-- ==== Sys2Proof/Machine/Reset.lean ====
section
/-!
DEFINITION. The chip right after power-on reset, and what each kind of reset keeps (R6, R7, R10, R45, R60, R61, R683, R701).
-/

namespace Sys2Proof.Machine

/-! ### The chip after power-on reset at its first start -/

/-- PWRM after power-on reset: BOOT, the straps low (DESIGN CHOICE, log entry 2). -/
def Pwr.init : Pwr :=
  { base := .boot, condSafe := false, condSvc := false, condDegr := false, safeWord := 0, role := false, refsel := false, cause := 0,
    awake := [], held := [], xtGood := true, lfrc := false, refGood := true, pll := false, refrc := false,
    ecdFired := false, autoPend := false, autoAt := 0, opsecAt := 0, vkeepLost := false, recovery := false,
    supLow := false, wakeDue := 0 }

/-- A copy of the parameter list as the factory leaves it: not written. -/
def ParamCopy.init : ParamCopy := { seq := 0, owner := 0, entries := [], crc := 0, commit := 0 }

/-- MRAM at the chip's first start: nothing locked, counted, keyed or stored (R10, R570). -/
def Nvm.init : Nvm :=
  { lock := false, pcc := 0, opsec := 0, key0 := none, key1 := none, key2 := none, erasing := false, paramA := .init, paramB := .init }

/-- The sequencer after reset: OFF. -/
def Seq.init : Seq :=
  { st := .off, step := 0, req := false, retry := 0, wait := .none, en := 0, rst := 0, enabled := 0, released := 0, pg := 0,
    edges := [], wrail := 0, stepAt := 0, qualAt := 0, pgAt := [], goodAt := [], first := 0, result := 0, rail := 255, trace := [] }

/-- The fault collector after reset (R554). -/
def Flt.init : Flt := { last := [], err := [], fences := [], hbAt := 0 }

/-- The security block after reset. -/
def Sec.init : Sec :=
  { now := 0, prov := none, eauthHost := 0, eauthSvc := 0, eauthPeer := 0, eauthAt := 0, frames := 0, framesAt := 0, hit := 0, quietAt := [],
    eraseDue := false }

/-- The recorder at the chip's first start: its first record takes number 1 (R602). -/
def Rcd.init : Rcd :=
  { queue := [], urgent := [], writing := none, slots := [], pos := 0, next := 1, wrapped := false, refused := 0,
    discarded := 0, deliver := [], clear := none, expBank := 0, expBuf := [], expTrailer := [], expRun := false, caps := [],
    trig := [], scanned := false }

/-- The host port after reset: single width, every queue empty (R487, R502). -/
def Hst.init : Hst := { quad := false, lastRead := none, resp := [], ab := [], ba := [], arrived := [], bell := 0 }

/-- SYS after power-on reset. -/
def Sys.init : Sys :=
  { locked := false, list := none, stat := 0, fails := 0, bootStep := 0, bootCopy := false, bootRoll := false, bootMs := 0,
    usecHi := [] }

/-- The lay engine after reset (R91, R129). -/
def Lay.init : Lay :=
  { strands := [], queue := [], prog := [], commons := [], load := none, bldStat := 0, bldCount := 0, recUsed := [], recAt := [] }

/-- The branches after power-on reset. -/
def Brn.init : Brn := { ch := [], auto := [], autoCur := none, autoLeft := none, held := [] }

/-- The converters after reset. -/
def Cnv.init : Cnv := { stages := [], tones := [], syncSeen := false, syncPer := 0, edgeAt := 0, removed := none, remFound := false }

/-- Acquisition after reset. -/
def Acq.init : Acq :=
  { inUse := [], queue := [], gaps := [], ovf := false, cal := none, wc := [], toPass := 0, lock := false, frozen := false,
    sag := .idle, swell := .idle, sagEnds := false, swellEnds := false, onsetPh := 0, rateBad := 0, scans := [],
    sagDet := .init, swellDet := .init, track := .init, pairs := [], hist := [] }

/-- The control loop engine after reset (R212). -/
def Cle.init : Cle := { slots := [], mem := [], active := [], buffer := [], cost := [], lib := 2 ^ 64 - 1 }

/-- The partner block after reset (R427). -/
def Ptn.init : Ptn :=
  { table := [], ents := [], pool := [], nextId := 0, wait := [], ring := [], telRaised := false, disc := [], discRun := none, discAt := 0,
    discNext := 0, discArbs := 0, idAt := none, holdRect := false, holdShelf := false, holdAt := 0, done := [] }

/-- The two-wire block after reset. -/
def Twb.init : Twb := { bus := [], muxFence := [], mirAt := 0, tgtPtr := 0, tgtOut := [], tgtAck := false }

/-- The shelf link after reset. -/
def Slk.init : Slk := { seg := [], offerCmp := false, offerAt := 0 }

/-- The image the part was made with: of which the model knows nothing more. -/
def Img.factory : Img :=
  { ver := Config.fwVersion, bver := Config.bundleVersion, dig := Config.imageDigest, len := Config.imageLen }

/-- The service port and the image slots at the first start. -/
def Upd.init : Upd :=
  { session := 0, nh := [], nd := [], ks := [], rate := 0, fallback := none, seq := 0, resp := [], validAt := 0,
    present := false, nonces := 0, stg := .empty, bytes := [], stgImg := Img.none, act := Img.factory, trial := false,
    trials := 0, trialAt := 0, rol := none, vfail := 0, lastRoll := 0, selftest := false, recovery := false, failed := false,
    copy := 0, copying := none }

/-- The output pins during a reset (R61, R554). -/
def Pins.init : Pins :=
  { gen := 0, gdrv := 0, seqEn := 0, rstN := 0, strSw := 0, bcvHi := 0, bcvLo := 0, axcHi := 0, axcLo := 0, syncOut := false, irqN0 := true, irqN1 := true,
    errN := true, intlkOut := false }

/-- The chip right after the release of its first power-on reset (R46, R653). -/
def Chip.init : Chip :=
  { regs := [], now := 0, upUs := 0, levels := [], pwr := .init, nvm := .init, seq := .init, acq := .init, cle := .init,
    ptn := .init, twb := .init, slk := .init, spl := .start, lay := .init, brn := .init, cnv := .init, flt := .init,
    sec := .init, rcd := .init, hst := .init, pol := .init, bat := .init, est := .init, thm := [], upd := .init,
    sys := .init, vend := Vendor.ofImage Config.imageDigest, pins := .init, resp := none, fresh := 0 }

/-! ### Resets -/

/-- A register's value outlives a reset (R6, R10, R683): MRAM always; RWS and LK registers and the trip counts unless it is a
power-on reset. -/
def keepsReg (por : Bool) (r : RName) : Bool :=
  r = .updCfg || (!por && (r.row.kind = .rws || r.row.kind = .lk || r = .brnNCnt))

/-- A branch after a reset: its energy accumulator in AON retention (R351), and the level of its GFB pin. -/
def Branch.reset (por : Bool) (b : Branch) : Branch :=
  { Branch.init with energy := if por then 0 else b.energy, gfb := b.gfb }

/-- The recorder after a reset: the partitions and the clear marker stay; records that waited are counted for a GAP LOST
after a warm reset (R701); a capture commit under way is found torn (R620). -/
def Rcd.reset (por : Bool) (r : Rcd) : Rcd :=
  let cap := fun (c : Cap) =>
    let c' : Cap := { Cap.init with valid := c.valid, stored := c.stored, torn := c.torn || (c.st = .commit && !c.sent) }
    c'
  -- a GAP LOST that waits stands for the records it counts
  let owed := r.urgent.foldl (fun a q => a + (if q.rcd.code = 4 then (q.rcd.payload.getD 2 0).toNat else 1)) 0
  { Rcd.init with slots := r.slots, pos := r.pos, next := r.next, wrapped := r.wrapped, clear := r.clear,
                  discarded := if por then 0 else r.discarded + r.queue.length + r.refused + owed,
                  caps := (List.range 8).foldl (fun (t : NTab Cap) u => NTab.set Cap.init t u (cap (NTab.get Cap.init r.caps u))) [] }

/-- The image slots and the port after a reset: a load is dropped, a session ends without a record (R635, R639, R650). -/
def Upd.reset (u : Upd) : Upd :=
  { u with session := 0, nh := [], nd := [], ks := [], rate := 0, fallback := none, seq := 0, resp := [], validAt := 0,
           stg := if u.stg = .loading then .empty else u.stg, bytes := if u.stg = .loading then [] else u.bytes,
           stgImg := if u.stg = .loading then Img.none else u.stgImg, selftest := false }

/-- The chip after a reset of either kind, in the base state given (R6, R7, R10, R45, R60, R61). -/
def Chip.afterReset (m : Chip) (por : Bool) (cause : Nat) (base : Base) : Chip :=
  let z := Chip.init
  { z with
    regs := m.regs.filter (fun e => keepsReg por e.1.1)
    upUs := if m.pwr.vkeepLost then m.nvm.opsec * 1000000 else m.upUs
    pwr := { z.pwr with base := base, role := m.pwr.role, refsel := m.pwr.refsel, cause := cause, xtGood := m.pwr.xtGood,
                        ecdFired := !por && m.pwr.ecdFired, lfrc := m.pwr.lfrc, refGood := m.pwr.refGood, refrc := m.pwr.refrc }
    nvm := m.nvm
    seq := { z.seq with pg := m.seq.pg }
    spl := { z.spl with inp := m.spl.inp }
    brn := { z.brn with ch := (List.range 24).foldl (fun (t : NTab Branch) n =>
                              NTab.set Branch.init t n (Branch.reset por (m.branch n))) [] }
    sec := { z.sec with now := m.sec.now &&& 0b110000 }
    rcd := m.rcd.reset por
    bat := { z.bat with wakeBy := if por then 0 else m.bat.wakeBy, shipSrc := m.bat.shipSrc }
    est := { z.est with slotA := m.est.slotA, slotB := m.est.slotB }
    upd := m.upd.reset
    sys := { z.sys with locked := !por && m.sys.locked }
    vend := m.vend
    fresh := m.fresh }

/-- A warm reset (R60, R701): the record write under way is completed first. OFF and SHIP have none. -/
def Chip.warmReset (m : Chip) (cause : Nat) : Chip :=
  if m.pwr.base = .off || m.pwr.base = .ship then m else (m.recordCommit true).afterReset false cause .boot

/-- Power-on reset is entered: an uncommitted MRAM write is lost (R59), and the part waits in OFF for its release. -/
def Chip.powerLost (m : Chip) (vkeep : Bool) : Chip :=
  let m := (m.recordAbandon).capAbandon (m.rcd.writing.map (fun w => w.2.2.rcd))
  let m : Chip := { m with pwr := { m.pwr with vkeepLost := m.pwr.vkeepLost || vkeep } }
  let v := m.pwr.vkeepLost
  let m := m.afterReset true 0 .off
  { m with pwr := { m.pwr with vkeepLost := v } }

/-- One of the four supplies falls below its threshold (R55). In SHIP there is no power-on reset, but a wake is held (R683). -/
def Chip.supplyLoss (m : Chip) : Chip :=
  if m.pwr.base = .ship then { m with pwr := { m.pwr with supLow := true } }
  else if m.pwr.base = .off then m else m.powerLost false

/-- VKEEP falls below its threshold: OFF from every state (R46). -/
def Chip.vkeepLoss (m : Chip) : Chip := m.powerLost true

/-- A wake from SHIP (R393): a warm reset of cause 4 that keeps what R683 lists and names the wake. -/
def Chip.shipWake (m : Chip) (by_ : Nat) : Chip :=
  let m := m.afterReset false 4 .boot
  { m with bat := { m.bat with wakeBy := by_ } }

/-- A wake qualifies in SHIP: at once, or held, the first one, while a supply is below its threshold (R393, R683). -/
def Chip.wakes (m : Chip) (by_ : Nat) : Chip :=
  if !m.pwr.supLow then m.shipWake by_
  else if m.pwr.wakeDue = 0 then { m with pwr := { m.pwr with wakeDue := by_ } }
  else m

/-- Power-up reaches step 3 of R679: in OFF, power-on reset is released and the straps are sampled (R46, R62). In SHIP, the four
supplies are all up again, and a wake that was held takes its warm reset, the straps kept (R683). -/
def Chip.porRelease (m : Chip) (role refsel : Bool) : Chip :=
  if m.pwr.base = .ship then
    if m.pwr.wakeDue = 0 then { m with pwr := { m.pwr with supLow := false } } else m.shipWake m.pwr.wakeDue
  else if m.pwr.base != .off then m
  else
    let m := m.afterReset true 0 .boot
    { m with pwr := { m.pwr with role := role, refsel := refsel } }

end Sys2Proof.Machine
end

