-- ==== Sys2Proof/Machine/Mailbox.lean ====
section
/-!
DEFINITION. The mailboxes (R497 to R502): channels and their ends, sends, receives and doorbells; and the firmware's ECHO
and VERSION services with their irregular requests (R504, R505).
-/

namespace Sys2Proof.Machine

/-- An end of a channel (R497). -/
inductive MEnd where
  | host | svc
  | pair (p : Pair)
  | strands (o : Owner) (g : Nat)
  deriving DecidableEq, Repr

/-- The two ends of channel c: A, then B (R497). -/
def endsOf (c : Nat) : MEnd × MEnd :=
  if c ≤ 15 then (.host, .strands .host c)
  else if c ≤ 19 then (.host, .pair .a)
  else if c ≤ 23 then (.host, .pair .b)
  else if c ≤ 39 then (.svc, .strands .svc (c - 24))
  else if c ≤ 41 then (.svc, .pair .a)
  else if c ≤ 43 then (.svc, .pair .b)
  else if c ≤ 47 then (.pair .a, .pair .b)
  else (.pair .b, .strands .vendor (c - 48))

/-- The end an agent forms by itself: a port, or a strand by its owner and group (R498). -/
def Chip.endOf (m : Chip) (ag : Agent) : Option MEnd :=
  match ag with
  | .host => some .host
  | .svc => some .svc
  | .strand k => some (.strands (m.strand k).owner (m.strand k).group)
  | _ => none

/-- Whether an end is the A end (true) or the B end (false) of channel c, if it is one of them. -/
def sideOf (e : MEnd) (c : Nat) : Option Bool :=
  if (endsOf c).1 = e then some true else if (endsOf c).2 = e then some false else none

/-- A queue of channel c: AB for true, BA for false. -/
def Chip.mq (m : Chip) (c : Nat) (ab : Bool) : List Word :=
  if ab then NTab.get [] m.hst.ab c else NTab.get [] m.hst.ba c

/-- When the words of a queue arrived (R505). -/
def Chip.mqTimes (m : Chip) (c : Nat) (ab : Bool) : List Nat := NTab.get [] m.hst.arrived (2 * c + b2n ab)

/-- The arrival times of a queue once it holds n words: those removed were the oldest, those added arrive now. -/
def Chip.mqStamps (m : Chip) (c : Nat) (ab : Bool) (n : Nat) : List Nat :=
  let ts := m.mqTimes c ab
  ts.drop (ts.length - n) ++ List.replicate (n - ts.length) m.now

/-- The chip with a queue written. -/
def Chip.putMq (m : Chip) (c : Nat) (ab : Bool) (ws : List Word) : Chip :=
  let at_ := NTab.set [] m.hst.arrived (2 * c + b2n ab) (m.mqStamps c ab ws.length)
  if ab then { m with hst := { m.hst with ab := NTab.set [] m.hst.ab c ws, arrived := at_ } }
  else { m with hst := { m.hst with ba := NTab.set [] m.hst.ba c ws, arrived := at_ } }

/-- Words a queue holds (R497). -/
def mqMax : Nat := 16

/-- The doorbell of an end rings (R501). A waiting strand wakes by a step of its own. -/
def Chip.ring (m : Chip) (e : MEnd) (c : Nat) : Chip :=
  match e with
  | .host => (m.eventRecord 225 0 [wd c]).event 225
  | .svc => (m.eventRecord 226 0 [wd c]).event 226
  | .pair .a => { m.wake .pa with hst := { m.hst with bell := setM m.hst.bell 0 } }
  | .pair .b => { m.wake .pb with hst := { m.hst with bell := setM m.hst.bell 1 } }
  | .strands _ _ => m.wake .lay

/-- The end that receives what a side of channel c sends. -/
def receiver (c : Nat) (fromA : Bool) : MEnd := if fromA then (endsOf c).2 else (endsOf c).1

/-- A word joins the queue that a side sends on (R499, R501). A full queue takes nothing. -/
def Chip.mbxSend (m : Chip) (c : Nat) (fromA : Bool) (w : Word) : Chip × Status :=
  let q := m.mq c fromA
  if mqMax ≤ q.length then (m, .efull)
  else
    let m := m.putMq c fromA (q ++ [w])
    (if q.isEmpty then m.ring (receiver c fromA) c else m, .ok)

/-- The oldest word that a side of channel c receives is removed (R499). -/
def Chip.mbxRecv (m : Chip) (c : Nat) (toA : Bool) : Option (Chip × Word) :=
  match m.mq c (!toA) with
  | [] => none
  | w :: ws => some (m.putMq c (!toA) ws, w)

/-- A write of HST_MBX_c_TX (R499). -/
def mbxTxAct (ag : Agent) (c : Nat) (d : Word) (m : Chip) : Act :=
  match (m.endOf ag).bind (fun e => sideOf e c) with
  | some a => { eff := fun m => m.mbxSend c a d }
  | none => { v := { eauth := true }, eff := fun m => (m, .ok) }

/-- A read of HST_MBX_c_RX (R499). -/
def Chip.mbxRx (m : Chip) (ag : Agent) (c : Nat) : Chip × Word × Status :=
  match (m.endOf ag).bind (fun e => sideOf e c) with
  | some a =>
    match m.mbxRecv c a with
    | some (m', w) => (m', w, .ok)
    | none => (m, 0, .ebusy)
  | none => (m, 0, .eauth)

/-- The channels whose words wait for a port, 32 from a first one on (HST_MBX_HPENDw, HST_MBX_SPENDw). -/
def Chip.pendMask (m : Chip) (e : MEnd) (first : Nat) : Nat :=
  (List.range 32).foldl (fun a b => if (endsOf (first + b)).1 = e && !(m.mq (first + b) false).isEmpty then setM a b else a) 0

/-- A host mailbox word waits (R488). -/
def Chip.hostWord (m : Chip) : Bool := m.pendMask .host 0 != 0

/-! ### Authority masks (R495) -/

/-- A write of an authority mask: it only narrows. The host may narrow its own mask alone. -/
def authAct (ag : Agent) (r : RName) (d : Word) (m : Chip) : Act :=
  actStoreIf { eauth := m.authOf ag = .host && r != .hstAuthHost } r 0 (m.get r 0 &&& d)

/-- A host frame is still open behind a held access: no other can begin. -/
def Chip.hostOpen (m : Chip) : Bool := m.pwr.held.any (fun h => h.ag = .host && h.dst = 1)

/-- The width that HST_CFG.WIDTH names is in use (R487). -/
def Chip.widthTaken (m : Chip) : Chip := { m with hst := { m.hst with quad := m.flag .hstCfg 0 1 } }

/-- A write of an HST register. WIDTH takes effect when no host frame is open, or at the end of the one that is (R487);
a host frame closes with its command. -/
def hstAct (ag : Agent) (r : RName) (i : Nat) (d : Word) (m : Chip) : Act :=
  match r with
  | .hstCfg => actDo {} (fun m => let m := m.store r i d; if m.hostOpen then m else m.widthTaken)
  | .hstAuthHost | .hstAuthSvc | .hstAuthPeer => authAct ag r d m
  | .hstMbxTx => mbxTxAct ag i d m
  | _ => actStore r i d

/-- The read-only registers of HST. -/
def Chip.hstRead (m : Chip) (r : RName) (i : Nat) : Word :=
  match r with
  | .hstMbxHpend => wd (m.pendMask .host (32 * i))
  | .hstMbxSpend => wd (m.pendMask .svc (32 * i))
  | .hstMbxStat => wd ((m.mq i true).length + (m.mq i false).length * 256)
  | _ => m.get r i

/-! ### Firmware service requests (R504, R505) -/

/-- The side of channel c that requests a service from a pair: true for A. -/
def requester (c : Nat) : Option Bool :=
  if (16 ≤ c && c ≤ 23) || (40 ≤ c && c ≤ 47) then some true else if 48 ≤ c && c ≤ 63 then some false else none

/-- The pair that serves channel c. -/
def server (c : Nat) : Nat :=
  match requester c with
  | some a => (match receiver c a with
    | .pair .a => 0
    | _ => 1)
  | none => 0

/-- The request at the head of channel c: its side, header, arguments that have arrived. -/
def Chip.request (m : Chip) (c : Nat) : Option (Bool × Word × List Word) :=
  match requester c with
  | none => none
  | some a =>
    match m.mq c a with
    | [] => none
    | h :: ws => some (a, h, ws.take (bits h 23 20))

/-- A reply's header: CODE and TAG of the request, NW and STATUS. -/
def replyHead (h : Word) (nw : Nat) (st : Status) : Word := wd (bits h 31 24 * 2 ^ 24 + nw * 2 ^ 20 + st.code * 256 + bits h 7 0)

/-- The pair takes a request with `used` words and answers on the channel's other queue, once that holds room for the whole
reply. -/
def Chip.reply (m : Chip) (c : Nat) (a : Bool) (used : Nat) (ws : List Word) : Chip :=
  if mqMax < (m.mq c (!a)).length + ws.length then m
  else
    let m := m.putMq c a ((m.mq c a).drop used)
    let m : Chip := { m with hst := { m.hst with bell := clrM m.hst.bell (server c) } }
    ws.foldl (fun m w => (m.mbxSend c (!a) w).1) m

/-- A request of a service whose arguments have all arrived is answered. -/
def Chip.serve (m : Chip) (c : Nat) (code : Nat) (f : Word → List Word → Status × List Word) : Chip :=
  match m.request c with
  | none => m
  | some (a, h, ws) =>
    if bits h 31 24 != code || ws.length != bits h 23 20 then m
    else
      let r := f h ws
      m.reply c a (1 + ws.length) (replyHead h r.2.length r.1 :: r.2)

/-- ECHO of 0 to 14 words (R505). -/
def Chip.echo (m : Chip) (c : Nat) : Chip :=
  m.serve c 1 (fun _ ws => if ws.length ≤ 14 then (.ok, ws) else (.erange, []))

/-- VERSION (R505). -/
def Chip.version (m : Chip) (c : Nat) : Chip :=
  m.serve c 2 (fun _ ws =>
    if ws.isEmpty then (.ok, [wd m.upd.act.ver, wd m.upd.act.bver, wd m.upd.act.dig]) else (.erange, []))

/-- The announced arguments have not all arrived within 10 ms of the header (R505). -/
def Chip.requestTimeout (m : Chip) (c : Nat) : Chip :=
  match m.request c with
  | none => m
  | some (a, h, ws) =>
    if ws.length < bits h 23 20 then
      (m.elapse ((m.mqTimes c a).headD 0) 10000).reply c a (1 + ws.length) [replyHead h 0 .eproto]
    else m

/-- A request with an undefined CODE (R505). -/
def Chip.unknownService (m : Chip) (c : Nat) : Chip :=
  match m.request c with
  | none => m
  | some (a, h, ws) =>
    let code := bits h 31 24
    if (code = 0 || 3 < code) && ws.length = bits h 23 20 then m.reply c a (1 + ws.length) [replyHead h 0 .erange] else m

end Sys2Proof.Machine
end

