-- ==== Sys2Proof/Machine/Strands.lean ====
section
/-!
DEFINITION. Strands between instructions (R93 to R99, R106 to R110, R119 to R123): the LAY_CMD commands, the lanes, the
ends of waits, the timer, faults; the bundle loader (R128 to R134); and the registers of LAY.
-/

namespace Sys2Proof.Machine

/-! ### Faults (R122) -/

/-- A strand fault of kind 0 BUDGET, 1 ILLEGAL, 2 ACCESS, 3 USER (R94, R122): its source is raised with the strand's number;
a strand that the reaction has not fenced is HALTED. -/
def Chip.strandFault (m : Chip) (k kind : Nat) (payload : List Word) : Chip :=
  let m := m.raise (19 + 4 * Owner.code (m.strand k).owner + kind) k payload
  if (m.strand k).st = .running then m.strandEnd k .halted (3 + kind) else m

/-- The program region of an owner as offsets of the store: first byte and size (R128, R144). -/
def regionOf : Owner → Nat × Nat
  | .vendor => (0, 0x30000)
  | .host => (0x30000, 0x40000)
  | .svc => (0x70000, 0x10000)

/-- An offset is an instruction address in an owner's region (R143). -/
def inRegion (o : Owner) (pc : Nat) : Bool :=
  pc % 4 = 0 && (regionOf o).1 ≤ pc && pc < (regionOf o).1 + (regionOf o).2

/-! ### The lanes (R95, R96) -/

/-- The priority a strand holds its lane with. -/
def Chip.lanePrio (m : Chip) (k : Nat) : Nat := (m.strand k).runPrio

/-- The READY strand that is next: the highest priority, then queue order. -/
def Chip.nextReady (m : Chip) : Option Nat :=
  ((List.range 4).reverse).findSome? (fun p => m.lay.queue.find? (fun k => (m.strand k).prio = p))

/-- A READY strand takes a lane (R94): a new activation begins unless its own goes on. -/
def Chip.takeLane (m : Chip) (k : Nat) : Chip :=
  let s := m.strand k
  ((m.putStrand k { s with st := .running, runPrio := s.prio, act := if s.keep then s.act else 0, keep := false,
                           slice := 0 }).queueDrop k).wake .lay

/-- A RUNNING strand gives up its lane and its activation goes on (R96). -/
def Chip.displace (m : Chip) (k : Nat) (front : Bool) : Chip :=
  let m := m.putStrand k { m.strand k with st := .ready, keep := true }
  if front then m.queueFront k else m.queueBack k

/-- The RUNNING strands of lowest priority. -/
def Chip.lowestRunning (m : Chip) : List Nat :=
  m.running.filter (fun k => m.running.all (fun j => m.lanePrio k ≤ m.lanePrio j))

/-- One lane is assigned, if a strand is due one. Which of several RUNNING strands of the lowest priority is displaced is
open (DESIGN CHOICE, log entry 61). -/
def Chip.assignLane (m : Chip) : Chip :=
  match m.nextReady with
  | none => m
  | some k =>
    if m.running.length < 4 then m.takeLane k
    else
      let low := m.lowestRunning
      let v := low.getD (m.openVal % low.length) 0
      if m.lanePrio v < (m.strand k).prio then ((m.displace v true).takeLane k).when (low.length != 1) Chip.spend else m

/-- The lanes are filled at an instruction boundary (R95). -/
def Chip.dispatch (m : Chip) : Chip := (List.range 8).foldl (fun m _ => m.assignLane) m

/-- A slice ends (R96). -/
def Chip.sliceEnd (m : Chip) (k : Nat) : Chip :=
  let s := m.strand k
  if s.st = .running && m.fld .layCfg 0 16 4 ≤ s.slice && m.lay.queue.any (fun j => (m.strand j).prio = s.runPrio) then
    m.displace k false
  else m

/-! ### Issue -/

/-- The next instruction would exceed the activation's budget (R121). -/
def Chip.overBudget (m : Chip) (k : Nat) : Bool := m.fld .layBudget k 20 0 ≤ (m.strand k).act

/-- A RUNNING strand's next instruction would exceed its budget: it is not issued (R121). -/
def Chip.budgetFault (m : Chip) (k : Nat) : Chip :=
  if (m.strand k).st = .running && m.overBudget k then m.strandFault k 0 [] else m

/-! ### Waits (R106 to R110, R157) -/

/-- A register as an instruction's destination (R145). -/
def Strand.dst (s : Strand) (r : Nat) (w : Word) : Strand := s.put r (if r = 14 then w &&& 0xFFF else w)

/-- The entry a token names, if it is in use with that serial (R113). Bits [31:16] of a token are 0 (R111): a word with another
value there names no entry (DESIGN CHOICE, log entry 75). -/
def Strand.tokenEntry (s : Strand) (t : Word) : Option Nat :=
  let e := bits t 3 0
  if (s.tok e).used && !(s.tok e).dropped && bits t 31 4 = (s.tok e).serial then some e else none

/-- Another strand has waited longer for a word of channel c (R498). -/
def Chip.waitsBefore (m : Chip) (k c : Nat) : Bool :=
  (List.range 256).any (fun j =>
    let o := m.strand j
    j != k && o.st = .waiting && (match o.wait with
      | some (.mbox ch _) => ch = c
      | _ => false) && ((m.strand k).st != .waiting || o.waitAt < (m.strand k).waitAt))

/-- A wait's condition is met (R106). A delay is met by time alone. -/
def Chip.waitMet (m : Chip) (k : Nat) : WaitOn → Bool
  | .delay => false
  | .tick _ => (m.strand k).tick
  | .line l count _ => m.get .layEvline l != count
  | .token t _ =>
    match (m.strand k).tokenEntry t with
    | some e => ((m.strand k).tok e).done.isSome
    | none => true
  | .mbox ch _ =>
    match sideOf (.strands (m.strand k).owner (m.strand k).group) ch with
    | some a => !(m.mq ch (!a)).isEmpty && !m.waitsBefore k ch
    | none => false
  | .access => false

/-- What a wait whose condition is met writes and takes (R157). -/
def Chip.waitTake (m : Chip) (k : Nat) : WaitOn → Chip
  | .delay => m.putStrand k ((m.strand k).status .ok 1)
  | .tick d =>
    let s := m.strand k
    m.putStrand k ({ (s.dst d (wd s.missed)) with tick := false, missed := 0 }.status .ok 2)
  | .line l _ d => m.putStrand k (((m.strand k).dst d (m.get .layEvline l)).status .ok 3)
  | .token t d =>
    let s := m.strand k
    match s.tokenEntry t with
    | none => m.putStrand k (s.status .erange 0)
    | some e =>
      match (s.tok e).done with
      | none => m
      | some (st, w) =>
        m.putStrand k (((s.putTok e { s.tok e with used := false, done := none }).dst d (if st = .ok then w else 0)).status st 4)
  | .mbox ch d =>
    match sideOf (.strands (m.strand k).owner (m.strand k).group) ch with
    | none => m
    | some a =>
      match m.mbxRecv ch a with
      | some (m', w) => m'.putStrand k (((m'.strand k).dst d w).status .ok 5)
      | none => m
  | .access => m

/-- The instruction after the one a strand stands at. -/
def Chip.pcNext (m : Chip) (k : Nat) : Chip := m.putStrand k { m.strand k with pc := (m.strand k).pc + 4 }

/-- A WAITING strand's condition is met: its results are written and it is READY after the wait (R94). A held access ends
with HELD_ACCESS_COMPLETE. -/
def Chip.waitWake (m : Chip) (k : Nat) : Chip :=
  let s := m.strand k
  if s.st != .waiting then m
  else
    match s.wait with
    | some .delay => (((m.elapse s.waitAt s.timeout).waitTake k .delay).pcNext k).strandReady k
    | some w => if m.waitMet k w then ((m.waitTake k w).pcNext k).strandReady k else m
    | none => m

/-- A strand's timer ticks (R110). Its context ticks in every state but FREE. -/
def Chip.timerTick (m : Chip) (k : Nat) : Chip :=
  let s := m.strand k
  if s.st = .free || s.period = 0 then m
  else
    (m.elapse s.timerAt s.period).putStrand k
      { s with timerAt := s.timerAt + s.period, tick := true, missed := if s.tick then satTo (2 ^ 32 - 1) (s.missed + 1) else s.missed }

/-- A strand waits for a tick of its timer that falls due by the time its wait times out (R108). -/
def Strand.tickFirst (s : Strand) : WaitOn → Bool
  | .tick _ => s.period != 0 && s.timerAt + s.period ≤ s.waitAt + s.timeout
  | _ => false

/-- The timeout of a wait expires (R108): a condition met by then wins; otherwise nothing is consumed. -/
def Chip.waitTimeout (m : Chip) (k : Nat) : Chip :=
  let s := m.strand k
  if s.st != .waiting || s.timeout = 0 then m
  else
    match s.wait with
    | some .delay => m
    | some .access => m
    | some w =>
      if s.tickFirst w then (m.timerTick k).waitWake k
      else
      let m := m.elapse s.waitAt s.timeout
      if m.waitMet k w then m.waitWake k
      else ((m.putStrand k ((m.strand k).status .etimeout 7)).pcNext k).strandReady k
    | none => m

/-- What was commanded of a strand on a held access acts at the boundary after it, as its row of R94 says by then (R99). -/
def Chip.heldCmd (m : Chip) (k : Nat) (c : HeldCmd) : Chip :=
  match c with
  | .halt => m.strandHalt k
  | .free => if (m.strand k).st = .fenced then m else m.strandFree k
  | .fence src => m.strandFence k src

/-- A held access of a strand has completed with a status and, for a load, its word (R35, R99): the strand is READY with its
activation going on, and then what was commanded meanwhile acts in its order. -/
def Chip.accessDone (m : Chip) (k : Nat) (dst : Option Nat) (st : Status) (w : Word) : Chip :=
  let s := m.strand k
  if !s.onAccess then m
  else
    let s' := match dst with
      | some d => s.dst d w
      | none => s
    let m := (m.putStrand k (s'.status st 6)).pcNext k
    let m := (m.putStrand k { m.strand k with st := .ready, wait := none, after := [], keep := true }).queueBack k
    s.after.foldl (fun m c => m.heldCmd k c) m

/-! ### Commands (R94, R119, R138) -/

/-- Whether an agent may command strands of an owner (R119). -/
def Chip.mayCommand (m : Chip) (ag : Agent) (o : Owner) : Bool := !(m.authOf ag = .host && o != .host)

/-- START: a fresh context at the back of its queue (R93, R94). -/
def Chip.strandStart (m : Chip) (k : Nat) : Chip := (m.strandFresh k).strandReady k

/-- The state a LAY_CMD code needs of its strand (R94). At the Basic level no strand but the vendor's is started (R135; DEDUCED, log
entry 74). -/
def Chip.layRow (m : Chip) (code k : Nat) : Bool :=
  let s := m.strand k
  let live := s.st = .ready || s.st = .running || s.st = .waiting
  if code = 1 then s.st = .free && s.alloc && (m.expert .lay || s.owner = .vendor)
  else if code = 2 then live
  else if code = 3 ∨ code = 4 then s.st = .halted
  else if code = 5 then live || s.st = .halted
  else if code = 6 then s.st = .fenced && m.fenceRead .strand k
  else true

/-- What an accepted LAY_CMD does. -/
def Chip.layDo (m : Chip) (code k : Nat) : Chip :=
  if code = 1 then m.strandStart k
  else if code = 2 then m.strandHalt k
  else if code = 3 then m.strandReady k
  else if code = 4 then m.strandStart k
  else if code = 5 then
    if (m.strand k).onAccess then m.putStrand k { m.strand k with after := (m.strand k).after ++ [.free] } else m.strandFree k
  else if code = 6 then
    (m.putStrand k { m.strand k with st := .halted }).dropFence .strand k
  else m.haltOwner (if k = 0 then .vendor else if k = 1 then .host else .svc)

/-- LAY_CMDSTAT. -/
def Chip.layStatus (m : Chip) (st : Status) (code : Nat) : Chip := m.put .layCmdstat 0 (wd (st.code + code * 256))

/-- A write of LAY_CMD. A HALT_OWNER of an owner above 2 is judged by R119 as one of the service port's strands, so that the host has
EAUTH and others ERANGE (DESIGN CHOICE, log entry 75). -/
def layCmdAct (ag : Agent) (d : Word) (m : Chip) : Act :=
  let code := bits d 7 0
  let k := bits d 15 8
  let owner := if code = 7 then (if k = 0 then Owner.vendor else if k = 1 then .host else .svc) else (m.strand k).owner
  { v := { eauth := 1 ≤ code && code ≤ 7 && !m.mayCommand ag owner, erange := code = 0 || 7 < code || (code = 7 && 2 < k), estate := !m.layRow code k },
    eff := fun m => ((m.layDo code k).layStatus .ok code, .ok),
    rej := fun st m => m.layStatus st code }

/-! ### The bundle loader (R130 to R134) -/

/-- The port that writes a bundle: the loader takes one from the host and the service port alone (R130). -/
def loaderPort : Agent → Option Owner
  | .host => some .host
  | .svc => some .svc
  | _ => none

/-- A region becomes empty. -/
def Chip.eraseRegion (m : Chip) (o : Owner) : Chip :=
  let lo := (regionOf o).1 / 4
  let hi := lo + (regionOf o).2 / 4
  { m with lay := { m.lay with prog := m.lay.prog.filter (fun e => e.1 < lo || hi ≤ e.1) } }

/-- An owner's contexts belong to no bundle any longer. -/
def Chip.unallocate (m : Chip) (o : Owner) : Chip :=
  (List.range 192).foldl (fun m j =>
    let k := 64 + j
    let s := m.strand k
    if s.alloc && s.owner = o then m.putStrand k { s with alloc := false } else m) m

/-- BEGIN (R131): the region is erased, a load is open, and the owner's mailbox channels to strands are emptied (R502). -/
def Chip.loadBegin (m : Chip) (o : Owner) : Chip :=
  let m := (m.eraseRegion o).unallocate o
  let m := if o = .host then m.emptyQueues 0 15 else m.emptyQueues 24 39
  { m with lay := { m.lay with load := some { port := o, words := [] }, bldCount := 0 } }

/-- The load ends. -/
def Chip.loadEnd (m : Chip) : Chip := { m with lay := { m.lay with load := none } }

/-- A port's own load is open. -/
def Chip.loading (m : Chip) (o : Option Owner) : Bool :=
  match m.lay.load with
  | some l => some l.port = o
  | none => false

/-- Every strand of an owner is FREE. -/
def Chip.ownerFree (m : Chip) (o : Owner) : Bool :=
  (List.range 256).all (fun k => (m.strand k).owner != o || (m.strand k).st = .free)

/-- A bundle's parts: entries and code words (R132). -/
structure Bundle where
  entries : List (Nat × Nat × Nat × Word)
  code : List Word
  deriving DecidableEq, Repr

/-- One entry record: offset, its attribute word, budget, argument. -/
def entryAt (ws : List Word) (i : Nat) : Nat × Nat × Nat × Word :=
  let w := fun j => ws.getD (8 + 4 * i + j) 0
  ((w 0).toNat, (w 1).toNat, (w 2).toNat, w 3)

/-- The header and the entries are good (R132, R133): every field has its permitted value, the words that follow are the
entries and the code, and each OFFSET and BUDGET is in range. A word count that the header does not give, and an OFFSET that is no
instruction address, are taken as out of range too (DESIGN CHOICE, log entry 75). -/
def bundleOk (ws : List Word) : Bool :=
  let n := bits (ws.getD 1 0) 23 16
  let len := (ws.getD 2 0).toNat
  8 ≤ ws.length && ws.getD 0 0 == 0x4B4E5242 && bits (ws.getD 1 0) 15 0 = 1 && 1 ≤ n && n ≤ 192 && len % 4 = 0 &&
    (List.range 4).all (fun j => ws.getD (4 + j) 0 == 0) && ws.length = 8 + 4 * n + len / 4 &&
    (List.range n).all (fun i =>
      let e := entryAt ws i
      e.1 % 4 = 0 && e.1 < len && 16 ≤ e.2.2.1 && e.2.2.1 ≤ 1048576)

/-- The parts of a bundle. -/
def bundleOf (ws : List Word) : Bundle :=
  let n := bits (ws.getD 1 0) 23 16
  { entries := (List.range n).map (entryAt ws), code := ws.drop (8 + 4 * n) }

/-- Contexts that an owner's bundle may take: FREE and allocated to none, in ascending order, the vendor's from 0 and a port's from 64
(R128, R134). -/
def Chip.freeContexts (m : Chip) (o : Owner) : List Nat :=
  (if o = .vendor then List.range 64 else (List.range 192).map (fun j => 64 + j)).filter (fun k => (m.strand k).st = .free && !(m.strand k).alloc)

/-- The status of a COMMIT of these words for an owner (R133). -/
def Chip.bundleStatus (m : Chip) (o : Owner) (ws : List Word) : Status :=
  if !bundleOk ws then .erange
  else if crc32Words (bundleOf ws).code != (ws.getD 3 0).toNat then .eproto
  else if (m.freeContexts o).length < (bundleOf ws).entries.length then .efull
  else .ok

/-- Words go into the program store from a word index on. -/
def Chip.storeProg (m : Chip) (at_ : Nat) (ws : List Word) : Chip :=
  { m with lay := { m.lay with prog := (ws.foldl (fun (a : NTab Word × Nat) w => (NTab.set 0 a.1 a.2 w, a.2 + 1))
                                          (m.lay.prog, at_)).1 } }

/-- A context takes an entry (R134). WHY starts at 0, whatever an earlier occupant left (DESIGN CHOICE, log entry 75). -/
def Chip.allocate (m : Chip) (o : Owner) (k : Nat) (e : Nat × Nat × Nat × Word) : Chip :=
  let a := wd e.2.1
  let m := m.putStrand k { m.strand k with owner := o, alloc := true, prio := bits a 1 0, group := bits a 7 4, why := 0 }
  ((m.put .layEntry k (wd ((regionOf o).1 + e.1))).put .layBudget k (wd e.2.2.1)).put .layArg k e.2.2.2

/-- A bundle is placed: its code, its contexts, and then each AUTOSTART entry in entry order (R134). -/
def Chip.placeBundle (m : Chip) (o : Owner) (ws : List Word) : Chip :=
  let b := bundleOf ws
  let used := (m.freeContexts o).zip b.entries
  let m := m.storeProg ((regionOf o).1 / 4) b.code
  let m := used.foldl (fun m (x : Nat × Nat × Nat × Nat × Word) => m.allocate o x.1 x.2) m
  used.foldl (fun m (x : Nat × Nat × Nat × Nat × Word) => if bitOf (wd x.2.2.1) 8 then m.strandStart x.1 else m) m

/-- Boot places the vendor bundle of the image in the vendor region and its contexts in 0 to 63 (R115, R128, R129). Words that are no
bundle place nothing. -/
def Chip.vendorBundle (m : Chip) (ws : List Word) : Chip :=
  if m.bundleStatus .vendor ws = .ok then m.placeBundle .vendor ws else m

/-- Status of the last loader operation. -/
def Chip.bldStatus (m : Chip) (st : Status) : Chip := { m with lay := { m.lay with bldStat := st.code } }

/-- A COMMIT: the load ends, its region holds the bundle or nothing. -/
def Chip.bundleCommit (m : Chip) : Chip × Status :=
  match m.lay.load with
  | none => (m, .estate)
  | some l =>
    let ws := l.words.reverse
    let st := m.bundleStatus l.port ws
    let m := m.loadEnd.bldStatus st
    (if st = .ok then m.placeBundle l.port ws else m, st)

/-- A write of LAY_BLD_CTL. -/
def bldCtlAct (ag : Agent) (d : Word) (m : Chip) : Act :=
  let op := bits d 1 0
  let port := loaderPort ag
  let o := port.getD .vendor
  let own := m.loading port
  { v := { eauth := port.isNone, erange := op = 0,
           estate := if op = 1 then !m.ownerFree o || m.nvm.lock else !own,
           ebusy := op = 1 && m.lay.load.isSome && !own },
    eff := fun m =>
      if op = 1 then ((m.loadBegin o).bldStatus .ok, .ok)
      else if op = 2 then m.bundleCommit
      else (m.loadEnd.bldStatus .ok, .ok),
    rej := fun st m => m.bldStatus st }

/-- A bundle word (R133). Every word of the bundle counts toward the region's size, its header and entries too (DESIGN CHOICE, log
entry 75). -/
def Chip.bundleWord (m : Chip) (o : Owner) (d : Word) : Chip × Status :=
  match m.lay.load with
  | none => (m, .estate)
  | some l =>
    if (regionOf o).2 ≤ 4 * l.words.length then (m.loadEnd.bldStatus .efull, .efull)
    else ({ m with lay := { m.lay with load := some { l with words := d :: l.words }, bldCount := m.lay.bldCount + 1 } }, .ok)

/-- A write of LAY_BLD_DATA. -/
def bldDataAct (ag : Agent) (d : Word) (m : Chip) : Act :=
  let port := loaderPort ag
  { v := { eauth := port.isNone, estate := !m.loading port }, eff := fun m => m.bundleWord (port.getD .vendor) d }

/-! ### Registers -/

/-- The code of a strand state (R137). -/
def StrSt.code : StrSt → Nat
  | .free => 0 | .ready => 1 | .running => 2 | .waiting => 3 | .halted => 4 | .fenced => 5

/-- The WAKE code a wait awaits (R92). -/
def WaitOn.code : WaitOn → Nat
  | .delay => 1 | .tick _ => 2 | .line _ _ _ => 3 | .token _ _ => 4 | .mbox _ _ => 5 | .access => 6

/-- LAY_Sn_CTL (R137). -/
def Chip.layCtl (m : Chip) (k : Nat) : Word :=
  let s := m.strand k
  let on := if s.st = .waiting then (s.wait.map WaitOn.code).getD 0 else 0
  wd (s.st.code + Owner.code s.owner * 16 + s.prio * 256 + s.group * 4096 + s.why * 65536 + on * 1048576)

/-- The selected strand's view is readable (R139). -/
def Chip.viewOpen (m : Chip) : Bool :=
  let s := m.strand (m.fld .laySel 0 7 0)
  s.st = .halted || s.st = .fenced

/-- A write of a view register (R139). -/
def viewAct (ag : Agent) (m : Chip) (f : Strand → Strand) : Act :=
  let k := m.fld .laySel 0 7 0
  actDo { eauth := !m.mayCommand ag (m.strand k).owner, estate := (m.strand k).st != .halted }
    (fun m => m.putStrand k (f (m.strand k)))

/-- A write of a LAY register. -/
def layAct (ag : Agent) (r : RName) (i : Nat) (d : Word) (m : Chip) : Act :=
  match r with
  | .layCmd => layCmdAct ag d m
  | .layBldCtl => bldCtlAct ag d m
  | .layBldData => bldDataAct ag d m
  | .layCtl => actDo {} (fun m => m.putStrand i { m.strand i with prio := bits d 9 8 })
  | .layViewPc => viewAct ag m (fun s => { s with pc := bits d 18 0 })
  | .layViewFlags => viewAct ag m (fun s => { s with n := bitOf d 3, z := bitOf d 2, c := bitOf d 1, v := bitOf d 0 })
  | .layViewS => viewAct ag m (fun s => s.dst i d)
  | .layViewLocal => viewAct ag m (fun s => { s with locals := NTab.set 0 s.locals i d })
  | _ => actStore r i d

/-- A view register's value, with ESTATE while the view is shut (R139). -/
def Chip.viewRead (m : Chip) (f : Strand → Word) : Word × Status :=
  if m.viewOpen then (f (m.strand (m.fld .laySel 0 7 0)), .ok) else (0, .estate)

/-- A read of a LAY register. -/
def Chip.layRead (m : Chip) (r : RName) (i : Nat) : Word × Status :=
  match r with
  | .layStat =>
    (wd (((List.range 256).filter (fun k => (m.strand k).st != .free)).length + m.running.length * 65536), .ok)
  | .layBldStat => (wd (m.lay.bldStat + b2n m.lay.load.isSome * 256 + m.lay.bldCount * 32768), .ok)
  | .layCtl => (m.layCtl i, .ok)
  | .layViewPc => m.viewRead (fun s => wd s.pc)
  | .layViewFlags => m.viewRead (fun s => wd (b2n s.n * 8 + b2n s.z * 4 + b2n s.c * 2 + b2n s.v))
  | .layViewAct => m.viewRead (fun s => wd s.act)
  | .layViewS => m.viewRead (fun s => s.reg i)
  | .layViewLocal => m.viewRead (fun s => s.loc i)
  | _ => (m.get r i, .ok)

end Sys2Proof.Machine
end

