-- ==== Sys2Proof/Machine/Modes.lean ====
section
/-!
DEFINITION. Supplies, clocks, modes and start-up: the PWRM_CMD commands (R46 to R49, R89, R90), the entry to SHIP (R392),
the wakes from it (R393), the early collapse detector (R56 to R58, R700), the clocks (R63, R64), sleep (R53).
-/

namespace Sys2Proof.Machine

/-! ### The commands (R46, R89) -/

/-- Whether an agent may use a PWRM_CMD code (R89). The firmware and the library stand for the vendor's strands. -/
def Chip.pwrmMay (m : Chip) (ag : Agent) (code : Nat) : Bool :=
  code = 0 || 8 < code || match ag with
  | .svc => code != 7 || m.upd.present
  | .host => code ≤ 4 || code = 8
  | .strand k => code ≤ 2 && (m.strand k).owner != .svc
  | .fw => code ≤ 2
  | .lib => code ≤ 2

/-- A SAFE-severity fault is uncleared (R46). -/
def Chip.safeLatched (m : Chip) : Bool :=
  (List.range 192).any (fun s => m.flag .fltFlag s 31 && m.fld .fltFlag s 30 28 = 4)

/-- A string is connected (R46). -/
def Chip.stringIn (m : Chip) : Bool := !m.closedStrs.isEmpty

/-- A valid policy profile has been applied since the reset (R291). -/
def Chip.polReady (m : Chip) : Bool := m.pol.profOk

/-- The row of the mode table that a code needs applies (R42, R46, R49, R392, R572). In LOCKDOWN the power functions go on
as they are, so START, STOP and SHIP have no row there; SERVICE_ENTER has its row in the modes of R46 that it names, DEGRADED
counting as its base state (DEDUCED, log entry 24). -/
def Chip.pwrmRow (m : Chip) (code : Nat) : Bool :=
  let b := m.pwr.base
  if code = 1 then !m.nvm.lock && b = .standby && !m.pwr.condSafe && m.polReady && (m.srcCondition || m.stringIn)
  else if code = 2 then !m.nvm.lock && m.powering && m.pol.ho != .handover
  else if code = 3 then !m.nvm.lock && b = .standby && !(m.flag .batShipCfg 0 1 && m.bat.shipSrc)
  else if code = 4 then m.pwr.condSafe && !m.safeLatched
  else if code = 5 then m.up && !m.nvm.lock && !m.pwr.condSafe && !m.pwr.condSvc
  else if code = 6 then m.pwr.condSvc
  else if code = 7 then m.nvm.lock && m.upd.present && m.get .secAlarmFlg 0 == 0 && m.sec.now = 0
  else true

/-- Entry to SOURCE from STANDBY (R46, R270, R362, R379): the converters start, the battery converter only with a string,
the branches by their configuration. -/
def Chip.enterSource (m : Chip) : Chip :=
  let m : Chip := { m with pwr := { m.pwr with base := .source, autoPend := false } }
  (((m.convStart 1).when m.stringIn (fun m => m.convStart 0)).polSource).brnAutoStart

/-- Entry to HOLDUP from STANDBY (R46, R274, R362): the battery converter starts in discharge. -/
def Chip.enterHoldup (m : Chip) : Chip :=
  let m : Chip := { m with pwr := { m.pwr with base := .holdup, autoPend := false } }
  (((m.convStart 0).convStart 1).polHoldup).brnAutoStart

/-- START, once the decision is made (R46, R269). -/
def Chip.start (m : Chip) : Chip :=
  if m.srcCondition then m.enterSource else if m.stringIn then m.enterHoldup else m

/-- STOP (R46, R362): the converters ramp to zero, every GEN falls, the sequencer gets an OFF request. -/
def Chip.stop (m : Chip) : Chip :=
  let m : Chip := { m with pwr := { m.pwr with base := .standby } }
  ((((m.convStop 0).convStop 1).brnAllOff 9).polLeave).seqOff

/-- SAFE_EXIT (R46, R48): with base state SHADOW nothing that is tracked changes. -/
def Chip.safeExit (m : Chip) : Chip :=
  let m : Chip := { m with pwr := { m.pwr with condSafe := false } }
  if m.pwr.base = .shadow then m.convThaw
  else
    let m : Chip := { m with pwr := { m.pwr with base := .standby } }
    (((((m.quickStop 0).quickStop 1).convThaw).brnAllOff 9).polLeave)

/-- Records are written until none waits (R392 step 4, R604). -/
def Chip.flushRecords (m : Chip) : Chip :=
  (List.range (2 * queueMax)).foldl (fun m _ => (m.recordStart).recordCommit true) m

/-- Every string switch opens at entry to SHIP (R392): MATCHING and CLOSED strings become OPEN. -/
def Chip.openStrings (m : Chip) : Chip :=
  (List.range 4).foldl (fun m n =>
    let b := m.bstr n
    if b.st = .matching || b.st = .closed then
      (m.putBstr n { b with st := .open_, ssw := false, fb := false, since := m.now, fellAt := m.now }).when (b.st = .closed)
        (fun m => m.strLeft)
    else m) m

/-- The early collapse detector fires while it is enabled: every MRAM write that has not committed is abandoned, and none starts (R58). -/
def Chip.ecdTrip (m : Chip) : Chip :=
  if m.flag .pwrmEcd 0 12 && !m.pwr.ecdFired then
    let m : Chip := { m with pwr := { m.pwr with ecdFired := true } }
    ((m.recordAbandon).capAbandon (m.rcd.writing.map (fun w => w.2.2.rcd))).storeAbandon
  else m

/-- Step 4 of the entry to SHIP (R392, R421): the learned values are written, OPSEC and the records that wait are committed. Where the
collapse detector fires in the store write, that is abandoned and nothing more is committed, and the entry goes on (R424). -/
def Chip.shipCommits (m : Chip) (collapse : Bool) : Chip :=
  let m := m.storeDone.storeDue
  let m := if collapse then m.ecdTrip else m
  let m := if m.pwr.ecdFired then m else ({ m.storeDone with nvm := { m.storeDone.nvm with opsec := m.opsec } } : Chip)
  (m.openRecord 5).flushRecords

/-- The entry to SHIP (R392): the charger idle, the strings opened with the welded ones reported, what has to last committed, every domain
but AON off. -/
def Chip.ship (m : Chip) (welded : Nat) (collapse : Bool) : Chip :=
  let m := m.chgIdle.openStrings
  let m := (List.range 4).foldl (fun m n => if has welded n then m.strSwitchWeld n else m) m
  (m.shipCommits collapse).afterReset false m.pwr.cause .ship

/-- What an accepted PWRM_CMD does. `welded` names the strings whose switch still conducts after a SHIP. -/
def Chip.pwrmDo (m : Chip) (code welded : Nat) : Chip :=
  if code = 1 then m.start
  else if code = 2 then m.stop
  else if code = 3 then m.ship welded false
  else if code = 4 then m.safeExit
  else if code = 5 then { m with pwr := { m.pwr with condSvc := true } }
  else if code = 6 then { m with pwr := { m.pwr with condSvc := false } }
  else if code = 7 then ({ m with nvm := { m.nvm with lock := false } } : Chip).modeRecord
  else m.warmReset 3

/-- PWRM_CMDSTAT. -/
def Chip.pwrmStatus (m : Chip) (st : Status) (code : Nat) : Chip := m.put .pwrmCmdstat 0 (wd (st.code + code * 256))

/-- A write of PWRM_CMD (R89, R90). A RESET leaves the registers at their reset values. -/
def pwrmCmdAct (ag : Agent) (d : Word) (welded : Nat) (m : Chip) : Act :=
  let code := bits d 7 0
  let v : Verdict :=
    { eauth := !m.pwrmMay ag code, erange := code = 0 || 8 < code, estate := !m.pwrmRow code,
      ebusy := m.pwr.ecdFired && (code = 3 || code = 7) }
  { v := v
    eff := fun m =>
      let m := m.pwrmDo code welded
      (if code = 8 || code = 3 then m else m.pwrmStatus .ok code, .ok),
    rej := fun st m => m.pwrmStatus st code }

/-- A write of a PWRM register. -/
def pwrmAct (ag : Agent) (r : RName) (i : Nat) (d : Word) (m : Chip) : Act :=
  match r with
  | .pwrmCmd => pwrmCmdAct ag d 0 m
  | _ => actStore r i d

/-- An AUTOSTART decides at most 1 s after entry from BOOT (R46, R269): with neither a qualified source nor a string, STANDBY. -/
def Chip.autostart (m : Chip) : Chip :=
  if !m.pwr.autoPend then m
  else
    let m := if m.srcCondition then m else m.elapse m.pwr.autoAt 1000000
    let m : Chip := { m with pwr := { m.pwr with autoPend := false } }
    if m.mode = 3 && m.polReady then m.start else m

/-! ### Wakes from SHIP (R393, R683) -/

/-- WAKE_N has stayed low for WAKET (R393). -/
def Chip.wakeButton (m : Chip) : Chip :=
  if m.pwr.base = .ship && m.flag .batShipCfg 0 0 then m.wakes 1 else m

/-- SHIP_SRC has moved above or below its threshold; in SHIP, 100 ms above it wakes the device (R392, R393). -/
def Chip.wakeSource (m : Chip) (present : Bool) : Chip :=
  let m : Chip := { m with bat := { m.bat with shipSrc := present } }
  if present && m.pwr.base = .ship && m.flag .batShipCfg 0 1 then m.wakes 2 else m

/-! ### The early collapse detector (R56, R58, R700) -/

/-- SEC, FLT and the rest run: neither OFF nor SHIP. -/
def Chip.alive (m : Chip) : Bool := m.pwr.base != .off && m.pwr.base != .ship

/-- The detector fires (R58), on a chip that runs. -/
def Chip.ecdFire (m : Chip) : Chip := if m.alive then m.ecdTrip else m

/-- The detector re-arms without a reset: a GAP ABANDONED goes first, then torn captures; the store write is repeated (R422,
R700). -/
def Chip.ecdRearm (m : Chip) : Chip :=
  if !m.pwr.ecdFired then m
  else
    let m : Chip := { m with pwr := { m.pwr with ecdFired := false } }
    let m : Chip := match m.abandoned with
      | some n =>
        { m with rcd := { m.rcd with urgent := { rcd := gapRec m.now 1 n n 0 0, deliv := none } :: m.rcd.urgent } }
      | none => m
    (m.capTorn.storeRetry).when (m.nvm.erasing || m.sec.eraseDue) Chip.eraseKeys

/-! ### Clocks (R63, R64) -/

/-- Eight XT32 cycles are missing. In SHIP there is no FLT to take the fault. -/
def Chip.xtLoss (m : Chip) : Chip :=
  if m.pwr.base = .off || m.pwr.lfrc then m
  else
    let m : Chip := { m with pwr := { m.pwr with xtGood := false, lfrc := true } }
    if m.alive then m.raise 3 0 [] else m

/-- The crystal has run for 1 s without a missing cycle. -/
def Chip.xtReturn (m : Chip) : Chip :=
  if m.pwr.base != .off && m.pwr.lfrc then { m with pwr := { m.pwr with xtGood := true, lfrc := false } } else m

/-- Four reference cycles are missing. -/
def Chip.refLoss (m : Chip) : Chip :=
  if m.alive && !m.pwr.refrc then
    ({ m with pwr := { m.pwr with refGood := false, refrc := true } } : Chip).raise 4 0 []
  else m

/-- The reference has run for 10 ms without a missing cycle. -/
def Chip.refReturn (m : Chip) : Chip :=
  if m.alive && m.pwr.refrc then { m with pwr := { m.pwr with refGood := true, refrc := false } } else m

/-- OPSEC is committed every 600 s (R70). -/
def Chip.opsecCommit (m : Chip) : Chip :=
  if m.alive && !m.pwr.ecdFired then
    let m := m.elapse m.pwr.opsecAt 600000000
    { m with nvm := { m.nvm with opsec := m.opsec }, pwr := { m.pwr with opsecAt := m.now } }
  else m

/-! ### Domains (R50 to R53) -/

/-- A pair has a pending event, a doorbell or a mailbox word (R53). -/
def Chip.pairBusy (m : Chip) (p : Pair) : Bool :=
  let d := if p = .a then 2 else 3
  (List.range 8).any (fun w => m.get .evtPend (8 * d + w) != 0) || has m.hst.bell (d - 2) ||
    (List.range 64).any (fun c => ((endsOf c).1 = .pair p && !(m.mq c false).isEmpty) ||
      ((endsOf c).2 = .pair p && !(m.mq c true).isEmpty))

/-- A strand is ready or runs, or waits for what has come already: an event, a tick, a completion or a word (R53). -/
def Chip.strandBusy (m : Chip) : Bool :=
  (List.range 256).any (fun k =>
    let s := m.strand k
    s.st = .ready || s.st = .running || (s.st = .waiting && (match s.wait with
      | some w => m.waitMet k w
      | none => false)))

/-- A mailbox word waits for a strand end (R53, R497). -/
def Chip.strandWords (m : Chip) : Bool :=
  let isStrand := fun (e : MEnd) => match e with
    | .strands _ _ => true
    | _ => false
  (List.range 64).any (fun c =>
    (isStrand (endsOf c).2 && !(m.mq c true).isEmpty) || (isStrand (endsOf c).1 && !(m.mq c false).isEmpty))

/-- Work for a domain remains (R53). -/
def Chip.domBusy (m : Chip) (d : Dom) : Bool :=
  match d with
  | .nvm => m.rcd.writing.isSome || !m.rcd.queue.isEmpty || !m.rcd.urgent.isEmpty || m.rcd.clear.isSome || m.rcd.expRun ||
      m.est.writing.isSome || m.committing.isSome
  | .pa => m.pairBusy .a
  | .pb => m.pairBusy .b
  | .lay => m.strandBusy || m.strandWords
  | .cle => (List.range 64).any (fun s => (m.lslot s).run.isSome || (m.lslot s).pend.isSome)
  | .lnk => !m.ptn.pool.isEmpty || !m.ptn.wait.isEmpty || m.ptn.discRun.isSome || (List.range 4).any (fun n => !(m.seg n).txq.isEmpty) ||
      (List.range 16).any (fun n => (m.bus n).st = .active || (m.bus n).st = .hail || (m.bus n).st = .recover)
  | _ => true

/-- Registers whose read fetches from MRAM: the recorder's reading window and the capture data (R610, R621). -/
def inMram (addr : Nat) : Bool :=
  match decodeReg addr with
  | some (r, _) => r = .rcdWin || r = .rcdSeq || r = .rcdSeqchk || r = .rcdCapData
  | none => false

/-- The domain of an address (R51): the memory windows go with their blocks; the recorder's reading window needs NVM (DEDUCED, log
entry 62). -/
def domOf (addr : Nat) : Dom :=
  let b := addr / 0x10000
  if b = 3 ∨ (0x60 ≤ b ∧ b ≤ 0x6B) then .lay
  else if b = 4 ∨ b = 0x70 then .cle
  else if b = 0xA ∨ b = 0xC ∨ b = 0x40 ∨ b = 0x41 ∨ (0x78 ≤ b ∧ b ≤ 0x7B) then .lnk
  else if inMram addr then .nvm
  else if b = 0x10 then .sec
  else if b = 0x13 then .svc
  else if b = 5 then .acq
  else if b = 6 ∨ b = 7 then .pwm
  else if b = 0xD then .hst
  else .aon

/-- A domain can take an access: its clock runs, or starts within the access itself (Gated, R52). -/
def Chip.usableDom (m : Chip) (d : Dom) : Bool := m.dom (domIdx d) = .on || m.dom (domIdx d) = .gated

/-- The device returns a domain to Sleep or Gated (R53). -/
def Chip.domainSleep (m : Chip) (d : Dom) : Chip :=
  if m.domBusy d || m.pwr.held.any (fun h => domOf h.addr = d) then m
  else { m with pwr := { m.pwr with awake := NTab.set false m.pwr.awake (domIdx d) false } }

/-! ### Reads -/

/-- PWRM_DOMSTAT (R50). -/
def Chip.domStat (m : Chip) : Word :=
  wd ((List.range 12).foldl (fun a k =>
    let c := match m.dom k with
      | .off => 0 | .sleep => 1 | .gated => 2 | .on => 3
    a + c * 4 ^ k) 0)

/-- The read-only registers of PWRM outside the policy. -/
def Chip.pwrmRead (m : Chip) (r : RName) (i : Nat) : Word :=
  match r with
  | .pwrmMode => m.modeWord
  | .pwrmDomstat => m.domStat
  | .pwrmClkstat =>
    wd (b2n m.pwr.xtGood + b2n m.pwr.lfrc * 2 + b2n m.pwr.refGood * 4 + b2n m.pwr.pll * 8 + b2n m.pwr.refrc * 16)
  | .pwrmRstcause => wd m.pwr.cause
  | .pwrmPcc => wd m.nvm.pcc
  | .pwrmOpsec => wd m.opsec
  | _ => m.get r i

end Sys2Proof.Machine
end

