-- ==== Sys2Proof/Machine/Param.lean ====
section
/-!
DEFINITION. The SYS block: identification (R654 to R656), the lock (R657 to R660), the microsecond stamp (R661), and the
persistent parameter list (R663 to R666) but for its application, which stands in Machine/Boot.lean.
-/

namespace Sys2Proof.Machine

/-- The port an agent is, as SYS_PARAM_STAT codes it: 1 host, 2 service. Strands are none (R664). -/
def portCode : Agent → Option Nat
  | .host => some 1
  | .svc => some 2
  | _ => none

/-- The port with a list open, 0 for none. -/
def Chip.listPort (m : Chip) : Nat :=
  match m.sys.list with
  | some (p, _) => p
  | none => 0

/-- What the CRC of a copy covers: its sequence number, its owner, and its entries (R663). -/
def ParamCopy.crcOf (c : ParamCopy) : Word := crc32Words ([wd c.seq, wd c.owner] ++ c.entries.flatMap (fun e => [wd e.1, e.2]))

/-- A copy is valid: its commit word is the number it was written under, and its CRC matches (R665). -/
def ParamCopy.valid (c : ParamCopy) : Bool := c.commit != 0 && c.commit = c.seq && c.crc = c.crcOf

/-- Copy B holds the newest valid list. -/
def Nvm.newestB (n : Nvm) : Bool := n.paramB.valid && (!n.paramA.valid || decide (n.paramA.seq < n.paramB.seq))

/-- The newest valid copy (R665); one with nothing in it while none is valid. -/
def Nvm.newestCopy (n : Nvm) : ParamCopy :=
  if n.newestB then n.paramB else if n.paramA.valid then n.paramA else .init

/-- The list that boot applies, and its owner: 0 for none. -/
def Nvm.params (n : Nvm) : List (Nat × Word) := n.newestCopy.entries
/-- The owner of that list. -/
def Nvm.paramOwner (n : Nvm) : Nat := n.newestCopy.owner

/-- A list is written to the copy that does not hold the newest one, and its commit word last (R663). -/
def Chip.storeParams (m : Chip) (p : Nat) (l : List (Nat × Word)) : Chip :=
  let c : ParamCopy := { seq := m.nvm.newestCopy.seq + 1, owner := p, entries := l, crc := 0, commit := 0 }
  let c : ParamCopy := { c with crc := c.crcOf, commit := c.seq }
  if m.nvm.newestB || !m.nvm.paramA.valid then { m with nvm := { m.nvm with paramA := c } }
  else { m with nvm := { m.nvm with paramB := c } }

/-- Status of the last parameter operation. -/
def Chip.paramStatus (m : Chip) (st : Status) : Chip := { m with sys := { m.sys with stat := st.code } }

/-- The chip with another open list. -/
def Chip.setList (m : Chip) (l : Option (Nat × List (Nat × Word))) : Chip := { m with sys := { m.sys with list := l } }

/-- What an accepted SYS_PARAM_CTL does. -/
def Chip.paramDo (m : Chip) (code p : Nat) : Chip :=
  if code = 1 then m.setList (some (p, []))
  else if code = 2 then
    match m.sys.list with
    | some (_, l) => (m.storeParams p l.reverse).setList none
    | none => m
  else if code = 3 then m.setList none
  else m.storeParams p []

/-- A write of SYS_PARAM_CTL (R664). While the collapse detector has fired, nothing is stored (R58, DEDUCED, log entry 60). -/
def paramCtlAct (ag : Agent) (d : Word) (m : Chip) : Act :=
  let code := bits d 3 0
  let p := (portCode ag).getD 0
  let own := m.listPort = p
  let other := m.listPort != 0 && !own
  { v := { eauth := (portCode ag).isNone, erange := code = 0 || 4 < code,
           estate := if code = 1 then own else if code = 4 then false else !own,
           ebusy := ((code = 1 || code = 4) && other) || ((code = 2 || code = 4) && m.pwr.ecdFired) },
    eff := fun m => ((m.paramDo code p).paramStatus .ok, .ok),
    rej := fun st m => m.paramStatus st }

/-- A write of SYS_PARAM_DATA (R664). -/
def paramDataAct (ag : Agent) (d : Word) (m : Chip) : Act :=
  let p := (portCode ag).getD 0
  { v := { eauth := (portCode ag).isNone, estate := m.listPort != p },
    eff := fun m =>
      match m.sys.list with
      | some (q, l) =>
        if l.length < 8192 then (m.setList (some (q, (m.fld .sysParamAddr 0 23 0, d) :: l)), .ok) else (m, .efull)
      | none => (m, .estate) }

/-- A write of a SYS register. -/
def sysAct (ag : Agent) (r : RName) (i : Nat) (d : Word) (m : Chip) : Act :=
  match r with
  | .sysLock =>
    actDo { erange := bits d 31 16 != 0x4C4B } (fun m => { m with sys := { m.sys with locked := true } })
  | .sysParamCtl => paramCtlAct ag d m
  | .sysParamData => paramDataAct ag d m
  | _ => actStore r i d

/-- SYS_PARAM_STAT. -/
def Chip.paramStat (m : Chip) : Word :=
  wd (m.sys.stat + b2n m.sys.list.isSome * 256 + m.listPort * 512 + m.nvm.paramOwner * 2048 + m.nvm.params.length * 8192 +
    satTo 31 m.sys.fails * 2 ^ 27)

/-- A read of a SYS register by the reader of a bank. -/
def Chip.sysRead (m : Chip) (bank : Nat) (r : RName) (i : Nat) : Chip × Word :=
  match r with
  | .sysUid0 => (m, wd (Config.uid.toNat % 2 ^ 32))
  | .sysUid1 => (m, wd (Config.uid.toNat / 2 ^ 32))
  | .sysStrap => (m, wd (b2n m.pwr.role + b2n m.pwr.refsel * 2))
  | .sysLock => (m, wd (b2n m.sys.locked))
  | .sysBoot => (m, wd (m.sys.bootStep + b2n m.sys.bootCopy * 16 + b2n m.sys.bootRoll * 32 + satTo 65535 m.sys.bootMs * 65536))
  | .sysUseclo =>
    ({ m with sys := { m.sys with usecHi := NTab.set 0 m.sys.usecHi bank (m.now / 2 ^ 32 % 256) } }, wd (m.now % 2 ^ 32))
  | .sysUsechi => (m, wd (NTab.get 0 m.sys.usecHi bank))
  | .sysParamStat => (m, m.paramStat)
  | _ => (m, m.get r i)

end Sys2Proof.Machine
end

