-- ==== Sys2Proof/Machine/Update.lean ====
section
/-!
DEFINITION. Firmware update (R637 to R650): the image format and its verification, the staging slot, trial, confirmation and
the self-test; the registers of UPD.
-/

namespace Sys2Proof.Machine

/-! ### The image (R637, R638) -/

/-- The byte at an offset. -/
def imgByte (b : List Nat) (k : Nat) : Nat := b.getD k 0

/-- The little-endian word at an offset. -/
def imgWord (b : List Nat) (k : Nat) : Nat := (ofLe ((b.drop k).take 4)).toNat

/-- Bytes lo up to hi are 0. -/
def zeroBytes (b : List Nat) (lo hi : Nat) : Bool := ((b.drop lo).take (hi + 1 - lo)).all (fun x => x = 0)

/-- ENC of FLAGS. -/
def imgEnc (b : List Nat) : Bool := imgWord b 4 / 65536 % 2 = 1

/-- Check 1 (R638): MAGIC, FORMAT, FLAGS and the reserved bytes. -/
def imgFormatOk (b : List Nat) : Bool :=
  256 ≤ b.length && imgWord b 0 = 0x47494D45 && imgWord b 4 % 65536 = 1 && imgWord b 4 / 131072 = 0 && zeroBytes b 24 31 &&
    zeroBytes b 140 143 && zeroBytes b 160 191 && (imgEnc b || (zeroBytes b 128 139 && zeroBytes b 144 159))

/-- Check 2: the bytes received are the header and IMGLEN bytes, a multiple of 4 from 4. -/
def imgLenOk (b : List Nat) : Bool := b.length = 256 + imgWord b 8 && 4 ≤ imgWord b 8 && imgWord b 8 % 4 = 0

/-- What an image's header says of it. -/
def imgOf (b : List Nat) : Img :=
  { ver := imgWord b 12, bver := imgWord b 16, dig := imgWord b 32, len := b.length }

/-- The checks of R638 in order: the VFAIL code of the first that fails with its status, or the image's plain bytes. -/
def verifyImage (key1 : Option (List Word)) (b : List Nat) : Except (Nat × Status) (List Nat) :=
  let pub := (b.drop 64).take 64
  let body := b.drop 256
  if !imgFormatOk b then .error (1, .erange)
  else if !imgLenOk b then .error (2, .erange)
  else if imgWord b 20 != 0xB0 then .error (3, .erange)
  else if imgEnc b && key1.isNone then .error (8, .estate)
  else if sha256 pub != Config.otpKeyHash then .error (4, .eproto)
  else
    let plain := if imgEnc b then
        Config.gcmOpen ((key1.getD []).flatMap leBytes) ((b.drop 128).take 12) (b.take 128) ((b.drop 144).take 16) body
      else some body
    match plain with
    | none => .error (5, .eproto)
    | some p =>
      if sha256 p != (b.drop 32).take 32 then .error (6, .eproto)
      else if !Config.ecdsaOk (sha256 (b.take 192)) pub ((b.drop 192).take 64) then .error (7, .eproto)
      else .ok (b.take 256 ++ p)

/-! ### The staging slot (R639 to R641) -/

/-- UPD_CMDSTAT. -/
def Chip.updStatus (m : Chip) (st : Status) (code : Nat) : Chip := m.put .updCmdstat 0 (wd (st.code + code * 256))

/-- UPD_VERIFY_FAIL of a slot (R641). -/
def Chip.verifyFail (m : Chip) (slot vfail ver : Nat) : Chip :=
  ({ m with upd := { m.upd with vfail := vfail } } : Chip).raise 10 0 [wd (slot + vfail * 256), wd (if vfail = 1 then 0 else ver)]

/-- IMG_BEGIN (R639): EMPTY to LOADING. -/
def Chip.imgBegin (m : Chip) : Chip × Status :=
  if m.upd.stg != .empty || !m.pwr.condSvc || m.nvm.lock || (m.upd.trial && !m.upd.recovery) then (m, .estate)
  else if m.pwr.ecdFired then (m, .ebusy)
  else ({ m with upd := { m.upd with stg := .loading, bytes := [] } }, .ok)

/-- IMG_DATA (R639). -/
def Chip.imgData (m : Chip) (off : Nat) (bs : List Nat) : Chip × Status :=
  if off != m.upd.bytes.length || bs.isEmpty || 1024 < bs.length || 2097152 < m.upd.bytes.length + bs.length then
    (m, if m.upd.stg = .loading then .erange else .estate)
  else if m.upd.stg != .loading then (m, .estate)
  else if m.pwr.ecdFired then (m, .ebusy)
  else ({ m with upd := { m.upd with bytes := m.upd.bytes ++ bs } }, .ok)

/-- The staging slot is empty. -/
def Chip.stageEmpty (m : Chip) : Chip := { m with upd := { m.upd with stg := .empty, bytes := [], stgImg := Img.none } }

/-- IMG_FINISH (R638 to R641): status and VFAIL. -/
def Chip.imgFinish (m : Chip) : Chip × Status × Nat :=
  if m.upd.stg != .loading || !m.pwr.condSvc then (m, .estate, 0)
  else if m.pwr.ecdFired then (m, .ebusy, 0)
  else
    match verifyImage m.nvm.key1 m.upd.bytes with
    | .error (v, st) => ((m.stageEmpty).verifyFail 0 v (imgWord m.upd.bytes 12), st, v)
    | .ok b =>
      let g := imgOf b
      let flags := imgWord m.upd.bytes 4 / 65536
      let m : Chip := { m with upd := { m.upd with stg := .pending, bytes := b, stgImg := g, vfail := 0 } }
      ((m.eventRecord 235 0 [wd g.ver, wd g.bver, wd g.dig, wd flags]).event 235, .ok, 0)

/-- IMG_CANCEL (R639). -/
def Chip.imgCancel (m : Chip) : Chip × Status :=
  if m.upd.stg = .loading then (m.stageEmpty, .ok) else (m, .estate)

/-! ### Trial (R643 to R645) -/

/-- A confirmation commits CONFIRMED (R644). -/
def Chip.confirm (m : Chip) : Chip :=
  let secs := (m.now - m.upd.trialAt) / 1000000
  let m : Chip := { m with upd := { m.upd with trial := false, trials := 0 } }
  (m.eventRecord 236 0 [wd m.upd.act.ver, wd secs]).event 236

/-- The firmware runs: the part has left BOOT. -/
def Chip.fwRuns (m : Chip) : Bool := m.up && !m.upd.recovery

/-- The self-test passes (R644). -/
def Chip.selftestPass (m : Chip) : Chip :=
  if !m.fwRuns then m
  else
    let m : Chip := { m with upd := { m.upd with selftest := true } }
    if m.upd.trial && m.flag .updCfg 0 16 && !m.pwr.ecdFired then m.confirm else m

/-- The self-test fails: its cause is committed and a warm reset follows (R645). -/
def Chip.selftestFail (m : Chip) : Chip :=
  if !m.fwRuns then m
  else ({ m with upd := { m.upd with failed := m.upd.trial && !m.pwr.ecdFired } } : Chip).warmReset 3

/-- The confirm window has ended (R643). -/
def Chip.updWatchdog (m : Chip) : Chip :=
  if m.upd.trial && m.up then (m.elapse m.upd.trialAt (m.fld .updCfg 0 10 0 * 60000000)).warmReset 2 else m

/-! ### Registers -/

/-- A write of UPD_CMD (R639, R644). -/
def updCmdAct (d : Word) (m : Chip) : Act :=
  let code := bits d 3 0
  { v := { erange := code != 1 && code != 2,
           estate := if code = 1 then !m.upd.selftest || !m.upd.trial else m.upd.stg != .pending,
           ebusy := m.pwr.ecdFired },
    eff := fun m => ((if code = 1 then m.confirm else m.stageEmpty).updStatus .ok code, .ok),
    rej := fun st m => m.updStatus st code }

/-- A write of a UPD register. -/
def updAct (r : RName) (i : Nat) (d : Word) (m : Chip) : Act :=
  match r with
  | .updCmd => updCmdAct d m
  | .updCfg => actStoreIf { ebusy := m.pwr.ecdFired } r i d
  | _ => actStore r i d

/-- UPD_STAT (R650). -/
def Chip.updStat (m : Chip) : Word :=
  let u := m.upd
  let stg := match u.stg with
    | .empty => 0 | .loading => 1 | .pending => 2
  wd (stg + b2n u.trial * 16 + b2n u.rol.isSome * 256 + b2n u.recovery * 1024 + b2n u.selftest * 2048 + u.lastRoll * 4096 +
    u.trials * 65536 + u.vfail * 1048576)

/-- The read-only registers of UPD. -/
def Chip.updRead (m : Chip) (r : RName) (i : Nat) : Word :=
  let u := m.upd
  let s := if u.stg = .pending then u.stgImg else Img.none
  let o := u.rol.getD Img.none
  match r with
  | .updStat => m.updStat
  | .updActVer => wd u.act.ver
  | .updActBver => wd u.act.bver
  | .updActDig => wd u.act.dig
  | .updStgVer => wd s.ver
  | .updStgBver => wd s.bver
  | .updStgDig => wd s.dig
  | .updRolVer => wd o.ver
  | .updRolBver => wd o.bver
  | .updRolDig => wd o.dig
  | .updConfLeft =>
    if u.trial then wd ((u.trialAt + m.fld .updCfg 0 10 0 * 60000000 - m.now) / 1000000) else 0
  | .updCopy => wd u.copy
  | .updSvcStat => wd (u.session + b2n u.present * 4 + u.rate * 16 + u.seq * 65536)
  | _ => m.get r i

end Sys2Proof.Machine
end

