-- ==== Sys2Proof/Machine/Bus.lean ====
section
/-!
DEFINITION. The address space as ports and strands see it (R30 to R37, R6 to R13, R16 to R20): the gate of an access
(authority R494, modes R49, levels R16, the lock R659), what a write does and what a read returns, and accesses held
for a sleeping domain (R35).
-/

namespace Sys2Proof.Machine

/-! ### Where an address lies (R30, R31) -/

/-- What an address names. -/
inductive Target where
  | reg (r : RName) (i : Nat)
  /-- Word w of partner entry e. -/
  | table (e w : Nat)
  | program (k : Nat)
  | commons (k : Nat)
  /-- Word w of loop slot s. -/
  | loopMem (s w : Nat)
  | ring (k : Nat)
  | unmapped
  deriving DecidableEq, Repr

/-- The target of an aligned address; an unaligned one names nothing (R32). -/
def targetOf (addr : Nat) : Target :=
  let b := addr / 0x10000
  if addr % 4 != 0 then .unmapped
  else if b = 0x40 ∨ b = 0x41 then .table ((addr - 0x400000) / 32) ((addr - 0x400000) % 32 / 4)
  else if 0x60 ≤ b ∧ b ≤ 0x67 then .program ((addr - 0x600000) / 4)
  else if 0x68 ≤ b ∧ b ≤ 0x6B then .commons ((addr - 0x680000) / 4)
  else if b = 0x70 then .loopMem ((addr - 0x700000) / 1024) ((addr - 0x700000) % 1024 / 4)
  else if 0x78 ≤ b ∧ b ≤ 0x7B then .ring ((addr - 0x780000) / 4)
  else
    match decodeReg addr with
    | some (r, i) => .reg r i
    | none => .unmapped

/-- The region number of a register (its address ÷ 0x1_0000). -/
def RName.region (r : RName) : Nat := r.row.base / 0x10000

/-- The block whose LEVEL governs a register (R16). SYS, the supplies, SEC, EVT and UPD have none. -/
def RName.blk (r : RName) : Option Blk :=
  match r.region with
  | 0x01 => if 0x010100 ≤ r.row.base then some .pol else none
  | 0x02 => some .seq
  | 0x03 => some .lay
  | 0x04 => some .cle
  | 0x05 => some .acq
  | 0x06 => some .cnv
  | 0x07 => some .brn
  | 0x08 => some .bat
  | 0x09 => some .est
  | 0x0A => some .ptn
  | 0x0B => some .twb
  | 0x0C => some .slk
  | 0x0D => some .hst
  | 0x0E => some .thm
  | 0x0F => some .flt
  | 0x11 => some .spl
  | 0x12 => some .rcd
  | _ => none

/-! ### Authority (R494 to R496) -/

/-- The command class of an access (R494): the first row that matches. -/
def classOf (write : Bool) (addr : Nat) (d : Word) : Nat :=
  let b := addr / 0x10000
  let r := match targetOf addr with
    | .reg r _ => some r
    | _ => none
  if b = 0x10 then 10
  else if write && b = 0x13 then 9
  else if write && r = some .rcdCmd && bits d 3 0 = 1 then 8
  else if !write && b = 0x12 then 7
  else if write && (r = some .hstAuthHost || r = some .hstAuthSvc || r = some .hstAuthPeer) then 12
  else if r = some .hstMbxTx || r = some .hstMbxRx then 6
  else if write && r = some .pwrmCmd then 5
  else if write && r = some .layCmd then 4
  else if write && (b = 0x70 || r = some .cleCommit || r = some .cleKick) then 3
  else if write && (r = some .layBldCtl || r = some .layBldData) then 2
  else if write then 1
  else 0

/-- An owner may use a command class: its port's mask has the bit; the vendor is not bounded (R116). -/
def Chip.mayClass (m : Chip) (o : Owner) (cls : Nat) : Bool :=
  match o with
  | .host => m.flag .hstAuthHost 0 cls
  | .svc => m.flag .hstAuthSvc 0 cls
  | .vendor => true

/-- Authority beside the masks: the SEC region is shut to the host (R34), read-only windows take no write (R33), the
vendor area of the commons none but the vendor's (R103), and a mailbox is open to its ends (R499). -/
def Chip.targetAuth (m : Chip) (write : Bool) (ag : Agent) (addr : Nat) : Bool :=
  match targetOf addr with
  | .program _ => !write
  | .ring _ => !write
  | .commons k => !write || 0x4000 ≤ k || m.authOf ag = .vendor
  | .reg .hstMbxTx c | .reg .hstMbxRx c => ((m.endOf ag).bind (fun e => sideOf e c)).isSome
  | _ => !(addr / 0x10000 = 0x10 && m.authOf ag = .host)

/-- Writes that the spec gives to the service port alone, whatever authority another agent has: the key registers (R571), a clear of
the recorder (R613) and a confirmation (R644). -/
def serviceOnly (addr : Nat) (d : Word) : Bool :=
  match targetOf addr with
  | .reg .secKeyCtl _ | .reg .secKeyData _ | .reg .secKeyChk _ => true
  | .reg .rcdCmd _ | .reg .updCmd _ => bits d 3 0 = 1
  | _ => false

/-- The access lies outside the agent's authority. -/
def Chip.outside (m : Chip) (write : Bool) (ag : Agent) (addr : Nat) (d : Word) : Bool :=
  !m.mayClass (m.authOf ag) (classOf write addr d) || !m.targetAuth write ag addr ||
    (write && m.authOf ag != .svc && serviceOnly addr d)

/-! ### Modes and the lock (R49, R503, R659) -/

/-- The mode's rule for accesses of the host and of strands it owns (R49). -/
def Chip.modeShuts (m : Chip) (write : Bool) (ag : Agent) (addr : Nat) : Bool :=
  let b := addr / 0x10000
  if m.authOf ag != .host then false
  else if m.mode = 0xB then write || !(b = 0 || b = 1 || b = 0xF || b = 0x12)
  else if m.mode = 0x9 then
    write && !(match targetOf addr with
      | .reg .evtPend i => i < 16
      | _ => false)
  else false

/-- Before boot has finished, the host reads identification and PWRM_MODE and nothing else, and the service port makes no
access (R49, R702). -/
def Chip.bootBusy (m : Chip) (write : Bool) (ag : Agent) (addr : Nat) : Bool :=
  let ident := match targetOf addr with
    | .reg r _ => r = .sysId || r = .sysRev || r = .sysUid0 || r = .sysUid1 || r = .sysStrap || r = .pwrmMode
    | _ => false
  m.pwr.base = .boot && (ag = .svc || (ag = .host && (write || !ident)))

/-- The lock refuses a write of an LK field, and one that changes FLT_CFG.LEVEL (R659). -/
def Chip.lockShuts (m : Chip) (r : RName) (d : Word) : Bool :=
  m.sys.locked && (r.row.kind = .lk || (r = .fltCfg && bitOf d 0 != m.flag .fltCfg 0 0))

/-- While the recovery loader runs, only the service port's image commands are accepted (R46, R68): of the writes, those of UPD, and the
acknowledgements that R49 leaves the host in SERVICE. -/
def Chip.recoveryShuts (m : Chip) (ag : Agent) (addr : Nat) : Bool :=
  m.upd.recovery && !(ag = .svc && addr / 0x10000 = 0x13) &&
    !(match targetOf addr with
      | .reg .evtPend i => i < 16
      | _ => false)

/-! ### Levels (R16, R17) -/

/-- Agents that apply profiles, or act with the firmware's authority: no level binds them. -/
def Chip.levelFree (m : Chip) (ag : Agent) : Bool := m.authOf ag = .vendor

/-- A write of an Expert register, or of an Expert field to another value, of a block at the Basic level (R16). The
writable fields of contexts 0 to 63 of the lay engine are no Expert fields (R135). -/
def Chip.basicShuts (m : Chip) (r : RName) (i : Nat) (d : Word) : Bool :=
  let x := wd r.row.xmask
  let w := wd r.row.wmask
  let ex := match r with
    | .layCtl | .layBudget | .layArg => 64 ≤ i
    | _ => x != 0 && ((w &&& ~~~x) == 0 || ((d ^^^ m.get r i) &&& x) != 0)
  ex && (match r.blk with
    | some b => !m.expert b
    | none => false)

/-- The library writes no register of a block at the Expert level, and no LK field once locked (R17, R659). -/
def Chip.libIdle (m : Chip) (ag : Agent) (r : RName) : Bool :=
  ag = .lib && (match r.blk with
    | some b => m.expert b
    | none => false)

/-! ### Writes -/

/-- What a write does at its block. -/
def Chip.blockAct (m : Chip) (ag : Agent) (r : RName) (i : Nat) (d : Word) : Act :=
  match r.region with
  | 0x00 => sysAct ag r i d m
  | 0x01 => if 0x010100 ≤ r.row.base then polAct r i d m else pwrmAct ag r i d m
  | 0x02 => seqAct r i d m
  | 0x03 => layAct ag r i d m
  | 0x04 => cleAct r i d m
  | 0x05 => acqAct r i d m
  | 0x06 => if r = .cnvXVcmd then vcmdAct i d m else cnvAct r i d m
  | 0x07 => brnAct r i d m
  | 0x08 => batAct r i d m
  | 0x09 => estAct r i d m
  | 0x0A => ptnAct ag r i d m
  | 0x0B => twbAct r i d m
  | 0x0C => slkAct r i d m
  | 0x0D => hstAct ag r i d m
  | 0x0E => thmAct r i d m
  | 0x0F => fltAct ag r i d m
  | 0x10 => secAct r i d m
  | 0x11 => splAct r i d m
  | 0x12 => rcdAct (Owner.bank (m.authOf ag)) r i d m
  | 0x13 => updAct r i d m
  | _ => fltAct ag r i d m

/-- A write of a register by its field types (R6, R9): RO and RC fields take nothing, W1C bits written 1 clear. -/
def Chip.regAct (m : Chip) (ag : Agent) (r : RName) (i : Nat) (d : Word) : Act :=
  match r.row.kind with
  | .ro => actNone
  | .rc => actNone
  | .w1c =>
    if r = .evtPend then fltAct ag r i d m
    else actDo {} (fun m => m.put r i (m.get r i &&& ~~~(d &&& wd r.row.wmask)))
  | _ => m.blockAct ag r i d

/-- A write at its target. -/
def Chip.writeAct (m : Chip) (ag : Agent) (addr : Nat) (d : Word) : Act :=
  match targetOf addr with
  | .reg r i => m.regAct ag r i d
  | .table e w => tableAct e w d m
  | .loopMem s w => loopAct s w d m
  | .commons k => actDo {} (fun m => m.putCommon k d)
  | _ => { v := { erange := true }, eff := fun m => (m, .ok) }

/-- The rejections of the gate: authority, address and value, mode and lock, level, boot. -/
def Chip.gate (m : Chip) (write : Bool) (ag : Agent) (addr : Nat) (d : Word) : Verdict :=
  let v : Verdict :=
    { eauth := m.outside write ag addr d, estate := m.modeShuts write ag addr, ebusy := m.bootBusy write ag addr }
  match targetOf addr with
  | .unmapped => { v with erange := true }
  | .reg r i =>
    if !write || r.row.kind = .ro || r.row.kind = .rc then v
    else
      { v with erange := !inRanges r d,
               estate := v.estate || m.lockShuts r d || m.libIdle ag r || m.recoveryShuts ag addr,
               ebasic := !m.levelFree ag && m.basicShuts r i d }
  | _ => if write then { v with estate := v.estate || m.recoveryShuts ag addr } else v

/-- The first rejection of a write (R12), with the block's own; no level binds the firmware and the library. -/
def Chip.writeVerdict (m : Chip) (ag : Agent) (addr : Nat) (d : Word) : Option Status :=
  let a := (m.writeAct ag addr d).v
  ((m.gate true ag addr d).and { a with ebasic := a.ebasic && !m.levelFree ag }).first

/-- A rejection of a write: what the block records of it, and the count of an EAUTH (R13, R118, R496). -/
def Chip.rejectWrite (m : Chip) (ag : Agent) (addr : Nat) (d : Word) (st : Status) : Chip :=
  let m := (m.writeAct ag addr d).rej st m
  if st = .eauth then m.eauthNote ag else m

/-- A write as its block takes it, judged now. -/
def Chip.busWrite (m : Chip) (ag : Agent) (addr : Nat) (d : Word) : Chip × Status :=
  match m.writeVerdict ag addr d with
  | some st => (m.rejectWrite ag addr d st, st)
  | none => (m.writeAct ag addr d).eff m

/-! ### Reads -/

/-- The registers of ACQ and their views. -/
def Chip.acqRead (m : Chip) (ag : Agent) (r : RName) (i : Nat) : Chip × Word × Status :=
  match r with
  | .acqQstat => (m, m.acqQstat, .ok)
  | .acqQpop0 => if m.qReader ag then (m, m.qHead.1, .ok) else (m, 0, .estate)
  | .acqQpop1 => if m.qReader ag then (m.qPop, m.qHead.2, .ok) else (m, 0, .estate)
  | .acqRes => (m.putF r i 17 16 0, m.get r i, .ok)
  | .acqWcStat => (m, m.acqWcStat i, .ok)
  | .acqAcmStat => (m, m.acqAcmStat, .ok)
  | .acqAcmFreq => (m, wd m.acq.track.freq, .ok)
  | .acqAcmAmp => (m, m.acqAcmAmp i, .ok)
  | .acqAcmPhase => (m, m.acqAcmPhase, .ok)
  | _ => (m, m.get r i, .ok)

/-- The registers of the CLE and the converter stages and their views. -/
def Chip.loopRegRead (m : Chip) (r : RName) (i : Nat) : Chip × Word :=
  match r with
  | .cleLoad => (m, m.cleLoad)
  | .cleRun => (m, wd (m.slotMask (fun x => x.st = .armed) / 2 ^ (32 * i) % 2 ^ 32))
  | .cleFence => (m, wd (m.slotMask (fun x => x.st = .fenced) / 2 ^ (32 * i) % 2 ^ 32))
  | .cleLib => (m, wd (m.cle.lib / 2 ^ (32 * i) % 2 ^ 32))
  | .cnvSyncstat => (m, m.cnvSyncstat)
  | .cnvXStat => (m, m.cnvStat i)
  | .cnvXEff => (m, wdI (m.conv i).eff)
  | .cnvXDuty => (m, wdI (m.conv i).duty)
  | .cnvXVdone => m.vdoneRead i
  | .cnvBPh => (m, m.cnvPh 0 i)
  | .cnvAPh => (m, m.cnvPh 1 i)
  | _ => (m, m.get r i)

/-- The energy of a branch in µJ as its 64-bit two's complement image (R351). -/
def Chip.brnEnergy (m : Chip) (n : Nat) : Nat := unI ((m.branch n).energy.fdiv (1250 * 2147483648)) 64

/-- The registers of BRN and BAT and their views. -/
def Chip.pathRead (m : Chip) (r : RName) (i : Nat) : Chip × Word :=
  match r with
  | .brnOnmask => (m, m.brnMask .on)
  | .brnFencemask => (m, m.brnMask .fenced)
  | .brnLatchmask => (m, m.brnMask .latched)
  | .brnNStat => (m, m.brnStat i)
  | .brnNElo => (m.putBranch i { m.branch i with ehi := m.brnEnergy i / 2 ^ 32 }, wd (m.brnEnergy i % 2 ^ 32))
  | .brnNEhi => (m, wd (m.branch i).ehi)
  | .brnNMeas | .brnNIavg | .brnNP => (m, m.brnMeter r i)
  | .batChgStat => (m, m.chgStat)
  | .batChgCb => (m, wdI m.bat.cb)
  | .batShipStat => (m, wd (m.bat.wakeBy + b2n m.bat.shipSrc * 4))
  | .batStrStat => (m, m.strStat i)
  | .batStrId => (m, (m.bstr i).ident)
  | .batStrMeas => (m, m.strMeas i)
  | _ => (m, m.get r i)

/-- The registers whose reads change nothing. -/
def Chip.plainRead (m : Chip) (r : RName) (i : Nat) : Word :=
  match r.region with
  | 0x01 => if 0x010100 ≤ r.row.base then m.polRead r i else m.pwrmRead r i
  | 0x02 =>
    match r with
    | .seqStatus => m.seqStatus
    | .seqTrace => (m.seqTraceEntry i).1
    | .seqTraceT => (m.seqTraceEntry i).2
    | _ => m.get r i
  | 0x09 => m.estRead r i
  | 0x0A => m.ptnRead r i
  | 0x0B => m.twbRead r i
  | 0x0C => m.slkRead r i
  | 0x0D => m.hstRead r i
  | 0x0E =>
    match r with
    | .thmSStat => m.thmStat i
    | .thmFuncRed => m.thmFuncRed i
    | .thmClkStat => wd m.clockLevel
    | _ => m.get r i
  | 0x10 => m.secRead r i
  | 0x11 => m.splRead r i
  | 0x13 => m.updRead r i
  | _ => m.fltRead r i

/-- A read of a register: the chip, the word and the status. Write-only registers read 0, and a read of an RC register
leaves its reset value (R6). -/
def Chip.regRead (m : Chip) (ag : Agent) (r : RName) (i : Nat) : Chip × Word × Status :=
  let bank := Owner.bank (m.authOf ag)
  let pure := fun (x : Chip × Word) => (x.1, x.2, Status.ok)
  match r with
  | .fltFlag => pure (m.flagRead i)
  | .hstMbxRx => m.mbxRx ag i
  | .acqQpop1 | .acqRes => m.acqRead ag r i
  | .cnvXVdone => pure (m.loopRegRead r i)
  | _ =>
    if r.row.kind = .rc then (m.put r i (resetWord (r, i)), m.get r i, .ok)
    else
      match r.region with
      | 0x00 => pure (m.sysRead bank r i)
      | 0x03 => (m, m.layRead r i)
      | 0x04 => pure (m.loopRegRead r i)
      | 0x05 => m.acqRead ag r i
      | 0x06 => pure (m.loopRegRead r i)
      | 0x07 => pure (m.pathRead r i)
      | 0x08 => pure (m.pathRead r i)
      | 0x12 => m.rcdRead bank r i
      | _ => (m, m.plainRead r i, .ok)

/-- A read at its target. -/
def Chip.readAt (m : Chip) (ag : Agent) (addr : Nat) : Chip × Word × Status :=
  match targetOf addr with
  | .reg r i => m.regRead ag r i
  | .table e w => (m, m.tableRead e w, .ok)
  | .program k => (m, m.program k, .ok)
  | .commons k => (m, m.common k, .ok)
  | .loopMem s w => (m, m.loopRead s w, .ok)
  | .ring k => (m, m.ringRead k, .ok)
  | .unmapped => (m, 0, .erange)

/-- A read, judged now: a rejected one returns 0 (R31, R496). A read of HST_MBX_c_RX by a port that is no end of the
channel counts as an EAUTH rejection too (R499). -/
def Chip.busRead (m : Chip) (ag : Agent) (addr : Nat) : Chip × Word × Status :=
  match (m.gate false ag addr 0).first with
  | some st => (if st = .eauth then m.eauthNote ag else m, 0, st)
  | none =>
    let x := m.readAt ag addr
    (if x.2.2 = .eauth then x.1.eauthNote ag else x.1, x.2)

/-! ### Held accesses (R35, R610) -/

/-- A read of a cursor register waits while the record that its reader's cursor shows is being written (R610). -/
def Chip.cursorWaits (m : Chip) (h : Held) : Bool :=
  match targetOf h.addr with
  | .reg r _ => !h.write && (r = .rcdCur || r = .rcdWin || r = .rcdSeq || r = .rcdSeqchk) && m.cursorHeld (Owner.bank (m.authOf h.ag))
  | _ => false

/-- Whether an access has to wait: it is not rejected, and its domain sleeps or its record is being written. -/
def Chip.mustHold (m : Chip) (h : Held) : Bool :=
  (if h.write then (m.writeVerdict h.ag h.addr h.data).isNone else (m.gate false h.ag h.addr 0).first.isNone) &&
    (!m.usableDom (domOf h.addr) || m.cursorWaits h)

/-- An access joins those that wait. -/
def Chip.hold (m : Chip) (h : Held) : Chip := { m with pwr := { m.pwr with held := m.pwr.held ++ [h] } }

/-- The result of a port access as the port is told it. -/
def Chip.respond (m : Chip) (ag : Agent) (st : Status) (w : Word) : Chip := { m with resp := some (ag, st, w) }

/-- HST_STAT after a host write: its status and address (chapter Host port, registers). A write that resets the chip or
powers it down leaves the register at its reset value. -/
def Chip.noteHostWrite (m : Chip) (ag : Agent) (addr : Nat) (st : Status) (was : Base) : Chip :=
  if ag = .host && (m.pwr.base = was || m.up) then m.put .hstStat 0 (wd (st.code + addr * 256)) else m

/-- An access takes effect. -/
def Chip.perform (m : Chip) (h : Held) : Chip × Status × Word :=
  if h.write then
    let x := m.busWrite h.ag h.addr h.data
    ((x.1.noteHostWrite h.ag h.addr x.2 m.pwr.base).respond h.ag x.2 0, x.2, 0)
  else
    let x := m.busRead h.ag h.addr
    (x.1.respond h.ag x.2.2 x.2.1, x.2.2, x.2.1)

/-- A held access takes effect (R35): a READ was judged at its arrival and completes (R520). -/
def Chip.performHeld (m : Chip) (h : Held) : Chip × Status × Word :=
  if h.write then m.perform h
  else
    let x := m.readAt h.ag h.addr
    let m := if x.2.2 = .eauth then x.1.eauthNote h.ag else x.1
    (m.respond h.ag x.2.2 x.2.1, x.2.2, x.2.1)

/-- The service port makes an access only within a session (R630), and in OFF and SHIP no port is answered (R49). -/
def Chip.portShut (m : Chip) : Bool := m.pwr.base = .off || m.pwr.base = .ship

/-- A register access of a command: performed, or held for its domain. -/
def Chip.access (m : Chip) (h : Held) : Chip :=
  if m.portShut then m
  else if h.ag = .svc && m.pwr.base != .boot && m.upd.session < 2 then m.respond .svc .estate 0
  else if m.mustHold h then m.hold h
  else (m.perform h).1

/-- A write by a port, a strand, the firmware or the library. -/
def Chip.portWrite (m : Chip) (ag : Agent) (addr : Nat) (d : Word) : Chip :=
  m.access { ag := ag, write := true, addr := addr, data := d, dst := 0 }

/-- A read by a port, a strand, the firmware or the library. -/
def Chip.portRead (m : Chip) (ag : Agent) (addr : Nat) : Chip :=
  m.access { ag := ag, write := false, addr := addr, data := 0, dst := 0 }

/-- A write of a register named by its row. -/
def Chip.regWrite (m : Chip) (ag : Agent) (r : RName) (i : Nat) (d : Word) : Chip := m.portWrite ag (r.addr i) d

end Sys2Proof.Machine
end

