-- ==== Sys2Proof/Machine/Knarin.lean ====
section
/-!
DEFINITION. The Knarin instructions (chapter Knarin instruction reference): their words (R140, R141), the issue of one
(R121, R143), and what each does. An instruction command names the strand that issues it; it acts when that strand is
RUNNING and the word at its PC is that instruction with those operands.
-/

namespace Sys2Proof.Machine

/-! ### Words (R141) -/

/-- A REG word. -/
def kREG (op d a b c fn : Nat) : Word :=
  wd (op * 2 ^ 24 + d % 16 * 2 ^ 20 + a % 16 * 2 ^ 16 + b % 16 * 2 ^ 12 + c % 16 * 2 ^ 8 + fn % 256)

/-- An IMM word with a 16-bit immediate. -/
def kIMM (op d a imm : Nat) : Word := wd (op * 2 ^ 24 + d % 16 * 2 ^ 20 + a % 16 * 2 ^ 16 + imm % 2 ^ 16)

/-- An IMM or BRA word with a 20-bit immediate or offset; d is the destination or the condition. -/
def kIMM20 (op d imm : Nat) : Word := wd (op * 2 ^ 24 + d % 16 * 2 ^ 20 + imm % 2 ^ 20)

/-- A PTR word. -/
def kPTR (op d a b item : Nat) : Word :=
  wd (op * 2 ^ 24 + d % 16 * 2 ^ 20 + a % 16 * 2 ^ 16 + b % 16 * 2 ^ 12 + item % 2 ^ 12)

/-- The words of a REG opcode that its row permits (R141, R142): which register fields it uses, and its FN values. -/
def regWordOk (w : Word) (d a b c : Bool) (fn : Nat → Bool) : Bool :=
  (d || bits w 23 20 = 0) && (a || bits w 19 16 = 0) && (b || bits w 15 12 = 0) && (c || bits w 11 8 = 0) && fn (bits w 7 0)

/-- A wait's FN and C: with the timeout flag T clear, C is 0; `low` bits below it may be used. -/
def waitWordOk (w : Word) (d a : Bool) (low : Nat) : Bool :=
  regWordOk w d a false (bits w 7 7 = 1) (fun fn => fn % 128 < low)

/-- A word is a defined instruction (R142). -/
def wordDefined (w : Word) : Bool :=
  let op := bits w 31 24
  let z := fun (fn : Nat) => fn = 0
  if op = 0x00 ∨ op = 0x01 ∨ op = 0x02 then bits w 23 0 = 0
  else if op = 0x03 then regWordOk w false false false false (fun _ => true)
  else if op = 0x04 then regWordOk w true false false false (fun fn => fn ≤ 8)
  else if 0x10 ≤ op ∧ op ≤ 0x1C then regWordOk w true true true false z
  else if op = 0x1D ∨ op = 0x26 then regWordOk w false true true false z
  else if 0x20 ≤ op ∧ op ≤ 0x23 then regWordOk w true true false false z
  else if (0x24 ≤ op ∧ op ≤ 0x25) ∨ (0x27 ≤ op ∧ op ≤ 0x2B) then regWordOk w true true true false z
  else if op = 0x30 then true
  else if op = 0x31 then bits w 19 16 = 0
  else if 0x32 ≤ op ∧ op ≤ 0x35 then true
  else if 0x36 ≤ op ∧ op ≤ 0x38 then bits w 15 5 = 0
  else if op = 0x39 then bits w 23 20 = 0
  else if 0x3A ≤ op ∧ op ≤ 0x3C then bits w 15 10 = 0
  else if 0x40 ≤ op ∧ op ≤ 0x4D then true
  else if op = 0x50 then regWordOk w true true true true z
  else if op = 0x51 ∨ op = 0x52 then regWordOk w true true true false z
  else if op = 0x60 then bits w 23 20 ≤ 0xA
  else if op = 0x61 then bits w 23 20 = 0
  else if op = 0x62 then regWordOk w false true false false z
  else if op = 0x63 then bits w 23 0 = 0
  else if op = 0x70 ∨ op = 0x72 then bits w 23 20 = 0
  else if op = 0x71 ∨ op = 0x73 ∨ op = 0x78 then regWordOk w false true false false z
  else if op = 0x74 then waitWordOk w true false 1
  else if op = 0x75 then waitWordOk w true true 4
  else if op = 0x76 then waitWordOk w true true 1
  else if op = 0x77 then regWordOk w true true false false z
  else if op = 0x80 then regWordOk w false false true false (fun fn => fn < 64)
  else if op = 0x81 then waitWordOk w true false 64
  else if op = 0x90 then regWordOk w true true false false (fun _ => true)
  else if op = 0x91 then regWordOk w false true true false (fun _ => true)
  else if op = 0x92 then regWordOk w false true true false z
  else if op = 0x93 then regWordOk w false true false false (fun fn => fn < 8)
  else if op = 0xA0 ∨ op = 0xA2 then bits w 15 12 = 0
  else if op = 0xA1 ∨ (0xA3 ≤ op ∧ op ≤ 0xA5) then true
  else if op = 0xB0 then bits w 23 16 = 0
  else false

/-! ### Issue (R121, R143) -/

/-- The word at a strand's PC. -/
def Chip.nextWord (m : Chip) (k : Nat) : Word := m.program ((m.strand k).pc / 4)

/-- A strand's PC lies in its owner's region. -/
def Chip.pcIn (m : Chip) (k : Nat) : Bool := inRegion (m.strand k).owner (m.strand k).pc

/-- A RUNNING strand stands at the word w. -/
def Chip.atWord (m : Chip) (k : Nat) (w : Word) : Bool := (m.strand k).st = .running && m.pcIn k && m.nextWord k == w

/-- One instruction more has been issued (R96, R121). -/
def Strand.counted (s : Strand) : Strand := { s with act := s.act + 1, slice := s.slice + 1 }

/-- A strand at word w issues it: over its budget it is not issued, and with its next PC outside the region it raises
STRAND_ILLEGAL and has no effect (R143). `next` is the PC it sets. -/
def Chip.issueTo (m : Chip) (k : Nat) (w : Word) (next : Nat) (f : Chip → Chip) : Chip :=
  if !m.atWord k w then m
  else if m.overBudget k then m.strandFault k 0 []
  else if !inRegion (m.strand k).owner next then m.strandFault k 1 []
  else f m

/-- The offset of the next instruction. -/
def Chip.pcAfter (m : Chip) (k : Nat) : Nat := (m.strand k).pc + 4

/-- An instruction that goes on to the next one. -/
def Chip.issueNext (m : Chip) (k : Nat) (w : Word) (f : Chip → Chip) : Chip := m.issueTo k w (m.pcAfter k) f

/-- An instruction over the strand's own registers and flags. -/
def Chip.kOp (m : Chip) (k : Nat) (w : Word) (f : Strand → Strand) : Chip :=
  m.issueNext k w (fun m => m.putStrand k { (f (m.strand k)).counted with pc := m.pcAfter k })

/-- A control transfer. -/
def Chip.kJump (m : Chip) (k : Nat) (w : Word) (target : Nat) (f : Strand → Strand) : Chip :=
  m.issueTo k w target (fun m => m.putStrand k { (f (m.strand k)).counted with pc := target })

/-- The word at the PC is undefined, or the PC has left the region: STRAND_ILLEGAL (R122, R142). -/
def Chip.undefinedWord (m : Chip) (k : Nat) : Chip :=
  if (m.strand k).st != .running then m
  else if m.overBudget k then m.strandFault k 0 []
  else if !m.pcIn k || !wordDefined (m.nextWord k) then m.strandFault k 1 []
  else m

/-! ### Flags (R146) -/

/-- Z and N of a result. -/
def Strand.zn (s : Strand) (w : Word) : Strand := { s with z := w == 0, n := bitOf w 31 }

/-- A sum with its flags: C the carry out of bit 31, V signed overflow. -/
def Strand.addFlags (s : Strand) (a b : Word) (cin : Nat) : Word × Strand :=
  let t := a.toNat + b.toNat + cin
  let r := wd t
  (r, { s.zn r with c := 2 ^ 32 ≤ t, v := sw a + sw b + cin != sw r })

/-- A difference with its flags: C when the unsigned subtraction borrows, V signed overflow. -/
def Strand.subFlags (s : Strand) (a b : Word) (cin : Nat) : Word × Strand :=
  let r := wdI ((a.toNat : Int) - b.toNat - cin)
  (r, { s.zn r with c := a.toNat < b.toNat + cin, v := sw a - sw b - cin != sw r })

/-- The result of a flag computation goes into a register. -/
def Strand.take (d : Nat) (x : Word × Strand) : Strand := x.2.dst d x.1

/-- The kinds of shift. -/
inductive ShiftKind where
  | left | right | arith
  deriving DecidableEq, Repr

/-- A shifted word. -/
def shiftWord (q : ShiftKind) (a : Word) (n : Nat) : Word :=
  match q with
  | .left => a <<< n
  | .right => a >>> n
  | .arith => a.sshiftRight n

/-- A shift with its flags: C is the last bit shifted out, unchanged for an amount of 0. -/
def Strand.shift (s : Strand) (q : ShiftKind) (d : Nat) (a : Word) (n : Nat) : Strand :=
  let r := shiftWord q a n
  let out := if q = .left then bitOf a (32 - n) else bitOf a (n - 1)
  ({ s.zn r with c := if n = 0 then s.c else out }).dst d r

/-! ### Control -/

/-- nop. -/
def Chip.kNop (m : Chip) (k : Nat) : Chip := m.kOp k (kREG 0x00 0 0 0 0 0) id

/-- halt: the PC moves on, in the last word of a region too (R143). -/
def Chip.kHalt (m : Chip) (k : Nat) : Chip :=
  m.issueTo k (kREG 0x01 0 0 0 0 0) (m.strand k).pc (fun m =>
    (m.putStrand k { (m.strand k).counted with pc := m.pcAfter k }).strandEnd k .halted 1)

/-- yield: the activation ends and the strand goes to the back of its queue (R120). -/
def Chip.kYield (m : Chip) (k : Nat) : Chip :=
  m.issueTo k (kREG 0x02 0 0 0 0 0) (m.strand k).pc (fun m =>
    (m.putStrand k { (m.strand k).counted with pc := m.pcAfter k }).strandReady k)

/-- fault: STRAND_USER with its code in the record (R122). -/
def Chip.kFault (m : Chip) (k code : Nat) : Chip :=
  m.issueNext k (kREG 0x03 0 0 0 0 code) (fun m => m.strandFault k 3 [wd (code % 256)])

/-- A system value of sysr (R150). -/
def Chip.sysValue (m : Chip) (k sel : Nat) : Word :=
  match sel with
  | 0 => wd k
  | 1 => m.layCtl k
  | 2 => wd ((m.strand k).act + 1)
  | 3 => wd (m.fld .layBudget k 20 0)
  | 4 => wd (m.now % 2 ^ 32)
  | 5 => wd (m.strand k).usecHi
  | 6 => m.pwrmRead .pwrmOpsec 0
  | 7 => m.pwrmRead .pwrmPcc 0
  | _ => m.modeWord

/-- sysr: selector 0x04 latches the stamp's upper bits for this strand. -/
def Chip.kSysr (m : Chip) (k d sel : Nat) : Chip :=
  if 8 < sel then (if m.atWord k (kREG 0x04 d 0 0 0 sel) then m.undefinedWord k else m)
  else
    m.kOp k (kREG 0x04 d 0 0 0 sel) (fun s =>
      let s := s.dst d (m.sysValue k sel)
      if sel = 4 then { s with usecHi := m.now / 2 ^ 32 % 256 } else s)

/-! ### Arithmetic and logic -/

/-- A row over two source registers. -/
def Chip.kAlu (m : Chip) (op k d a b : Nat) (f : Strand → Word → Word → Strand) : Chip :=
  m.kOp k (kREG op d a b 0 0) (fun s => f s (s.reg a) (s.reg b))

/-- A row over one source register. -/
def Chip.kAlu1 (m : Chip) (op k d a : Nat) (f : Strand → Word → Strand) : Chip :=
  m.kOp k (kREG op d a 0 0 0) (fun s => f s (s.reg a))

/-- A result that sets Z and N. -/
def Strand.logic (s : Strand) (d : Nat) (r : Word) : Strand := (s.zn r).dst d r

/-- A result that sets Z, N and V. -/
def Strand.withV (s : Strand) (d : Nat) (r : Word) (v : Bool) : Strand := ({ s.zn r with v := v }).dst d r

def Chip.kAdd (m : Chip) (k d a b : Nat) : Chip := m.kAlu 0x10 k d a b (fun s x y => Strand.take d (s.addFlags x y 0))
def Chip.kAdc (m : Chip) (k d a b : Nat) : Chip := m.kAlu 0x11 k d a b (fun s x y => Strand.take d (s.addFlags x y (b2n s.c)))
def Chip.kSub (m : Chip) (k d a b : Nat) : Chip := m.kAlu 0x12 k d a b (fun s x y => Strand.take d (s.subFlags x y 0))
def Chip.kSbc (m : Chip) (k d a b : Nat) : Chip := m.kAlu 0x13 k d a b (fun s x y => Strand.take d (s.subFlags x y (b2n s.c)))
def Chip.kAnd (m : Chip) (k d a b : Nat) : Chip := m.kAlu 0x14 k d a b (fun s x y => s.logic d (x &&& y))
def Chip.kOr (m : Chip) (k d a b : Nat) : Chip := m.kAlu 0x15 k d a b (fun s x y => s.logic d (x ||| y))
def Chip.kXor (m : Chip) (k d a b : Nat) : Chip := m.kAlu 0x16 k d a b (fun s x y => s.logic d (x ^^^ y))
def Chip.kBic (m : Chip) (k d a b : Nat) : Chip := m.kAlu 0x17 k d a b (fun s x y => s.logic d (x &&& ~~~y))
def Chip.kShl (m : Chip) (k d a b : Nat) : Chip := m.kAlu 0x18 k d a b (fun s x y => s.shift .left d x (bits y 4 0))
def Chip.kShr (m : Chip) (k d a b : Nat) : Chip := m.kAlu 0x19 k d a b (fun s x y => s.shift .right d x (bits y 4 0))
def Chip.kSar (m : Chip) (k d a b : Nat) : Chip := m.kAlu 0x1A k d a b (fun s x y => s.shift .arith d x (bits y 4 0))
def Chip.kMul (m : Chip) (k d a b : Nat) : Chip := m.kAlu 0x1B k d a b (fun s x y => s.logic d (x * y))
def Chip.kMulh (m : Chip) (k d a b : Nat) : Chip :=
  m.kAlu 0x1C k d a b (fun s x y => s.logic d (wdI ((sw x * sw y).fdiv 4294967296)))
def Chip.kCmp (m : Chip) (k a b : Nat) : Chip := m.kAlu 0x1D k 0 a b (fun s x y => (s.subFlags x y 0).2)
def Chip.kMov (m : Chip) (k d a : Nat) : Chip := m.kAlu1 0x20 k d a (fun s x => s.dst d x)
def Chip.kNot (m : Chip) (k d a : Nat) : Chip := m.kAlu1 0x21 k d a (fun s x => s.logic d (~~~x))
def Chip.kNeg (m : Chip) (k d a : Nat) : Chip := m.kAlu1 0x22 k d a (fun s x => Strand.take d (s.subFlags 0 x 0))

/-- The number of leading zero bits of a word. -/
def leadingZeros (w : Word) : Nat := 32 - ((List.range 32).foldl (fun a k => if bitOf w k then k + 1 else a) 0)

def Chip.kClz (m : Chip) (k d a : Nat) : Chip :=
  m.kAlu1 0x23 k d a (fun s x => ({ s with z := leadingZeros x = 0 }).dst d (wd (leadingZeros x)))
def Chip.kMin (m : Chip) (k d a b : Nat) : Chip := m.kAlu 0x24 k d a b (fun s x y => s.logic d (if sw x ≤ sw y then x else y))
def Chip.kMax (m : Chip) (k d a b : Nat) : Chip := m.kAlu 0x25 k d a b (fun s x y => s.logic d (if sw x ≤ sw y then y else x))
def Chip.kTst (m : Chip) (k a b : Nat) : Chip := m.kAlu 0x26 k 0 a b (fun s x y => s.zn (x &&& y))

/-- Saturation to a signed 32-bit word, and whether it acted (R151). -/
def sat32 (t : Int) : Word × Bool :=
  let c := clampI (-2147483648) 2147483647 t
  (wdI c, c != t)

def Chip.kSadd (m : Chip) (k d a b : Nat) : Chip :=
  m.kAlu 0x27 k d a b (fun s x y => s.withV d (sat32 (sw x + sw y)).1 (sat32 (sw x + sw y)).2)
def Chip.kSsub (m : Chip) (k d a b : Nat) : Chip :=
  m.kAlu 0x28 k d a b (fun s x y => s.withV d (sat32 (sw x - sw y)).1 (sat32 (sw x - sw y)).2)

/-- The rounded Q8.24 product of two words (R151). -/
def qmulWord (x y : Word) : Word × Bool := sat32 ((sw x * sw y + 8388608).fdiv 16777216)

def Chip.kQmul (m : Chip) (k d a b : Nat) : Chip :=
  m.kAlu 0x29 k d a b (fun s x y => s.withV d (qmulWord x y).1 (qmulWord x y).2)

/-- The unsigned quotient with its substitute (R151). -/
def divuWord (x y : Word) : Word × Bool := if y == 0 then (0xFFFFFFFF, true) else (wd (x.toNat / y.toNat), false)

def Chip.kDivu (m : Chip) (k d a b : Nat) : Chip :=
  m.kAlu 0x2A k d a b (fun s x y => s.withV d (divuWord x y).1 (divuWord x y).2)

/-- The signed quotient, truncated toward zero, with its substitutes (R151). -/
def divWord (x y : Word) : Word × Bool :=
  if y == 0 then (if sw x < 0 then 0x80000000 else 0x7FFFFFFF, true)
  else if x == 0x80000000 && y == 0xFFFFFFFF then (0x7FFFFFFF, true)
  else (wdI ((sw x).tdiv (sw y)), false)

def Chip.kDiv (m : Chip) (k d a b : Nat) : Chip :=
  m.kAlu 0x2B k d a b (fun s x y => s.withV d (divWord x y).1 (divWord x y).2)

/-! ### Immediates and bit fields (R152) -/

/-- A 16-bit immediate, sign-extended. -/
def sext16 (imm : Nat) : Word := wdI (sxN imm 16)

/-- A row with a 16-bit immediate. -/
def Chip.kImm (m : Chip) (op k d a imm : Nat) (f : Strand → Word → Strand) : Chip :=
  m.kOp k (kIMM op d a imm) (fun s => f s (s.reg a))

def Chip.kMovi (m : Chip) (k d imm : Nat) : Chip := m.kOp k (kIMM20 0x30 d imm) (fun s => s.dst d (wdI (sxN imm 20)))
def Chip.kMovhi (m : Chip) (k d imm : Nat) : Chip :=
  m.kOp k (kIMM 0x31 d 0 imm) (fun s => s.dst d (wd (imm % 65536 * 65536 + bits (s.reg d) 15 0)))
def Chip.kAddi (m : Chip) (k d a imm : Nat) : Chip := m.kImm 0x32 k d a imm (fun s x => Strand.take d (s.addFlags x (sext16 imm) 0))
def Chip.kAndi (m : Chip) (k d a imm : Nat) : Chip := m.kImm 0x33 k d a imm (fun s x => s.logic d (x &&& wd (imm % 65536)))
def Chip.kOri (m : Chip) (k d a imm : Nat) : Chip := m.kImm 0x34 k d a imm (fun s x => s.logic d (x ||| wd (imm % 65536)))
def Chip.kXori (m : Chip) (k d a imm : Nat) : Chip := m.kImm 0x35 k d a imm (fun s x => s.logic d (x ^^^ wd (imm % 65536)))
def Chip.kShli (m : Chip) (k d a n : Nat) : Chip := m.kImm 0x36 k d a (n % 32) (fun s x => s.shift .left d x (n % 32))
def Chip.kShri (m : Chip) (k d a n : Nat) : Chip := m.kImm 0x37 k d a (n % 32) (fun s x => s.shift .right d x (n % 32))
def Chip.kSari (m : Chip) (k d a n : Nat) : Chip := m.kImm 0x38 k d a (n % 32) (fun s x => s.shift .arith d x (n % 32))
def Chip.kCmpi (m : Chip) (k a imm : Nat) : Chip := m.kImm 0x39 k 0 a imm (fun s x => (s.subFlags x (sext16 imm) 0).2)

/-- The field spec of a position and a width minus 1. -/
def fieldSpec (pos wm1 : Nat) : Nat := wm1 % 32 * 32 + pos % 32

/-- A field of a word; its bits above bit 31 are 0. -/
def fieldOf (a : Word) (pos wm1 : Nat) : Nat := a.toNat / 2 ^ (pos % 32) % 2 ^ (wm1 % 32 + 1)

/-- The field with every bit above it equal to its sign: bit pos + wm1 where that lies in the word, else bit 31. -/
def fieldSigned (a : Word) (pos wm1 : Nat) : Word :=
  let f := fieldOf a pos wm1
  if bitOf a (min 31 (pos % 32 + wm1 % 32)) then wd (2 ^ 32 - 2 ^ (wm1 % 32 + 1) + f) else wd f

/-- A field replaced; bits above bit 31 are discarded. -/
def fieldInsert (d a : Word) (pos wm1 : Nat) : Word :=
  let mask := wd ((2 ^ (wm1 % 32 + 1) - 1) * 2 ^ (pos % 32))
  (d &&& ~~~mask) ||| (wd (a.toNat % 2 ^ (wm1 % 32 + 1) * 2 ^ (pos % 32)) &&& mask)

def Chip.kExtu (m : Chip) (k d a pos wm1 : Nat) : Chip :=
  m.kImm 0x3A k d a (fieldSpec pos wm1) (fun s x => s.logic d (wd (fieldOf x pos wm1)))
def Chip.kExts (m : Chip) (k d a pos wm1 : Nat) : Chip :=
  m.kImm 0x3B k d a (fieldSpec pos wm1) (fun s x => s.logic d (fieldSigned x pos wm1))
def Chip.kIns (m : Chip) (k d a pos wm1 : Nat) : Chip :=
  m.kImm 0x3C k d a (fieldSpec pos wm1) (fun s x => s.dst d (fieldInsert (s.reg d) x pos wm1))

/-! ### Loads and stores (R100 to R104, R153, R154) -/

/-- The effective address of a load or store. -/
def Chip.ea (m : Chip) (k a imm : Nat) : Nat := ((m.strand k).reg a + sext16 imm).toNat

/-- An access of `w` bytes at an offset lies in a space of `size` bytes and is aligned. -/
def inSpace (at_ w size : Nat) : Bool := at_ % w = 0 && at_ + w ≤ size

/-- The w bytes of a word at a byte address. -/
def laneGet (x : Word) (at_ w : Nat) : Word := wd (x.toNat / 2 ^ (8 * (at_ % 4)) % 2 ^ (8 * w))

/-- A word with w bytes at a byte address replaced by the low ones of another. -/
def lanePut (x : Word) (at_ w : Nat) (y : Word) : Word :=
  let lo := 8 * (at_ % 4)
  setBits x (lo + 8 * w - 1) lo (y.toNat % 2 ^ (8 * w))

/-- An access that is misaligned or outside its space raises STRAND_ACCESS (R102). -/
def Chip.guarded (m : Chip) (k : Nat) (ok : Bool) (f : Chip → Chip) : Chip := if ok then f m else m.strandFault k 2 []

/-- A load from the local store. -/
def Chip.localLoad (m : Chip) (op width k d a imm : Nat) : Chip :=
  m.issueNext k (kIMM op d a imm) (fun m =>
    let at_ := m.ea k a imm
    m.guarded k (inSpace at_ width 0x100) (fun m =>
      let s := m.strand k
      m.putStrand k { (s.dst d (laneGet (s.loc (at_ / 4)) at_ width)).counted with pc := m.pcAfter k }))

/-- A store to the local store. -/
def Chip.localStore (m : Chip) (op width k d a imm : Nat) : Chip :=
  m.issueNext k (kIMM op d a imm) (fun m =>
    let at_ := m.ea k a imm
    m.guarded k (inSpace at_ width 0x100) (fun m =>
      let s := m.strand k
      let w := lanePut (s.loc (at_ / 4)) at_ width (s.reg d)
      m.putStrand k { s.counted with locals := NTab.set 0 s.locals (at_ / 4) w, pc := m.pcAfter k }))

/-- A load from the commons. -/
def Chip.commonsLoad (m : Chip) (op width k d a imm : Nat) : Chip :=
  m.issueNext k (kIMM op d a imm) (fun m =>
    let at_ := m.ea k a imm
    m.guarded k (inSpace at_ width 0x40000) (fun m =>
      let s := m.strand k
      m.putStrand k { (s.dst d (laneGet (m.common (at_ / 4)) at_ width)).counted with pc := m.pcAfter k }))

/-- A write of a strand to the vendor area of the commons (R103). -/
def Chip.vendorArea (m : Chip) (k at_ : Nat) : Bool := at_ < 0x10000 && (m.strand k).owner != .vendor

/-- An EAUTH returned to a strand is counted (R118). -/
def Chip.countEauth (m : Chip) (k : Nat) (st : Status) : Chip :=
  if st = .eauth then m.eauthNote (.strand (Fin.ofNat 256 k)) else m

/-- A strand goes on to its next instruction with a status and no WAKE (R147). -/
def Chip.stepStatus (m : Chip) (k : Nat) (f : Strand → Strand) (st : Status) : Chip :=
  (m.putStrand k { ((f (m.strand k)).status st 0).counted with pc := m.pcAfter k }).countEauth k st

/-- A store to the commons. -/
def Chip.commonsStore (m : Chip) (op width k d a imm : Nat) : Chip :=
  m.issueNext k (kIMM op d a imm) (fun m =>
    let at_ := m.ea k a imm
    m.guarded k (inSpace at_ width 0x40000) (fun m =>
      if m.vendorArea k at_ then m.stepStatus k id .eauth
      else
        (m.putCommon (at_ / 4) (lanePut (m.common (at_ / 4)) at_ width ((m.strand k).reg d))).stepStatus k id .ok))

/-- The agent a strand is. -/
def strandAgent (k : Nat) : Agent := .strand (Fin.ofNat 256 k)

/-- What an access leaves at the strand that made it: its status, unless the access reset the chip or freed the strand. -/
def Chip.afterAccess (m : Chip) (k : Nat) (was : Base) (f : Strand → Strand) (st : Status) : Chip :=
  if (m.pwr.base = .boot && was != .boot) || (m.strand k).st = .free then m
  else m.putStrand k ((f (m.strand k)).status st 0)

/-- A device-space access (R102, R116, R154): held while its domain wakes, its activation going on after it (R94). -/
def Chip.deviceAccess (m : Chip) (op k d a imm : Nat) (write : Bool) : Chip :=
  m.issueNext k (kIMM op d a imm) (fun m =>
    let at_ := m.ea k a imm
    m.guarded k (inSpace at_ 4 0x1000000) (fun m =>
      let s := m.strand k
      let h : Held := { ag := strandAgent k, write := write, addr := at_, data := s.reg d, dst := d }
      if m.mustHold h then
        (m.putStrand k { s.counted with st := .waiting, wait := some .access, timeout := 0, waitAt := m.now, keep := true }).hold h
      else
        let was := m.pwr.base
        let m := m.putStrand k { s.counted with pc := m.pcAfter k }
        if write then
          let x := m.busWrite h.ag at_ h.data
          x.1.afterAccess k was id x.2
        else
          let x := m.busRead h.ag at_
          x.1.afterAccess k was (fun s => s.dst d x.2.1) x.2.2))

def Chip.kLdl (m : Chip) (k d a imm : Nat) : Chip := m.localLoad 0x40 4 k d a imm
def Chip.kLdlh (m : Chip) (k d a imm : Nat) : Chip := m.localLoad 0x41 2 k d a imm
def Chip.kLdlb (m : Chip) (k d a imm : Nat) : Chip := m.localLoad 0x42 1 k d a imm
def Chip.kStl (m : Chip) (k d a imm : Nat) : Chip := m.localStore 0x43 4 k d a imm
def Chip.kStlh (m : Chip) (k d a imm : Nat) : Chip := m.localStore 0x44 2 k d a imm
def Chip.kStlb (m : Chip) (k d a imm : Nat) : Chip := m.localStore 0x45 1 k d a imm
def Chip.kLdc (m : Chip) (k d a imm : Nat) : Chip := m.commonsLoad 0x46 4 k d a imm
def Chip.kLdch (m : Chip) (k d a imm : Nat) : Chip := m.commonsLoad 0x47 2 k d a imm
def Chip.kLdcb (m : Chip) (k d a imm : Nat) : Chip := m.commonsLoad 0x48 1 k d a imm
def Chip.kStc (m : Chip) (k d a imm : Nat) : Chip := m.commonsStore 0x49 4 k d a imm
def Chip.kStch (m : Chip) (k d a imm : Nat) : Chip := m.commonsStore 0x4A 2 k d a imm
def Chip.kStcb (m : Chip) (k d a imm : Nat) : Chip := m.commonsStore 0x4B 1 k d a imm
def Chip.kLdd (m : Chip) (k d a imm : Nat) : Chip := m.deviceAccess 0x4C k d a imm false
def Chip.kStd (m : Chip) (k d a imm : Nat) : Chip := m.deviceAccess 0x4D k d a imm true

/-! ### Commons atomics (R105, R155) -/

/-- An atomic: what the word becomes, if it is written, and what else it does to the strand. -/
def Chip.atomic (m : Chip) (w : Word) (k d a : Nat) (new : Strand → Word → Option Word) (f : Strand → Word → Strand)
    (rej : Strand → Strand) : Chip :=
  m.issueNext k w (fun m =>
    let s := m.strand k
    let at_ := (s.reg a).toNat
    m.guarded k (inSpace at_ 4 0x40000) (fun m =>
      if m.vendorArea k at_ then m.stepStatus k (fun s => (rej s).dst d 0) .eauth
      else
        let old := m.common (at_ / 4)
        let m' := match new s old with
          | some x => m.putCommon (at_ / 4) x
          | none => m
        m'.stepStatus k (fun s => (f s old).dst d old) .ok))

def Chip.kCas (m : Chip) (k d a b c : Nat) : Chip :=
  m.atomic (kREG 0x50 d a b c 0) k d a (fun s old => if old = s.reg b then some (s.reg c) else none)
    (fun s old => { s with z := old = s.reg b }) (fun s => { s with z := false })
def Chip.kFadd (m : Chip) (k d a b : Nat) : Chip :=
  m.atomic (kREG 0x51 d a b 0 0) k d a (fun s old => some (old + s.reg b)) (fun s _ => s) id
def Chip.kXchg (m : Chip) (k d a b : Nat) : Chip :=
  m.atomic (kREG 0x52 d a b 0 0) k d a (fun s _ => some (s.reg b)) (fun s _ => s) id

/-! ### Branches and calls (R143, R156) -/

/-- A condition holds (R156). -/
def Strand.holds (s : Strand) (cond : Nat) : Bool :=
  match cond with
  | 0 => true
  | 1 => s.z
  | 2 => !s.z
  | 3 => s.n != s.v
  | 4 => s.n = s.v
  | 5 => !s.z && s.n = s.v
  | 6 => s.z || s.n != s.v
  | 7 => s.c
  | 8 => !s.c
  | 9 => s.n
  | _ => !s.n

/-- The target of a branch, or an offset outside every region where it would lie below 0. -/
def Chip.branchTo (m : Chip) (k off : Nat) : Nat := ((m.strand k).pc + 4 * sxN off 20 + 2 ^ 40 : Int).toNat % 2 ^ 40

def Chip.kBcc (m : Chip) (k cond off : Nat) : Chip :=
  if 0xA < cond then (if m.atWord k (kIMM20 0x60 cond off) then m.undefinedWord k else m)
  else m.kJump k (kIMM20 0x60 cond off) (if (m.strand k).holds cond then m.branchTo k off else m.pcAfter k) id
def Chip.kBl (m : Chip) (k off : Nat) : Chip :=
  m.kJump k (kIMM20 0x61 0 off) (m.branchTo k off) (fun s => s.put 15 (wd (s.pc + 4)))
def Chip.kJr (m : Chip) (k a : Nat) : Chip := m.kJump k (kREG 0x62 0 a 0 0 0) ((m.strand k).reg a).toNat id
def Chip.kRet (m : Chip) (k : Nat) : Chip := m.kJump k (kREG 0x63 0 0 0 0 0) ((m.strand k).reg 15).toNat id

/-! ### Waits, timer and tokens (R106 to R113, R157, R158) -/

/-- A wait: with its condition met it completes at once (R107), else the strand waits at it. -/
def Chip.waitAt (m : Chip) (k : Nat) (w : Word) (cond : Strand → WaitOn) (timeout : Strand → Nat) : Chip :=
  m.issueNext k w (fun m =>
    let s := m.strand k
    let c := cond s
    if m.waitMet k c then
      let m := m.waitTake k c
      m.putStrand k { (m.strand k).counted with pc := m.pcAfter k }
    else
      m.putStrand k { s.counted with st := .waiting, wait := some c, timeout := timeout s, waitAt := m.now, keep := false })

/-- A delay of n µs; 0 completes at once (R158). -/
def Chip.delay (m : Chip) (k : Nat) (w : Word) (n : Strand → Nat) : Chip :=
  m.issueNext k w (fun m =>
    let s := m.strand k
    if n s = 0 then m.putStrand k { (s.status .ok 1).counted with pc := m.pcAfter k }
    else m.putStrand k { s.counted with st := .waiting, wait := some .delay, timeout := n s, waitAt := m.now, keep := false })

/-- The FN byte and the C field of a wait with an optional timeout register. -/
def timeoutFn (c : Option Nat) (low : Nat) : Nat × Nat := match c with
  | some r => (r, 128 + low)
  | none => (0, low)

/-- The timeout of a wait in µs. -/
def Strand.timeoutOf (s : Strand) (c : Option Nat) : Nat := match c with
  | some r => (s.reg r).toNat
  | none => 0

def Chip.kDelay (m : Chip) (k n : Nat) : Chip := m.delay k (kIMM20 0x70 0 n) (fun _ => n % 2 ^ 20)
def Chip.kDelayv (m : Chip) (k a : Nat) : Chip := m.delay k (kREG 0x71 0 a 0 0 0) (fun s => (s.reg a).toNat)

/-- The timer is armed with a period, or stopped by 0 (R110). -/
def Strand.arm (s : Strand) (now n : Nat) : Strand := { s with period := n, timerAt := now }

def Chip.kTimer (m : Chip) (k n : Nat) : Chip := m.kOp k (kIMM20 0x72 0 n) (fun s => s.arm m.now (n % 2 ^ 20))
def Chip.kTimerv (m : Chip) (k a : Nat) : Chip := m.kOp k (kREG 0x73 0 a 0 0 0) (fun s => s.arm m.now (s.reg a).toNat)
def Chip.kWaitt (m : Chip) (k d : Nat) (c : Option Nat) : Chip :=
  let f := timeoutFn c 0
  m.waitAt k (kREG 0x74 d 0 0 f.1 f.2) (fun _ => .tick d) (fun s => s.timeoutOf c)
def Chip.kWaite (m : Chip) (k d line a : Nat) (c : Option Nat) : Chip :=
  let f := timeoutFn c (line % 4)
  m.waitAt k (kREG 0x75 d a 0 f.1 f.2) (fun s => .line (line % 4) (s.reg a) d) (fun s => s.timeoutOf c)
def Chip.kWaitk (m : Chip) (k d a : Nat) (c : Option Nat) : Chip :=
  let f := timeoutFn c 0
  m.waitAt k (kREG 0x76 d a 0 f.1 f.2) (fun s => .token (s.reg a) d) (fun s => s.timeoutOf c)

def Chip.kKpoll (m : Chip) (k d a : Nat) : Chip :=
  m.issueNext k (kREG 0x77 d a 0 0 0) (fun m =>
    let c := WaitOn.token ((m.strand k).reg a) d
    if m.waitMet k c then
      let m := m.waitTake k c
      m.putStrand k { (m.strand k).counted with pc := m.pcAfter k }
    else m.stepStatus k id .ebusy)

/-- A token's entry is released at once; a transaction still outstanding completes for no one (R113). -/
def Chip.dropToken (m : Chip) (k e : Nat) : Chip :=
  let s := m.strand k
  let free := fun (t : Txn) => if t.by_ = .strand k e then { t with by_ := .dropped } else t
  let m := m.putStrand k (s.putTok e { s.tok e with used := false, done := none })
  { m with ptn := { m.ptn with pool := m.ptn.pool.map free } }

def Chip.kKdrop (m : Chip) (k a : Nat) : Chip :=
  m.issueNext k (kREG 0x78 0 a 0 0 0) (fun m =>
    match (m.strand k).tokenEntry ((m.strand k).reg a) with
    | none => m.stepStatus k id .erange
    | some e => (m.dropToken k e).stepStatus k id .ok)

/-! ### Mailboxes (R126, R497 to R503) -/

/-- Whether a strand may use channel c: its group is an end (R126), and in LOCKDOWN the host's strands use none (R503). -/
def Chip.mbxStatus (m : Chip) (k c : Nat) : Status :=
  if (sideOf (.strands (m.strand k).owner (m.strand k).group) c).isNone then .eauth
  else if (m.strand k).owner = .host && m.mode = 0xB then .estate
  else .ok

def Chip.kSend (m : Chip) (k b ch : Nat) : Chip :=
  m.issueNext k (kREG 0x80 0 0 b 0 (ch % 64)) (fun m =>
    let c := ch % 64
    let s := m.strand k
    let st := m.mbxStatus k c
    match sideOf (.strands s.owner s.group) c with
    | some a =>
      if st = .ok then
        let x := m.mbxSend c a (s.reg b)
        x.1.stepStatus k id x.2
      else m.stepStatus k id st
    | none => m.stepStatus k id .eauth)

def Chip.kRecv (m : Chip) (k d ch : Nat) (c : Option Nat) : Chip :=
  let f := timeoutFn c (ch % 64)
  let w := kREG 0x81 d 0 0 f.1 f.2
  if m.mbxStatus k (ch % 64) = .ok then m.waitAt k w (fun _ => .mbox (ch % 64) d) (fun s => s.timeoutOf c)
  else m.issueNext k w (fun m => m.stepStatus k id (m.mbxStatus k (ch % 64)))

/-! ### Loop access (R125, R159) -/

/-- The address of word w of a slot (R30). -/
def loopAddr (s w : Nat) : Nat := 0x700000 + 1024 * s + 4 * w

/-- The first rejection of an access to a slot above 63: EAUTH by class, else ERANGE. -/
def Chip.noSlot (m : Chip) (k : Nat) (write : Bool) : Status :=
  if m.mayClass (m.strand k).owner (if write then 3 else 0) then .erange else .eauth

def Chip.kLrd (m : Chip) (k d a w : Nat) : Chip :=
  m.issueNext k (kREG 0x90 d a 0 0 w) (fun m =>
    let slot := ((m.strand k).reg a).toNat
    if 63 < slot then m.stepStatus k (fun s => s.dst d 0) (m.noSlot k false)
    else
      let m := m.putStrand k { (m.strand k).counted with pc := m.pcAfter k }
      let x := m.busRead (strandAgent k) (loopAddr slot (w % 256))
      x.1.afterAccess k m.pwr.base (fun s => s.dst d x.2.1) x.2.2)

/-- A write of word w of a slot by a strand. -/
def Chip.loopWrite (m : Chip) (k : Nat) (word : Word) (slot addr : Nat) (d : Word) : Chip :=
  m.issueNext k word (fun m =>
    if 63 < slot then m.stepStatus k id (m.noSlot k true)
    else
      let m := m.putStrand k { (m.strand k).counted with pc := m.pcAfter k }
      let x := m.busWrite (strandAgent k) addr d
      x.1.afterAccess k m.pwr.base id x.2)

def Chip.kLwr (m : Chip) (k b a w : Nat) : Chip :=
  let slot := ((m.strand k).reg a).toNat
  m.loopWrite k (kREG 0x91 0 a b 0 w) slot (loopAddr slot (w % 256)) ((m.strand k).reg b)
def Chip.kLsp (m : Chip) (k b a : Nat) : Chip :=
  let slot := ((m.strand k).reg a).toNat
  m.loopWrite k (kREG 0x92 0 a b 0 0) slot (loopAddr slot 2) ((m.strand k).reg b)

/-- lcmt: the commit of one block, as a write of CLE_COMMIT by the owner's port (R231). -/
def Chip.kLcmt (m : Chip) (k a blk : Nat) : Chip :=
  let slot := ((m.strand k).reg a).toNat
  m.loopWrite k (kREG 0x93 0 a 0 0 (blk % 8)) slot (RName.cleCommit.addr 0) (wd (slot + 2 ^ (blk % 8) * 256))

/-! ### Partner transactions (R111, R112, R161) -/

/-- The status an issue would complete with at once, `ok` if none (R161): first the authority of the owner's port and the
entry's owner mask, then the range, then mode and state (R49, R116). -/
def Chip.issueJudge (m : Chip) (k : Nat) (kind : TxKind) (e item : Nat) (desc : Word) : Status :=
  let o := (m.strand k).owner
  let read := kind = .read || kind = .blkr
  let st :=
    if e ≤ 4095 then m.issueStatus o kind e item desc
    else if kind = .blkr && o != .vendor && touchesVendor desc then .eauth
    else .erange
  let shut := o = .host && (m.mode = 0xB || (m.mode = 0x9 && !read))
  if !m.mayClass o (if read then 0 else 1) then .eauth
  else if st = .eauth || st = .erange then st
  else if shut then .estate
  else st

/-- A partner instruction: it takes a token entry, and issues or completes at once (R112). -/
def Chip.partner (m : Chip) (w : Word) (k d a b item : Nat) (kind : TxKind) : Chip :=
  m.issueNext k w (fun m =>
    let s := m.strand k
    match s.freeTok with
    | none => m.stepStatus k (fun s => s.dst d 0xFFFFFFFF) .efull
    | some i =>
      let e := (s.reg a).toNat
      let st := m.issueJudge k kind e (item % 4096) (s.reg b)
      let serial := ((s.tok i).serial + 1) % 4096
      let done := if st = .ok then none else some (st, 0)
      let m := m.stepStatus k (fun s => (s.putTok i { used := true, dropped := false, serial := serial, done := done }).dst d
        (tokenWord serial i)) .ok
      if st = .ok then m.issue kind (.strand k i) e (item % 4096) (s.reg b).toNat (s.reg b)
      else if st = .efull then m.efullCount
      else m.countEauth k st)

def Chip.kPread (m : Chip) (k d a item : Nat) : Chip := m.partner (kPTR 0xA0 d a 0 item) k d a 0 item .read
def Chip.kPwrite (m : Chip) (k d a b item : Nat) : Chip := m.partner (kPTR 0xA1 d a b item) k d a b item .write
def Chip.kPcmd (m : Chip) (k d a item : Nat) : Chip := m.partner (kPTR 0xA2 d a 0 item) k d a 0 item .cmd
def Chip.kPblkr (m : Chip) (k d a b item : Nat) : Chip := m.partner (kPTR 0xA3 d a b item) k d a b item .blkr
def Chip.kPblkw (m : Chip) (k d a b item : Nat) : Chip := m.partner (kPTR 0xA4 d a b item) k d a b item .blkw
def Chip.kPsetp (m : Chip) (k d a b item : Nat) : Chip := m.partner (kPTR 0xA5 d a b item) k d a b item .setp

/-! ### Records (R127) -/

/-- The record allowance that an owner has used at this moment, in µs of the average rate. -/
def Chip.recLevel (m : Chip) (o : Owner) : Nat :=
  let i := Owner.code o
  NTab.get 0 m.lay.recUsed i - (m.now - NTab.get 0 m.lay.recAt i)

def Chip.kRec (m : Chip) (k code : Nat) : Chip :=
  m.issueNext k (kIMM 0xB0 0 0 code) (fun m =>
    let s := m.strand k
    let i := Owner.code s.owner
    let u := m.recLevel s.owner + 31250
    if 64 * 31250 < u then (m.bump .layRecdrop 0 15 0 1).stepStatus k id .efull
    else
      let m : Chip := { m with lay := { m.lay with recUsed := NTab.set 0 m.lay.recUsed i u, recAt := NTab.set 0 m.lay.recAt i m.now } }
      let r : Rec := { kind := 3, source := 0x100 + k, code := code % 65536, inst := 0, sev := 0, stamp := m.now,
                       payload := (List.range 8).map s.reg }
      (m.enqueue r none).stepStatus k id .ok)

end Sys2Proof.Machine
end

