-- ==== Sys2Proof/Machine/Profile.lean ====
section
/-!
DEFINITION. What the library does at the Basic level (R19, R87, R200, R201, R252, R255, R271, R290, R291, R340, R380, R425, R459): the profiles
of the blocks and the vendor chains that it derives from them.
-/

namespace Sys2Proof.Machine

/-! ### Register values (R19) -/

/-- A tone of CNV_PERT_TONE: its frequency in 0.1 Hz and its amplitude in 0.01 %. -/
def toneWord (f amp : Nat) : Word := wd (f + amp * 65536)

/-- The default tones of EST's profile (R425). -/
def defaultTone (t : Nat) : Word :=
  match t with
  | 0 => toneWord 5 25
  | 1 => toneWord 50 25
  | 2 => toneWord 500 25
  | 3 => toneWord 5000 25
  | _ => 0

/-- The vendor policy slots, as the bits of SPL_CMPi (R598). -/
def Chip.polSlots (m : Chip) (i : Nat) : Word :=
  if m.vendorBuilt then
    wd (([m.rslot, m.bslot] ++ m.dslot.toList).foldl (fun a s => if s / 32 = i then setM a (s % 32) else a) 0)
  else 0

/-- The image gives a register a value. -/
def Chip.profHas (m : Chip) (r : RName) (i : Nat) : Bool := m.vend.regs.any (fun e => e.1 = (r, i))

/-- The word that the image gives a register, else its reset value. -/
def Chip.imageWord (m : Chip) (r : RName) (i : Nat) : Word :=
  match m.vend.regs.find? (fun e => e.1 = (r, i)) with
  | some e => e.2
  | none => resetWord (r, i)

/-- A percentage of ICC to the nearest, for a charge current that the image leaves at 0 (R397). -/
def ofIcc (icc pct own : Nat) : Nat := if own = 0 then (2 * icc * pct + 100) / 200 else own

/-- The value that the profile gives a register: the image's, else the default, which the reset value holds but for the tones,
the injection that they need, the compared slots, the hails (R482), the captures (R623) and the charge currents that follow ICC (R397). -/
def Chip.profWord (m : Chip) (r : RName) (i : Nat) : Word :=
  let w := m.imageWord r i
  let icc := bits (m.imageWord .batStrIchg i) 15 0
  match r with
  | .batStrIchg => wd (icc + ofIcc icc 10 (bits w 31 16) * 65536)
  | .batStrIlim => wd (ofIcc icc 2 (bits w 15 0) + ofIcc icc 3 (bits w 31 16) * 65536)
  | .cnvPertTone => if m.profHas r i then w else defaultTone i
  | .cnvPertCfg => if m.profHas r i then w else 1
  | .splCmp => if m.profHas r i then w else m.polSlots i
  | .twbNCfg => if m.profHas r i then w else w ||| 8
  | .rcdCapCfg => if m.profHas r i then w else 0x08000002
  | _ => w

/-- The bits of a register that its block's printed profile covers. What the profile does not print keeps its value, and so do the
trims that a calibration finds (R173, R350). Step tables, masks and slots are built apart from their words. -/
def profMask (r : RName) : Word :=
  match r with
  | .busCfg | .shareCfg | .shareTrim | .srcCfg | .hoCfg | .hoLev | .hoRet | .capCfg | .capSoc | .shedCfg => wd r.row.wmask
  | .acqAcmCfg | .acqAcmCh | .acqAcmNom | .acqWcCfg | .acqWcLim | .acqWcHyst => wd r.row.wmask
  | .acqAcmSag | .acqAcmSwell => 0xFF
  | .cnvXCfg => 0xFFFF0008
  | .cnvXPer | .cnvXDt | .cnvXDlim | .cnvXScale | .cnvXIlim | .cnvXSs | .cnvXHic | .cnvXVtgt | .cnvXVch | .cnvXVfs => wd r.row.wmask
  | .cnvXSlow => 0x00FFFFFF
  | .cnvXDe | .cnvSync => 1
  | .cnvPertCfg | .cnvPertTone => wd r.row.wmask
  | .brnNCfg | .brnNScale | .brnNTrip | .brnNLim | .brnNInr | .brnNTmr | .brnNRetry | .brnNThm => wd r.row.wmask
  | .batCfg => 0xFF0E
  | .batChgVreg | .batChgVphase | .batChgVlim | .batChgVtop | .batChgPulse | .batChgTmr | .batTwin | .batTred | .batStrCfg | .batStrScale
  | .batStrIchg | .batStrIlim | .batStrOc => wd r.row.wmask
  | .estConf | .estErr | .estZcfg | .estStepcfg | .estCapcfg | .estStorecfg | .estOcv | .estStrCnom => wd r.row.wmask
  | .ptnCfg => 0xFFFF00
  | .ptnTelCfg => wd r.row.wmask
  | .twbNCfg | .twbNTmo | .twbTgtCfg => wd r.row.wmask
  | .slkNCfg | .slkNPlca | .slkNErr => wd r.row.wmask
  | .hstCfg => 0xC
  | .thmClkCfg => 0x3F00FF0F
  | .thmFuncCfg | .thmFuncMask | .thmSCfg | .thmSNtc | .thmSThr | .thmSHyst => wd r.row.wmask
  | .fltSrc => 7
  | .splCfg => 0xFFFFF02
  | .splTrig | .splDiv | .splCmp => wd r.row.wmask
  | .rcdCapCfg | .rcdCapPace | .rcdCapSrc0 | .rcdCapSrc1 => wd r.row.wmask
  | .cleCfg => 0x7F00
  | .layCfg => 0x1FFF0
  | _ => 0

/-- The bits of a register for which the printed profile has no default: an image without them leaves them as they are (DESIGN CHOICE,
log entry 64). -/
def profNeeds (r : RName) : Word :=
  match r with
  | .brnNScale | .batStrScale | .batStrIchg | .batStrIlim | .estStrCnom | .estOcv => wd r.row.wmask
  | .batCfg => 0xFF00
  | .batStrCfg => 0x1FFF7F
  | _ => 0

/-- The bits of a register that the library writes. -/
def Chip.profBits (m : Chip) (r : RName) (i : Nat) : Word :=
  if m.profHas (if r = .batStrIlim then .batStrIchg else r) i then profMask r else profMask r &&& ~~~profNeeds r

/-- The registers of a block that its profile may have to write: those that the image gives a value, those whose default is another than
the reset value, and those that do not stand at their reset value. -/
def Chip.profKeys (m : Chip) (b : Blk) : List (RName × Nat) :=
  let own : List (RName × Nat) := [(.cnvPertTone, 0), (.cnvPertTone, 1), (.cnvPertTone, 2), (.cnvPertTone, 3), (.cnvPertCfg, 0),
    (.splCmp, 0), (.splCmp, 1)] ++ (List.range 16).map (fun n => (.twbNCfg, n)) ++ (List.range 8).map (fun n => (.rcdCapCfg, n)) ++
     (List.range 4).map (fun n => (.batStrIlim, n))
  let all := List.map (fun (e : (RName × Nat) × Word) => e.1) m.regs ++ m.vend.regs.map (fun e => e.1) ++ own
  (all.filter (fun (q : RName × Nat) => q.1.blk = some b && profMask q.1 != 0)).eraseDups

/-- The library writes one register with its profile's value. R19 applies the full profile, so no running unit turns the write away
(DEDUCED, log entry 64); a block at the Expert level and a lock do (R17, R659). -/
def Chip.profileReg (m : Chip) (r : RName) (i : Nat) : Chip :=
  let x := m.profBits r i
  let d := (m.get r i &&& ~~~x) ||| (m.profWord r i &&& x)
  if d = m.get r i || m.libIdle .lib r || m.lockShuts r d then m else ((m.regAct .lib r i d).eff m).1

/-- A register's word is one that its block accepts. -/
def Chip.inBounds (m : Chip) (r : RName) (i : Nat) : Bool := inRanges r (m.get r i) && !(m.regAct .lib r i (m.get r i)).v.erange

/-- The register part of a block's profile, and whether every value lies in its bounds once all have been written. -/
def Chip.profileRegs (m : Chip) (b : Blk) : Chip × Bool :=
  let ks := m.profKeys b
  let m := ks.foldl (fun m q => m.profileReg q.1 q.2) m
  (m, ks.all (fun q => m.inBounds q.1 q.2))

/-- The register part of the profile of a block that names no fault for a bad one: such a profile is not applied (DESIGN CHOICE, log
entry 64). -/
def Chip.basicRegs (m : Chip) (b : Blk) : Chip :=
  let q := m.profileRegs b
  if q.2 then q.1 else m

/-- Some value that the image gives a register of a block is not 0 in a field. -/
def Chip.profGives (m : Chip) (r : RName) (i hi lo : Nat) : Bool := bits (m.profWord r i) hi lo != 0

/-! ### The sequencer (R87) -/

/-- A time in µs as a unit and a count (R71). -/
def timeField (t : Nat) : Nat × Nat :=
  if t < 4096 then (0, t) else if t / 10 < 4096 then (1, t / 10) else if t / 1000 < 4096 then (2, t / 1000) else (3, min 4095 (t / 10000))

/-- The words of a step: TYPE, TARGET, a qualification or a duration, and a timeout. The profile gives steps no policy of their own: HALT,
and a timeout of 10 s (DESIGN CHOICE, log entry 64). -/
def stepWords (type target q t : Nat) : Word × Word :=
  let a := timeField q
  let b := timeField t
  (wd (type * 2 ^ 28 + target * 2 ^ 23 + a.1 * 2 ^ 20 + a.2 * 256), wd (b.1 * 2 ^ 20 + b.2 * 256))

/-- The group after which reset output n is released: the last that has rails unless the profile says otherwise. -/
def Chip.releaseGroup (m : Chip) (n : Nat) : Nat :=
  (NTab.get none m.vend.release n).getD ((m.vend.rails.map (fun r => r.group)).foldl max 0)

/-- The steps of the profile, group by group: the rails of a group are enabled together, in the order of the profile, and then waited for,
the reset outputs of the group follow, and a delay before the next group that has steps (the order is a DESIGN CHOICE, log entry 64). -/
def Chip.profSteps (m : Chip) : List (Word × Word) :=
  let v := m.vend
  let outs := fun (g : Nat) => (List.range 4).filter (fun n => m.releaseGroup n = g)
  let last := (List.range 8).foldl (fun a g => if v.rails.any (fun r => r.group = g) || !(outs g).isEmpty then g else a) 0
  if v.rails.isEmpty then []
  else
    (List.range 8).flatMap (fun g =>
      let rs := v.rails.filter (fun r => r.group = g)
      if rs.isEmpty && (outs g).isEmpty then []
      else
        rs.map (fun r => stepWords 1 r.rail 0 0) ++ rs.map (fun r => stepWords 2 r.rail r.qual 10000000) ++
          (outs g).map (fun n => stepWords 6 n 0 10000000) ++
          (if v.gap != 0 && g < last then [stepWords 3 0 v.gap 0] else []))

/-- A register takes a word of the library's where it holds another. -/
def Chip.libPut (m : Chip) (r : RName) (i : Nat) (d : Word) : Chip := if m.get r i = d then m else m.put r i d

/-- The library builds the step table and the rails' discharge timeouts from the profile (R87): with no rails, the table is empty. -/
def Chip.profSeq (m : Chip) : Chip :=
  let ss := m.profSteps
  let m := (List.range 64).foldl (fun m n =>
    let w := ss.getD n (0, 0)
    (m.libPut .seqStepTmo n w.2).libPut .seqStepCtl n w.1) m
  (List.range 24).foldl (fun m n =>
    let t := timeField (((m.vend.rails.find? (fun r => r.rail = n)).map (fun r => r.disch)).getD 100000)
    m.libPut .seqRailCfg n (setBits (setBits (m.get .seqRailCfg n) 21 20 t.1) 19 8 t.2)) m

/-! ### Acquisition (R200, R201) -/

/-- A converter's channels as the library assigns them, with their least rates. -/
abbrev CvLoad := List (Nat × Nat)

/-- DIV of a converter: 1, or what keeps the AC monitor's channels at 1.25 MS/s at most (R190). -/
def profDiv (n : Nat) (acm : Bool) : Nat := if acm && n < 4 then (if n = 1 then 4 else 2) else 1

/-- A converter that scans n channels can meet a least rate: 5 MS/s shared and divided (R166). -/
def cvMeets (n div rate : Nat) : Bool := rate * n * div ≤ 5000000

/-- Channels by falling least rate. -/
def byRate (cs : CvLoad) : CvLoad :=
  cs.foldl (fun l c => l.takeWhile (fun x => c.2 ≤ x.2) ++ c :: l.dropWhile (fun x => c.2 ≤ x.2)) []

/-- Channels by falling rate, shared among converters: each takes as many as its fastest one allows, and fewer converters could not carry
them, since a converter's channels all wait for its fastest one. None where they do not fit. -/
def cvFill (k : Nat) (cs : CvLoad) : Option (List CvLoad) :=
  match k, cs with
  | _, [] => some (List.replicate k [])
  | 0, _ => none
  | k + 1, c :: t =>
    let n := if c.2 = 0 then cs.length else 5000000 / c.2
    (cvFill k (t.drop (n - 1))).map (fun ls => (c :: t.take (n - 1)) :: ls)

/-- The AC monitor's channels as the profile names them: each at 50 kS/s at least, and all in one converter (R190). -/
def Chip.profAcm (m : Chip) : CvLoad :=
  let w := m.profWord .acqAcmCh 0
  let n := bits (m.profWord .acqAcmCfg 0) 2 1
  (if n = 3 then [bits w 6 0, bits w 14 8, bits w 22 16] else if n = 1 then [bits w 6 0] else []).map (fun c => (c, 50000))

/-- The loads of k converters: the AC monitor's channels with n channels in all in the first, which then takes the fastest others that its
rate allows, and the rest shared among the others. -/
def cvWith (k n : Nat) (acm slow : CvLoad) : Option (List CvLoad) :=
  let d := profDiv n true
  let mine := (slow.filter (fun c => cvMeets n d c.2)).take (n - acm.length)
  if acm.length + mine.length = n && acm.all (fun c => cvMeets n d c.2) then
    (cvFill (k - 1) (slow.filter (fun c => !mine.contains c))).map (fun ls => (acm ++ mine) :: ls)
  else none

/-- The assignment of R200: channels above 5 MS/s take an interleaved pair each, the AC monitor's channels converter 0 with as few others
as the rest allows, and the others a converter with room (DESIGN CHOICE, log entry 64). Answers the pairs' channels and the four loads, or
none if the rates cannot all be met (R201). -/
def Chip.profScan (m : Chip) : Option (List Nat × List CvLoad) :=
  let acm := m.profAcm
  let cs := m.vend.chans.filter (fun c => !acm.any (fun a => a.1 = c.1))
  let fast := (cs.filter (fun c => 5000000 < c.2)).map (fun c => c.1)
  let slow := byRate (cs.filter (fun c => c.2 ≤ 5000000))
  let acm := acm.map (fun a => (a.1, m.vend.chans.foldl (fun r c => if c.1 = a.1 then max r c.2 else r) a.2))
  let k := 4 - 2 * fast.length
  if 2 < fast.length || cs.any (fun c => 10000000 < c.2) then none
  else
    let all := if acm.isEmpty then cvFill k slow
      else if k = 0 then none
      else (List.range (slow.length + 1)).findSome? (fun j => cvWith k (acm.length + j) acm slow)
    all.map (fun ls => (fast, ls ++ List.replicate (4 - ls.length) []))

/-- The library starts or stops a converter. -/
def Chip.libRun (m : Chip) (n : Nat) (on : Bool) : Chip :=
  if m.cvRuns n = on then m
  else
    let old := m
    let m := m.putF .acqCvCfg n 0 0 (b2n on)
    (if on then m.convStarts n else m.convStops n).loopSources old

/-- The library assigns the channels (R200): pairs from the last downward, the masks and DIV of the converters, which run where they have
channels. A running converter takes its mask and DIV at its next scan boundary (R167); a pair that changes is stopped for it (R171). -/
def Chip.profAcq (m : Chip) (fast : List Nat) (ls : List CvLoad) : Chip :=
  let m := (List.range 2).foldl (fun m p =>
    let w := if p + fast.length < 2 then m.get .acqIlvCfg p &&& ~~~1 else wd (1 + fast.getD (1 - p) 0 * 256 + 65536)
    if m.get .acqIlvCfg p = w then m else ((m.libRun (2 * p) false).libRun (2 * p + 1) false).put .acqIlvCfg p w) m
  let m := (List.range 4).foldl (fun m n =>
    let l := ls.getD n []
    let mask := l.foldl (fun a c => setM a c.1) 0
    let m := (List.range 3).foldl (fun m k => m.libPut .acqCvMask (3 * n + k) (wd (mask / 2 ^ (32 * k) % 2 ^ 32))) m
    m.putF .acqCvCfg n 15 8 (profDiv l.length (n = 0 && !m.profAcm.isEmpty))) m
  (List.range 4).foldl (fun m n => m.libRun n (!(ls.getD n []).isEmpty || (m.ilvEn (n / 2) && n % 2 = 0))) m

/-- ACQ's profile: applied whole, or not at all with ACM_CONFIG (R201). The scan and the monitor's channels come first, since its EN asks for
them (R190). -/
def Chip.basicAcq (m : Chip) : Chip :=
  let bad := m.raise 34 0 []
  match m.profScan with
  | none => bad
  | some (fast, ls) =>
    let m := [RName.acqAcmCh, .acqAcmNom, .acqAcmSag, .acqAcmSwell].foldl (fun m r =>
      m.libPut r 0 ((m.get r 0 &&& ~~~profMask r) ||| (m.profWord r 0 &&& profMask r))) m
    let q := (m.profAcq fast ls).profileRegs .acq
    if q.2 then q.1.acmCheck else bad

/-! ### Chains -/

/-- A block's words: DESC, SRC and the PARAMs; those left out are 0. -/
abbrev BlkWords := List Word

/-- A source word (R216). -/
def srcWord (kind index : Nat) : Word := wd (kind * 2 ^ 20 + index)

/-- Q8.24 of a quotient of whole numbers, saturated; a divisor of 0 saturates it (DEDUCED from R210, log entry 64). -/
def ratioW (a b : Int) : Word := if b ≤ 0 then wdI (if a < 0 then -2147483648 else 2147483647) else wdI (qSat (rdiv (a * q1) b))

/-- A slot's staged words: the trigger, SP and its slew, and the blocks. -/
def Chip.stageChain (m : Chip) (s tindex decim : Nat) (sp slew : Word) (bs : List BlkWords) : Chip :=
  let m := ((m.putLw s 1 (wd (tindex + decim * 2 ^ 20))).putLw s 2 sp).putLw s 3 slew
  (List.range bs.length).foldl (fun m k =>
    (List.range 18).foldl (fun m j => m.putLw s (blkWord k j) ((bs.getD k []).getD j 0)) m) m

/-- The library runs a chain (R252): none where RUN would be refused. Its priority is the highest (DESIGN CHOICE, log entry 64). -/
def Chip.runChainLib (m : Chip) (s tkind tindex decim : Nat) (sp slew : Word) (bs : List BlkWords) : Option Chip :=
  let m := m.stageChain s tindex decim sp slew bs
  let ctl := wd (1 + 3 * 16 + (bs.length - 1) * 256 + tkind * 4096)
  let m : Chip := { m with cle := { m.cle with lib := setM m.cle.lib s } }
  if m.runRange s ctl && m.runState s ctl then
    let r := m.slotRun s ctl
    if r.2 = .ok then some r.1 else none
  else none

/-- The slot that the library takes next: from slot 63 downward, one that is STOPPED (R252). -/
def Chip.nextSlot (m : Chip) : Option Nat := ((List.range 64).reverse).find? (fun s => (m.lslot s).st = .stopped)

/-- A chain that the library holds is taken down before it is built anew. -/
def Chip.dropChain (m : Chip) (s : Nat) : Chip := if m.libSlot s && (m.lslot s).st = .armed then m.loopStop s else m

/-- DECIM for a channel of some rate to trigger at `hz`, to the nearest. -/
def Chip.decimFor (m : Chip) (c hz : Nat) : Nat :=
  let r := m.chRate c
  min 255 (max 1 ((2 * r.1 + r.2 * hz) / (2 * r.2 * hz)))

/-- KP of R290 in Q8.24: 2π × fc × C × V ÷ I, for Hz, µF, 10 mV and 0.1 A. -/
def loopKp (fc cap v i : Nat) : Int :=
  if i = 0 then 2147483647 else qSat (rdiv (2 * fxPi * ((fc * cap * v : Nat) : Int) * q1) (fx1 * 10000000 * (i : Int)))

/-- KIS for an integral zero at fc ÷ 5 (R290), at hz.1 ÷ hz.2 samples per second. -/
def loopKis (kp : Int) (fc : Nat) (hz : Nat × Nat) : Int := qSat (rdiv (kp * 2 * fxPi * (fc : Int) * hz.2) (5 * (hz.1 : Int) * fx1))

/-- The sample rate of a chain that a channel triggers for `hz`. -/
def Chip.chainHz (m : Chip) (c hz : Nat) : Nat × Nat := ((m.chRate c).1, (m.chRate c).2 * m.decimFor c hz)

/-- A first-order low-pass at f Hz (R290): FILTER's words. -/
def lowPass (f : Nat) (hz : Nat × Nat) : BlkWords :=
  let a := rdiv (fxExpNeg ((2 * fxPi * ((f * hz.2 * 2 ^ 32 : Nat) : Int)) / ((hz.1 : Int) * fx1)).toNat * q1) fx1
  [2, 0, wdI (q1 - a), 0, 0, wdI (-a), 0]

/-- 1 per-unit per ms, in Q8.24 per sample. -/
def perMs (hz : Nat × Nat) : Word := wdI (rdiv (q1 * 1000 * hz.2) hz.1)

/-- INPUT of a channel with a gain. -/
def inputBlk (ch : Nat) (gain : Word) : BlkWords := [1, srcWord 3 ch, 0, gain]

/-- PID on SPACT with AWM 0b01. -/
def pidBlk (kp kis : Int) (imin imax : Int) : BlkWords := [4 + 1 * 65536, srcWord 1 0, wdI kp, wdI kis, 0, 0, wdI imin, wdI imax]

/-- The PREDICT block of R271: DET 0, KICK 1, VEQ ÷ NOM against 1.0. -/
def predictBlk (kpr : Int) (hz : Nat × Nat) (confw egain : Nat) : BlkWords :=
  [8 + 2 * 65536, srcWord 6 0, 0, wdI kpr, wdI q1, perMs hz, wd confw,
    wdI (rdiv (fxExpNeg (50 * hz.2 * 2 ^ 32 / hz.1) * q1) fx1), 0, wdI q1, srcWord 2 0, wd egain]

/-! ### The policy's chains (R255, R271, R290) -/

/-- Rates of the vendor chains. -/
def rslotHz : Nat := 10000
def bslotHz : Nat := 50000

/-- The rates of RSLOT and BSLOT: what their trigger gives nearest to 10 kHz and 50 kHz. -/
def Chip.rslotRate (m : Chip) : Nat × Nat := m.chainHz ((m.vend.pol.bus.map (fun b => b.ch)).getD 0) rslotHz
def Chip.bslotRate (m : Chip) : Nat × Nat := m.chainHz ((m.vend.pol.bus.map (fun b => b.ch)).getD 0) bslotHz

/-- RSLOT's PID and PREDICT follow the online rectifier capacity (R271, R290). -/
def Chip.rslotPid (m : Chip) (c : Nat) : BlkWords :=
  let kp := loopKp m.vend.pol.fRect c (m.fld .busCfg 0 15 0) m.rectCap
  pidBlk kp (loopKis kp m.vend.pol.fRect m.rslotRate) (-q1) q1

/-- EGAIN of RSLOT's PREDICT. -/
def Chip.rslotEgain (m : Chip) : Nat := m.fld .busCfg 0 15 0 * m.rectCap

/-- RSLOT's blocks (R255). -/
def Chip.rslotBlocks (m : Chip) (bus : ChanFs) (c entry : Nat) : List BlkWords :=
  [inputBlk bus.ch (ratioW bus.fs (m.fld .busCfg 0 15 0)), lowPass 1000 m.rslotRate, m.rslotPid c,
   [5 + 1 * 65536, srcWord 5 0x3C0, 0, wdI q1, perMs m.rslotRate],
   predictBlk (-(m.vend.pol.kpr : Int)) m.rslotRate m.vend.pol.confw m.rslotEgain,
   [9, 0, wd (6 * 2 ^ 24 + entry), 0x100, wdI q1, 0, 0, wdI q1, 0, 2, wdI (rdiv (2 * q1) 1000), perMs m.rslotRate]]

/-- The battery converter's rated current in 0.1 A. -/
def Chip.bcvRated (m : Chip) : Nat := m.fld .cnvXScale 0 15 0

/-- DSLOT's blocks (R255). -/
def Chip.dslotBlocks (m : Chip) (load rect : ChanFs) : List BlkWords :=
  [inputBlk load.ch (ratioW load.fs m.bcvRated), [6, srcWord 3 rect.ch, ratioW (-(rect.fs : Int)) m.bcvRated],
   [5, 0, 0, wdI q1], [9, 0, 0, 0, wdI q1, 0, 0, wdI q1]]

/-- BSLOT's blocks (R255), with DSLOT's number while it is present. -/
def Chip.bslotBlocks (m : Chip) (bus : ChanFs) (c : Nat) (d : Option Nat) : List BlkWords :=
  let p := m.vend.pol
  let v := m.fld .busCfg 0 15 0
  let kp := loopKp p.fBat c v m.bcvRated
  [inputBlk bus.ch (ratioW bus.fs v), lowPass 5000 m.bslotRate] ++
   (match p.notch with
    | some n => [[3, 0, wd n.1, wd n.2.1, n.2.2]]
    | none => []) ++
   [pidBlk kp (loopKis kp p.fBat m.bslotRate) (-q1) q1] ++
   (match d with
    | some s => [[6, srcWord 4 s, wdI q1]]
    | none => []) ++
   [[5 + 2 * 65536, 0, wdI (-q1), wdI q1, 0, srcWord 4 (m.fld .batChgSlot 0 5 0)],
    predictBlk p.kpr m.bslotRate p.confw (v * m.bcvRated),
    [9 + 1 * 65536, 0, wd (2 ^ 24), 0, wdI q1, 0, wdI (-q1), wdI q1, 0, 0, 0, perMs m.bslotRate]]

/-- A channel is a differential one (R163). -/
def Chip.diffChannel (m : Chip) (c : Nat) : Bool := c < 64 && c % 2 = 0 && m.flag .acqDiff 0 (c / 2)

/-- The policy's profile is complete and within its ranges (R290, R291): the bus on an AIN channel, the currents on differential ones. -/
def Chip.polProfOk (m : Chip) : Bool :=
  let p := m.vend.pol
  [p.load, p.rect].all (fun o => o.all (fun c => m.diffChannel c.ch)) &&
  (match p.bus, p.cap, p.share with
   | some b, some c, some e => b.ch < 64 && m.chExists b.ch && 5000 ≤ b.fs && b.fs ≤ 60000 && 100 ≤ c && c ≤ 1000000 && e < 4096
   | _, _, _ => false) &&
  50 ≤ p.fBat && p.fBat ≤ 2000 && 10 ≤ p.fRect && p.fRect ≤ 500 && p.kpr ≤ 67108864 && 100 ≤ p.confw && p.confw ≤ 100000 &&
  (match p.notch with
   | some n => 100000 ≤ n.1 && n.1 ≤ 10000000
   | none => true)

/-- The three chains, built and running, with PWRM_POL_SLOT (R255): none where one of them cannot run. -/
def Chip.polChains (m : Chip) : Option Chip :=
  match m.vend.pol.bus, m.vend.pol.cap, m.vend.pol.share with
  | some bus, some c, some e =>
    let m := if m.vendorBuilt then ([m.rslot, m.bslot] ++ m.dslot.toList).foldl (fun m s => m.dropChain s) m else m
    m.nextSlot.bind (fun r =>
      (m.runChainLib r 2 bus.ch (m.decimFor bus.ch rslotHz) (wdI q1) 0 (m.rslotBlocks bus c e)).bind (fun m =>
        let built : Option (Chip × Option Nat) := match m.vend.pol.load, m.vend.pol.rect with
          | some l, some i =>
            m.nextSlot.bind (fun d =>
              (m.runChainLib d 2 l.ch (m.decimFor l.ch bslotHz) 0 0 (m.dslotBlocks l i)).map (fun m => (m, some d)))
          | _, _ => some (m, none)
        built.bind (fun q =>
          q.1.nextSlot.bind (fun b =>
            let run := match q.2 with
              | some d => q.1.runChainLib b 5 d 1 (wdI q.1.backSp) 0 (q.1.bslotBlocks bus c q.2)
              | none => q.1.runChainLib b 2 bus.ch (q.1.decimFor bus.ch bslotHz) (wdI q.1.backSp) 0 (q.1.bslotBlocks bus c q.2)
            run.map (fun m => m.put .polSlot 0 (wd (r + b * 256 + q.2.getD 0 * 65536 + b2n q.2.isSome * 2 ^ 24)))))))
  | _, _, _ => none

/-- The policy's profile: applied whole, or not at all with POL_CONFIG (R291). -/
def Chip.basicPol (m : Chip) : Chip :=
  let bad := m.raise 42 0 []
  if !m.polProfOk then bad
  else
    let q := m.profileRegs .pol
    if !q.2 || !shareOk (q.1.get .shareCfg 0) (q.1.get .busCfg 0) then bad
    else
      let m := q.1.put .shareEntry 0 (wd (m.vend.pol.share.getD 0))
      let m : Chip := { m with pol := { m.pol with profOk := true } }
      m.polChains.getD bad

/-- The capacity has changed: the library derives RSLOT's gains anew and commits them (R271, R290). KPR stays as the policy has it. -/
def Chip.capDerive (m old : Chip) : Chip :=
  if m.rectCap = old.rectCap || m.expert .pol || !m.vendorBuilt || !m.libSlot m.rslot then m
  else
    match m.vend.pol.cap with
    | some c =>
      let s := m.rslot
      let m := (List.range 18).foldl (fun m j => m.putLw s (blkWord 2 j) ((m.rslotPid c).getD j 0)) m
      (m.putLw s (blkWord 4 11) (wd m.rslotEgain)).commit s 0b10100
    | none => m

/-! ### Charging and the converters (R340, R380) -/

/-- CSLOT's blocks (R380). The gains of its PID are not stated: open values (log entry 64). -/
def Chip.cslotBlocks (m : Chip) : List BlkWords :=
  [inputBlk (m.fld .cnvXVch 0 14 8) (ratioW (-(m.fld .cnvXVfs 0 31 16 : Int)) (m.ncell * 500)),
   pidBlk (wd (Config.free m.fresh)).toInt (wd (Config.free (m.fresh + 1))).toInt (-q1) 0,
   [5 + 2 * 65536, 0, wdI (-q1), 0, 0, srcWord 5 0x3C1], [9, 0, 0, 0, wdI q1, 0, wdI (-q1)]]

/-- BAT's profile with the charge chain (R380): built where the cells per string are known. -/
def Chip.basicBat (m : Chip) : Chip :=
  let m := m.basicRegs .bat
  if m.ncell = 0 then m
  else
    let bs := m.cslotBlocks
    let m := { m with fresh := m.fresh + 2 }
    let s := m.fld .batChgSlot 0 5 0
    let m := m.when m.bat.chain (fun m => m.dropChain s)
    match m.nextSlot with
    | some n =>
      match m.runChainLib n 1 1000 1 (m.lw n 2) (m.lw n 3) bs with
      | some c => ({ c.put .batChgSlot 0 (wd n) with bat := { c.bat with chain := true } } : Chip).chgCompute
      | none => { m with bat := { m.bat with chain := false } }
    | none => { m with bat := { m.bat with chain := false } }

/-- A stage's required parameters are given, within their ranges (R340): its currents, its channels with their volts at full scale, and
its target; for the AXC its bus too. -/
def Chip.cnvGiven (m : Chip) (x : Nat) : Bool :=
  m.profHas .cnvXVch x && m.profGives .cnvXScale x 15 0 && m.profGives .cnvXScale x 31 16 && 100 ≤ bits (m.profWord .cnvXVfs x) 15 0 &&
    100 ≤ bits (m.profWord .cnvXVfs x) 31 16 && m.profGives .cnvXVtgt x 15 0 &&
    (x = 0 || (m.vend.axcCap.any (fun c => 10 ≤ c && c ≤ 100000) && m.vend.axcV.any (fun v => 300 ≤ v && v ≤ 6000) &&
      100 ≤ m.vend.axcFc && m.vend.axcFc ≤ 20000))

/-- The AXC voltage loop (R340), at 50 kHz on the LO channel with SP = 1.0 (DESIGN CHOICE, log entry 64), with VSLOT and VREF naming it. -/
def Chip.axcLoop (m : Chip) (cap v : Nat) : Chip :=
  let ch := m.fld .cnvXVch 1 14 8
  let kp := loopKp m.vend.axcFc cap v (m.fld .cnvXScale 1 15 0)
  let bs : List BlkWords := [inputBlk ch (ratioW (m.fld .cnvXVfs 1 31 16) v), pidBlk kp (loopKis kp m.vend.axcFc (m.chainHz ch bslotHz)) 0 q1,
    [5, 0, 0, wdI q1], [9 + 1 * 65536, 0, wd (3 * 2 ^ 24), 0, wdI q1, 0, 0, wdI q1]]
  let old := m.vslot 1
  let m := m.when ((m.dest old).1 = 3) (fun m => m.dropChain old)
  match m.nextSlot with
  | some s =>
    match m.runChainLib s 2 ch (m.decimFor ch bslotHz) (wdI q1) 0 bs with
    | some c => (c.putF .cnvXVrate 1 21 16 s).put .cnvXVref 1 (wd v)
    | none => m.raise (cnvSrc 1 8) 1 []
  | none => m.raise (cnvSrc 1 8) 1 []

/-- The stages whose registers hold a word out of its bounds. -/
def Chip.cnvOut (m : Chip) : List Nat :=
  (List.range 2).filter (fun x => (m.profKeys .cnv).any (fun q => q.2 = x && 0x060100 ≤ q.1.row.base && !m.inBounds q.1 q.2))

/-- CNV's profile: applied whole, or not at all with CNV_CONFIG of each stage that lacks a required parameter or breaks a bound (R340). -/
def Chip.basicCnv (m : Chip) : Chip :=
  let q := (m.profileRegs .cnv).1
  let bad := (List.range 2).filter (fun x => !m.cnvGiven x || q.cnvOut.contains x)
  if !bad.isEmpty then bad.foldl (fun m x => m.raise (cnvSrc x 8) x []) m
  else
    match m.vend.axcCap, m.vend.axcV with
    | some c, some v => q.axcLoop c v
    | _, _ => q

/-- EST's profile sets the perturbation registers too, unless the converters are at the Expert level (R17, R425). -/
def Chip.basicEst (m : Chip) : Chip :=
  let m := m.basicRegs .est
  (List.range 8).foldl (fun m t => m.profileReg .cnvPertTone t) (m.profileReg .cnvPertCfg 0)

/-! ### Partners (R459) -/

/-- Word 4 of a rectifier's entry where the profile does not give it: the output current every 100 ms (R459). -/
def telDefault (w0 : Word) : Word := if bits w0 31 24 = 3 then wd (2 ^ 31 + 0x8C * 65536 + 1000) else 0

/-- The words of an entry of the profile, with EN. -/
def entryWord (ws : List Word) (k : Nat) : Word :=
  let w0 := ws.getD 0 0
  if k = 0 then w0 ||| 0x100000 else if k = 4 then ws.getD 4 (telDefault w0) else ws.getD k 0

/-- The library creates one entry of its profile and holds it (R427, R459): all its words at once, and enabled. One whose words no entry
may hold is not created. An entry of the user's in its place gives way (DEDUCED from R19, log entry 64). -/
def Chip.libEntry (m : Chip) (e : Nat) (ws : List Word) : Chip :=
  let g := entryWord ws
  if !m.wordsOk e g || !m.enableOk e g then m
  else
    let m := if (List.range 5).all (fun k => m.pw e k = g k) then m
      else
        let m := m.when (m.entEn e) (fun m => m.entEnable e false)
        let t := (List.range 5).foldl (fun t k => NTab.set 0 t (8 * e + k) (g k)) m.ptn.table
        ({ m with ptn := { m.ptn with table := t } } : Chip).entEnable e true
    m.putEnt e { m.ent e with lib := true }

/-- PTN's profile: its registers and its entries, share groups before their members. -/
def Chip.basicPtn (m : Chip) : Chip :=
  let m := m.basicRegs .ptn
  let group := fun (q : Nat × List Word) => bits (q.2.getD 0 0) 31 24 = 4
  (m.vend.entries.filter group ++ m.vend.entries.filter (fun q => !group q)).foldl (fun m q => m.libEntry q.1 q.2) m

/-! ### The whole profile -/

/-- The library applies the full profile of a block (R19). -/
def Chip.applyProfile (m : Chip) (b : Blk) : Chip :=
  match b with
  | .seq => m.profSeq
  | .acq => m.basicAcq
  | .pol => m.basicPol
  | .cnv => m.basicCnv
  | .bat => m.basicBat
  | .est => m.basicEst
  | .ptn => m.basicPtn
  | b => m.basicRegs b

/-- Step 7 of boot (R65): the vendor bundle is placed and the profile of every block applied, sources before what reads them. After a warm
reset FLT_SRCs keep what they hold (R660). -/
def Chip.vendorLoad (m : Chip) : Chip :=
  let m := m.vendorBundle m.vend.bundle
  let bs : List Blk := [.seq, .lay, .acq, .brn, .twb, .slk, .hst, .ptn, .thm, .cle, .cnv, .bat, .est, .pol, .spl, .rcd]
  let m := bs.foldl (fun m b => m.applyProfile b) m
  m.when (m.pwr.cause = 0) (fun m => m.applyProfile .flt)

end Sys2Proof.Machine
end

