-- ==== Sys2Proof/Machine/Levels.lean ====
section
/-!
DEFINITION. Changes of LEVEL (R16 to R19): the quiescent point of each block and what the change does.
-/

namespace Sys2Proof.Machine

/-- Every block with a LEVEL, with the register that holds it; UPD has none (R649). -/
def levelReg : Blk → Option RName
  | .seq => some .seqCfg
  | .lay => some .layCfg
  | .cle => some .cleCfg
  | .acq => some .acqCfg
  | .pol => some .polCfg
  | .cnv => some .cnvCfg
  | .brn => some .brnCfg
  | .bat => some .batCfg
  | .est => some .estCfg
  | .ptn => some .ptnCfg
  | .twb => some .twbCfg
  | .slk => some .slkCfg
  | .hst => some .hstCfg
  | .thm => some .thmCfg
  | .flt => some .fltCfg
  | .spl => some .splCfg
  | .rcd => some .rcdCfg
  | .upd => none

/-- LEVEL as it reads back: true for Expert (R18). -/
def Chip.levelAsked (m : Chip) (b : Blk) : Bool :=
  match levelReg b with
  | some r => m.flag r 0 0
  | none => false

/-- A loop slot that another Basic function needs (R252): one of the vendor chains, the charge chain, or the auxiliary
voltage loop (DEDUCED, log entry 63). -/
def Chip.slotNeeded (m : Chip) (s : Nat) : Bool :=
  let ps := m.get .polSlot 0
  has m.cle.lib s &&
    ((!m.expert .pol && m.vendorBuilt && (s = bits ps 5 0 || s = bits ps 13 8 || (bitOf ps 24 && s = bits ps 21 16))) ||
      (!m.expert .bat && m.bat.chain && s = m.fld .batChgSlot 0 5 0) ||
      (!m.expert .cnv && s = m.vslot 1 && ((m.dest s).1 = 3 || (m.dest s).1 = 4)))

/-- A block is at the quiescent point its chapter defines (R87, R135, R200, R252, R289, R339, R366, R397, R425, R459, R482,
R521, R574, R598, R623). A transmission, and a host frame that no held access keeps open, fill a single command;
THM waits for a reading of sensor 0 (R538). -/
def Chip.quiescent (m : Chip) (b : Blk) : Bool :=
  match b with
  | .seq => m.seq.st = .off || m.seq.st = .on
  | .lay => (List.range 192).all (fun k => (m.strand (64 + k)).st = .free)
  | .cle => (List.range 64).all (fun s => m.slotNeeded s || (m.lslot s).st = .stopped)
  | .acq => m.acqQuiet
  | .pol => m.polQuiet
  | .cnv => (List.range 2).all (fun x => ((m.conv x).st = .stopped || (m.conv x).st = .run || (m.conv x).st = .fenced) &&
      (List.range 8).all (fun k => !((m.conv x).phase k).turning))
  | .brn => (List.range 24).all (fun n => (m.branch n).st != .inrush && (m.branch n).st != .tripped)
  | .bat => m.batQuiet
  | .est => m.est.writing.isNone
  | .ptn => m.ptn.discRun.isNone
  | .twb => (List.range 16).all (fun n => (m.bus n).st != .recover && (m.bus n).st != .hail)
  | .slk | .hst => !m.hostOpen
  | .thm => false
  | .flt => true
  | .spl => m.spl.st = .solo || m.spl.st = .active || m.spl.st = .sync || m.spl.st = .ready
  | .rcd => m.rcd.clear.isNone && (List.range 8).all (fun u => (m.cap u).st != .post && (m.cap u).st != .commit)
  | .upd => false

/-- The block's running level. -/
def Chip.setLevel (m : Chip) (b : Blk) (expert : Bool) : Chip :=
  { m with levels := NTab.set false m.levels (blkIdx b) expert }

/-- The slots the library keeps when the CLE becomes Expert (R252). -/
def Chip.libMask (m : Chip) : Nat := (List.range 64).foldl (fun a s => if m.slotNeeded s then setM a s else a) 0

/-- A change of level at its point (R19): to Expert the registers keep their values, and library-held slots and entries pass to
the user (R252, R459); to Basic the profile is applied. -/
def Chip.levelTo (m : Chip) (b : Blk) (expert : Bool) : Chip :=
  let m := m.setLevel b expert
  let m : Chip := match b with
    | .cle => { m with cle := { m.cle with lib := if expert then m.libMask else 2 ^ 64 - 1 } }
    | .ptn =>
      if expert then { m with ptn := { m.ptn with ents := m.ptn.ents.map (fun (q : Nat × Ent) => (q.1, { q.2 with lib := false })) } } else m
    | _ => m
  if expert then m else m.applyProfile b

/-- A LEVEL written since takes effect (R18), wherever the block stands. -/
def Chip.levelNow (m : Chip) (b : Blk) : Chip :=
  if m.levelAsked b = m.expert b then m else m.levelTo b (m.levelAsked b)

/-- A LEVEL written since takes effect if the block is at its quiescent point. -/
def Chip.levelApply (m : Chip) (b : Blk) : Chip := if m.alive && m.quiescent b then m.levelNow b else m

/-- A reading of a sensor; that of sensor 0 is THM's quiescent point (R538). -/
def Chip.thmSample (m : Chip) (k : Nat) (t : Int) (bad : Bool) : Chip :=
  (m.thmRow k t bad).when (k = 0 && m.up) (fun m => m.levelNow .thm)

end Sys2Proof.Machine
end

