-- ==== Sys2Proof/Machine/Boot.lean ====
section
/-!
DEFINITION. Boot (R65 to R70, R608, R639 to R647, R665, R666): the steps of R65 from the release of a reset to STANDBY, SHADOW
or LOCKDOWN, as one command.
-/

namespace Sys2Proof.Machine

/-! ### Steps 4 to 6: images -/

/-- A failure code that boot's verification of a slot may give: checks 1 to 4, 6 and 7 (R638); 0 for a slot that passes. -/
def bootCheck (code : Nat) : Nat := if code = 1 ∨ code = 2 ∨ code = 3 ∨ code = 4 ∨ code = 6 ∨ code = 7 then code else 0

/-- The 4 KB blocks that a copy of an image counts (R642). -/
def blocksOf (len : Nat) : Nat := (len + 4095) / 4096

/-- A phase of a copy goes on at the first block that lacks a marker (R66, R67), for at most `budget` blocks: each commits the marker,
which UPD_COPY shows. Answers the blocks left of the budget and whether the phase has ended. -/
def Chip.copyPhase (m : Chip) (phase total cause budget : Nat) : Chip × Nat × Bool :=
  let k := match m.upd.copying with
    | some (p, k, _) => if p = phase then k else 0
    | none => 0
  let n := min (total - k) budget
  let w := if 0 < k + n then phase * 4096 + (k + n - 1) else m.upd.copy
  ({ m with upd := { m.upd with copying := some (phase, k + n, cause), copy := w } }, budget - n, total ≤ k + n)

/-- The phase that an unfinished copy's marker names (R67), 0 for none. -/
def Chip.copyAt (m : Chip) : Nat :=
  match m.upd.copying with
  | some (p, _, _) => p
  | none => 0

/-- Phase 1 of step 4 (R66): the active slot to the rollback slot, which holds no image meanwhile. -/
def Chip.stageOne (m : Chip) (budget : Nat) : Chip × Nat × Bool :=
  if m.copyAt = 2 then (m, budget, true)
  else
    let x := ({ m with upd := { m.upd with rol := none } } : Chip).copyPhase 1 (blocksOf m.upd.act.len) 0 budget
    if x.2.2 then ({ x.1 with upd := { x.1.upd with rol := some x.1.upd.act } }, x.2) else x

/-- Step 4 (R66, R639, R643): both phases of the staging copy, as far as the budget goes. -/
def Chip.stagingCopy (m : Chip) (budget : Nat) : Chip × Bool :=
  let x := m.stageOne budget
  if !x.2.2 then (x.1, false)
  else
    let y := x.1.copyPhase 2 (blocksOf m.upd.stgImg.len) 0 x.2.1
    if !y.2.2 then (y.1, false)
    else
      let u := y.1.upd
      let u := { u with act := u.stgImg, stg := .empty, bytes := [], stgImg := Img.none, trial := true, trials := 1, copying := none }
      ({ y.1 with upd := u, sys := { y.1.sys with bootCopy := true }, vend := Vendor.ofImage u.act.dig }, true)

/-- The rollback slot is copied to the active slot (R646, R68), as far as the budget goes: at its end UPD_ROLLBACK names what failed
(R647). -/
def Chip.restoreImage (m : Chip) (old : Img) (cause budget : Nat) : Chip × Bool :=
  let x := m.copyPhase 3 (blocksOf old.len) cause budget
  if !x.2.2 then (x.1, false)
  else
    let ver := m.upd.act.ver
    let u := { x.1.upd with act := old, trial := false, trials := 0, lastRoll := cause, failed := false, copying := none }
    let m : Chip := { x.1 with upd := u, sys := { x.1.sys with bootRoll := true }, vend := Vendor.ofImage old.dig }
    (m.raise 11 0 [wd ver, wd old.ver, wd cause], true)

/-- No image can be run: the recovery loader (R68, R646). -/
def Chip.enterRecovery (m : Chip) : Chip :=
  ({ m with upd := { m.upd with recovery := true }, pwr := { m.pwr with condSvc := true, recovery := true } } : Chip).raise 12 0 []

/-- The rollback slot as boot finds it: its image if it verifies, or the code of the check that fails. -/
def Chip.rollbackImage (m : Chip) (code : Nat) : Option Img × Nat :=
  match m.upd.rol with
  | none => (none, 1)
  | some g => if bootCheck code = 0 then (some g, 0) else (none, bootCheck code)

/-- Why a trial is rolled back (R647). -/
def Chip.trialCause (m : Chip) : Nat := if m.upd.failed then 4 else if m.pwr.cause = 2 then 1 else 2

/-- Step 5: an active slot still TRIAL is rolled back, tried again, or given up (R646). -/
def Chip.trialBoot (m : Chip) (rolCode budget : Nat) : Chip × Bool :=
  let r := m.rollbackImage rolCode
  match r.1 with
  | some g => m.restoreImage g m.trialCause budget
  | none =>
    if m.upd.trials < 3 then
      (({ m with upd := { m.upd with trials := m.upd.trials + 1, failed := false } } : Chip).verifyFail 2 r.2 ((m.upd.rol.getD Img.none).ver), true)
    else (m.enterRecovery, true)

/-- Step 6: an active slot that fails is replaced by the rollback slot, or nothing runs (R68). -/
def Chip.activeFails (m : Chip) (code rolCode budget : Nat) : Chip × Bool :=
  let m := m.verifyFail 1 code m.upd.act.ver
  let r := m.rollbackImage rolCode
  match r.1 with
  | some g => m.restoreImage g 3 budget
  | none => ((m.verifyFail 2 r.2 ((m.upd.rol.getD Img.none).ver)).enterRecovery, true)

/-- Steps 4 and 5: an unfinished copy goes on where its marker says (R67), a PENDING staging slot is copied, and a trial that a reset
has ended is rolled back. -/
def Chip.bootCopies (m : Chip) (rolCode budget : Nat) : Chip × Bool :=
  match m.upd.copying with
  | some (3, _, cause) => m.restoreImage (m.upd.rol.getD Img.none) cause budget
  | some _ => m.stagingCopy budget
  | none =>
    if m.upd.stg = .pending && !m.nvm.lock then m.stagingCopy budget
    else if m.upd.trial then m.trialBoot rolCode budget
    else (m, true)

/-- Steps 4 to 6: with the codes of the checks that the active and the rollback slot fail, and the blocks that this run commits at
most. Answers whether they came to their end. -/
def Chip.bootImages (m : Chip) (actCode rolCode budget : Nat) : Chip × Bool :=
  let m : Chip := { m with upd := { m.upd with recovery := false }, pwr := { m.pwr with recovery := false } }
  let x := m.bootCopies rolCode budget
  if !x.2 || bootCheck actCode = 0 || x.1.upd.recovery || x.1.sys.bootRoll then x
  else x.1.activeFails (bootCheck actCode) rolCode budget

/-! ### Trims (R173, R350) -/

/-- The calibration of a pair that boot runs: the trims it computes are open; those that no field holds leave the factory's and
raise ACQ_CAL_FAIL. It ends as each calibration does, with ACQ_CAL_DONE (R174). -/
def Chip.bootCal (m : Chip) (p : Nat) : Chip :=
  let v := fun k => Config.free (m.fresh + k)
  let offs : Int := v 0 - v 1
  let gain : Int := v 2 - v 3
  let m : Chip := { m with fresh := m.fresh + 4 }
  let ok := -32768 ≤ offs && offs ≤ 32767 && -32768 ≤ gain && gain ≤ 32767
  let m := if ok then (m.put .acqIlvOffs p (wd (unI offs 16))).put .acqIlvGain p (wd (unI gain 16)) else m.raise 31 0 []
  m.event 239

/-- The factory trims are loaded from OTP, and both pairs are calibrated. -/
def Chip.bootTrims (m : Chip) : Chip :=
  let m := (List.range 24).foldl (fun m n => m.putF .brnNZero n 15 0 (Config.zeroTrim n)) m
  let m := (List.range 2).foldl (fun m p =>
    ((m.put .acqIlvOffs p (wd (Config.pairTrim p 0 % 65536))).put .acqIlvGain p (wd (Config.pairTrim p 1 % 65536))).put .acqIlvSkew p
      (wd (Config.pairTrim p 2 % 256))) m
  (m.bootCal 0).bootCal 1

/-! ### Step 9: parameters (R665, R666) -/

/-- An entry of the parameter list is written; each LEVEL takes effect at once. -/
def Chip.applyParam (m : Chip) (ag : Agent) (e : Nat × Word) : Chip :=
  let x := m.busWrite ag e.1 e.2
  let m := if x.2 = .ok then x.1 else { x.1 with sys := { x.1.sys with fails := x.1.sys.fails + 1 } }
  match targetOf e.1 with
  | .reg r _ =>
    match r.blk with
    | some b => if levelReg b = some r then m.levelNow b else m
    | none => m
  | _ => m

/-- The newest stored list is applied in the name of its owner. -/
def Chip.applyParams (m : Chip) : Chip :=
  let ag : Agent := if m.nvm.paramOwner = 2 then .svc else .host
  m.nvm.params.foldl (fun m e => m.applyParam ag e) m

/-! ### Step 10 -/

/-- The base state that step 10 enters (R46, R576, R591): a primary whose twin does not hold the interlock comes up in STANDBY,
and so does the recovery loader; any other chip shadows. -/
def Chip.bootBase (m : Chip) : Base :=
  if m.upd.recovery || (!m.pwr.role && !m.spl.inp) then .standby else .shadow

/-- INIT is left (R591): a chip that opens its gate here holds the frames that carry generations (R446). -/
def Chip.splInit (m : Chip) : Chip :=
  let solo := !m.pwr.role && !m.spl.inp
  { m with spl := { m.spl with st := if solo then .solo else .sync, out := solo }
           ptn := m.ptn.hold solo m.now }

/-- The requests of step 10: the sequencer's (R46, AUTOON) and AUTOSTART's decision (R269). Neither the recovery loader nor a
locked chip makes them. -/
def Chip.bootRequests (m : Chip) : Chip :=
  if m.pwr.base != .standby || m.upd.recovery || m.nvm.lock then m
  else
    let m := if m.flag .seqCfg 0 1 then m.seqOn else m
    { m with pwr := { m.pwr with autoPend := m.flag .pwrmCfg 0 0, autoAt := m.now } }

/-- The steps of R65 after the images: trims, the vendor's parts, the counts, the stored parameters, judged in the mode that step 10 will
enter (R665), the records of abandoned writes, and the mode. -/
def Chip.bootRest (m : Chip) (us : Nat) : Chip :=
  let b := m.bootBase
  let m := m.bootTrims.when (!m.upd.recovery) Chip.vendorLoad
  let m : Chip := { m with nvm := { m.nvm with pcc := satTo 0xFFFFFF (m.nvm.pcc + 1) }
                           pwr := { m.pwr with base := b, pll := true, vkeepLost := false } }
  let m := if m.upd.recovery then m else m.applyParams
  let m := m.bootScan.storeBoot.capScan
  let m : Chip := { m with upd := { m.upd with trialAt := m.now }
                           pwr := { m.pwr with base := b }
                           sys := { m.sys with bootStep := 10, bootMs := satTo 65535 (us / 1000) } }
  m.splInit.bootRequests

/-- Boot runs (R65) for `us` from the release of the reset; the active and the rollback slot fail the checks of these codes, 0 for
none. A copy that needs more than `copied` blocks is left at its marker with boot still under way, for a reset to cut short (R67).
While the collapse detector has fired, boot starts none of its MRAM writes and waits (R58; DEDUCED, log entry 73). -/
def Chip.bootComplete (m : Chip) (us actCode rolCode copied : Nat) : Chip :=
  if m.pwr.base != .boot || m.pwr.ecdFired then m
  else
    let m := (m.advance us).when m.nvm.erasing Chip.eraseKeys
    let x := m.bootImages actCode rolCode copied
    if x.2 then x.1.bootRest us else { x.1 with sys := { x.1.sys with bootStep := 4 } }

end Sys2Proof.Machine
end

