-- ==== Sys2Proof/Machine/Service.lean ====
section
/-!
DEFINITION. The service port (R625 to R636): frames, their sequence and tags, sessions, and the operations.
-/

namespace Sys2Proof.Machine

/-! ### Frames (R626) -/

/-- A 16-bit number, low byte first. -/
def le16 (n : Nat) : List Nat := [n % 256, n / 256 % 256]

/-- A 32-bit number, low byte first. -/
def le32 (n : Nat) : List Nat := leBytes (wd n)

/-- A frame from LEN to the end of BODY. -/
def svcCore (seq op flags : Nat) (body : List Nat) : List Nat := le16 (4 + body.length) ++ le16 seq ++ [op, flags] ++ body

/-- The TAG of such bytes under a session key (R633). -/
def svcTag (ks core : List Nat) : List Nat := (hmac256 ks core).take 8

/-- A response frame; `ks` is the session key of a TAGGED one. -/
def svcResponse (seq op : Nat) (ks : Option (List Nat)) (body : List Nat) : List Nat :=
  let core := svcCore seq op (match ks with
    | some _ => 3
    | none => 1) body
  let tag := match ks with
    | some k => svcTag k core
    | none => []
  [0xA7, 0x5C] ++ core ++ tag ++ le32 (crc32 (core ++ tag))

/-- A malformed frame: no response, and it is counted (R627); one whose TAG does not verify is counted apart. -/
def Chip.svcMalformed (m : Chip) (tagFails : Bool) : Chip :=
  if !m.alive then m
  else ((m.bump .updSvcCnt0 0 15 0 1).when tagFails (fun m => m.bump .updSvcCnt1 0 31 16 1)).frameNote

/-- Characters outside a frame (R627). -/
def Chip.svcNoise (m : Chip) (n : Nat) : Chip := if m.alive then m.bump .updSvcCnt0 0 31 16 n else m

/-- The key a response carries a TAG under: that of a key-mode session before or after its request (R633). -/
def Chip.tagKey (m : Chip) (before : Upd) : Option (List Nat) :=
  if m.upd.session = 3 then some m.upd.ks else if before.session = 3 then some before.ks else none

/-- A response is sent and stored (R629). A chip that the request has reset or powered down sends none. -/
def Chip.svcSend (m : Chip) (before : Upd) (was : Base) (op seq : Nat) (body : List Nat) : Chip :=
  if (m.pwr.base = .boot && was != .boot) || !m.alive then m
  else { m with upd := { m.upd with resp := svcResponse seq op (m.tagKey before) body } }

/-- The bytes that stand for an operation's data where it gives none. -/
def svcBlank (op : Nat) : List Nat := if op = 0x10 then [0, 0, 0, 0] else if op = 0x22 then [0] else []

/-- A request waits behind a held access (R628). -/
def Chip.svcWaits (m : Chip) : Bool := m.pwr.held.any (fun h => h.ag = .svc && h.dst = 1)

/-- A request is valid (R629): its SEQ is taken, and the idle time and a change of rate start anew (R632, R635). -/
def Chip.svcAccept (m : Chip) (seq : Nat) : Chip :=
  { m with upd := { m.upd with seq := seq, validAt := m.now, fallback := none } }

/-- A request frame without an error in its framing: its operation, SEQ, TAG and BODY. The operation `f` answers the chip, its
status, and its data, or nothing yet for a held access. -/
def Chip.svcFrame (m : Chip) (op seq : Nat) (tag : Option (List Nat)) (body : List Nat)
    (f : Chip → Chip × Option (Status × List Nat)) : Chip :=
  let u := m.upd
  let live := u.session != 0
  let mac := svcTag u.ks (svcCore seq op (if tag.isSome then 2 else 0) body)
  if !m.alive || m.svcWaits then m
  else if tag.isSome != decide (u.session = 3) then m.svcMalformed false
  else if u.session = 3 && tag != some mac then m.svcMalformed true
  else if live && seq = u.seq && !u.resp.isEmpty then (m.svcAccept seq).bump .updSvcCnt1 0 15 0 1
  else if live && op != 1 && op != 2 && seq != (u.seq + 1) % 65536 then m.svcMalformed false
  else
    let m := m.svcAccept seq
    let reject := fun (st : Status) => m.svcSend u m.pwr.base op seq (st.code :: svcBlank op)
    if m.pwr.base = .boot && op != 1 then reject .ebusy
    else if u.session < 2 && op != 1 && op != 2 && !(op = 3 && u.session = 1) then reject .estate
    else
      let x := f m
      match x.2 with
      | some (st, data) => x.1.svcSend u m.pwr.base op seq (st.code :: data)
      | none => x.1

/-! ### Sessions (R633 to R636) -/

/-- The 16 bytes of a nonce. -/
def nonceBytes (k : Nat) : List Nat := (List.range 16).map (fun j => Config.nonce k j % 256)

/-- IDENT. -/
def Chip.svcIdent (m : Chip) (seq : Nat) (tag : Option (List Nat)) : Chip :=
  m.svcFrame 0x01 seq tag [] (fun m =>
    let ws := [m.slkRead .slkMaclo 0, m.slkRead .slkMachi 0, m.modeWord, m.updRead .updActVer 0, m.updRead .updActDig 0]
    (m, some (.ok, ws.flatMap leBytes)))

/-- OPEN: presence mode opens at once, key mode begins its handshake. -/
def Chip.svcOpen (m : Chip) (seq : Nat) (tag : Option (List Nat)) (mode : Nat) (nh : List Nat) : Chip :=
  m.svcFrame 0x02 seq tag (mode :: nh) (fun m =>
    let nd := nonceBytes m.upd.nonces
    let start := fun (s : Nat) =>
      ({ m with upd := { m.upd with session := s, nh := nh, nd := nd, ks := [], nonces := m.upd.nonces + 1 } } : Chip)
    if 1 < mode then (m, some (.erange, []))
    else if 2 ≤ m.upd.session then (m, some (.estate, []))
    else if mode = 0 then
      if m.upd.present then ((start 2).sessionRecord true false 0, some (.ok, nd)) else (m, some (.estate, []))
    else if m.nvm.key2.isNone then (m, some (.estate, []))
    else (start 1, some (.ok, nd)))

/-- The word "open" that a PROOF covers first. -/
def openWord : List Nat := [0x6F, 0x70, 0x65, 0x6E]

/-- AUTH: a correct PROOF opens the session under its key. -/
def Chip.svcAuth (m : Chip) (seq : Nat) (tag : Option (List Nat)) (proof : List Nat) : Chip :=
  m.svcFrame 0x03 seq tag proof (fun m =>
    let key := (m.nvm.key2.getD []).flatMap leBytes
    let u := m.upd
    if u.session != 1 then (m, some (.estate, []))
    else if m.nvm.key2.isSome && proof = hmac256 key (openWord ++ u.nh ++ u.nd) then
      let m : Chip := { m with upd := { u with session := 3, ks := hmac256 key (u.nh ++ u.nd) } }
      (m.sessionRecord true true 0, some (.ok, []))
    else
      let m : Chip := { m with upd := { u with session := 0, nh := [], nd := [], ks := [] } }
      (m.eauthPort 1, some (.eauth, [])))

/-- CLOSE. -/
def Chip.svcClose (m : Chip) (seq : Nat) (tag : Option (List Nat)) : Chip :=
  m.svcFrame 0x04 seq tag [] (fun m => (m.sessionEnd 0, some (.ok, [])))

/-- BAUD (R632). -/
def Chip.svcBaud (m : Chip) (seq : Nat) (tag : Option (List Nat)) (index : Nat) : Chip :=
  m.svcFrame 0x05 seq tag [index] (fun m =>
    if 9 ≤ index then (m, some (.erange, []))
    else ({ m with upd := { m.upd with rate := index, fallback := some (m.upd.rate, m.now) } }, some (.ok, [])))

/-- No valid frame has arrived within 1 s at the new rate (R632). -/
def Chip.baudFallback (m : Chip) : Chip :=
  match m.upd.fallback with
  | some (old, at_) =>
    let m := m.elapse at_ 1000000
    { m with upd := { m.upd with rate := old, fallback := none } }
  | none => m

/-- SVC_PRESENT_N has been stable for 10 ms (R634). -/
def Chip.svcPresence (m : Chip) (present : Bool) : Chip :=
  if !m.alive || m.upd.present = present then m
  else
    let m := m.elapse m.now 10000
    let m : Chip := { m with upd := { m.upd with present := present } }
    if !present && m.upd.session = 2 then m.sessionEnd 2 else m

/-- No valid request has arrived for IDLE (R635). -/
def Chip.svcIdle (m : Chip) : Chip :=
  if 2 ≤ m.upd.session then (m.elapse m.upd.validAt (m.fld .updSvcCfg 0 7 0 * 60000000)).sessionEnd 1 else m

/-! ### Accesses (R631) -/

/-- READ or WRITE of a frame: performed, or held for its domain and answered then. -/
def Chip.svcAccess (m : Chip) (h : Held) : Chip × Option (Status × List Nat) :=
  if m.mustHold h then (m.hold h, none)
  else
    let x := m.perform h
    (x.1, some (x.2.1, if h.write then [] else leBytes x.2.2))

/-- SVC_READ. -/
def Chip.svcRead (m : Chip) (seq : Nat) (tag : Option (List Nat)) (addr : Nat) : Chip :=
  m.svcFrame 0x10 seq tag (le32 addr) (fun m =>
    m.svcAccess { ag := .svc, write := false, addr := addr % 2 ^ 24, data := 0, dst := 1 })

/-- SVC_WRITE. -/
def Chip.svcWrite (m : Chip) (seq : Nat) (tag : Option (List Nat)) (addr : Nat) (d : Word) : Chip :=
  m.svcFrame 0x11 seq tag (le32 addr ++ leBytes d) (fun m =>
    m.svcAccess { ag := .svc, write := true, addr := addr % 2 ^ 24, data := d, dst := 1 })

/-! ### Image operations (R630, R638, R639) -/

/-- An image operation: of the IMAGE class, its status kept in UPD_CMDSTAT. -/
def Chip.svcImage (m : Chip) (op : Nat) (f : Chip → Chip × Status × List Nat) : Chip × Option (Status × List Nat) :=
  if !m.mayClass .svc 9 then ((m.eauthPort 1).updStatus .eauth op, some (.eauth, svcBlank op))
  else
    let x := f m
    (x.1.updStatus x.2.1 op, some x.2)

/-- IMG_BEGIN. -/
def Chip.svcImgBegin (m : Chip) (seq : Nat) (tag : Option (List Nat)) : Chip :=
  m.svcFrame 0x20 seq tag [] (fun m => m.svcImage 0x20 (fun m => ((m.imgBegin).1, (m.imgBegin).2, [])))

/-- IMG_DATA. -/
def Chip.svcImgData (m : Chip) (seq : Nat) (tag : Option (List Nat)) (off : Nat) (bs : List Nat) : Chip :=
  m.svcFrame 0x21 seq tag (le32 off ++ bs) (fun m => m.svcImage 0x21 (fun m =>
    let x := m.imgData off bs
    (x.1, x.2, [])))

/-- IMG_FINISH. -/
def Chip.svcImgFinish (m : Chip) (seq : Nat) (tag : Option (List Nat)) : Chip :=
  m.svcFrame 0x22 seq tag [] (fun m => m.svcImage 0x22 (fun m =>
    let x := m.imgFinish
    (x.1, x.2.1, [x.2.2])))

/-- IMG_CANCEL. -/
def Chip.svcImgCancel (m : Chip) (seq : Nat) (tag : Option (List Nat)) : Chip :=
  m.svcFrame 0x23 seq tag [] (fun m => m.svcImage 0x23 (fun m => ((m.imgCancel).1, (m.imgCancel).2, [])))

end Sys2Proof.Machine
end

