-- ==== Sys2Proof/Machine/HostPort.lean ====
section
/-!
DEFINITION. The host port's frames (R486 to R492), held accesses that complete (R35), and the SNAPSHOT service (R505).
-/

namespace Sys2Proof.Machine

/-! ### Frames (R488, R491) -/

/-- A response from its start byte on: STATUS and data, and their CRC-16, high byte first. -/
def hostResponse (body : List Nat) : List Nat := 0x5A :: (body ++ [crc16 body / 256, crc16 body % 256])

/-- The address of a frame, low byte first. -/
def le24 (n : Nat) : List Nat := [n % 256, n / 256 % 256, n / 65536 % 256]

/-- The body of a READ response. -/
def readBody (st : Status) (addr : Nat) (w : Word) : List Nat := st.code :: (le24 addr ++ leBytes w)

/-- The chip drives these bytes; a chip that the access has reset or powered down drives none. -/
def Chip.hostDrive (m : Chip) (was : Base) (body : List Nat) : Chip :=
  { m with hst := { m.hst with resp := if (m.pwr.base = .boot && was != .boot) || !m.alive then [] else hostResponse body } }

/-- Nothing is driven in this frame. -/
def Chip.hostSilent (m : Chip) : Chip := { m with hst := { m.hst with resp := [] } }

/-- A READ response is kept for REREAD (R488). -/
def Chip.keepRead (m : Chip) (st : Status) (addr : Nat) (w : Word) : Chip :=
  { m with hst := { m.hst with lastRead := some (st, addr, w) } }

/-- A frame reaches a chip that listens. -/
def Chip.hostFrame (m : Chip) (f : Chip → Chip) : Chip := if !m.alive || m.hostOpen then m else f m.hostSilent

/-- HST_CNT.CRC. -/
def Chip.crcCount (m : Chip) : Chip := m.bump .hstCnt 0 9 0 1

/-- HST_CNT.ABORT. -/
def Chip.abortCount (m : Chip) : Chip := m.bump .hstCnt 0 29 20 1

/-- A host access of a frame, answered when it has been performed. -/
def Chip.hostAccess (m : Chip) (h : Held) : Chip :=
  let x := m.perform h
  if h.write then x.1.hostDrive m.pwr.base [x.2.1.code]
  else (x.1.keepRead x.2.1 h.addr x.2.2).hostDrive m.pwr.base (readBody x.2.1 h.addr x.2.2)

/-- A frame's access is performed or held. -/
def Chip.hostTake (m : Chip) (h : Held) : Chip := if m.mustHold h then m.hold h else m.hostAccess h

/-- The access of a frame. -/
def hostHeld (write : Bool) (addr : Nat) (d : Word) : Held := { ag := .host, write := write, addr := addr, data := d, dst := 1 }

/-- WRITE. -/
def Chip.hostWrite (m : Chip) (crcOk : Bool) (addr : Nat) (d : Word) : Chip :=
  m.hostFrame (fun m =>
    if crcOk then m.hostTake (hostHeld true addr d) else m.crcCount.hostDrive m.pwr.base [Status.eproto.code])

/-- READ. -/
def Chip.hostRead (m : Chip) (crcOk : Bool) (addr : Nat) : Chip :=
  m.hostFrame (fun m =>
    if crcOk then m.hostTake (hostHeld false addr 0) else m.crcCount.hostDrive m.pwr.base (readBody .eproto addr 0))

/-- SUM (R488). -/
def Chip.sumByte (m : Chip) : Nat :=
  m.mode * 16 + b2n (!m.pins.errN) * 8 + b2n m.hostWord * 4 + b2n (!m.pins.irqN1) * 2 + b2n (!m.pins.irqN0)

/-- The status of a SUMMARY: of the READ class, refused by boot and in LOCKDOWN as every host command but the listed reads
(R49, R494; DEDUCED, log entry 65). -/
def Chip.sumStatus (m : Chip) : Status :=
  if !m.mayClass .host 0 then .eauth
  else if m.mode = 0xB then .estate
  else if m.pwr.base = .boot then .ebusy
  else .ok

/-- SUMMARY. -/
def Chip.hostSummary (m : Chip) (crcOk : Bool) : Chip :=
  m.hostFrame (fun m =>
    let st := if crcOk then m.sumStatus else .eproto
    let sum := if st = .ok then m.sumByte else 0
    (if !crcOk then m.crcCount else if st = .eauth then m.eauthNote .host else m).hostDrive m.pwr.base [st.code, sum])

/-- REREAD: the last READ response byte for byte. -/
def Chip.hostReread (m : Chip) (crcOk : Bool) : Chip :=
  m.hostFrame (fun m =>
    if !crcOk then m.crcCount.hostDrive m.pwr.base (readBody .eproto 0 0)
    else
      match m.hst.lastRead with
      | some (st, addr, w) => m.hostDrive m.pwr.base (readBody st addr w)
      | none => m.hostDrive m.pwr.base (readBody .estate 0 0))

/-- A frame of 0xFF: single width at the rise of HCS_N, no response (R487). HST_CFG.WIDTH reads what is in use. An access that is held then
completes without a response (R520). -/
def Chip.widthReset (m : Chip) : Chip :=
  if !m.alive then m
  else
    let held := m.pwr.held.map (fun h => if h.ag = .host && h.dst = 1 then { h with dst := 2 } else h)
    let m : Chip := { m.hostSilent with pwr := { m.pwr with held := held } }
    ({ m with hst := { m.hst with quad := false } } : Chip).putF .hstCfg 0 1 1 0

/-- A frame with an unknown opcode (R491). -/
def Chip.unknownOpcode (m : Chip) : Chip := m.hostFrame (fun m => m.bump .hstCnt 0 19 10 1)

/-- HCS_N rises over a held access (R491): a write still takes effect, a read is not performed. -/
def Chip.abortHeld (m : Chip) : Chip :=
  let keep := m.pwr.held.filter (fun h => !(h.ag = .host && h.dst = 1 && !h.write))
  let keep := keep.map (fun h => if h.ag = .host && h.dst = 1 then { h with dst := 0 } else h)
  ({ m with pwr := { m.pwr with held := keep } } : Chip).widthTaken

/-- HCS_N rises early (R491). -/
def Chip.hostAbort (m : Chip) (a : HostAbort) : Chip :=
  match a with
  | .request => m.hostFrame Chip.abortCount
  | .write addr d => m.hostFrame (fun m => (m.access { hostHeld true addr.toNat d with dst := 0 }).abortCount)
  | .read _ => m.hostFrame Chip.abortCount
  | .held => if m.hostOpen then m.abortHeld.abortCount else m
  | .answered addr => m.hostRead true addr.toNat

/-! ### Held accesses (R35) -/

/-- What an access that was held leaves to its agent: a strand goes on, a port's frame is answered. -/
def Chip.heldAnswer (m : Chip) (h : Held) (was : Base) (st : Status) (w : Word) : Chip :=
  match h.ag with
  | .strand k => m.accessDone k.val (if h.write then none else some h.dst) st w
  | .host =>
    let m := if h.dst = 1 then m.widthTaken else m
    if h.dst = 2 && !h.write then m.keepRead st h.addr w
    else if h.dst != 1 then m
    else if h.write then m.hostDrive was [st.code]
    else (m.keepRead st h.addr w).hostDrive was (readBody st h.addr w)
  | .svc =>
    if h.dst != 1 then m
    else m.svcSend m.upd was (if h.write then 0x11 else 0x10) m.upd.seq (st.code :: (if h.write then [] else leBytes w))
  | _ => m

/-- A held access can take effect once its domain is usable. -/
def Chip.heldReady (m : Chip) (h : Held) : Bool := !m.cursorWaits h && m.dom (domIdx (domOf h.addr)) != .off

/-- The oldest held access that can takes effect: its domain is usable now (R35). -/
def Chip.heldComplete (m : Chip) : Chip :=
  match m.pwr.held.find? m.heldReady with
  | none => m
  | some h =>
    let m : Chip := { m with pwr := { m.pwr with held := m.pwr.held.erase h } }
    let m := m.wake (domOf h.addr)
    let x := m.performHeld h
    x.1.heldAnswer h m.pwr.base x.2.1 x.2.2

/-! ### SNAPSHOT (R505) -/

/-- Who asks on a channel's side: the agent as whom the addresses are judged. -/
def askerOf (c : Nat) (a : Bool) : Agent :=
  match (if a then (endsOf c).1 else (endsOf c).2) with
  | .host => .host
  | .svc => .svc
  | _ => .fw

/-- The registers of a SNAPSHOT are read one after another: the values and the rejections. -/
def Chip.snapRead (m : Chip) (ag : Agent) (addrs : List Word) : Chip × List Word × List Status :=
  addrs.foldl (fun x (a : Word) =>
    let q := ((x.1).wake (domOf a.toNat)).busRead ag a.toNat
    (q.1, x.2.1 ++ [q.2.1], x.2.2 ++ [q.2.2])) (m, [], [])

/-- The first rejection of R12 that any of the reads met. -/
def worstOf (sts : List Status) : Status :=
  ([Status.eauth, .erange, .estate, .ebasic, .ebusy].find? (fun s => sts.contains s)).getD .ok

/-- SNAPSHOT of 1 to 14 registers. -/
def Chip.fwSnapshot (m : Chip) (c : Nat) : Chip :=
  match m.request c with
  | none => m
  | some (a, h, ws) =>
    if bits h 31 24 != 3 || ws.length != bits h 23 20 then m
    else if mqMax < (m.mq c (!a)).length + 1 + ws.length then m
    else if ws.isEmpty || 14 < ws.length then m.reply c a (1 + ws.length) [replyHead h 0 .erange]
    else
      let x := m.snapRead (askerOf c a) ws
      x.1.reply c a (1 + ws.length) (replyHead h ws.length (worstOf x.2.2) :: x.2.1)

end Sys2Proof.Machine
end

