-- ==== Sys2Proof/Machine/Settle.lean ====
section
/-!
DEFINITION. What every command is followed by: the machines that watch other state act on what the command changed
(R42, R263, R274, R381, R384, R444, R588, R591), and the pins are driven anew (R25, R49, R61, R552, R556, R580).
-/

namespace Sys2Proof.Machine

/-! ### Pins -/

/-- The numbers below `n` that a predicate holds of, as a mask. -/
def maskOf (n : Nat) (p : Nat → Bool) : Nat := (List.range n).foldl (fun a k => if p k then setM a k else a) 0

/-- The outputs are driven low: OFF, SHIP, and from the start of a reset until boot ends (R49, R61). -/
def Chip.outputsLow (m : Chip) : Bool := m.pwr.base = .off || m.pwr.base = .ship || m.pwr.base = .boot

/-- Branches whose GEN is high (R358). -/
def Chip.genMask (m : Chip) : Nat := maskOf 24 (fun n => (m.branch n).gen)

/-- Some latched severity of WARN or above has its record readable (R552). -/
def Chip.errLow (m : Chip) : Bool :=
  (List.range 192).any (fun s => NTab.get false m.flt.err s && (1 ≤ m.fld .fltFlag s 30 28 : Bool))

/-- A bit of EVT_PENDd is set (R556). -/
def Chip.evtAny (m : Chip) (d : Nat) : Bool := (List.range 8).any (fun w => m.get .evtPend (8 * d + w) != 0)

/-- The high-side or low-side switches of a stage that are turned on in the present period, while the peer interlock permits
(R25, R297, R580). -/
def Chip.pwmMask (m : Chip) (x : Nat) (hi : Bool) : Nat :=
  maskOf (phaseCount x) (fun k => m.gateOpen && (if hi then (m.phasePins x k).1 else (m.phasePins x k).2))

/-- The pins that a chip in this state drives. -/
def Chip.pinsOf (m : Chip) : Pins :=
  if m.outputsLow then Pins.init
  else
    { gen := m.genMask, gdrv := m.genMask, seqEn := m.seq.en, rstN := m.seq.rst, strSw := maskOf 4 (fun n => (m.bstr n).ssw),
      bcvHi := m.pwmMask 0 true, bcvLo := m.pwmMask 0 false,
      axcHi := m.pwmMask 1 true, axcLo := m.pwmMask 1 false, syncOut := m.syncOut, irqN0 := !m.evtAny 0, irqN1 := !m.evtAny 1, errN := !m.errLow,
      intlkOut := m.spl.out }

/-- The pins are driven as the state says. -/
def Chip.drive (m : Chip) : Chip := { m with pins := m.pinsOf }

/-! ### The machines that watch -/

/-- The charger's holds have changed (R381, R384): its timers counted as they did before, and CB and VREG are recomputed. -/
def Chip.chgSettle (m old : Chip) : Chip :=
  if m.up && (m.chgHold != old.chgHold || m.chgTFrozen != old.chgTFrozen) then
    (m.batTick old.chgFrozen).chgCompute
  else m

/-- MODE_CHANGE at every change of the reported mode (R542). -/
def Chip.modeSettle (m old : Chip) : Chip := if m.mode = old.mode then m else m.event 229

/-- The converter stages: the clamps, and the phases whose period has started (R302, R326). -/
def Chip.cnvSettle (m old : Chip) : Chip := ((m.clampEval old).phaseStarts 0 false).phaseStarts 1 false

/-- The LNK domain has come on: beacons are awaited from now on (R516, R518). -/
def Chip.linkAwake (m old : Chip) : Chip :=
  if m.dom 9 != .on || old.dom 9 = .on then m
  else (List.range 4).foldl (fun m n => m.putSeg n { m.seg n with beaconAt := m.now }) m

/-- The watching machines, in order. -/
def Chip.react (m old : Chip) : Chip :=
  let m := ((m.linkAwake old).settleLegs.unblockedNotes).polReact old
  let m := (m.when m.up (fun m => m.capDerive old)).when m.up (fun m => m.cnvSettle old)
  let m := ((m.polBaseSet).when m.up (fun m => (((m.standbyConn old).batWatch old).estWatch).ptnWatch)).chgSettle old
  let m := ((m.splEval).divWatch).modeSettle old
  (m.journal old).leaveEval

/-- What follows a command: the watching machines, then the pins. -/
def Chip.settle (m old : Chip) : Chip := (m.react old).drive

end Sys2Proof.Machine
end

