-- ==== Sys2Proof/Machine/State.lean ====
section
/-!
DEFINITION. The state of the block: the chip (Machine/Chip.lean holds every register, memory, queue, mode and pin) and the
queue of waiting commands; the state after reset; why a command may stop.
-/

namespace Sys2Proof.Machine

/-- Why the machine may stop with a fault. No command ends in one: the spec gives every command of the table an effect. The
one constructor stands for an access to an address that the model's tables do not hold; nothing raises it (safe). -/
inductive Fault where
  | unmapped (addr : Nat)
  deriving DecidableEq, Repr

/-- Why a command may be refused. `notModelled` is raised only by an arm of Machine/Dispatch.lean whose command has no
meaning yet, and there is none (safe). -/
inductive Refusal where
  | notModelled (mnemonic : String)
  deriving DecidableEq, Repr

/-- The state of the block: the chip, and the commands that wait, first in, first out. -/
structure State where
  m : Chip
  pending : List Instr
  deriving DecidableEq, Repr

/-- The block right after the release of its first power-on reset, with no command waiting. -/
def State.reset : State := { m := Chip.init, pending := [] }

end Sys2Proof.Machine
end

