-- ==== Sys2Proof/Machine/Rows.lean ====
section
/-!
DEFINITION. How a command's effect becomes its outcome, and the operations that only the commands' meanings use: the
accesses that are written as a command of their own, and what a command's frame or sample adds to its block's operation.
-/

namespace Sys2Proof.Machine

/-- The outcome of a command. -/
abbrev Step := Host.Outcome State Fault Refusal

/-- A command has left the chip `m`: the machines that watch react, the pins are driven, the queue stays as it is. -/
def State.finish (s : State) (m : Chip) : Step := .next { m := m.settle s.m, pending := s.pending }

/-- Something that can happen only while the part is powered: neither OFF nor SHIP. -/
def Chip.whenAlive (m : Chip) (f : Chip → Chip) : Chip := m.when m.alive f

/-- Something that can happen only once boot has finished. -/
def Chip.whenUp (m : Chip) (f : Chip → Chip) : Chip := m.when m.up f

/-! ### Accesses that are commands -/

/-- A read of a register named by its row. -/
def Chip.regRd (m : Chip) (ag : Agent) (r : RName) (i : Nat) : Chip := m.portRead ag (r.addr i)

/-- A write of LAY_CMD: the code in [7:0], the strand or the owner in [15:8]. -/
def Chip.layCommand (m : Chip) (ag : Agent) (code k : Nat) : Chip := m.regWrite ag .layCmd 0 (wd (code + k * 256))

/-- A write of BAT_CMD: the code in [3:0], the string in [9:8]. -/
def Chip.batCommand (m : Chip) (ag : Agent) (code n : Nat) : Chip := m.regWrite ag .batCmd 0 (wd (code + n * 256))

/-- A write of a word of a loop slot. -/
def Chip.loopWordWrite (m : Chip) (ag : Agent) (s w : Nat) (d : Word) : Chip := m.portWrite ag (loopAddr s w) d

/-- A write of an authority mask: 0 the host's, 1 the service port's, 2 the peer's. -/
def Chip.authWrite (m : Chip) (ag : Agent) (o : Nat) (d : Word) : Chip :=
  m.regWrite ag (if o = 0 then .hstAuthHost else if o = 1 then .hstAuthSvc else .hstAuthPeer) 0 d

/-- PWRM_CMD SHIP (R392): the access of any port, with the strings in `welded` whose switch still conducts afterwards, and whether the
supplies collapse in its store write. -/
def Chip.shipCmd (m : Chip) (ag : Agent) (welded : Nat) (collapse : Bool) : Chip :=
  let a := RName.addr .pwrmCmd 0
  let shut := m.portShut || (ag = .svc && m.upd.session < 2)
  if !shut && (m.writeVerdict ag a 3).isNone then (m.ship welded collapse).respond ag .ok 0 else m.portWrite ag a 3

/-! ### Samples and frames -/

/-- A conversion result reaches ACQ's consumers the capture units that its channel paces, and the estimator (R169, R404, R617). -/
def Chip.conversionRow (m : Chip) (n c raw sub : Nat) : Chip :=
  (m.conversionResult n c raw sub).when (m.chExists c && m.converts n c) (fun m => (m.capPace c).estSample c)

/-- A meter result of a branch, in a powered PWM domain, and the capture units that it paces (R349, R617). -/
def Chip.meterRow (m : Chip) (n : Nat) (i : Int) (v : Nat) (want : Int) (gfb : Bool) : Chip :=
  if m.dom 8 = .on then ((m.branchMeter n i v want gfb).capPace (128 + n)).capPace (192 + n)
  else m.brnSeeGfb n gfb

/-- A peer frame reaches a chip that is powered. -/
def Chip.peerFrame (m : Chip) (good : Bool) (f : Chip → Chip) : Chip := m.whenAlive (fun m => m.peerRx good f)

/-- The policy firmware acknowledges an event that pair A (destination 2) or B (destination 3) has taken (R556). -/
def Chip.pairAck (m : Chip) (b : Bool) (src : Nat) : Chip :=
  m.whenUp (fun m => m.putF .evtPend ((if b then 24 else 16) + src / 32) (src % 32) (src % 32) 0)

/-- The bytes of a TAG field, where a frame has one. -/
def tagOf (tag : Option (List Byte)) : Option (List Nat) := tag.map (fun bs => bs.map BitVec.toNat)

end Sys2Proof.Machine
end

