-- ==== Sys2Proof/Machine/AcquireRows.lean ====
section
/-!
DEFINITION. The meanings of the commands of acquisition and the control loop engine: one for each row, each one call
of its operation.
-/

namespace Sys2Proof.Machine

/-- CONVERSION_RESULT (R169): A converter result goes in one fabric cycle to every consumer of its channel. -/
def execConversionResult (n : Fin 4) (c : Fin 95) (raw : BitVec 16) (sub : Fin 200) (s : State) : Step :=
  s.finish (s.m.conversionRow n c raw.toNat sub)

/-- ACQ_SCAN_BOUNDARY (R167): At a running converter's scan boundary pending mask and DIV writes take effect. -/
def execAcqScanBoundary (n : Fin 4) (s : State) : Step := s.finish (s.m.scanBoundary n)

/-- ACQ_QPOP1_READ (R178): A read of ACQ_QPOP1 by the queue owner returns word 1 and removes the oldest entry. -/
def execAcqQpop1Read (ag : Agent) (s : State) : Step := s.finish (s.m.regRd ag .acqQpop1 0)

/-- ACQ_RES_READ (R185): A read of ACQ_RESc returns the latest result and clears NEW and OVR. -/
def execAcqResRead (ag : Agent) (c : Fin 95) (s : State) : Step := s.finish (s.m.regRd ag .acqRes c)

/-- ACQ_CAL (R174): ACQ_CMD CAL starts calibration of an interleaved pair. -/
def execAcqCal (ag : Agent) (p : Fin 2) (s : State) : Step := s.finish (s.m.regWrite ag .acqCmd 0 (wd (p + 1)))

/-- ACQ_CAL_DONE (R174): A calibration ends, writing trims or raising ACQ_CAL_FAIL. -/
def execAcqCalDone (offs : Int) (gain : Int) (s : State) : Step := s.finish (s.m.calDone offs gain)

/-- QFLUSH (R182): ACQ_CMD QFLUSH discards every queue entry and sets gap flags. -/
def execQflush (ag : Agent) (s : State) : Step := s.finish (s.m.regWrite ag .acqCmd 0 3)

/-- ACQ_TRACK_UPDATE (R175): After 65,536 sample pairs TRACK moves OFFS by at most 1. -/
def execAcqTrackUpdate (p : Fin 2) (_mean0 : Known) (_mean1 : Known) (s : State) : Step := s.finish (s.m.trackUpdate p)

/-- ACM_UNLOCK (R192): Phase error above 20° for 40 ms clears LOCK. -/
def execAcmUnlock (s : State) : Step := s.finish s.m.acmUnlock

/-- ACM_LOCK (R192): Phase error below 5° for 100 ms sets LOCK. -/
def execAcmLock (s : State) : Step := s.finish s.m.acmLock

/-- ACM_SAG_ONSET (R197): QDEV consecutive deviating scans move the sag detector to ONSET. -/
def execAcmSagOnset (_phases : Known) (s : State) : Step := s.finish (s.m.acmOnset false)

/-- ACM_SAG_CONFIRM (R197): VEQ below THR for CONFQ scans confirms the sag. -/
def execAcmSagConfirm (s : State) : Step := s.finish (s.m.acmConfirm false)

/-- ACM_SAG_CANCEL (R197): QDEV non-deviating scans with VEQ restored cancel an onset. -/
def execAcmSagCancel (s : State) : Step := s.finish (s.m.acmCancel false)

/-- ACM_SAG_END (R197): VEQ restored for ENDQ with LOCK set ends a confirmed sag. -/
def execAcmSagEnd (s : State) : Step := s.finish (s.m.acmEnd false)

/-- ACM_SWELL_ONSET (R198): QDEV consecutive swell-deviating scans move the swell detector to ONSET. -/
def execAcmSwellOnset (_phases : Known) (s : State) : Step := s.finish (s.m.acmOnset true)

/-- ACM_SWELL_CONFIRM (R198): VEQ above THR for CONFQ scans confirms the swell. -/
def execAcmSwellConfirm (s : State) : Step := s.finish (s.m.acmConfirm true)

/-- ACM_SWELL_CANCEL (R198): A swell onset is cancelled. -/
def execAcmSwellCancel (s : State) : Step := s.finish (s.m.acmCancel true)

/-- ACM_SWELL_END (R198): A confirmed swell ends after ENDQ. -/
def execAcmSwellEnd (s : State) : Step := s.finish (s.m.acmEnd true)

/-- SLOT_RUN (R218): Writing RUN = 1 validates the chain, commits all blocks, binds the output and arms the slot. -/
def execSlotRun (ag : Agent) (s : Fin 64) (ctl : Word) (x : State) : Step :=
  x.finish (x.m.loopWordWrite ag s 0 (setBit ctl 0 true))

/-- SLOT_STOP (R218): Writing RUN = 0 stops an armed slot or releases a read fenced slot. -/
def execSlotStop (ag : Agent) (s : Fin 64) (ctl : Word) (x : State) : Step :=
  x.finish (x.m.loopWordWrite ag s 0 (setBit ctl 0 false))

/-- SLOT_STOP_COMPLETE (R218): After its running sample finishes a stopping slot enters STOPPED, applies STOPACT and
releases its output. -/
def execSlotStopComplete (s : Fin 64) (x : State) : Step := x.finish (x.m.slotStopComplete s)

/-- LOOP_SP_WRITE (R227): A write to a slot's SP replaces the ramp target without a step. -/
def execLoopSpWrite (ag : Agent) (s : Fin 64) (d : Word) (x : State) : Step := x.finish (x.m.loopWordWrite ag s 2 d)

/-- CLE_COMMIT (R231): A CLE_COMMIT write validates and buffers staged block words for a slot. -/
def execCleCommit (ag : Agent) (s : Fin 64) (mask : BitVec 8) (x : State) : Step :=
  x.finish (x.m.regWrite ag .cleCommit 0 (wd (s + mask.toNat * 256)))

/-- CLE_KICK (R223): A write of CLE_KICK triggers a sample of an armed slot. -/
def execCleKick (ag : Agent) (s : Fin 64) (x : State) : Step := x.finish (x.m.regWrite ag .cleKick 0 (wd s))

/-- LOOP_TRIGGER (R223): A slot's trigger source fires its DECIM-th occurrence and a sample becomes pending. -/
def execLoopTrigger (s : Fin 64) (x : State) : Step := x.finish (x.m.loopTrigger s)

/-- LOOP_SAMPLE_START (R224): A pending sample is dispatched to a free lane, latches its sources and moves SPACT. -/
def execLoopSampleStart (delay : Nat) (s : State) : Step := s.finish (s.m.sampleStart delay)

/-- LOOP_SAMPLE_DONE (R226): A sample completes its chain and the output block writes or submits its value. -/
def execLoopSampleDone (s : Fin 64) (x : State) : Step := x.finish (x.m.sampleDone s)

/-- PLAUSIBILITY (R238): PLANT's out-of-band count reaching TIME raises PLAUSIBILITY and applies its reaction. -/
def execPlausibility (s : Fin 64) (x : State) : Step := x.finish (x.m.plausibility s)

/-- PREDICT_CONFW_ELAPSED (R242): The confirm window elapsing or a cancel moves PREDICT to RETRACTING and retracts the
generation. -/
def execPredictConfwElapsed (s : Fin 64) (x : State) : Step := x.finish (x.m.confElapsed s)

end Sys2Proof.Machine
end

