-- ==== Sys2Proof/Machine/BatteryRows.lean ====
section
/-!
DEFINITION. The meanings of the commands of the battery path and its estimation: one for each row, each one call of
its operation.
-/

namespace Sys2Proof.Machine

/-- CONNECT (R374): BAT_CMD CONNECT closes an OPEN string or starts MATCHING. -/
def execConnect (ag : Agent) (n : Fin 4) (s : State) : Step := s.finish (s.m.batCommand ag 1 n)

/-- CONNECTF (R374): BAT_CMD CONNECTF closes an OPEN string without matching. -/
def execConnectf (ag : Agent) (n : Fin 4) (s : State) : Step := s.finish (s.m.batCommand ag 2 n)

/-- DISCONNECT (R374): BAT_CMD DISCONNECT opens a CLOSED or MATCHING string. -/
def execDisconnect (ag : Agent) (n : Fin 4) (s : State) : Step := s.finish (s.m.batCommand ag 3 n)

/-- SUSPEND (R384): BAT_CMD SUSPEND holds the charger. -/
def execSuspend (ag : Agent) (s : State) : Step := s.finish (s.m.batCommand ag 4 0)

/-- CHG_RESUME (R384): BAT_CMD RESUME lifts the SUSPEND hold. -/
def execChgResume (ag : Agent) (s : State) : Step := s.finish (s.m.batCommand ag 5 0)

/-- CHG_RESTART (R385): BAT_CMD RESTART restarts the charger decision from IDLE. -/
def execChgRestart (ag : Agent) (s : State) : Step := s.finish (s.m.batCommand ag 6 0)

/-- BAT_INSERTED (R374): V at or above VPRES for INSQ moves an ABSENT string to OPEN and starts the identity read. -/
def execBatInserted (n : Fin 4) (s : State) : Step := s.finish (s.m.strInserted n)

/-- STRING_IDENTITY_READ (R378): The identity read completes and AUTOCONN and the estimator's insertion start act. -/
def execStringIdentityRead (n : Fin 4) (_good : Known) (_w : Known) (s : State) : Step := s.finish (s.m.strIdentity n)

/-- STRING_MATCHED (R374): A matching string within VMATCH for 1 s closes. -/
def execStringMatched (n : Fin 4) (s : State) : Step := s.finish (s.m.strMatched n)

/-- STR_MATCH_TIMEOUT (R374): MATCHT elapsing returns a matching string to OPEN. -/
def execStrMatchTimeout (n : Fin 4) (s : State) : Step := s.finish (s.m.strMatchTimeout n)

/-- STR_SWITCH_FAIL (R374): Missing switch feedback opens a CLOSED string. -/
def execStrSwitchFail (n : Fin 4 × Bool) (s : State) : Step := s.finish (s.m.strSwitchFail n.1 n.2)

/-- STR_SWITCH_WELD (R374): Feedback still active SWT after opening moves the string to STUCK. -/
def execStrSwitchWeld (n : Fin 4) (s : State) : Step := s.finish (s.m.strSwitchWeld n)

/-- STRING_UNSTUCK (R374): Switch feedback going inactive moves a STUCK string to OPEN. -/
def execStringUnstuck (n : Fin 4) (s : State) : Step := s.finish (s.m.strUnstuck n)

/-- STRING_ABSENT (R374): V below VPRES for 100 ms moves an OPEN or MATCHING string to ABSENT. -/
def execStringAbsent (n : Fin 4) (s : State) : Step := s.finish (s.m.strAbsent n)

/-- BAT_REMOVED (R377): A CLOSED string below VPRES for 100 µs or after converter removal is removed and frozen. -/
def execBatRemoved (_mask : Known) (s : State) : Step := s.finish s.m.batRemoved

/-- STR_UNDERVOLT (R376): V below VCUT for 1 s raises STR_UNDERVOLT and may open the string. -/
def execStrUndervolt (n : Fin 4) (s : State) : Step := s.finish (s.m.strUndervolt n)

/-- STR_OVERCURRENT (R376): Discharge above ISTRMAX for 10 ms raises STR_OVERCURRENT and may open the string. -/
def execStrOvercurrent (n : Fin 4) (s : State) : Step := s.finish (s.m.strOvercurrent n)

/-- CHARGE_RECOMPUTE (R381): Every 100 ms the charger recomputes CB and VREG. -/
def execChargeRecompute (s : State) : Step := s.finish (s.m.whenUp Chip.chargeRecompute)

/-- CHG_ENTRY_REST_END (R385): TREST elapsing in ENTRY chooses TRICKLE, PRECHG or BULK from the rest-end voltage. -/
def execChgEntryRestEnd (_v : Known) (s : State) : Step := s.finish s.m.entryRestEnd

/-- CHG_TRICKLE_DONE (R385): V at or above VLOW for 10 s moves TRICKLE to PRECHG. -/
def execChgTrickleDone (s : State) : Step := s.finish s.m.trickleDone

/-- CHG_PRECHG_DONE (R385): V at or above VPRE for 10 s moves PRECHG to BULK. -/
def execChgPrechgDone (s : State) : Step := s.finish s.m.prechgDone

/-- CHG_NOACCEPT (R385): TTRK or TPRE elapsing moves the charger to FAULT. -/
def execChgNoaccept (s : State) : Step := s.finish s.m.chgNoaccept

/-- CHG_ON_INTERVAL_END (R386): An ON interval of TON ends and a native rest begins. -/
def execChgOnIntervalEnd (s : State) : Step := s.finish s.m.onIntervalEnd

/-- CHG_REST_END (R386): A native rest ends, is judged valid, reported to EST and may move BULK to TOPOFF. -/
def execChgRestEnd (_v : Known) (_steady : Known) (s : State) : Step := s.finish s.m.restEnd

/-- CHG_TERMINATION (R386): Charge current below the termination threshold ends TOPOFF in DONE or FLOAT. -/
def execChgTermination (s : State) : Step := s.finish s.m.chgTerminate

/-- CHG_TIMEOUT (R385): TCHG elapsing since BULK entry moves the charger to FAULT. -/
def execChgTimeout (s : State) : Step := s.finish s.m.chgTimeout

/-- CHG_RECHARGE (R385): V below VRCH in DONE or FLOAT restarts BULK. -/
def execChgRecharge (s : State) : Step := s.finish s.m.chgRecharge

/-- CHG_OVERVOLT (R385): V above VOVP for 100 ms moves the charger to FAULT. -/
def execChgOvervolt (s : State) : Step := s.finish s.m.chgOvervolt

/-- WAKE_BUTTON (R393): WAKE_N low for WAKET in SHIP wakes the device. -/
def execWakeButton (s : State) : Step := s.finish s.m.wakeButton

/-- WAKE_SOURCE (R393): SHIP_SRC above its threshold for 100 ms in SHIP wakes the device. -/
def execWakeSource (present : Bool) (s : State) : Step := s.finish (s.m.wakeSource present)

/-- EST_UPDATE (R408): Every 100 ms the estimator advances SOC, VPOL and SIGMA and applies corrections. -/
def execEstUpdate (s : State) : Step := s.finish s.m.estUpdate

/-- EST_WINDOW_END (R405): A correlation window of NCYC cycles ends and writes the impedance if valid. -/
def execEstWindowEnd (n : Fin 4) (t : Fin 8) (_isum : Known) (_icos : Known) (_vsum : Known) (_vcos : Known) (_samples
    : Known) (_clean : Known) (s : State) : Step :=
  s.finish (s.m.windowEnd n t)

/-- EST_STEP (R407): A qualifying current step yields R0. -/
def execEstStep (n : Fin 4) (_di : Known) (_dv : Known) (s : State) : Step := s.finish (s.m.estStep n)

/-- EST_STEP_TSTEP (R407): TSTEP after a step yields RPOL and TAU. -/
def execEstStepTstep (n : Fin 4) (_dv : Known) (_t63 : Known) (s : State) : Step := s.finish (s.m.estTstep n)

/-- EST_MODULE_READ (R415): Every 10 s module voltages are read through the module monitor. -/
def execEstModuleRead (n : Fin 4) (_count : Known) (s : State) : Step := s.finish (s.m.moduleRead n)

/-- EST_STORE_PERIODIC (R421): WPERIOD elapsing starts a learned-value store write. -/
def execEstStorePeriodic (s : State) : Step := s.finish (s.m.whenUp Chip.storePeriodic)

/-- EST_STORED (R420): A store write commits and EST_STORED is raised. -/
def execEstStored (s : State) : Step := s.finish s.m.storeDone

/-- EST_STORE_RETRY (R422): Within 1 s of a re-arm the estimator rewrites an abandoned store write. -/
def execEstStoreRetry (s : State) : Step := s.finish s.m.storeRetry

/-- EST_STORE (R421): EST_CMD STORE requests a store write. -/
def execEstStore (ag : Agent) (s : State) : Step := s.finish (s.m.regWrite ag .estCmd 0 1)

/-- RELEARN (R417): EST_CMD RELEARN restarts a string as an unknown identity. -/
def execRelearn (ag : Agent) (n : Fin 4) (s : State) : Step := s.finish (s.m.regWrite ag .estCmd 0 (wd (2 + n * 256)))

/-- FORGET (R424): EST_CMD FORGET discards a frozen record. -/
def execForget (ag : Agent) (k : Fin 16) (s : State) : Step := s.finish (s.m.regWrite ag .estCmd 0 (wd (3 + k * 256)))

end Sys2Proof.Machine
end

