-- ==== Sys2Proof/Machine/BranchRows.lean ====
section
/-!
DEFINITION. The meanings of the commands of the branch channels: one for each row, each one call of its operation.
-/

namespace Sys2Proof.Machine

/-- BRANCH_ON_CMD (R358): BRN_n_CMD ON takes an OFF branch to INRUSH, retries a TRIPPED one or re-enables a LATCHED
one. -/
def execBranchOnCmd (ag : Agent) (n : Fin 24) (s : State) : Step := s.finish (s.m.regWrite ag .brnNCmd n 1)

/-- BRANCH_OFF (R358): BRN_n_CMD OFF takes a branch to OFF with retry count 0. -/
def execBranchOff (ag : Agent) (n : Fin 24) (s : State) : Step := s.finish (s.m.regWrite ag .brnNCmd n 2)

/-- BRANCH_UNFENCE (R358): BRN_n_CMD UNFENCE returns a FENCED branch to OFF once its flag has been read. -/
def execBranchUnfence (ag : Agent) (n : Fin 24) (s : State) : Step := s.finish (s.m.regWrite ag .brnNCmd n 3)

/-- ECLR (R351): BRN_n_CMD ECLR returns the branch energy accumulator to 0. -/
def execEclr (ag : Agent) (n : Fin 24) (s : State) : Step := s.finish (s.m.regWrite ag .brnNCmd n 4)

/-- BRANCH_METER_SAMPLE (R349): Every 8 µs the branch meters deliver a result and energy accumulates. -/
def execBranchMeterSample (n : Fin 24) (cur : Int) (v : BitVec 16) (want : Int) (gfb : Bool) (s : State) : Step :=
  s.finish (s.m.meterRow n cur v.toNat want gfb)

/-- BRANCH_AVG_WINDOW (R353): At the end of each AVGWIN the mean current, voltage and power are updated. -/
def execBranchAvgWindow (n : Fin 24) (s : State) : Step := s.finish (s.m.branchAvg n)

/-- BRN_ELO_READ (R352): A read of BRN_n_ELO returns the low energy word and latches the high word. -/
def execBrnEloRead (ag : Agent) (n : Fin 24) (s : State) : Step := s.finish (s.m.regRd ag .brnNElo n)

/-- BRANCH_TRIP (R357): The fast trip comparator deasserts GEN within 250 ns and the branch enters TRIPPED. -/
def execBranchTrip (n : Fin 24 × Int) (s : State) : Step := s.finish (s.m.brnLocal n.1 (fun m => m.branchTrip n.1 n.2))

/-- BRANCH_ON (R358): INRUSH with the limit not acting for INRQ and VS at VPG moves the branch to ON. -/
def execBranchOn (n : Fin 24) (s : State) : Step := s.finish (s.m.brnLive (fun m => m.branchOn n))

/-- BRANCH_INRUSH_TIMEOUT (R358): INRT elapsing in INRUSH trips the branch. -/
def execBranchInrushTimeout (n : Fin 24) (s : State) : Step :=
  s.finish (s.m.brnLocal n (fun m => m.branchInrushTimeout n))

/-- BRANCH_INRUSH_SHORT (R358): VS below VPG/10 at INSHT trips the branch. -/
def execBranchInrushShort (n : Fin 24) (s : State) : Step := s.finish (s.m.brnLocal n (fun m => m.branchInrushShort n))

/-- BRANCH_OVERLOAD (R358): The limit acting continuously for OLT in ON trips the branch. -/
def execBranchOverload (n : Fin 24) (s : State) : Step := s.finish (s.m.brnLocal n (fun m => m.branchOverload n))

/-- GATE_FAIL (R360): A gate that fails to rise, drops or fails to fall raises GATE_FAIL. -/
def execGateFail (n : Fin 24) (kind : Fin 3) (s : State) : Step :=
  s.finish (s.m.brnLocal n (fun m => m.gateFail n kind))

/-- BRANCH_RETRY (R358): RETRYDLY elapsing in TRIPPED retries the branch in INRUSH. -/
def execBranchRetry (n : Fin 24) (s : State) : Step := s.finish (s.m.brnLive (fun m => m.branchRetry n))

/-- BRANCH_PASS_SHORT (R361): Current above OFFLEAK for 10 ms while off latches the branch. -/
def execBranchPassShort (n : Fin 24) (s : State) : Step :=
  s.finish (s.m.whenUp (fun m => m.brnLocal n (fun m => m.branchPassShort n)))

/-- BRANCH_AUTOON_STAGGER (R362): BRN_STAGGER after the previous branch leaves INRUSH the next AUTOON branch is turned
on. -/
def execBranchAutoonStagger (s : State) : Step := s.finish s.m.brnAutoNext

end Sys2Proof.Machine
end

