-- ==== Sys2Proof/Machine/ConverterRows.lean ====
section
/-!
DEFINITION. The meanings of the commands of the converter stages: one for each row, each one call of its operation.
-/

namespace Sys2Proof.Machine

/-- STAGE_START (R315): CNV_x_CMD START moves a stopped stage into SOFTSTART or refuses an invalid configuration. -/
def execStageStart (ag : Agent) (x : Fin 2) (s : State) : Step := s.finish (s.m.regWrite ag .cnvXCmd x 1)

/-- STAGE_STOP (R315): CNV_x_CMD STOP ramps a stage down in STOPPING or stops it from HICCUP. -/
def execStageStop (ag : Agent) (x : Fin 2) (s : State) : Step := s.finish (s.m.regWrite ag .cnvXCmd x 2)

/-- PHASE_UNFENCE (R336): CNV_x_CMD UNFENCE_PH returns a fenced phase to the active set at the next START. -/
def execPhaseUnfence (ag : Agent) (x : Fin 2) (k : Fin 8) (s : State) : Step :=
  s.finish (s.m.regWrite ag .cnvXCmd x (wd (3 + k * 256)))

/-- STAGE_UNFENCE (R315): CNV_x_CMD UNFENCE returns a FENCED stage to STOPPED once its flag has been read. -/
def execStageUnfence (ag : Agent) (x : Fin 2) (s : State) : Step := s.finish (s.m.regWrite ag .cnvXCmd x 4)

/-- STAGE_BOUNDARY (R302): At each stage boundary the current regulator runs and re-spacing and new commands apply. -/
def execStageBoundary (x : Fin 2) (cur : List Int) (_fast : Known) (_paused : Known) (s : State) : Step :=
  s.finish (s.m.stageBoundary x cur)

/-- PHASE_ROTATION (R305): Every ROTP periods each active phase moves one slot later unless deferred. -/
def execPhaseRotation (x : Fin 2) (s : State) : Step := s.finish (s.m.phaseRotation x)

/-- SOFTSTART_CHECKPOINT (R317): A soft-start checkpoint judges the check-side voltage, passing to RUN or failing to
HICCUP or FENCED. -/
def execSoftstartCheckpoint (x : Fin 2) (s : State) : Step := s.finish (s.m.checkpoint x)

/-- HICCUP_ELAPSED (R319): HICCUP elapsing restarts the stage in SOFTSTART. -/
def execHiccupElapsed (x : Fin 2) (s : State) : Step := s.finish (s.m.hiccupElapsed x)

/-- STOPPING_DONE (R320): A quiet stage or 10 ms in STOPPING ends in STOPPED. -/
def execStoppingDone (x : Fin 2) (s : State) : Step := s.finish (s.m.stoppingDone x)

/-- CNV_SHORT (R318): 16 × SCCYC consecutive limited periods in RUN below target voltage quick-stop the stage. -/
def execCnvShort (x : Fin 2) (s : State) : Step := s.finish (s.m.cnvShort x)

/-- FAST_LIMIT (R312): A phase current crossing FASTLIM ends the active switch's on-time for that period. -/
def execFastLimit (x : Fin 2) (k : Fin 8 × Int) (s : State) : Step := s.finish (s.m.fastLimit x k.1 k.2)

/-- PHASE_SC (R313): A phase current crossing SCLIM turns both switches off and raises PHASE_SC. -/
def execPhaseSc (x : Fin 2) (k : Fin 8 × Int) (s : State) : Step := s.finish (s.m.phaseSc x k.1 k.2)

/-- PHASE_SC_RESUME (R313): After 15 further periods a short-circuited phase resumes in diode emulation. -/
def execPhaseScResume (x : Fin 2) (k : Fin 8) (s : State) : Step := s.finish (s.m.phaseScResume x k)

/-- CNV_OVERLOAD (R314): The slow limit acting for OVLT raises CNV_OVERLOAD. -/
def execCnvOverload (x : Fin 2) (s : State) : Step := s.finish (s.m.cnvOverload x)

/-- PHASE_IMBALANCE (R306): A phase outside the imbalance threshold for IMBN windows raises PHASE_IMBALANCE. -/
def execPhaseImbalance (x : Fin 2) (k : Fin 8) (_iavg : Known) (s : State) : Step := s.finish (s.m.phaseImbalance x k)

/-- ZERO_CROSSING (R309): A zero comparator change during the synchronous interval turns the switch off in diode
emulation. -/
def execZeroCrossing (x : Fin 2) (k : Fin 8 × BitVec 12 × BitVec 16) (s : State) : Step :=
  s.finish (s.m.zeroCrossing x k.1 k.2.1.toNat k.2.2.toNat)

/-- DE_ENTRY (R310): DECNT consecutive periods with a zero crossing put a phase in diode emulation. -/
def execDeEntry (x : Fin 2) (k : Fin 8) (s : State) : Step := s.finish (s.m.deEntry x k)

/-- DE_EXIT (R310): DECNT consecutive periods without a crossing take a phase out of diode emulation. -/
def execDeExit (x : Fin 2) (k : Fin 8) (s : State) : Step := s.finish (s.m.deExit x k)

/-- BATTERY_REMOVAL_DETECT (R325): Low current with a LO voltage rise declares battery removal and quick-stops the
BCV. -/
def execBatteryRemovalDetect (s : State) : Step := s.finish s.m.batteryRemoval

/-- SYNCIN_EDGE (R327): A SYNCIN rising edge within the window adjusts the stage period toward lock. -/
def execSyncinEdge (per : Nat) (s : State) : Step := s.finish (s.m.whenUp (fun m => m.syncEdge per))

/-- SYNC_LOCK (R327): Edge error below 10 ns for 16 periods sets LOCK and raises SYNC_LOCK. -/
def execSyncLock (x : Fin 2) (s : State) : Step := s.finish (s.m.syncLock x)

/-- SYNC_LOSS (R328): Two consecutive missing sync edges clear LOCK and slew the period back. -/
def execSyncLoss (x : Fin 2) (s : State) : Step := s.finish (s.m.syncLoss x)

/-- CNV_VCMD (R323): A write of CNV_x_VCMD sets the voltage slot's SP and SPSLEW and supersedes any outstanding
command. -/
def execCnvVcmd (ag : Agent) (x : Fin 2) (d : Word) (s : State) : Step := s.finish (s.m.regWrite ag .cnvXVcmd x d)

/-- CNV_VDONE_READ (R324): A read of CNV_x_VDONE returns and removes the oldest completion entry. -/
def execCnvVdoneRead (ag : Agent) (x : Fin 2) (s : State) : Step := s.finish (s.m.regRd ag .cnvXVdone x)

/-- PERT_TONE_CHANGE (R331): A tone's new FREQ or AMP takes effect at its next upward zero crossing. -/
def execPertToneChange (t : Fin 8) (s : State) : Step := s.finish (s.m.toneChange t)

end Sys2Proof.Machine
end

