-- ==== Sys2Proof/Machine/FaultRows.lean ====
section
/-!
DEFINITION. The meanings of the commands of faults, events and security: one for each row, each one call of its
operation.
-/

namespace Sys2Proof.Machine

/-- FAULT_EVENT_DELIVERY (R557): Once a fault record is readable its event is delivered and ERR_N falls. -/
def execFaultEventDelivery (s : State) : Step := s.finish s.m.faultDeliver

/-- FLT_FLAG_READ (R550): A read of FLT_FLAGs returns and clears the latch, possibly raising ERR_N and clearing
COND_DEGR. -/
def execFltFlagRead (ag : Agent) (src : Fin 192) (s : State) : Step := s.finish (s.m.regRd ag .fltFlag src)

/-- FLT_SRC_WRITE (R548): A write to FLT_SRCs sets a source's severity subject to authority, range, lock and level. -/
def execFltSrcWrite (ag : Agent) (src : Fin 192) (d : Word) (s : State) : Step :=
  s.finish (s.m.regWrite ag .fltSrc src d)

/-- FLT_SWRAISE (R558): A write of FLT_SWRAISE raises SW_HOST or SW_SERVICE with a code. -/
def execFltSwraise (ag : Agent) (code : Byte) (s : State) : Step :=
  s.finish (s.m.regWrite ag .fltSwraise 0 (wd code.toNat))

/-- EVT_SWSET (R558): A write of EVT_SWSET raises SW_EVTn. -/
def execEvtSwset (ag : Agent) (n : Fin 16) (s : State) : Step := s.finish (s.m.regWrite ag .evtSwset 0 (wd n))

/-- EVT_ACK (R556): Writing 1 to EVT_PEND bits acknowledges host events and may release IRQ pins. -/
def execEvtAck (ag : Agent) (d : Fin 8) (w : Fin 8) (mask : Word) (s : State) : Step :=
  s.finish (s.m.regWrite ag .evtPend (8 * d + w) mask)

/-- EVT_ROUTE_WRITE (R555): A write of EVT_ROUTEs sets a source's route mask, pair bits kept. -/
def execEvtRouteWrite (ag : Agent) (src : Fin 256) (d : Word) (s : State) : Step :=
  s.finish (s.m.regWrite ag .evtRoute src d)

/-- SEC_TAMPER (R566): A tamper input at its alarm level for DEBOUNCE raises the alarm and its response. -/
def execSecTamper (k : Fin 4) (s : State) : Step := s.finish (s.m.tamper k)

/-- SEC_GLITCH (R566): A supply outside its glitch window for 5 ns raises the glitch alarm. -/
def execSecGlitch (s : State) : Step := s.finish (s.m.whenAlive (fun m => m.secCondition 4 true))

/-- SEC_CLOCK (R566): A PLL output off nominal or stopped raises the clock monitor alarm. -/
def execSecClock (s : State) : Step := s.finish (s.m.whenAlive (fun m => m.secCondition 5 true))

/-- SEC_ALARM_CFG_WRITE (R567): A write of SEC_ALARM_CFG sets alarm responses, lowering only with presence. -/
def execSecAlarmCfgWrite (ag : Agent) (d : Word) (s : State) : Step := s.finish (s.m.regWrite ag .secAlarmCfg 0 d)

/-- SEC_ALARM_FLG_READ (R572): A read of SEC_ALARM_FLG returns and clears latched alarms. -/
def execSecAlarmFlgRead (ag : Agent) (s : State) : Step := s.finish (s.m.regRd ag .secAlarmFlg 0)

/-- KEY_BEGIN (R571): SEC_KEY_CTL BEGIN opens provisioning of a key slot with presence. -/
def execKeyBegin (ag : Agent) (slot : Fin 4) (s : State) : Step :=
  s.finish (s.m.regWrite ag .secKeyCtl 0 (wd (slot + 256)))

/-- KEY_DATA (R571): A write of SEC_KEY_DATA appends one key word. -/
def execKeyData (ag : Agent) (d : Word) (s : State) : Step := s.finish (s.m.regWrite ag .secKeyData 0 d)

/-- KEY_COMMIT (R571): SEC_KEY_CTL COMMIT checks the key and replaces the slot. -/
def execKeyCommit (ag : Agent) (slot : Fin 4) (s : State) : Step :=
  s.finish (s.m.regWrite ag .secKeyCtl 0 (wd (slot + 512)))

/-- KEY_CANCEL (R571): SEC_KEY_CTL CANCEL ends provisioning without change. -/
def execKeyCancel (ag : Agent) (slot : Fin 4) (s : State) : Step :=
  s.finish (s.m.regWrite ag .secKeyCtl 0 (wd (slot + 768)))

end Sys2Proof.Machine
end

