-- ==== Sys2Proof/Machine/HostRows.lean ====
section
/-!
DEFINITION. The meanings of the commands of the host port, mailboxes, the shelf link and thermal readings: one for
each row, each one call of its operation.
-/

namespace Sys2Proof.Machine

/-- HOST_WRITE (R488): A host WRITE frame performs a register write and returns its status. -/
def execHostWrite (crcOk : Bool) (addr : BitVec 24) (d : Word) (s : State) : Step :=
  s.finish (s.m.hostWrite crcOk addr.toNat d)

/-- HOST_READ (R488): A host READ frame performs a read at the start byte and returns the data. -/
def execHostRead (crcOk : Bool) (addr : BitVec 24) (s : State) : Step := s.finish (s.m.hostRead crcOk addr.toNat)

/-- HOST_SUMMARY (R488): A host SUMMARY frame returns mode, ERR_N, mailbox and IRQ bits. -/
def execHostSummary (crcOk : Bool) (s : State) : Step := s.finish (s.m.hostSummary crcOk)

/-- HOST_REREAD (R488): A host REREAD frame repeats the last READ response. -/
def execHostReread (crcOk : Bool) (s : State) : Step := s.finish (s.m.hostReread crcOk)

/-- WIDTH_RESET (R487): A frame of 0xFF returns the host port to single width. -/
def execWidthReset (s : State) : Step := s.finish s.m.widthReset

/-- HOST_FRAME_ABORT (R491): HCS_N rising early discards or completes the frame per the irregular-frame table. -/
def execHostFrameAbort (a : HostAbort) (s : State) : Step := s.finish (s.m.hostAbort a)

/-- AUTH_MASK_WRITE (R495): A write to an authority mask narrows it by AND. -/
def execAuthMaskWrite (ag : Agent) (o : Fin 3) (d : Word) (s : State) : Step := s.finish (s.m.authWrite ag o d)

/-- MBX_TX_WRITE (R499): A port write to HST_MBX_c_TX queues a word and rings the receiver's doorbell. -/
def execMbxTxWrite (ag : Agent) (c : Fin 64) (d : Word) (s : State) : Step := s.finish (s.m.regWrite ag .hstMbxTx c d)

/-- MBX_RX_READ (R499): A port read of HST_MBX_c_RX removes and returns the oldest word. -/
def execMbxRxRead (ag : Agent) (c : Fin 64) (s : State) : Step := s.finish (s.m.regRd ag .hstMbxRx c)

/-- ECHO (R505): A firmware ECHO request returns its argument words. -/
def execEcho (c : Fin 64) (s : State) : Step := s.finish (s.m.echo c)

/-- VERSION (R505): A firmware VERSION request returns versions and digest bytes. -/
def execVersion (c : Fin 64) (s : State) : Step := s.finish (s.m.version c)

/-- FW_SNAPSHOT (R505): A firmware SNAPSHOT request reads up to 14 registers within 5 µs. -/
def execFwSnapshot (c : Fin 64) (s : State) : Step := s.finish (s.m.fwSnapshot c)

/-- FW_REQUEST_TIMEOUT (R505): Arguments missing 10 ms after a request header are answered with EPROTO. -/
def execFwRequestTimeout (c : Fin 64) (s : State) : Step := s.finish (s.m.requestTimeout c)

/-- RESP (R510): A RESP frame completes the in-flight link transaction with its tag. -/
def execResp (n : Fin 4) (src : Byte) (tag : BitVec 16) (st : Byte) (credit : BitVec 16) (bytes : List Byte) (s :
    State) : Step :=
  s.finish (s.m.linkResp n src.toNat tag.toNat st.toNat credit.toNat (bytes.map BitVec.toNat))

/-- STREAM (R514): A STREAM frame's readings are written to the telemetry ring. -/
def execStream (n : Fin 4) (src : Byte) (credit : BitVec 16) (readings : List (BitVec 16 × Word)) (s : State) : Step
    :=
  s.finish (s.m.linkStream n src.toNat credit.toNat (readings.map (fun r => (r.1.toNat, r.2.toNat))))

/-- CREDIT (R513): A partner's reported credits replace PTN's counts. -/
def execCredit (n : Fin 4) (src : Byte) (credit : BitVec 16) (s : State) : Step :=
  s.finish (s.m.linkCredit n src.toNat credit.toNat)

/-- IDRESP (R514): An IDRESP answering an identity request is added to discovery. -/
def execIdresp (n : Fin 4) (src : Byte) (credit : BitVec 16) (s : State) : Step :=
  s.finish (s.m.linkIdResp n src.toNat credit.toNat)

/-- LINK_FRAME_DISCARD (R507): A frame of another EtherType, tag, FCS error or illegal type is discarded and counted.
-/
def execLinkFrameDiscard (n : Fin 4) (kind : Fin 3) (s : State) : Step := s.finish (s.m.linkDiscard n kind)

/-- PLCA_TX_OPPORTUNITY (R515): At its transmit opportunity the device sends queued frames in class order. -/
def execPlcaTxOpportunity (n : Fin 4) (s : State) : Step := s.finish (s.m.plcaTx n)

/-- LINK_FAULT (R516): Excess FCS errors, collisions or missing beacons raise LINK_FAULT. -/
def execLinkFault (n : Fin 4) (cause : Fin 4) (s : State) : Step := s.finish (s.m.linkFault n cause)

/-- SEGMENT_UNFENCE (R517): SLK_n_CMD UNFENCE resumes transmission with owed restores first. -/
def execSegmentUnfence (ag : Agent) (n : Fin 4) (s : State) : Step := s.finish (s.m.regWrite ag .slkNCmd n 1)

/-- NEIGHBOUR_READ (R519): A neighbour READ of item 0x120 is answered with SLK_SHELFSTAT. -/
def execNeighbourRead (n : Fin 4) (src : Byte) (tag : BitVec 16) (want : Byte) (s : State) : Step :=
  s.finish (s.m.nbRead n src.toNat tag.toNat want.toNat)

/-- NEIGHBOUR_SETP (R519): A neighbour SETP of item 0x121 stores the offer and raises LINK_OFFER. -/
def execNeighbourSetp (n : Fin 4) (src : Byte) (tag : BitVec 16) (gen : BitVec 32) (value : Word) (tent : Bool) (s :
    State) : Step :=
  s.finish (s.m.nbSetp n src.toNat tag.toNat gen.toNat value.toNat tent)

/-- NEIGHBOUR_RETRACT (R519): A neighbour RETRACT of item 0x121 is applied by the partner rules. -/
def execNeighbourRetract (n : Fin 4) (src : Byte) (tag : BitVec 16) (gen : BitVec 32) (value : Word) (genf : BitVec
    32) (s : State) : Step :=
  s.finish (s.m.nbRetract n src.toNat tag.toNat gen.toNat value.toNat genf.toNat)

/-- NEIGHBOUR_FINAL (R519): A neighbour FINAL of item 0x121 makes held tentative offers final. -/
def execNeighbourFinal (n : Fin 4) (src : Byte) (tag : BitVec 16) (gen : BitVec 32) (s : State) : Step :=
  s.finish (s.m.nbFinal n src.toNat tag.toNat gen.toNat)

/-- NEIGHBOUR_OTHER (R519): Any other neighbour request is answered with STATUS 0x06. -/
def execNeighbourOther (n : Fin 4) (src : Byte) (tag : BitVec 16) (item : BitVec 16) (cls : Fin 4) (s : State) : Step
    :=
  s.finish (s.m.nbOther n src.toNat tag.toNat item.toNat cls)

/-- OFFER_HOLD_EXPIRY (R519): 1 s with no frame from the offering node stops generation comparison. -/
def execOfferHoldExpiry (s : State) : Step := s.finish s.m.offerExpiry

/-- THM_READING (R529): A sensor reading updates its state, rate, reductions and clock level. -/
def execThmReading (k : Fin 22) (t : Int) (bad : Bool) (s : State) : Step := s.finish (s.m.thmSample k t bad)

end Sys2Proof.Machine
end

