-- ==== Sys2Proof/Machine/KnarinRows.lean ====
section
/-!
DEFINITION. The meanings of the commands of the Knarin instructions: one for each row, each one call of its operation.
-/

namespace Sys2Proof.Machine

/-- NOP (R141): nop does nothing. -/
def execNop (k : Fin 256) (s : State) : Step := s.finish (s.m.kNop k)

/-- HALT (R94): halt puts the strand in HALTED with WHY 0x1. -/
def execHalt (k : Fin 256) (s : State) : Step := s.finish (s.m.kHalt k)

/-- YIELD (R120): yield ends the activation and puts the strand at the back of its queue. -/
def execYieldK (k : Fin 256) (s : State) : Step := s.finish (s.m.kYield k)

/-- FAULT (R122): fault raises STRAND_USER with an 8-bit code. -/
def execFaultK (k : Fin 256) (code : BitVec 8) (s : State) : Step := s.finish (s.m.kFault k code.toNat)

/-- SYSR (R150): sysr returns a system value selected by its selector. -/
def execSysr (k : Fin 256) (d : Fin 16) (sel : Fin 9) (s : State) : Step := s.finish (s.m.kSysr k d sel)

/-- ADD (R146): add writes A + B and sets Z N C V. -/
def execAdd (k : Fin 256) (d : Fin 16) (a : Fin 16) (b : Fin 16) (s : State) : Step := s.finish (s.m.kAdd k d a b)

/-- ADC (R146): adc writes A + B + C and sets Z N C V. -/
def execAdc (k : Fin 256) (d : Fin 16) (a : Fin 16) (b : Fin 16) (s : State) : Step := s.finish (s.m.kAdc k d a b)

/-- SUB (R146): sub writes A − B and sets Z N C V. -/
def execSub (k : Fin 256) (d : Fin 16) (a : Fin 16) (b : Fin 16) (s : State) : Step := s.finish (s.m.kSub k d a b)

/-- SBC (R146): sbc writes A − B − C and sets Z N C V. -/
def execSbc (k : Fin 256) (d : Fin 16) (a : Fin 16) (b : Fin 16) (s : State) : Step := s.finish (s.m.kSbc k d a b)

/-- AND (R146): and writes A & B and sets Z N. -/
def execAndK (k : Fin 256) (d : Fin 16) (a : Fin 16) (b : Fin 16) (s : State) : Step := s.finish (s.m.kAnd k d a b)

/-- OR (R146): or writes A | B and sets Z N. -/
def execOrK (k : Fin 256) (d : Fin 16) (a : Fin 16) (b : Fin 16) (s : State) : Step := s.finish (s.m.kOr k d a b)

/-- XOR (R146): xor writes A ^ B and sets Z N. -/
def execXorK (k : Fin 256) (d : Fin 16) (a : Fin 16) (b : Fin 16) (s : State) : Step := s.finish (s.m.kXor k d a b)

/-- BIC (R146): bic writes A & ~B and sets Z N. -/
def execBic (k : Fin 256) (d : Fin 16) (a : Fin 16) (b : Fin 16) (s : State) : Step := s.finish (s.m.kBic k d a b)

/-- SHL (R146): shl shifts A left by B[4:0] and sets Z N C. -/
def execShl (k : Fin 256) (d : Fin 16) (a : Fin 16) (b : Fin 16) (s : State) : Step := s.finish (s.m.kShl k d a b)

/-- SHR (R146): shr shifts A right with zero fill and sets Z N C. -/
def execShr (k : Fin 256) (d : Fin 16) (a : Fin 16) (b : Fin 16) (s : State) : Step := s.finish (s.m.kShr k d a b)

/-- SAR (R146): sar shifts A right with sign fill and sets Z N C. -/
def execSar (k : Fin 256) (d : Fin 16) (a : Fin 16) (b : Fin 16) (s : State) : Step := s.finish (s.m.kSar k d a b)

/-- MUL (R146): mul writes the low 32 bits of A × B. -/
def execMul (k : Fin 256) (d : Fin 16) (a : Fin 16) (b : Fin 16) (s : State) : Step := s.finish (s.m.kMul k d a b)

/-- MULH (R146): mulh writes the high 32 bits of the signed product. -/
def execMulh (k : Fin 256) (d : Fin 16) (a : Fin 16) (b : Fin 16) (s : State) : Step := s.finish (s.m.kMulh k d a b)

/-- CMP (R146): cmp sets flags from A − B. -/
def execCmp (k : Fin 256) (a : Fin 16) (b : Fin 16) (s : State) : Step := s.finish (s.m.kCmp k a b)

/-- MOV (R141): mov copies A to D. -/
def execMov (k : Fin 256) (d : Fin 16) (a : Fin 16) (s : State) : Step := s.finish (s.m.kMov k d a)

/-- NOT (R146): not writes ~A and sets Z N. -/
def execNotK (k : Fin 256) (d : Fin 16) (a : Fin 16) (s : State) : Step := s.finish (s.m.kNot k d a)

/-- NEG (R146): neg writes 0 − A and sets Z N C V. -/
def execNeg (k : Fin 256) (d : Fin 16) (a : Fin 16) (s : State) : Step := s.finish (s.m.kNeg k d a)

/-- CLZ (R146): clz writes the count of leading zero bits of A. -/
def execClz (k : Fin 256) (d : Fin 16) (a : Fin 16) (s : State) : Step := s.finish (s.m.kClz k d a)

/-- MIN (R146): min writes the signed minimum of A and B. -/
def execMinK (k : Fin 256) (d : Fin 16) (a : Fin 16) (b : Fin 16) (s : State) : Step := s.finish (s.m.kMin k d a b)

/-- MAX (R146): max writes the signed maximum of A and B. -/
def execMaxK (k : Fin 256) (d : Fin 16) (a : Fin 16) (b : Fin 16) (s : State) : Step := s.finish (s.m.kMax k d a b)

/-- TST (R146): tst sets flags from A & B. -/
def execTst (k : Fin 256) (a : Fin 16) (b : Fin 16) (s : State) : Step := s.finish (s.m.kTst k a b)

/-- SADD (R151): sadd writes the saturated signed sum. -/
def execSadd (k : Fin 256) (d : Fin 16) (a : Fin 16) (b : Fin 16) (s : State) : Step := s.finish (s.m.kSadd k d a b)

/-- SSUB (R151): ssub writes the saturated signed difference. -/
def execSsub (k : Fin 256) (d : Fin 16) (a : Fin 16) (b : Fin 16) (s : State) : Step := s.finish (s.m.kSsub k d a b)

/-- QMUL (R151): qmul writes the rounded, saturated Q8.24 product. -/
def execQmul (k : Fin 256) (d : Fin 16) (a : Fin 16) (b : Fin 16) (s : State) : Step := s.finish (s.m.kQmul k d a b)

/-- DIVU (R151): divu writes the unsigned quotient, substituting on division by zero. -/
def execDivu (k : Fin 256) (d : Fin 16) (a : Fin 16) (b : Fin 16) (s : State) : Step := s.finish (s.m.kDivu k d a b)

/-- DIV (R151): div writes the signed quotient truncated toward zero, substituting on overflow. -/
def execDivK (k : Fin 256) (d : Fin 16) (a : Fin 16) (b : Fin 16) (s : State) : Step := s.finish (s.m.kDiv k d a b)

/-- MOVI (R141): movi writes the sign-extended 20-bit immediate. -/
def execMovi (k : Fin 256) (d : Fin 16) (imm : BitVec 20) (s : State) : Step := s.finish (s.m.kMovi k d imm.toNat)

/-- MOVHI (R141): movhi places the immediate in the high half of D. -/
def execMovhi (k : Fin 256) (d : Fin 16) (imm : BitVec 16) (s : State) : Step := s.finish (s.m.kMovhi k d imm.toNat)

/-- ADDI (R146): addi adds a sign-extended immediate and sets Z N C V. -/
def execAddi (k : Fin 256) (d : Fin 16) (a : Fin 16) (imm : BitVec 16) (s : State) : Step :=
  s.finish (s.m.kAddi k d a imm.toNat)

/-- ANDI (R146): andi ands a zero-extended immediate. -/
def execAndi (k : Fin 256) (d : Fin 16) (a : Fin 16) (imm : BitVec 16) (s : State) : Step :=
  s.finish (s.m.kAndi k d a imm.toNat)

/-- ORI (R146): ori ors a zero-extended immediate. -/
def execOri (k : Fin 256) (d : Fin 16) (a : Fin 16) (imm : BitVec 16) (s : State) : Step :=
  s.finish (s.m.kOri k d a imm.toNat)

/-- XORI (R146): xori xors a zero-extended immediate. -/
def execXori (k : Fin 256) (d : Fin 16) (a : Fin 16) (imm : BitVec 16) (s : State) : Step :=
  s.finish (s.m.kXori k d a imm.toNat)

/-- SHLI (R146): shli shifts left by an immediate. -/
def execShli (k : Fin 256) (d : Fin 16) (a : Fin 16) (n : Fin 32) (s : State) : Step := s.finish (s.m.kShli k d a n)

/-- SHRI (R146): shri shifts right by an immediate with zero fill. -/
def execShri (k : Fin 256) (d : Fin 16) (a : Fin 16) (n : Fin 32) (s : State) : Step := s.finish (s.m.kShri k d a n)

/-- SARI (R146): sari shifts right by an immediate with sign fill. -/
def execSari (k : Fin 256) (d : Fin 16) (a : Fin 16) (n : Fin 32) (s : State) : Step := s.finish (s.m.kSari k d a n)

/-- CMPI (R146): cmpi sets flags from A minus a sign-extended immediate. -/
def execCmpi (k : Fin 256) (a : Fin 16) (imm : BitVec 16) (s : State) : Step := s.finish (s.m.kCmpi k a imm.toNat)

/-- EXTU (R152): extu extracts a bit field zero-extended. -/
def execExtu (k : Fin 256) (d : Fin 16) (a : Fin 16) (pos : Fin 32) (wm1 : Fin 32) (s : State) : Step :=
  s.finish (s.m.kExtu k d a pos wm1)

/-- EXTS (R152): exts extracts a bit field sign-extended. -/
def execExts (k : Fin 256) (d : Fin 16) (a : Fin 16) (pos : Fin 32) (wm1 : Fin 32) (s : State) : Step :=
  s.finish (s.m.kExts k d a pos wm1)

/-- INS (R152): ins inserts the low bits of A into a field of D. -/
def execIns (k : Fin 256) (d : Fin 16) (a : Fin 16) (pos : Fin 32) (wm1 : Fin 32) (s : State) : Step :=
  s.finish (s.m.kIns k d a pos wm1)

/-- LDL (R153): ldl loads a 32-bit local word. -/
def execLdl (k : Fin 256) (d : Fin 16) (a : Fin 16) (imm : BitVec 16) (s : State) : Step :=
  s.finish (s.m.kLdl k d a imm.toNat)

/-- LDLH (R153): ldlh loads a 16-bit local halfword. -/
def execLdlh (k : Fin 256) (d : Fin 16) (a : Fin 16) (imm : BitVec 16) (s : State) : Step :=
  s.finish (s.m.kLdlh k d a imm.toNat)

/-- LDLB (R153): ldlb loads a local byte. -/
def execLdlb (k : Fin 256) (d : Fin 16) (a : Fin 16) (imm : BitVec 16) (s : State) : Step :=
  s.finish (s.m.kLdlb k d a imm.toNat)

/-- STL (R153): stl stores a 32-bit local word. -/
def execStl (k : Fin 256) (d : Fin 16) (a : Fin 16) (imm : BitVec 16) (s : State) : Step :=
  s.finish (s.m.kStl k d a imm.toNat)

/-- STLH (R153): stlh stores a local halfword. -/
def execStlh (k : Fin 256) (d : Fin 16) (a : Fin 16) (imm : BitVec 16) (s : State) : Step :=
  s.finish (s.m.kStlh k d a imm.toNat)

/-- STLB (R153): stlb stores a local byte. -/
def execStlb (k : Fin 256) (d : Fin 16) (a : Fin 16) (imm : BitVec 16) (s : State) : Step :=
  s.finish (s.m.kStlb k d a imm.toNat)

/-- LDC (R153): ldc loads a 32-bit commons word. -/
def execLdc (k : Fin 256) (d : Fin 16) (a : Fin 16) (imm : BitVec 16) (s : State) : Step :=
  s.finish (s.m.kLdc k d a imm.toNat)

/-- LDCH (R153): ldch loads a commons halfword. -/
def execLdch (k : Fin 256) (d : Fin 16) (a : Fin 16) (imm : BitVec 16) (s : State) : Step :=
  s.finish (s.m.kLdch k d a imm.toNat)

/-- LDCB (R153): ldcb loads a commons byte. -/
def execLdcb (k : Fin 256) (d : Fin 16) (a : Fin 16) (imm : BitVec 16) (s : State) : Step :=
  s.finish (s.m.kLdcb k d a imm.toNat)

/-- STC (R154): stc stores a commons word, refused with EAUTH in the vendor area for non-vendor strands. -/
def execStc (k : Fin 256) (d : Fin 16) (a : Fin 16) (imm : BitVec 16) (s : State) : Step :=
  s.finish (s.m.kStc k d a imm.toNat)

/-- STCH (R154): stch stores a commons halfword. -/
def execStch (k : Fin 256) (d : Fin 16) (a : Fin 16) (imm : BitVec 16) (s : State) : Step :=
  s.finish (s.m.kStch k d a imm.toNat)

/-- STCB (R154): stcb stores a commons byte. -/
def execStcb (k : Fin 256) (d : Fin 16) (a : Fin 16) (imm : BitVec 16) (s : State) : Step :=
  s.finish (s.m.kStcb k d a imm.toNat)

/-- LDD (R154): ldd reads a device-space word judged as the owner's port, possibly held for a wake. -/
def execLdd (k : Fin 256) (d : Fin 16) (a : Fin 16) (imm : BitVec 16) (s : State) : Step :=
  s.finish (s.m.kLdd k d a imm.toNat)

/-- STD (R154): std writes a device-space word judged as the owner's port, possibly held for a wake. -/
def execStd (k : Fin 256) (d : Fin 16) (a : Fin 16) (imm : BitVec 16) (s : State) : Step :=
  s.finish (s.m.kStd k d a imm.toNat)

/-- CAS (R105): cas compares and swaps a commons word indivisibly. -/
def execCas (k : Fin 256) (d : Fin 16) (a : Fin 16) (b : Fin 16) (c : Fin 16) (s : State) : Step :=
  s.finish (s.m.kCas k d a b c)

/-- FADD (R105): fadd adds to a commons word indivisibly and returns the old value. -/
def execFadd (k : Fin 256) (d : Fin 16) (a : Fin 16) (b : Fin 16) (s : State) : Step := s.finish (s.m.kFadd k d a b)

/-- XCHG (R155): xchg exchanges a commons word indivisibly. -/
def execXchg (k : Fin 256) (d : Fin 16) (a : Fin 16) (b : Fin 16) (s : State) : Step := s.finish (s.m.kXchg k d a b)

/-- BCC (R156): A conditional branch moves the PC when its condition holds. -/
def execBcc (k : Fin 256) (cond : Fin 11) (off : BitVec 20) (s : State) : Step := s.finish (s.m.kBcc k cond off.toNat)

/-- BL (R143): bl saves the return link in S15 and branches. -/
def execBl (k : Fin 256) (off : BitVec 20) (s : State) : Step := s.finish (s.m.kBl k off.toNat)

/-- JR (R143): jr jumps to the offset held in a register. -/
def execJr (k : Fin 256) (a : Fin 16) (s : State) : Step := s.finish (s.m.kJr k a)

/-- RET (R143): ret jumps to S15. -/
def execRet (k : Fin 256) (s : State) : Step := s.finish (s.m.kRet k)

/-- DELAY (R158): delay waits an immediate number of microseconds. -/
def execDelay (k : Fin 256) (n : BitVec 20) (s : State) : Step := s.finish (s.m.kDelay k n.toNat)

/-- DELAYV (R158): delayv waits a register-held number of microseconds. -/
def execDelayv (k : Fin 256) (a : Fin 16) (s : State) : Step := s.finish (s.m.kDelayv k a)

/-- TIMER (R110): timer arms or stops the strand timer with an immediate period. -/
def execTimer (k : Fin 256) (n : BitVec 20) (s : State) : Step := s.finish (s.m.kTimer k n.toNat)

/-- TIMERV (R110): timerv arms or stops the strand timer with a register period. -/
def execTimerv (k : Fin 256) (a : Fin 16) (s : State) : Step := s.finish (s.m.kTimerv k a)

/-- WAITT (R110): waitt waits for a timer tick and returns missed ticks. -/
def execWaitt (k : Fin 256) (d : Fin 16) (c : Option (Fin 16)) (s : State) : Step :=
  s.finish (s.m.kWaitt k d (c.map Fin.val))

/-- WAITE (R109): waite waits until an event line count differs from the operand. -/
def execWaite (k : Fin 256) (d : Fin 16) (line : Fin 4) (a : Fin 16) (c : Option (Fin 16)) (s : State) : Step :=
  s.finish (s.m.kWaite k d line a (c.map Fin.val))

/-- WAITK (R113): waitk waits for a token's completion and releases its entry. -/
def execWaitk (k : Fin 256) (d : Fin 16) (a : Fin 16) (c : Option (Fin 16)) (s : State) : Step :=
  s.finish (s.m.kWaitk k d a (c.map Fin.val))

/-- KPOLL (R157): kpoll collects a completed token or returns EBUSY at once. -/
def execKpoll (k : Fin 256) (d : Fin 16) (a : Fin 16) (s : State) : Step := s.finish (s.m.kKpoll k d a)

/-- KDROP (R113): kdrop releases a token entry at once, discarding the later result. -/
def execKdrop (k : Fin 256) (a : Fin 16) (s : State) : Step := s.finish (s.m.kKdrop k a)

/-- SEND (R126): send queues a word on a mailbox channel of the strand's group. -/
def execSend (k : Fin 256) (b : Fin 16) (ch : Fin 64) (s : State) : Step := s.finish (s.m.kSend k b ch)

/-- RECV (R126): recv waits for and takes a word from a mailbox channel. -/
def execRecv (k : Fin 256) (d : Fin 16) (ch : Fin 64) (c : Option (Fin 16)) (s : State) : Step :=
  s.finish (s.m.kRecv k d ch (c.map Fin.val))

/-- LRD (R159): lrd reads a word of a loop slot. -/
def execLrd (k : Fin 256) (d : Fin 16) (a : Fin 16) (w : BitVec 8) (s : State) : Step :=
  s.finish (s.m.kLrd k d a w.toNat)

/-- LWR (R159): lwr writes a word of a loop slot judged as a port write. -/
def execLwr (k : Fin 256) (b : Fin 16) (a : Fin 16) (w : BitVec 8) (s : State) : Step :=
  s.finish (s.m.kLwr k b a w.toNat)

/-- LSP (R159): lsp writes a slot's setpoint word. -/
def execLsp (k : Fin 256) (b : Fin 16) (a : Fin 16) (s : State) : Step := s.finish (s.m.kLsp k b a)

/-- LCMT (R231): lcmt requests the commit of one block of a slot. -/
def execLcmt (k : Fin 256) (a : Fin 16) (blk : Fin 8) (s : State) : Step := s.finish (s.m.kLcmt k a blk)

/-- PREAD (R161): pread issues a partner item read and returns a token. -/
def execPread (k : Fin 256) (d : Fin 16) (a : Fin 16) (item : BitVec 12) (s : State) : Step :=
  s.finish (s.m.kPread k d a item.toNat)

/-- PWRITE (R161): pwrite issues a partner item write and returns a token. -/
def execPwrite (k : Fin 256) (d : Fin 16) (a : Fin 16) (b : Fin 16) (item : BitVec 12) (s : State) : Step :=
  s.finish (s.m.kPwrite k d a b item.toNat)

/-- PCMD (R161): pcmd issues a partner command item and returns a token. -/
def execPcmd (k : Fin 256) (d : Fin 16) (a : Fin 16) (item : BitVec 12) (s : State) : Step :=
  s.finish (s.m.kPcmd k d a item.toNat)

/-- PBLKR (R162): pblkr issues a partner block read into the commons. -/
def execPblkr (k : Fin 256) (d : Fin 16) (a : Fin 16) (b : Fin 16) (item : BitVec 12) (s : State) : Step :=
  s.finish (s.m.kPblkr k d a b item.toNat)

/-- PBLKW (R162): pblkw issues a partner block write from the commons. -/
def execPblkw (k : Fin 256) (d : Fin 16) (a : Fin 16) (b : Fin 16) (item : BitVec 12) (s : State) : Step :=
  s.finish (s.m.kPblkw k d a b item.toNat)

/-- PSETP (R439): psetp issues a setpoint under a generation PTN assigns. -/
def execPsetp (k : Fin 256) (d : Fin 16) (a : Fin 16) (b : Fin 16) (item : BitVec 12) (s : State) : Step :=
  s.finish (s.m.kPsetp k d a b item.toNat)

/-- REC (R127): rec writes one NOTE record with payload S0–S7 under a rate limit. -/
def execRecNote (k : Fin 256) (code : BitVec 16) (s : State) : Step := s.finish (s.m.kRec k code.toNat)

end Sys2Proof.Machine
end

