-- ==== Sys2Proof/Machine/LateRows.lean ====
section
/-!
DEFINITION. The meanings of the commands of the rows at the end of the table: one for each row, each one call of its
operation.
-/

namespace Sys2Proof.Machine

/-- STAGE_RETRY_COUNT_RESET (R315): After a stage has been in RUN for 10 s its retry count returns to 0. -/
def execStageRetryCountReset (x : Fin 2) (s : State) : Step := s.finish (s.m.stageRetryReset x)

/-- BRANCH_RETRY_COUNT_RESET (R358): After a branch has been in ON for 10 s its retry count returns to 0. -/
def execBranchRetryCountReset (n : Fin 24) (s : State) : Step := s.finish (s.m.brnLive (fun m => m.branchRetryReset n))

/-- RC_FIELD_READ (R6): A read of an RC field returns its value and clears it, for example BAT_CHG_FLT, BAT_STRn_FLT
or a counter. -/
def execRcFieldRead (ag : Agent) (addr : BitVec 24) (s : State) : Step := s.finish (s.m.portRead ag addr.toNat)

/-- UNDEFINED_ENCODING (R142): Issue of an instruction word with an unlisted OP, a reserved COND or non-zero unused
fields raises STRAND_ILLEGAL. -/
def execUndefinedEncoding (k : Fin 256) (s : State) : Step := s.finish (s.m.undefinedWord k)

/-- UNKNOWN_OPCODE (R491): A host frame with an unknown opcode gets no drive for the rest of the frame, and
HST_CNT.BADOP counts it. -/
def execUnknownOpcode (s : State) : Step := s.finish s.m.unknownOpcode

/-- UNKNOWN_SERVICE_CODE (R505): A firmware service request with an undefined CODE is answered with ERANGE and NW 0.
-/
def execUnknownServiceCode (c : Fin 64) (s : State) : Step := s.finish (s.m.unknownService c)

/-- ARA_READ (R468): Once the hailing partners release SDA and the bus free time passes, the ES7100 starts an Alert
Response Address read ahead of queued transactions. -/
def execAraRead (n : Fin 16) (s : State) : Step := s.finish (s.m.araStart n)

/-- HAILLONG (R481): A hail that holds SDA low beyond 100 µs increments CNT3.HAILLONG, and the ARA read waits. -/
def execHailLong (n : Fin 16) (s : State) : Step := s.finish (s.m.hailLong n)

/-- SPLICE_FLUSH_TIMEOUT (R591): In a splice, 50 µs of unacknowledged journal flush ends, and the leaving chip
deasserts INTLK_OUT. -/
def execSpliceFlushTimeout (s : State) : Step := s.finish s.m.flushTimeout

/-- RCD_EXPORT_DONE (R614): A sealed export finishes within 20 ms with its buffer and whipping readable, or ends with
ESTATE on a key erase. -/
def execRcdExportDone (s : State) : Step := s.finish s.m.exportDone

/-- PAIR_EVENT_ACK (R556): The policy firmware acknowledges a taken event and clears its bit in EVT_PEND2 or
EVT_PEND3. -/
def execPairEventAck (b : Bool) (src : Fin 256) (s : State) : Step := s.finish (s.m.pairAck b src)

/-- ALARM_CONDITION_CLEARED (R566): A security alarm condition such as a tamper level, supply glitch or clock fault
ceases, and its SEC_ALARM_NOW bit clears. -/
def execAlarmConditionCleared (k : Fin 9) (s : State) : Step := s.finish (s.m.alarmCeased k)

/-- SVC_NOISE (R627): A character received on the service port outside a frame is discarded and counted in
UPD_SVC_CNT0.NOISE. -/
def execSvcNoise (n : Nat) (s : State) : Step := s.finish (s.m.svcNoise n)

/-- NVM_ECC_ERROR (R541): An MRAM read finds a corrected or an uncorrectable error and raises NVM_ECC_CORR or
NVM_ECC_FATAL. -/
def execNvmEccError (fatal : Bool) (s : State) : Step :=
  s.finish (s.m.whenAlive (fun m => m.raise (if fatal then 6 else 5) 0 []))

/-- RAM_ECC (R541): An uncorrectable SRAM error raises the fault source RAM_ECC. -/
def execRamEcc (s : State) : Step := s.finish (s.m.whenAlive (fun m => m.raise 7 0 []))

end Sys2Proof.Machine
end

