-- ==== Sys2Proof/Machine/PairRows.lean ====
section
/-!
DEFINITION. The meanings of the commands of the redundant pair: one for each row, each one call of its operation.
-/

namespace Sys2Proof.Machine

/-- PEER_HELLO_SEND (R586): Every 100 µs each chip sends a HELLO. -/
def execPeerHelloSend (s : State) : Step := s.finish (s.m.whenAlive Chip.sendHello)

/-- HELLO (R585): A received HELLO updates the twin's state and acknowledges frames. -/
def execHello (good : Bool) (h : Hello) (s : State) : Step := s.finish (s.m.peerFrame good (fun m => m.helloRx h))

/-- JOURNAL (R588): A received journal item is applied to the shadow state within 10 µs. -/
def execJournal (good : Bool) (seq : BitVec 16) (items : List JItem) (s : State) : Step :=
  s.finish (s.m.peerFrame good (fun m => m.journalRx seq.toNat items))

/-- SNAPSHOT (R589): A received SNAPSHOT sets every journalled item to its carried value. -/
def execSnapshot (good : Bool) (seq : BitVec 16) (items : List JItem) (s : State) : Step :=
  s.finish (s.m.peerFrame good (fun m => m.snapshotRx seq.toNat items))

/-- SPLICE_NOTE (R591): A received SPLICE_NOTE announces the twin is leaving. -/
def execSpliceNote (good : Bool) (seq : BitVec 16) (cause : Byte) (s : State) : Step :=
  s.finish (s.m.peerFrame good (fun m => m.noteRx seq.toNat cause.toNat))

/-- TAKEBACK_REQ (R591): A received TAKEBACK_REQ is acknowledged and the primary leaves if quiet, else refused. -/
def execTakebackReq (good : Bool) (seq : BitVec 16) (s : State) : Step :=
  s.finish (s.m.peerFrame good (fun m => m.takebackRx seq.toNat))

/-- TAKEBACK_ACK (R591): A received TAKEBACK_ACK stops repeated take-back requests. -/
def execTakebackAck (good : Bool) (seq : BitVec 16) (s : State) : Step :=
  s.finish (s.m.peerFrame good (fun m => m.takebackAckRx seq.toNat))

/-- TAKEBACK_NAK (R591): A received TAKEBACK_NAK refuses the take-back for now. -/
def execTakebackNak (good : Bool) (seq : BitVec 16) (s : State) : Step :=
  s.finish (s.m.peerFrame good (fun m => m.takebackNakRx seq.toNat))

/-- PWMMARK (R587): A received PWMMARK locks the gated chip's stage boundaries to the twin. -/
def execPwmmark (good : Bool) (x : Fin 2) (ticks : BitVec 32) (s : State) : Step :=
  s.finish (s.m.peerFrame good (fun m => m.pwmMark x ticks.toNat))

/-- PEER_LINK (R586): No valid peer frame for 300 µs declares the link lost. -/
def execPeerLink (s : State) : Step := s.finish (s.m.whenAlive Chip.linkSilent)

/-- INTLK_IN_FALL (R593): INTLK_IN deasserted for 1 µs in READY makes the chip take control. -/
def execIntlkInFall (s : State) : Step := s.finish s.m.intlkInFall

/-- INTLK_IN_RISE (R591): INTLK_IN asserted in LEAVING completes the splice away into SHADOW. -/
def execIntlkInRise (s : State) : Step := s.finish s.m.intlkInRise

/-- PEER_INTLK (R591): 100 µs in LEAVING without INTLK_IN reasserts INTLK_OUT and raises PEER_INTLK. -/
def execPeerIntlk (s : State) : Step := s.finish s.m.peerIntlk

/-- INTLK_CONFLICT (R597): Both interlock lines asserted close both gates and one chip deasserts. -/
def execIntlkConflict (twinRole : Bool) (higher : Bool) (s : State) : Step :=
  s.finish (s.m.intlkConflict twinRole higher)

/-- SOLO_TAKE (R591): INTLK_IN deasserted for TSOLO with the link lost takes control without a journal. -/
def execSoloTake (s : State) : Step := s.finish s.m.soloTake

/-- TAKEBACK_TIMER (R591): A primary-strap chip READY for TBTIME sends TAKEBACK_REQ every 1 s until acknowledged. -/
def execTakebackTimer (s : State) : Step := s.finish s.m.takebackTimer

/-- PEER_DIVERGE (R594): A compared slot differing by more than DIVTHR for DIVT raises PEER_DIVERGE. -/
def execPeerDiverge (s : Fin 64) (x : State) : Step := x.finish (x.m.peerDiverge s)

/-- SPL_SPLICE (R591): SPL_CMD SPLICE starts a splice from ACTIVE. -/
def execSplSplice (ag : Agent) (s : State) : Step := s.finish (s.m.regWrite ag .splCmd 0 1)

/-- RESYNC (R599): SPL_CMD RESYNC requests a new SNAPSHOT. -/
def execResync (ag : Agent) (s : State) : Step := s.finish (s.m.regWrite ag .splCmd 0 2)

/-- SPL_TAKEBACK (R591): SPL_CMD TAKEBACK sends a take-back request without waiting TBTIME. -/
def execSplTakeback (ag : Agent) (s : State) : Step := s.finish (s.m.regWrite ag .splCmd 0 3)

end Sys2Proof.Machine
end

