-- ==== Sys2Proof/Machine/PartnerRows.lean ====
section
/-!
DEFINITION. The meanings of the commands of partners and the two-wire buses: one for each row, each one call of its
operation.
-/

namespace Sys2Proof.Machine

/-- PARTNER_TABLE_WRITE (R428): A write to a partner table entry is checked and enabling moves the entry to UNKNOWN.
-/
def execPartnerTableWrite (ag : Agent) (e : BitVec 12) (w : Fin 8) (d : Word) (s : State) : Step :=
  s.finish (s.m.portWrite ag (0x400000 + 32 * e.toNat + 4 * w) d)

/-- TRANSACTION_START (R434): A path starts the head transaction of lowest class, selecting a mux where needed. -/
def execTransactionStart (p : Fin 20) (sel : Fin 6) (s : State) : Step := s.finish (s.m.pathStart p sel)

/-- TRANSACTION_TIMEOUT (R437): TMO expiring at the head completes a transaction with ETIMEOUT. -/
def execTransactionTimeout (e : BitVec 12) (s : State) : Step := s.finish (s.m.txnTimeout e.toNat)

/-- QMAX_EXPIRY (R437): A transaction outstanding for QMAX completes with ETIMEOUT in its place. -/
def execQmaxExpiry (e : BitVec 12) (s : State) : Step := s.finish (s.m.qmaxExpiry e.toNat)

/-- TELEMETRY_POLL (R447): TPER elapsing issues a class 3 poll or counts a lost poll. -/
def execTelemetryPoll (e : BitVec 12) (s : State) : Step := s.finish (s.m.pollDue e.toNat)

/-- GENERATION_HOLD_END (R446): GHOLD after a gate opening without a journal releases held generation frames. -/
def execGenerationHoldEnd (shelf : Bool) (s : State) : Step := s.finish (s.m.holdEnd shelf)

/-- PTN_CREDIT_STALL (R452): A class credit at 0 for CRTO with a waiting transaction raises PTN_CREDIT_STALL. -/
def execPtnCreditStall (e : BitVec 12) (cls : Fin 4) (s : State) : Step := s.finish (s.m.creditStall e.toNat cls)

/-- PTN_TEL_RD_WRITE (R450): The ring consumer advances PTN_TEL_RD past entries it has read. -/
def execPtnTelRdWrite (ag : Agent) (d : Word) (s : State) : Step := s.finish (s.m.regWrite ag .ptnTelRd 0 d)

/-- PARTNER_UNFENCE (R456): PTN_CMD UNFENCE makes an entry OFFLINE and sends owed restores first. -/
def execPartnerUnfence (ag : Agent) (e : BitVec 12) (s : State) : Step :=
  s.finish (s.m.regWrite ag .ptnCmd 0 (wd (1 + e.toNat * 16)))

/-- DISCOVER (R454): PTN_CMD DISCOVER probes a bus, mux channel or segment for partners. -/
def execDiscover (ag : Agent) (d : Word) (s : State) : Step := s.finish (s.m.regWrite ag .ptnCmd 0 (setBits d 3 0 2))

/-- PTN_DISCOVERED (R454): A discovery ends and PTN_DISCOVERED is raised. -/
def execPtnDiscovered (_found : Known) (s : State) : Step := s.finish s.m.discovered

/-- DISC_CLEAR (R459): PTN_CMD DISC_CLEAR empties the discovery list. -/
def execDiscClear (ag : Agent) (s : State) : Step := s.finish (s.m.regWrite ag .ptnCmd 0 3)

/-- TW_TRANSFER_END (R465): A two-wire transfer ends with its status and a STOP, committing read bytes only on OK. -/
def execTwTransferEnd (n : Fin 16) (out : Fin 3) (bytes : List Byte) (s : State) : Step :=
  s.finish (s.m.twEnd n out (bytes.map BitVec.toNat))

/-- TW_STRETCH_TIMEOUT (R465): SCL held low by a target for STRETCHTO ends the transfer with ETIMEOUT. -/
def execTwStretchTimeout (n : Fin 16) (s : State) : Step := s.finish (s.m.twStretch n)

/-- TW_ARB_LOST (R466): Lost arbitration withdraws the transfer, requeued or completed with EARB. -/
def execTwArbLost (n : Fin 16) (s : State) : Step := s.finish (s.m.twArb n)

/-- TW_PROTO_ERROR (R467): An unexpected START or STOP in a byte aborts the transfer with EPROTO. -/
def execTwProtoError (n : Fin 16) (s : State) : Step := s.finish (s.m.twProto n)

/-- TW_HAIL_DETECT (R468): SDA low on an idle bus with no SCL edge for 20 µs is taken as a hail. -/
def execTwHailDetect (n : Fin 16) (s : State) : Step := s.finish (s.m.hailDetect n)

/-- TW_HAIL (R470): An ARA read completes and records the hailing partner. -/
def execTwHail (n : Fin 16) (ack : Bool) (a : BitVec 7) (b0 : Fin 2) (s : State) : Step :=
  s.finish (s.m.araEnd n ack a.toNat b0)

/-- BUS_STUCK_DETECT (R471): SDA low for STUCKTO when needed high starts bus recovery. -/
def execBusStuckDetect (n : Fin 16) (s : State) : Step := s.finish (s.m.stuckDetect n)

/-- BUS_RECOVERY_END (R471): Recovery clocks end with a STOP and BUS_RECOVERED, or the bus is fenced with BUS_STUCK.
-/
def execBusRecoveryEnd (n : Fin 16) (lines : Fin 3) (s : State) : Step := s.finish (s.m.recoveryEnd n lines)

/-- BUS_STUCK_SCL (R472): SCL low for STUCKTO fences the bus with BUS_STUCK cause SCL. -/
def execBusStuckScl (n : Fin 16) (s : State) : Step := s.finish (s.m.stuckScl n)

/-- BUS_RECOVER (R473): TWB_n_CMD RECOVER runs one recovery on an idle enabled bus. -/
def execBusRecover (ag : Agent) (n : Fin 16) (s : State) : Step := s.finish (s.m.regWrite ag .twbNCmd n 1)

/-- BUS_UNFENCE (R473): TWB_n_CMD UNFENCE runs a recovery and unfences the bus if both lines go high. -/
def execBusUnfence (ag : Agent) (n : Fin 16) (s : State) : Step := s.finish (s.m.regWrite ag .twbNCmd n 2)

/-- TW_TARGET_WRITE (R478): A code byte written to the bus 15 target sets the mirror pointer or is refused. -/
def execTwTargetWrite (code : Byte) (extra : Nat) (s : State) : Step := s.finish (s.m.tgtWrite code.toNat extra)

/-- TW_TARGET_READ (R478): A read from the bus 15 target returns the pointed mirror word. -/
def execTwTargetRead (code : Option Byte) (count : Nat) (s : State) : Step :=
  s.finish (s.m.tgtRead (code.map BitVec.toNat) count)

/-- MIRROR_UPDATE (R479): Every 100 ms at Basic the library updates mirror words 0 to 7. -/
def execMirrorUpdate (vbus : Nat) (iload : Int) (s : State) : Step :=
  s.finish (s.m.whenUp (fun m => m.mirrorUpdate vbus iload))

end Sys2Proof.Machine
end

