-- ==== Sys2Proof/Machine/PolicyRows.lean ====
section
/-!
DEFINITION. The meanings of the commands of sharing, hold-up, capping, and level changes: one for each row, each one
call of its operation.
-/

namespace Sys2Proof.Machine

/-- RLIM_WRITE (R256): Every 10 ms and at each transition the policy strands write RLIM as the least of its three
terms. -/
def execRlimWrite (s : State) : Step := s.finish s.m.rlimTick

/-- SHARE_KEEPALIVE (R260): Every KEEPALIVE the share strand issues the group keep-alive. -/
def execShareKeepalive (s : State) : Step := s.finish (s.m.whenUp Chip.keepAlive)

/-- SHARE_TRIM (R261): Every PERIOD the share strand reads member currents and writes clamped trims. -/
def execShareTrim (_amps : Known) (s : State) : Step := s.finish (s.m.whenUp Chip.shareTrimTick)

/-- SHARE_IMBALANCE (R262): A member's deviation or saturated trim lasting SHDEVT raises SHARE_IMBALANCE. -/
def execShareImbalance (e : BitVec 12) (s : State) : Step := s.finish (s.m.shareImbalance e.toNat)

/-- SOURCE_QUALIFIED (R268): The source condition holding without break for SRCQ qualifies the source. -/
def execSourceQualified (s : State) : Step := s.finish s.m.sourceQualified

/-- HO_BACKSTOP (R274): BSLOT OUT at or above BACKI for BACKT with the source condition false starts a hand-over. -/
def execHoBackstop (s : State) : Step := s.finish s.m.hoBackstop

/-- TRANSFER (R274): PWRM_POL_CMD TRANSFER starts a test hand-over from ONSRC. -/
def execTransfer (ag : Agent) (s : State) : Step := s.finish (s.m.regWrite ag .polCmd 0 1)

/-- HO_DONE (R274): Rectifiers at zero or MAXT elapsed moves HANDOVER to ONBATT. -/
def execHoDone (s : State) : Step := s.finish s.m.hoDone

/-- RET_START (R274): DWELL elapsed with the source qualified starts the return. -/
def execRetStart (s : State) : Step := s.finish s.m.retStart

/-- RET_DONE (R274): BSLOT OUT at or below RETDONE for RETDWELL ends the return. -/
def execRetDone (s : State) : Step := s.finish s.m.retDone

/-- CAP_RECOMPUTE (R281): Every 10 ms the capping value is recomputed from PCAP, bus voltage and capacity. -/
def execCapRecompute (_v : Known) (s : State) : Step := s.finish (s.m.whenUp Chip.capRecompute)

/-- CAP_ENTER (R282): BSLOT OUT at or above BACKI for ENTRYT enters CAPPED. -/
def execCapEnter (s : State) : Step := s.finish s.m.capEnter

/-- CAP_EXIT (R282): BSLOT OUT at or below RETDONE for EXITT leaves CAPPED. -/
def execCapExit (s : State) : Step := s.finish s.m.capExit

/-- BRANCH_SHED (R285): Every STEP while a shedding condition holds the policy turns off one shed-mask branch. -/
def execBranchShed (s : State) : Step := s.finish s.m.branchShed

/-- SHED_RESTORE (R286): After RESTORE the policy turns its shed branches on again one per STEP. -/
def execShedRestore (s : State) : Step := s.finish (s.m.whenUp Chip.shedRestore)

/-- LEVEL_CHANGE_APPLY (R18): A written LEVEL takes effect at the block's next quiescent point, applying the profile
when returning to Basic. -/
def execLevelChangeApply (b : Blk) (s : State) : Step := s.finish (s.m.levelApply b)

end Sys2Proof.Machine
end

