-- ==== Sys2Proof/Machine/PowerRows.lean ====
section
/-!
DEFINITION. The meanings of the commands of supplies, clocks, modes and start-up: one for each row, each one call of
its operation.
-/

namespace Sys2Proof.Machine

/-- REGISTER_WRITE (R6): A port or strand write to a register or window word that has no row of its own acts according
to its field types. -/
def execRegisterWrite (ag : Agent) (addr : BitVec 24) (d : Word) (s : State) : Step :=
  s.finish (s.m.portWrite ag addr.toNat d)

/-- HELD_ACCESS_COMPLETE (R35): An access held while its power domain woke takes effect once the domain is usable. -/
def execHeldAccessComplete (s : State) : Step := s.finish s.m.heldComplete

/-- DOMAIN_SLEEP (R53): The device returns a domain to Sleep or Gated once no work, held access, event or mailbox word
for it remains. -/
def execDomainSleep (dom : Dom) (s : State) : Step := s.finish (s.m.domainSleep dom)

/-- LOCKSTEP_MISMATCH (R23): A lockstep mismatch within a policy pair raises LOCKSTEP_A or LOCKSTEP_B. -/
def execLockstepMismatch (p : Pair) (s : State) : Step := s.finish (s.m.whenAlive (fun m => m.lockstep p))

/-- POLICY_HEARTBEAT (R23): A heartbeat missing for 3 consecutive 10 ms periods raises POLICY_HEARTBEAT. -/
def execPolicyHeartbeat (s : State) : Step := s.finish (s.m.whenAlive Chip.heartbeat)

/-- SUPPLY_LOSS (R55): A supply falls below its power-on threshold outside SHIP and power-on reset is entered. -/
def execSupplyLoss (s : State) : Step := s.finish s.m.supplyLoss

/-- VKEEP_LOSS (R46): VKEEP falls below its power-on threshold and the device goes to OFF. -/
def execVkeepLoss (s : State) : Step := s.finish s.m.vkeepLoss

/-- POWER_ON_RESET_RELEASE (R679): Power-on reset is released after all supplies pass their rising thresholds, straps
are sampled and BOOT begins. -/
def execPowerOnResetRelease (role : Bool) (refsel : Bool) (s : State) : Step := s.finish (s.m.porRelease role refsel)

/-- WARM_RESET (R60): RST_IN_N held low for at least 1 µs causes a warm reset into BOOT. -/
def execWarmReset (s : State) : Step := s.finish (s.m.warmReset 1)

/-- BOOT_COMPLETE (R65): Boot finishes image selection, verification, loading and parameter application and enters
STANDBY, SHADOW or LOCKDOWN. -/
def execBootComplete (us : Nat) (act : Fin 8) (rol : Fin 8 × Nat) (s : State) : Step :=
  s.finish (s.m.bootComplete us act rol.1 rol.2)

/-- AUTOSTART_DECISION (R269): An AUTOSTART at entry from BOOT decides SOURCE, HOLDUP or STANDBY once the source
condition holds or 1 s has passed. -/
def execAutostartDecision (s : State) : Step := s.finish s.m.autostart

/-- START (R46): PWRM_CMD START moves STANDBY to SOURCE or HOLDUP according to AC qualification and strings. -/
def execStart (ag : Agent) (s : State) : Step := s.finish (s.m.regWrite ag .pwrmCmd 0 1)

/-- STOP (R46): PWRM_CMD STOP ramps converters to zero, deasserts all GEN and requests the sequencer OFF. -/
def execStop (ag : Agent) (s : State) : Step := s.finish (s.m.regWrite ag .pwrmCmd 0 2)

/-- SHIP (R392): PWRM_CMD SHIP opens strings, commits state and powers down every domain but AON. -/
def execShip (ag : Agent) (welded : BitVec 4 × Bool) (s : State) : Step :=
  s.finish (s.m.shipCmd ag welded.1.toNat welded.2)

/-- SAFE_EXIT (R46): PWRM_CMD SAFE_EXIT clears COND_SAFE when no SAFE fault is uncleared. -/
def execSafeExit (ag : Agent) (s : State) : Step := s.finish (s.m.regWrite ag .pwrmCmd 0 4)

/-- SERVICE_ENTER (R46): PWRM_CMD SERVICE_ENTER from the service port sets COND_SVC. -/
def execServiceEnter (ag : Agent) (s : State) : Step := s.finish (s.m.regWrite ag .pwrmCmd 0 5)

/-- SERVICE_EXIT (R46): PWRM_CMD SERVICE_EXIT clears COND_SVC. -/
def execServiceExit (ag : Agent) (s : State) : Step := s.finish (s.m.regWrite ag .pwrmCmd 0 6)

/-- LOCK_EXIT (R572): PWRM_CMD LOCK_EXIT from the service port with presence clears COND_LOCK when no alarm is
uncleared. -/
def execLockExit (ag : Agent) (s : State) : Step := s.finish (s.m.regWrite ag .pwrmCmd 0 7)

/-- RESET (R60): PWRM_CMD RESET causes a warm reset with cause 0x3. -/
def execResetCmd (ag : Agent) (s : State) : Step := s.finish (s.m.regWrite ag .pwrmCmd 0 8)

/-- ECD_FIRE (R58): The early collapse detector fires and abandons every uncommitted MRAM write. -/
def execEcdFire (s : State) : Step := s.finish s.m.ecdFire

/-- ECD_REARM (R700): The early collapse detector re-arms without a reset and covering GAP records and store rewrites
follow. -/
def execEcdRearm (s : State) : Step := s.finish s.m.ecdRearm

/-- XT32_LOSS (R63): After 8 missing XT32 cycles AON runs from LFRC and raises XT32_LOSS. -/
def execXt32Loss (s : State) : Step := s.finish s.m.xtLoss

/-- XT32_RETURN (R63): After the crystal has run 1 s without a missing cycle AON returns to XT32. -/
def execXt32Return (s : State) : Step := s.finish s.m.xtReturn

/-- REF_LOSS (R64): After 4 missing reference cycles the PLL moves to the wake RC and raises REF_LOSS. -/
def execRefLoss (s : State) : Step := s.finish s.m.refLoss

/-- REF_RETURN (R64): After the reference has run 10 ms without a missing cycle the PLL returns to it with slewed
frequency. -/
def execRefReturn (s : State) : Step := s.finish s.m.refReturn

/-- OPSEC_COMMIT (R70): PWRM_OPSEC is committed to MRAM every 600 s. -/
def execOpsecCommit (s : State) : Step := s.finish s.m.opsecCommit

end Sys2Proof.Machine
end

