-- ==== Sys2Proof/Machine/RecorderRows.lean ====
section
/-!
DEFINITION. The meanings of the commands of the event recorder: one for each row, each one call of its operation.
-/

namespace Sys2Proof.Machine

/-- RECORD_WRITE_START (R604): The recorder takes the next queued record, assigns SEQ and writes it. -/
def execRecordWriteStart (s : State) : Step := s.finish s.m.recordStart

/-- RECORD_COMMIT (R604): A record's CRC word is written, it is read back and becomes readable. -/
def execRecordCommit (good : Bool) (s : State) : Step := s.finish (s.m.recordCommit good)

/-- RCD_SEQCHK_READ (R612): A matching read of RCD_SEQCHK advances the cursor under AUTOINC. -/
def execRcdSeqchkRead (ag : Agent) (s : State) : Step := s.finish (s.m.regRd ag .rcdSeqchk 0)

/-- RCD_CLEAR (R613): RCD_CMD CLEAR commits a marker and starts zeroing the recorder. -/
def execRcdClear (ag : Agent) (cap : Bool) (s : State) : Step :=
  s.finish (s.m.regWrite ag .rcdCmd 0 (wd (1 + b2n cap * 256)))

/-- RCD_CLEAR_DONE (R613): A clear ends by writing GAP CLEAR and removing the marker. -/
def execRcdClearDone (s : State) : Step := s.finish s.m.clearDone

/-- RCD_TRIG (R619): RCD_CMD TRIG triggers a capture unit. -/
def execRcdTrig (ag : Agent) (u : Fin 8) (s : State) : Step := s.finish (s.m.regWrite ag .rcdCmd 0 (wd (2 + u * 16)))

/-- RCD_EXPORT (R614): RCD_CMD EXPORT copies records into the export buffer and appends the whipping. -/
def execRcdExport (ag : Agent) (s : State) : Step := s.finish (s.m.regWrite ag .rcdCmd 0 3)

/-- CAPTURE_ENABLE (R618): Writing a capture unit's EN starts or stops filling. -/
def execCaptureEnable (ag : Agent) (u : Fin 8) (d : Word) (s : State) : Step :=
  s.finish (s.m.regWrite ag .rcdCapCfg u d)

/-- CAPTURE_TRIGGER (R619): A raise of TSRC triggers every unit armed on it within 100 ns. -/
def execCaptureTrigger (s : State) : Step := s.finish s.m.capTriggers

/-- CAPTURE_POST_FULL (R618): The post-trigger samples are held and the unit enters COMMIT. -/
def execCapturePostFull (u : Fin 8) (s : State) : Step := s.finish (s.m.captureFull u)

/-- RCD_CAPTURE (R620): A capture commit writes the samples and its CAPTURE record. -/
def execRcdCapture (u : Fin 8) (s : State) : Step := s.finish (s.m.capCommit u)

/-- RCD_CAP_DATA_READ (R621): A read of RCD_CAP_DATA returns two samples and advances IDX. -/
def execRcdCapDataRead (ag : Agent) (s : State) : Step := s.finish (s.m.regRd ag .rcdCapData 0)

/-- SYS_USECLO_READ (R661): A read of SYS_USECLO returns the stamp's low word and latches its high bits. -/
def execSysUsecloRead (ag : Agent) (s : State) : Step := s.finish (s.m.regRd ag .sysUseclo 0)

end Sys2Proof.Machine
end

