-- ==== Sys2Proof/Machine/SequencerRows.lean ====
section
/-!
DEFINITION. The meanings of the commands of the sequencer and the strand engine: one for each row, each one call of
its operation.
-/

namespace Sys2Proof.Machine

/-- SEQ_ON (R80): SEQ_CMD ON sets the on request and starts or resumes the up sequence per the sequencer state table.
-/
def execSeqOn (ag : Agent) (s : State) : Step := s.finish (s.m.regWrite ag .seqCmd 0 1)

/-- SEQ_OFF (R80): SEQ_CMD OFF clears the on request and starts the down sequence. -/
def execSeqOff (ag : Agent) (s : State) : Step := s.finish (s.m.regWrite ag .seqCmd 0 2)

/-- SEQ_STEP_WRITE (R72): A write of SEQ_STEPn_CTL or SEQ_STEPn_TMO is judged against the step's type and time limits.
-/
def execSeqStepWrite (ag : Agent) (n : Fin 64) (tmo : Bool) (d : Word) (s : State) : Step :=
  s.finish (s.m.regWrite ag (if tmo then .seqStepTmo else .seqStepCtl) n d)

/-- SEQ_PG_CHANGE (R75): A transition of a rail's PG restarts its qualification time and counts toward chatter. -/
def execSeqPgChange (rail : Fin 24) (level : Bool) (s : State) : Step := s.finish (s.m.seqPgChange rail level)

/-- SEQ_QUALIFIED (R75): A WAIT_GOOD step completes when PG has stayed active for the qualification time. -/
def execSeqQualified (s : State) : Step := s.finish s.m.seqQualified

/-- SEQ_DELAY_ELAPSED (R71): A DELAY step completes when its duration has elapsed. -/
def execSeqDelayElapsed (s : State) : Step := s.finish s.m.seqDelayElapsed

/-- SEQ_DISCHARGED (R81): A rail is seen discharged and a WAIT_DISCH step, down-sequence wait or retry wait proceeds.
-/
def execSeqDischarged (s : State) : Step := s.finish s.m.seqDischarged

/-- RAIL_TIMEOUT (R76): A WAIT_GOOD or RESET_RELEASE step's timeout passes and RAIL_TIMEOUT is raised with the step's
policy applied. -/
def execRailTimeout (s : State) : Step := s.finish s.m.seqTimeout

/-- RAIL_CHATTER (R76): PG makes more than LIMIT transitions within WINDOW during WAIT_GOOD and RAIL_CHATTER is
raised. -/
def execRailChatter (s : State) : Step := s.finish s.m.seqChatter

/-- SEQ_RETRY_DELAY_ELAPSED (R77): RDELAY of a retry elapses, SEQ_EN is reasserted and the step restarts. -/
def execSeqRetryDelayElapsed (s : State) : Step := s.finish s.m.seqRetryDelay

/-- RAIL_NODISCHARGE (R78): A discharge wait reaches its timeout and RAIL_NODISCHARGE is raised. -/
def execRailNodischarge (s : State) : Step := s.finish s.m.seqNoDischarge

/-- RAIL_PG_LOST (R79): A rail's PG inactive for 50 µs while ON raises RAIL_PG_LOST and asserts watching reset
outputs. -/
def execRailPgLost (rail : Fin 24) (s : State) : Step := s.finish (s.m.railPgLost rail)

/-- RST_STRETCH_ELAPSED (R83): A reset output rises once STRETCH has elapsed after its release step ran and its
watched rails were good. -/
def execRstStretchElapsed (n : Fin 4) (s : State) : Step := s.finish (s.m.stretchElapsed n)

/-- STRAND_START (R93): LAY_CMD START takes a FREE allocated strand to READY with a fresh context. -/
def execStrandStart (ag : Agent) (k : Fin 256) (s : State) : Step := s.finish (s.m.layCommand ag 1 k)

/-- STRAND_HALT (R94): LAY_CMD HALT halts a strand at its next instruction boundary. -/
def execStrandHalt (ag : Agent) (k : Fin 256) (s : State) : Step := s.finish (s.m.layCommand ag 2 k)

/-- STRAND_RESUME (R94): LAY_CMD RESUME makes a HALTED strand READY, re-executing a halted wait. -/
def execStrandResume (ag : Agent) (k : Fin 256) (s : State) : Step := s.finish (s.m.layCommand ag 3 k)

/-- STRAND_RESTART (R93): LAY_CMD RESTART reinitialises a HALTED strand and makes it READY. -/
def execStrandRestart (ag : Agent) (k : Fin 256) (s : State) : Step := s.finish (s.m.layCommand ag 4 k)

/-- STRAND_FREE (R123): LAY_CMD FREE returns a strand to FREE, discarding its token results. -/
def execStrandFree (ag : Agent) (k : Fin 256) (s : State) : Step := s.finish (s.m.layCommand ag 5 k)

/-- STRAND_UNFENCE (R94): LAY_CMD UNFENCE moves a FENCED strand to HALTED once its fault flag has been read. -/
def execStrandUnfence (ag : Agent) (k : Fin 256) (s : State) : Step := s.finish (s.m.layCommand ag 6 k)

/-- HALT_OWNER (R138): LAY_CMD HALT_OWNER halts every READY, RUNNING and WAITING strand of one owner. -/
def execHaltOwner (ag : Agent) (o : Owner) (s : State) : Step := s.finish (s.m.layCommand ag 7 (Owner.code o))

/-- BUNDLE_BEGIN (R131): LAY_BLD_CTL BEGIN erases the port's program region and opens a bundle load. -/
def execBundleBegin (ag : Agent) (s : State) : Step := s.finish (s.m.regWrite ag .layBldCtl 0 1)

/-- BUNDLE_DATA (R133): A write of LAY_BLD_DATA appends one bundle word, ending the load with EFULL past the region.
-/
def execBundleData (ag : Agent) (d : Word) (s : State) : Step := s.finish (s.m.regWrite ag .layBldData 0 d)

/-- BUNDLE_COMMIT (R134): LAY_BLD_CTL COMMIT checks the bundle, allocates contexts and starts AUTOSTART entries. -/
def execBundleCommit (ag : Agent) (s : State) : Step := s.finish (s.m.regWrite ag .layBldCtl 0 2)

/-- BUNDLE_CANCEL (R130): LAY_BLD_CTL CANCEL ends a bundle load and leaves the region empty. -/
def execBundleCancel (ag : Agent) (s : State) : Step := s.finish (s.m.regWrite ag .layBldCtl 0 3)

/-- STRAND_DISPATCH (R95): At an instruction boundary the highest-priority READY strands take lanes, displacing lower
ones. -/
def execStrandDispatch (s : State) : Step := s.finish s.m.dispatch

/-- SLICE_END (R96): A strand that has issued SLICE instructions yields its lane to a READY strand of equal priority.
-/
def execSliceEnd (k : Fin 256) (s : State) : Step := s.finish (s.m.sliceEnd k)

/-- STRAND_BUDGET (R121): An instruction that would exceed the activation budget is not issued and the strand halts
with STRAND_BUDGET. -/
def execStrandBudget (k : Fin 256) (s : State) : Step := s.finish (s.m.budgetFault k)

/-- WAIT_WAKE (R94): A waiting strand's condition is met and it becomes READY with results written. -/
def execWaitWake (k : Fin 256) (s : State) : Step := s.finish (s.m.waitWake k)

/-- WAIT_TIMEOUT (R108): A wait's timeout expires and the strand becomes READY with ETIMEOUT, consuming nothing. -/
def execWaitTimeout (k : Fin 256) (s : State) : Step := s.finish (s.m.waitTimeout k)

/-- STRAND_TIMER_TICK (R110): A strand's periodic timer ticks, holding one tick pending and counting missed ticks. -/
def execStrandTimerTick (k : Fin 256) (s : State) : Step := s.finish (s.m.timerTick k)

end Sys2Proof.Machine
end

