-- ==== Sys2Proof/Machine/ServiceRows.lean ====
section
/-!
DEFINITION. The meanings of the commands of the service port, update and parameters: one for each row, each one call
of its operation.
-/

namespace Sys2Proof.Machine

/-- SVC_MALFORMED_FRAME (R627): A malformed service frame gets no response and is counted. -/
def execSvcMalformedFrame (tagFails : Bool) (s : State) : Step := s.finish (s.m.svcMalformed tagFails)

/-- IDENT (R630): A service IDENT request returns identity and active image data. -/
def execIdent (seq : BitVec 16) (tag : Option (List Byte)) (s : State) : Step :=
  s.finish (s.m.svcIdent seq.toNat (tagOf tag))

/-- OPEN (R633): A service OPEN request opens a presence session or starts a key-mode handshake. -/
def execOpenSession (seq : BitVec 16) (tag : Option (List Byte)) (mode : Byte) (nh : List Byte) (s : State) : Step :=
  s.finish (s.m.svcOpen seq.toNat (tagOf tag) mode.toNat (nh.map BitVec.toNat))

/-- AUTH (R633): A service AUTH request verifies PROOF and opens a key-mode session. -/
def execAuth (seq : BitVec 16) (tag : Option (List Byte)) (proof : List Byte) (s : State) : Step :=
  s.finish (s.m.svcAuth seq.toNat (tagOf tag) (proof.map BitVec.toNat))

/-- CLOSE (R635): A service CLOSE request ends the session. -/
def execCloseSession (seq : BitVec 16) (tag : Option (List Byte)) (s : State) : Step :=
  s.finish (s.m.svcClose seq.toNat (tagOf tag))

/-- BAUD (R632): A service BAUD request changes the bit rate after its response. -/
def execBaud (seq : BitVec 16) (tag : Option (List Byte)) (index : Byte) (s : State) : Step :=
  s.finish (s.m.svcBaud seq.toNat (tagOf tag) index.toNat)

/-- BAUD_FALLBACK (R632): No valid frame within 1 s at a new rate returns the port to the previous rate. -/
def execBaudFallback (s : State) : Step := s.finish s.m.baudFallback

/-- SVC_READ (R631): A service READ request reads one word judged by the service authority. -/
def execSvcRead (seq : BitVec 16) (tag : Option (List Byte)) (addr : BitVec 32) (s : State) : Step :=
  s.finish (s.m.svcRead seq.toNat (tagOf tag) addr.toNat)

/-- SVC_WRITE (R631): A service WRITE request writes one word judged by the service authority. -/
def execSvcWrite (seq : BitVec 16) (tag : Option (List Byte)) (addr : BitVec 32) (d : Word) (s : State) : Step :=
  s.finish (s.m.svcWrite seq.toNat (tagOf tag) addr.toNat d)

/-- IMG_BEGIN (R639): IMG_BEGIN moves the staging slot to LOADING. -/
def execImgBegin (seq : BitVec 16) (tag : Option (List Byte)) (s : State) : Step :=
  s.finish (s.m.svcImgBegin seq.toNat (tagOf tag))

/-- IMG_DATA (R639): IMG_DATA writes image bytes at the next offset. -/
def execImgData (seq : BitVec 16) (tag : Option (List Byte)) (off : BitVec 32) (bytes : List Byte) (s : State) : Step
    :=
  s.finish (s.m.svcImgData seq.toNat (tagOf tag) off.toNat (bytes.map BitVec.toNat))

/-- IMG_FINISH (R638): IMG_FINISH verifies the staged image and marks it PENDING or empties it. -/
def execImgFinish (seq : BitVec 16) (tag : Option (List Byte)) (s : State) : Step :=
  s.finish (s.m.svcImgFinish seq.toNat (tagOf tag))

/-- IMG_CANCEL (R639): IMG_CANCEL empties the staging slot. -/
def execImgCancel (seq : BitVec 16) (tag : Option (List Byte)) (s : State) : Step :=
  s.finish (s.m.svcImgCancel seq.toNat (tagOf tag))

/-- SVC_PRESENCE (R634): SVC_PRESENT_N stable for 10 ms changes presence and may end a presence session. -/
def execSvcPresence (present : Bool) (s : State) : Step := s.finish (s.m.svcPresence present)

/-- SVC_IDLE_TIMEOUT (R635): No valid request for IDLE ends the session. -/
def execSvcIdleTimeout (s : State) : Step := s.finish s.m.svcIdle

/-- UPD_CONFIRM (R644): UPD_CMD CONFIRM commits the trial image as CONFIRMED. -/
def execUpdConfirm (ag : Agent) (s : State) : Step := s.finish (s.m.regWrite ag .updCmd 0 1)

/-- UNSTAGE (R639): UPD_CMD UNSTAGE empties a PENDING staging slot. -/
def execUnstage (ag : Agent) (s : State) : Step := s.finish (s.m.regWrite ag .updCmd 0 2)

/-- UPD_SELFTEST_PASS (R644): The new firmware's self-test passes, setting SELFTEST and confirming under AUTOCONF. -/
def execUpdSelftestPass (s : State) : Step := s.finish s.m.selftestPass

/-- UPD_SELFTEST_FAIL (R645): A failed self-test commits the rollback cause and resets within 1 s. -/
def execUpdSelftestFail (s : State) : Step := s.finish s.m.selftestFail

/-- UPD_WATCHDOG_EXPIRY (R643): The confirm window ending causes a warm reset with cause 0x2. -/
def execUpdWatchdogExpiry (s : State) : Step := s.finish s.m.updWatchdog

/-- SYS_LOCK_WRITE (R658): A write of SYS_LOCK with the key sets LOCKED. -/
def execSysLockWrite (ag : Agent) (d : Word) (s : State) : Step := s.finish (s.m.regWrite ag .sysLock 0 d)

/-- PARAM_BEGIN (R664): SYS_PARAM_CTL BEGIN opens an empty parameter list for the port. -/
def execParamBegin (ag : Agent) (s : State) : Step := s.finish (s.m.regWrite ag .sysParamCtl 0 1)

/-- PARAM_DATA (R664): A write of SYS_PARAM_DATA appends one entry to the open list. -/
def execParamData (ag : Agent) (d : Word) (s : State) : Step := s.finish (s.m.regWrite ag .sysParamData 0 d)

/-- PARAM_COMMIT (R664): SYS_PARAM_CTL COMMIT writes the open list to the other copy. -/
def execParamCommit (ag : Agent) (s : State) : Step := s.finish (s.m.regWrite ag .sysParamCtl 0 2)

/-- PARAM_CANCEL (R664): SYS_PARAM_CTL CANCEL discards the open list. -/
def execParamCancel (ag : Agent) (s : State) : Step := s.finish (s.m.regWrite ag .sysParamCtl 0 3)

/-- PARAM_ERASE (R664): SYS_PARAM_CTL ERASE commits an empty list. -/
def execParamErase (ag : Agent) (s : State) : Step := s.finish (s.m.regWrite ag .sysParamCtl 0 4)

end Sys2Proof.Machine
end

