-- ==== Sys2Proof/Machine/Dispatch.lean ====
section
/-! DEFINITION. What each command does: one arm for each constructor of Instr, in the order of the table. -/

namespace Sys2Proof.Machine

/-- The effect of a command on everything but the queue. -/
def exec (i : Instr) (s : State) : Host.Outcome State Fault Refusal :=
  match i with
  | .registerWrite ag addr d => Sys2Proof.Machine.execRegisterWrite ag addr d s
  | .heldAccessComplete => Sys2Proof.Machine.execHeldAccessComplete s
  | .domainSleep dom => Sys2Proof.Machine.execDomainSleep dom s
  | .lockstepMismatch p => Sys2Proof.Machine.execLockstepMismatch p s
  | .policyHeartbeat => Sys2Proof.Machine.execPolicyHeartbeat s
  | .supplyLoss => Sys2Proof.Machine.execSupplyLoss s
  | .vkeepLoss => Sys2Proof.Machine.execVkeepLoss s
  | .powerOnResetRelease role refsel => Sys2Proof.Machine.execPowerOnResetRelease role refsel s
  | .warmReset => Sys2Proof.Machine.execWarmReset s
  | .bootComplete us act rol => Sys2Proof.Machine.execBootComplete us act rol s
  | .autostartDecision => Sys2Proof.Machine.execAutostartDecision s
  | .start ag => Sys2Proof.Machine.execStart ag s
  | .stop ag => Sys2Proof.Machine.execStop ag s
  | .ship ag welded => Sys2Proof.Machine.execShip ag welded s
  | .safeExit ag => Sys2Proof.Machine.execSafeExit ag s
  | .serviceEnter ag => Sys2Proof.Machine.execServiceEnter ag s
  | .serviceExit ag => Sys2Proof.Machine.execServiceExit ag s
  | .lockExit ag => Sys2Proof.Machine.execLockExit ag s
  | .resetCmd ag => Sys2Proof.Machine.execResetCmd ag s
  | .ecdFire => Sys2Proof.Machine.execEcdFire s
  | .ecdRearm => Sys2Proof.Machine.execEcdRearm s
  | .xt32Loss => Sys2Proof.Machine.execXt32Loss s
  | .xt32Return => Sys2Proof.Machine.execXt32Return s
  | .refLoss => Sys2Proof.Machine.execRefLoss s
  | .refReturn => Sys2Proof.Machine.execRefReturn s
  | .opsecCommit => Sys2Proof.Machine.execOpsecCommit s
  | .seqOn ag => Sys2Proof.Machine.execSeqOn ag s
  | .seqOff ag => Sys2Proof.Machine.execSeqOff ag s
  | .seqStepWrite ag n tmo d => Sys2Proof.Machine.execSeqStepWrite ag n tmo d s
  | .seqPgChange rail level => Sys2Proof.Machine.execSeqPgChange rail level s
  | .seqQualified => Sys2Proof.Machine.execSeqQualified s
  | .seqDelayElapsed => Sys2Proof.Machine.execSeqDelayElapsed s
  | .seqDischarged => Sys2Proof.Machine.execSeqDischarged s
  | .railTimeout => Sys2Proof.Machine.execRailTimeout s
  | .railChatter => Sys2Proof.Machine.execRailChatter s
  | .seqRetryDelayElapsed => Sys2Proof.Machine.execSeqRetryDelayElapsed s
  | .railNodischarge => Sys2Proof.Machine.execRailNodischarge s
  | .railPgLost rail => Sys2Proof.Machine.execRailPgLost rail s
  | .rstStretchElapsed n => Sys2Proof.Machine.execRstStretchElapsed n s
  | .strandStart ag k => Sys2Proof.Machine.execStrandStart ag k s
  | .strandHalt ag k => Sys2Proof.Machine.execStrandHalt ag k s
  | .strandResume ag k => Sys2Proof.Machine.execStrandResume ag k s
  | .strandRestart ag k => Sys2Proof.Machine.execStrandRestart ag k s
  | .strandFree ag k => Sys2Proof.Machine.execStrandFree ag k s
  | .strandUnfence ag k => Sys2Proof.Machine.execStrandUnfence ag k s
  | .haltOwner ag o => Sys2Proof.Machine.execHaltOwner ag o s
  | .bundleBegin ag => Sys2Proof.Machine.execBundleBegin ag s
  | .bundleData ag d => Sys2Proof.Machine.execBundleData ag d s
  | .bundleCommit ag => Sys2Proof.Machine.execBundleCommit ag s
  | .bundleCancel ag => Sys2Proof.Machine.execBundleCancel ag s
  | .strandDispatch => Sys2Proof.Machine.execStrandDispatch s
  | .sliceEnd k => Sys2Proof.Machine.execSliceEnd k s
  | .strandBudget k => Sys2Proof.Machine.execStrandBudget k s
  | .waitWake k => Sys2Proof.Machine.execWaitWake k s
  | .waitTimeout k => Sys2Proof.Machine.execWaitTimeout k s
  | .strandTimerTick k => Sys2Proof.Machine.execStrandTimerTick k s
  | .nop k => Sys2Proof.Machine.execNop k s
  | .halt k => Sys2Proof.Machine.execHalt k s
  | .yieldK k => Sys2Proof.Machine.execYieldK k s
  | .faultK k code => Sys2Proof.Machine.execFaultK k code s
  | .sysr k d sel => Sys2Proof.Machine.execSysr k d sel s
  | .add k d a b => Sys2Proof.Machine.execAdd k d a b s
  | .adc k d a b => Sys2Proof.Machine.execAdc k d a b s
  | .sub k d a b => Sys2Proof.Machine.execSub k d a b s
  | .sbc k d a b => Sys2Proof.Machine.execSbc k d a b s
  | .andK k d a b => Sys2Proof.Machine.execAndK k d a b s
  | .orK k d a b => Sys2Proof.Machine.execOrK k d a b s
  | .xorK k d a b => Sys2Proof.Machine.execXorK k d a b s
  | .bic k d a b => Sys2Proof.Machine.execBic k d a b s
  | .shl k d a b => Sys2Proof.Machine.execShl k d a b s
  | .shr k d a b => Sys2Proof.Machine.execShr k d a b s
  | .sar k d a b => Sys2Proof.Machine.execSar k d a b s
  | .mul k d a b => Sys2Proof.Machine.execMul k d a b s
  | .mulh k d a b => Sys2Proof.Machine.execMulh k d a b s
  | .cmp k a b => Sys2Proof.Machine.execCmp k a b s
  | .mov k d a => Sys2Proof.Machine.execMov k d a s
  | .notK k d a => Sys2Proof.Machine.execNotK k d a s
  | .neg k d a => Sys2Proof.Machine.execNeg k d a s
  | .clz k d a => Sys2Proof.Machine.execClz k d a s
  | .minK k d a b => Sys2Proof.Machine.execMinK k d a b s
  | .maxK k d a b => Sys2Proof.Machine.execMaxK k d a b s
  | .tst k a b => Sys2Proof.Machine.execTst k a b s
  | .sadd k d a b => Sys2Proof.Machine.execSadd k d a b s
  | .ssub k d a b => Sys2Proof.Machine.execSsub k d a b s
  | .qmul k d a b => Sys2Proof.Machine.execQmul k d a b s
  | .divu k d a b => Sys2Proof.Machine.execDivu k d a b s
  | .divK k d a b => Sys2Proof.Machine.execDivK k d a b s
  | .movi k d imm => Sys2Proof.Machine.execMovi k d imm s
  | .movhi k d imm => Sys2Proof.Machine.execMovhi k d imm s
  | .addi k d a imm => Sys2Proof.Machine.execAddi k d a imm s
  | .andi k d a imm => Sys2Proof.Machine.execAndi k d a imm s
  | .ori k d a imm => Sys2Proof.Machine.execOri k d a imm s
  | .xori k d a imm => Sys2Proof.Machine.execXori k d a imm s
  | .shli k d a n => Sys2Proof.Machine.execShli k d a n s
  | .shri k d a n => Sys2Proof.Machine.execShri k d a n s
  | .sari k d a n => Sys2Proof.Machine.execSari k d a n s
  | .cmpi k a imm => Sys2Proof.Machine.execCmpi k a imm s
  | .extu k d a pos wm1 => Sys2Proof.Machine.execExtu k d a pos wm1 s
  | .exts k d a pos wm1 => Sys2Proof.Machine.execExts k d a pos wm1 s
  | .ins k d a pos wm1 => Sys2Proof.Machine.execIns k d a pos wm1 s
  | .ldl k d a imm => Sys2Proof.Machine.execLdl k d a imm s
  | .ldlh k d a imm => Sys2Proof.Machine.execLdlh k d a imm s
  | .ldlb k d a imm => Sys2Proof.Machine.execLdlb k d a imm s
  | .stl k d a imm => Sys2Proof.Machine.execStl k d a imm s
  | .stlh k d a imm => Sys2Proof.Machine.execStlh k d a imm s
  | .stlb k d a imm => Sys2Proof.Machine.execStlb k d a imm s
  | .ldc k d a imm => Sys2Proof.Machine.execLdc k d a imm s
  | .ldch k d a imm => Sys2Proof.Machine.execLdch k d a imm s
  | .ldcb k d a imm => Sys2Proof.Machine.execLdcb k d a imm s
  | .stc k d a imm => Sys2Proof.Machine.execStc k d a imm s
  | .stch k d a imm => Sys2Proof.Machine.execStch k d a imm s
  | .stcb k d a imm => Sys2Proof.Machine.execStcb k d a imm s
  | .ldd k d a imm => Sys2Proof.Machine.execLdd k d a imm s
  | .std k d a imm => Sys2Proof.Machine.execStd k d a imm s
  | .cas k d a b c => Sys2Proof.Machine.execCas k d a b c s
  | .fadd k d a b => Sys2Proof.Machine.execFadd k d a b s
  | .xchg k d a b => Sys2Proof.Machine.execXchg k d a b s
  | .bcc k cond off => Sys2Proof.Machine.execBcc k cond off s
  | .bl k off => Sys2Proof.Machine.execBl k off s
  | .jr k a => Sys2Proof.Machine.execJr k a s
  | .ret k => Sys2Proof.Machine.execRet k s
  | .delay k n => Sys2Proof.Machine.execDelay k n s
  | .delayv k a => Sys2Proof.Machine.execDelayv k a s
  | .timer k n => Sys2Proof.Machine.execTimer k n s
  | .timerv k a => Sys2Proof.Machine.execTimerv k a s
  | .waitt k d c => Sys2Proof.Machine.execWaitt k d c s
  | .waite k d line a c => Sys2Proof.Machine.execWaite k d line a c s
  | .waitk k d a c => Sys2Proof.Machine.execWaitk k d a c s
  | .kpoll k d a => Sys2Proof.Machine.execKpoll k d a s
  | .kdrop k a => Sys2Proof.Machine.execKdrop k a s
  | .send k b ch => Sys2Proof.Machine.execSend k b ch s
  | .recv k d ch c => Sys2Proof.Machine.execRecv k d ch c s
  | .lrd k d a w => Sys2Proof.Machine.execLrd k d a w s
  | .lwr k b a w => Sys2Proof.Machine.execLwr k b a w s
  | .lsp k b a => Sys2Proof.Machine.execLsp k b a s
  | .lcmt k a blk => Sys2Proof.Machine.execLcmt k a blk s
  | .pread k d a item => Sys2Proof.Machine.execPread k d a item s
  | .pwrite k d a b item => Sys2Proof.Machine.execPwrite k d a b item s
  | .pcmd k d a item => Sys2Proof.Machine.execPcmd k d a item s
  | .pblkr k d a b item => Sys2Proof.Machine.execPblkr k d a b item s
  | .pblkw k d a b item => Sys2Proof.Machine.execPblkw k d a b item s
  | .psetp k d a b item => Sys2Proof.Machine.execPsetp k d a b item s
  | .recNote k code => Sys2Proof.Machine.execRecNote k code s
  | .conversionResult n c raw sub => Sys2Proof.Machine.execConversionResult n c raw sub s
  | .acqScanBoundary n => Sys2Proof.Machine.execAcqScanBoundary n s
  | .acqQpop1Read ag => Sys2Proof.Machine.execAcqQpop1Read ag s
  | .acqResRead ag c => Sys2Proof.Machine.execAcqResRead ag c s
  | .acqCal ag p => Sys2Proof.Machine.execAcqCal ag p s
  | .acqCalDone offs gain => Sys2Proof.Machine.execAcqCalDone offs gain s
  | .qflush ag => Sys2Proof.Machine.execQflush ag s
  | .acqTrackUpdate p mean0 mean1 => Sys2Proof.Machine.execAcqTrackUpdate p mean0 mean1 s
  | .acmUnlock => Sys2Proof.Machine.execAcmUnlock s
  | .acmLock => Sys2Proof.Machine.execAcmLock s
  | .acmSagOnset phases => Sys2Proof.Machine.execAcmSagOnset phases s
  | .acmSagConfirm => Sys2Proof.Machine.execAcmSagConfirm s
  | .acmSagCancel => Sys2Proof.Machine.execAcmSagCancel s
  | .acmSagEnd => Sys2Proof.Machine.execAcmSagEnd s
  | .acmSwellOnset phases => Sys2Proof.Machine.execAcmSwellOnset phases s
  | .acmSwellConfirm => Sys2Proof.Machine.execAcmSwellConfirm s
  | .acmSwellCancel => Sys2Proof.Machine.execAcmSwellCancel s
  | .acmSwellEnd => Sys2Proof.Machine.execAcmSwellEnd s
  | .slotRun ag slot ctl => Sys2Proof.Machine.execSlotRun ag slot ctl s
  | .slotStop ag slot ctl => Sys2Proof.Machine.execSlotStop ag slot ctl s
  | .slotStopComplete slot => Sys2Proof.Machine.execSlotStopComplete slot s
  | .loopSpWrite ag slot d => Sys2Proof.Machine.execLoopSpWrite ag slot d s
  | .cleCommit ag slot mask => Sys2Proof.Machine.execCleCommit ag slot mask s
  | .cleKick ag slot => Sys2Proof.Machine.execCleKick ag slot s
  | .loopTrigger slot => Sys2Proof.Machine.execLoopTrigger slot s
  | .loopSampleStart delay => Sys2Proof.Machine.execLoopSampleStart delay s
  | .loopSampleDone slot => Sys2Proof.Machine.execLoopSampleDone slot s
  | .plausibility slot => Sys2Proof.Machine.execPlausibility slot s
  | .predictConfwElapsed slot => Sys2Proof.Machine.execPredictConfwElapsed slot s
  | .rlimWrite => Sys2Proof.Machine.execRlimWrite s
  | .shareKeepalive => Sys2Proof.Machine.execShareKeepalive s
  | .shareTrim amps => Sys2Proof.Machine.execShareTrim amps s
  | .shareImbalance e => Sys2Proof.Machine.execShareImbalance e s
  | .sourceQualified => Sys2Proof.Machine.execSourceQualified s
  | .hoBackstop => Sys2Proof.Machine.execHoBackstop s
  | .transfer ag => Sys2Proof.Machine.execTransfer ag s
  | .hoDone => Sys2Proof.Machine.execHoDone s
  | .retStart => Sys2Proof.Machine.execRetStart s
  | .retDone => Sys2Proof.Machine.execRetDone s
  | .capRecompute v => Sys2Proof.Machine.execCapRecompute v s
  | .capEnter => Sys2Proof.Machine.execCapEnter s
  | .capExit => Sys2Proof.Machine.execCapExit s
  | .branchShed => Sys2Proof.Machine.execBranchShed s
  | .shedRestore => Sys2Proof.Machine.execShedRestore s
  | .levelChangeApply b => Sys2Proof.Machine.execLevelChangeApply b s
  | .stageStart ag x => Sys2Proof.Machine.execStageStart ag x s
  | .stageStop ag x => Sys2Proof.Machine.execStageStop ag x s
  | .phaseUnfence ag x k => Sys2Proof.Machine.execPhaseUnfence ag x k s
  | .stageUnfence ag x => Sys2Proof.Machine.execStageUnfence ag x s
  | .stageBoundary x cur fast paused => Sys2Proof.Machine.execStageBoundary x cur fast paused s
  | .phaseRotation x => Sys2Proof.Machine.execPhaseRotation x s
  | .softstartCheckpoint x => Sys2Proof.Machine.execSoftstartCheckpoint x s
  | .hiccupElapsed x => Sys2Proof.Machine.execHiccupElapsed x s
  | .stoppingDone x => Sys2Proof.Machine.execStoppingDone x s
  | .cnvShort x => Sys2Proof.Machine.execCnvShort x s
  | .fastLimit x k => Sys2Proof.Machine.execFastLimit x k s
  | .phaseSc x k => Sys2Proof.Machine.execPhaseSc x k s
  | .phaseScResume x k => Sys2Proof.Machine.execPhaseScResume x k s
  | .cnvOverload x => Sys2Proof.Machine.execCnvOverload x s
  | .phaseImbalance x k iavg => Sys2Proof.Machine.execPhaseImbalance x k iavg s
  | .zeroCrossing x k => Sys2Proof.Machine.execZeroCrossing x k s
  | .deEntry x k => Sys2Proof.Machine.execDeEntry x k s
  | .deExit x k => Sys2Proof.Machine.execDeExit x k s
  | .batteryRemovalDetect => Sys2Proof.Machine.execBatteryRemovalDetect s
  | .syncinEdge per => Sys2Proof.Machine.execSyncinEdge per s
  | .syncLock x => Sys2Proof.Machine.execSyncLock x s
  | .syncLoss x => Sys2Proof.Machine.execSyncLoss x s
  | .cnvVcmd ag x d => Sys2Proof.Machine.execCnvVcmd ag x d s
  | .cnvVdoneRead ag x => Sys2Proof.Machine.execCnvVdoneRead ag x s
  | .pertToneChange t => Sys2Proof.Machine.execPertToneChange t s
  | .branchOnCmd ag n => Sys2Proof.Machine.execBranchOnCmd ag n s
  | .branchOff ag n => Sys2Proof.Machine.execBranchOff ag n s
  | .branchUnfence ag n => Sys2Proof.Machine.execBranchUnfence ag n s
  | .eclr ag n => Sys2Proof.Machine.execEclr ag n s
  | .branchMeterSample n cur v want gfb => Sys2Proof.Machine.execBranchMeterSample n cur v want gfb s
  | .branchAvgWindow n => Sys2Proof.Machine.execBranchAvgWindow n s
  | .brnEloRead ag n => Sys2Proof.Machine.execBrnEloRead ag n s
  | .branchTrip n => Sys2Proof.Machine.execBranchTrip n s
  | .branchOn n => Sys2Proof.Machine.execBranchOn n s
  | .branchInrushTimeout n => Sys2Proof.Machine.execBranchInrushTimeout n s
  | .branchInrushShort n => Sys2Proof.Machine.execBranchInrushShort n s
  | .branchOverload n => Sys2Proof.Machine.execBranchOverload n s
  | .gateFail n kind => Sys2Proof.Machine.execGateFail n kind s
  | .branchRetry n => Sys2Proof.Machine.execBranchRetry n s
  | .branchPassShort n => Sys2Proof.Machine.execBranchPassShort n s
  | .branchAutoonStagger => Sys2Proof.Machine.execBranchAutoonStagger s
  | .connect ag n => Sys2Proof.Machine.execConnect ag n s
  | .connectf ag n => Sys2Proof.Machine.execConnectf ag n s
  | .disconnect ag n => Sys2Proof.Machine.execDisconnect ag n s
  | .suspend ag => Sys2Proof.Machine.execSuspend ag s
  | .chgResume ag => Sys2Proof.Machine.execChgResume ag s
  | .chgRestart ag => Sys2Proof.Machine.execChgRestart ag s
  | .batInserted n => Sys2Proof.Machine.execBatInserted n s
  | .stringIdentityRead n good w => Sys2Proof.Machine.execStringIdentityRead n good w s
  | .stringMatched n => Sys2Proof.Machine.execStringMatched n s
  | .strMatchTimeout n => Sys2Proof.Machine.execStrMatchTimeout n s
  | .strSwitchFail n => Sys2Proof.Machine.execStrSwitchFail n s
  | .strSwitchWeld n => Sys2Proof.Machine.execStrSwitchWeld n s
  | .stringUnstuck n => Sys2Proof.Machine.execStringUnstuck n s
  | .stringAbsent n => Sys2Proof.Machine.execStringAbsent n s
  | .batRemoved mask => Sys2Proof.Machine.execBatRemoved mask s
  | .strUndervolt n => Sys2Proof.Machine.execStrUndervolt n s
  | .strOvercurrent n => Sys2Proof.Machine.execStrOvercurrent n s
  | .chargeRecompute => Sys2Proof.Machine.execChargeRecompute s
  | .chgEntryRestEnd v => Sys2Proof.Machine.execChgEntryRestEnd v s
  | .chgTrickleDone => Sys2Proof.Machine.execChgTrickleDone s
  | .chgPrechgDone => Sys2Proof.Machine.execChgPrechgDone s
  | .chgNoaccept => Sys2Proof.Machine.execChgNoaccept s
  | .chgOnIntervalEnd => Sys2Proof.Machine.execChgOnIntervalEnd s
  | .chgRestEnd v steady => Sys2Proof.Machine.execChgRestEnd v steady s
  | .chgTermination => Sys2Proof.Machine.execChgTermination s
  | .chgTimeout => Sys2Proof.Machine.execChgTimeout s
  | .chgRecharge => Sys2Proof.Machine.execChgRecharge s
  | .chgOvervolt => Sys2Proof.Machine.execChgOvervolt s
  | .wakeButton => Sys2Proof.Machine.execWakeButton s
  | .wakeSource present => Sys2Proof.Machine.execWakeSource present s
  | .estUpdate => Sys2Proof.Machine.execEstUpdate s
  | .estWindowEnd n t isum icos vsum vcos samples clean => Sys2Proof.Machine.execEstWindowEnd n t isum icos vsum vcos samples clean s
  | .estStep n di dv => Sys2Proof.Machine.execEstStep n di dv s
  | .estStepTstep n dv t63 => Sys2Proof.Machine.execEstStepTstep n dv t63 s
  | .estModuleRead n count => Sys2Proof.Machine.execEstModuleRead n count s
  | .estStorePeriodic => Sys2Proof.Machine.execEstStorePeriodic s
  | .estStored => Sys2Proof.Machine.execEstStored s
  | .estStoreRetry => Sys2Proof.Machine.execEstStoreRetry s
  | .estStore ag => Sys2Proof.Machine.execEstStore ag s
  | .relearn ag n => Sys2Proof.Machine.execRelearn ag n s
  | .forget ag k => Sys2Proof.Machine.execForget ag k s
  | .partnerTableWrite ag e w d => Sys2Proof.Machine.execPartnerTableWrite ag e w d s
  | .transactionStart p sel => Sys2Proof.Machine.execTransactionStart p sel s
  | .transactionTimeout e => Sys2Proof.Machine.execTransactionTimeout e s
  | .qmaxExpiry e => Sys2Proof.Machine.execQmaxExpiry e s
  | .telemetryPoll e => Sys2Proof.Machine.execTelemetryPoll e s
  | .generationHoldEnd shelf => Sys2Proof.Machine.execGenerationHoldEnd shelf s
  | .ptnCreditStall e cls => Sys2Proof.Machine.execPtnCreditStall e cls s
  | .ptnTelRdWrite ag d => Sys2Proof.Machine.execPtnTelRdWrite ag d s
  | .partnerUnfence ag e => Sys2Proof.Machine.execPartnerUnfence ag e s
  | .discover ag d => Sys2Proof.Machine.execDiscover ag d s
  | .ptnDiscovered found => Sys2Proof.Machine.execPtnDiscovered found s
  | .discClear ag => Sys2Proof.Machine.execDiscClear ag s
  | .twTransferEnd n out bytes => Sys2Proof.Machine.execTwTransferEnd n out bytes s
  | .twStretchTimeout n => Sys2Proof.Machine.execTwStretchTimeout n s
  | .twArbLost n => Sys2Proof.Machine.execTwArbLost n s
  | .twProtoError n => Sys2Proof.Machine.execTwProtoError n s
  | .twHailDetect n => Sys2Proof.Machine.execTwHailDetect n s
  | .twHail n ack a b0 => Sys2Proof.Machine.execTwHail n ack a b0 s
  | .busStuckDetect n => Sys2Proof.Machine.execBusStuckDetect n s
  | .busRecoveryEnd n lines => Sys2Proof.Machine.execBusRecoveryEnd n lines s
  | .busStuckScl n => Sys2Proof.Machine.execBusStuckScl n s
  | .busRecover ag n => Sys2Proof.Machine.execBusRecover ag n s
  | .busUnfence ag n => Sys2Proof.Machine.execBusUnfence ag n s
  | .twTargetWrite code extra => Sys2Proof.Machine.execTwTargetWrite code extra s
  | .twTargetRead code count => Sys2Proof.Machine.execTwTargetRead code count s
  | .mirrorUpdate vbus iload => Sys2Proof.Machine.execMirrorUpdate vbus iload s
  | .hostWrite crcOk addr d => Sys2Proof.Machine.execHostWrite crcOk addr d s
  | .hostRead crcOk addr => Sys2Proof.Machine.execHostRead crcOk addr s
  | .hostSummary crcOk => Sys2Proof.Machine.execHostSummary crcOk s
  | .hostReread crcOk => Sys2Proof.Machine.execHostReread crcOk s
  | .widthReset => Sys2Proof.Machine.execWidthReset s
  | .hostFrameAbort a => Sys2Proof.Machine.execHostFrameAbort a s
  | .authMaskWrite ag o d => Sys2Proof.Machine.execAuthMaskWrite ag o d s
  | .mbxTxWrite ag c d => Sys2Proof.Machine.execMbxTxWrite ag c d s
  | .mbxRxRead ag c => Sys2Proof.Machine.execMbxRxRead ag c s
  | .echo c => Sys2Proof.Machine.execEcho c s
  | .version c => Sys2Proof.Machine.execVersion c s
  | .fwSnapshot c => Sys2Proof.Machine.execFwSnapshot c s
  | .fwRequestTimeout c => Sys2Proof.Machine.execFwRequestTimeout c s
  | .resp n src tag st credit bytes => Sys2Proof.Machine.execResp n src tag st credit bytes s
  | .stream n src credit readings => Sys2Proof.Machine.execStream n src credit readings s
  | .credit n src credit => Sys2Proof.Machine.execCredit n src credit s
  | .idresp n src credit => Sys2Proof.Machine.execIdresp n src credit s
  | .linkFrameDiscard n kind => Sys2Proof.Machine.execLinkFrameDiscard n kind s
  | .plcaTxOpportunity n => Sys2Proof.Machine.execPlcaTxOpportunity n s
  | .linkFault n cause => Sys2Proof.Machine.execLinkFault n cause s
  | .segmentUnfence ag n => Sys2Proof.Machine.execSegmentUnfence ag n s
  | .neighbourRead n src tag want => Sys2Proof.Machine.execNeighbourRead n src tag want s
  | .neighbourSetp n src tag gen value tent => Sys2Proof.Machine.execNeighbourSetp n src tag gen value tent s
  | .neighbourRetract n src tag gen value genf => Sys2Proof.Machine.execNeighbourRetract n src tag gen value genf s
  | .neighbourFinal n src tag gen => Sys2Proof.Machine.execNeighbourFinal n src tag gen s
  | .neighbourOther n src tag item cls => Sys2Proof.Machine.execNeighbourOther n src tag item cls s
  | .offerHoldExpiry => Sys2Proof.Machine.execOfferHoldExpiry s
  | .thmReading k t bad => Sys2Proof.Machine.execThmReading k t bad s
  | .faultEventDelivery => Sys2Proof.Machine.execFaultEventDelivery s
  | .fltFlagRead ag src => Sys2Proof.Machine.execFltFlagRead ag src s
  | .fltSrcWrite ag src d => Sys2Proof.Machine.execFltSrcWrite ag src d s
  | .fltSwraise ag code => Sys2Proof.Machine.execFltSwraise ag code s
  | .evtSwset ag n => Sys2Proof.Machine.execEvtSwset ag n s
  | .evtAck ag d w mask => Sys2Proof.Machine.execEvtAck ag d w mask s
  | .evtRouteWrite ag src d => Sys2Proof.Machine.execEvtRouteWrite ag src d s
  | .secTamper k => Sys2Proof.Machine.execSecTamper k s
  | .secGlitch => Sys2Proof.Machine.execSecGlitch s
  | .secClock => Sys2Proof.Machine.execSecClock s
  | .secAlarmCfgWrite ag d => Sys2Proof.Machine.execSecAlarmCfgWrite ag d s
  | .secAlarmFlgRead ag => Sys2Proof.Machine.execSecAlarmFlgRead ag s
  | .keyBegin ag slot => Sys2Proof.Machine.execKeyBegin ag slot s
  | .keyData ag d => Sys2Proof.Machine.execKeyData ag d s
  | .keyCommit ag slot => Sys2Proof.Machine.execKeyCommit ag slot s
  | .keyCancel ag slot => Sys2Proof.Machine.execKeyCancel ag slot s
  | .peerHelloSend => Sys2Proof.Machine.execPeerHelloSend s
  | .hello good h => Sys2Proof.Machine.execHello good h s
  | .journal good seq items => Sys2Proof.Machine.execJournal good seq items s
  | .snapshot good seq items => Sys2Proof.Machine.execSnapshot good seq items s
  | .spliceNote good seq cause => Sys2Proof.Machine.execSpliceNote good seq cause s
  | .takebackReq good seq => Sys2Proof.Machine.execTakebackReq good seq s
  | .takebackAck good seq => Sys2Proof.Machine.execTakebackAck good seq s
  | .takebackNak good seq => Sys2Proof.Machine.execTakebackNak good seq s
  | .pwmmark good x ticks => Sys2Proof.Machine.execPwmmark good x ticks s
  | .peerLink => Sys2Proof.Machine.execPeerLink s
  | .intlkInFall => Sys2Proof.Machine.execIntlkInFall s
  | .intlkInRise => Sys2Proof.Machine.execIntlkInRise s
  | .peerIntlk => Sys2Proof.Machine.execPeerIntlk s
  | .intlkConflict twinRole higher => Sys2Proof.Machine.execIntlkConflict twinRole higher s
  | .soloTake => Sys2Proof.Machine.execSoloTake s
  | .takebackTimer => Sys2Proof.Machine.execTakebackTimer s
  | .peerDiverge slot => Sys2Proof.Machine.execPeerDiverge slot s
  | .splSplice ag => Sys2Proof.Machine.execSplSplice ag s
  | .resync ag => Sys2Proof.Machine.execResync ag s
  | .splTakeback ag => Sys2Proof.Machine.execSplTakeback ag s
  | .recordWriteStart => Sys2Proof.Machine.execRecordWriteStart s
  | .recordCommit good => Sys2Proof.Machine.execRecordCommit good s
  | .rcdSeqchkRead ag => Sys2Proof.Machine.execRcdSeqchkRead ag s
  | .rcdClear ag cap => Sys2Proof.Machine.execRcdClear ag cap s
  | .rcdClearDone => Sys2Proof.Machine.execRcdClearDone s
  | .rcdTrig ag u => Sys2Proof.Machine.execRcdTrig ag u s
  | .rcdExport ag => Sys2Proof.Machine.execRcdExport ag s
  | .captureEnable ag u d => Sys2Proof.Machine.execCaptureEnable ag u d s
  | .captureTrigger => Sys2Proof.Machine.execCaptureTrigger s
  | .capturePostFull u => Sys2Proof.Machine.execCapturePostFull u s
  | .rcdCapture u => Sys2Proof.Machine.execRcdCapture u s
  | .rcdCapDataRead ag => Sys2Proof.Machine.execRcdCapDataRead ag s
  | .sysUsecloRead ag => Sys2Proof.Machine.execSysUsecloRead ag s
  | .svcMalformedFrame tagFails => Sys2Proof.Machine.execSvcMalformedFrame tagFails s
  | .ident seq tag => Sys2Proof.Machine.execIdent seq tag s
  | .openSession seq tag mode nh => Sys2Proof.Machine.execOpenSession seq tag mode nh s
  | .auth seq tag proof => Sys2Proof.Machine.execAuth seq tag proof s
  | .closeSession seq tag => Sys2Proof.Machine.execCloseSession seq tag s
  | .baud seq tag index => Sys2Proof.Machine.execBaud seq tag index s
  | .baudFallback => Sys2Proof.Machine.execBaudFallback s
  | .svcRead seq tag addr => Sys2Proof.Machine.execSvcRead seq tag addr s
  | .svcWrite seq tag addr d => Sys2Proof.Machine.execSvcWrite seq tag addr d s
  | .imgBegin seq tag => Sys2Proof.Machine.execImgBegin seq tag s
  | .imgData seq tag off bytes => Sys2Proof.Machine.execImgData seq tag off bytes s
  | .imgFinish seq tag => Sys2Proof.Machine.execImgFinish seq tag s
  | .imgCancel seq tag => Sys2Proof.Machine.execImgCancel seq tag s
  | .svcPresence present => Sys2Proof.Machine.execSvcPresence present s
  | .svcIdleTimeout => Sys2Proof.Machine.execSvcIdleTimeout s
  | .updConfirm ag => Sys2Proof.Machine.execUpdConfirm ag s
  | .unstage ag => Sys2Proof.Machine.execUnstage ag s
  | .updSelftestPass => Sys2Proof.Machine.execUpdSelftestPass s
  | .updSelftestFail => Sys2Proof.Machine.execUpdSelftestFail s
  | .updWatchdogExpiry => Sys2Proof.Machine.execUpdWatchdogExpiry s
  | .sysLockWrite ag d => Sys2Proof.Machine.execSysLockWrite ag d s
  | .paramBegin ag => Sys2Proof.Machine.execParamBegin ag s
  | .paramData ag d => Sys2Proof.Machine.execParamData ag d s
  | .paramCommit ag => Sys2Proof.Machine.execParamCommit ag s
  | .paramCancel ag => Sys2Proof.Machine.execParamCancel ag s
  | .paramErase ag => Sys2Proof.Machine.execParamErase ag s
  | .stageRetryCountReset x => Sys2Proof.Machine.execStageRetryCountReset x s
  | .branchRetryCountReset n => Sys2Proof.Machine.execBranchRetryCountReset n s
  | .rcFieldRead ag addr => Sys2Proof.Machine.execRcFieldRead ag addr s
  | .undefinedEncoding k => Sys2Proof.Machine.execUndefinedEncoding k s
  | .unknownOpcode => Sys2Proof.Machine.execUnknownOpcode s
  | .unknownServiceCode c => Sys2Proof.Machine.execUnknownServiceCode c s
  | .araRead n => Sys2Proof.Machine.execAraRead n s
  | .hailLong n => Sys2Proof.Machine.execHailLong n s
  | .spliceFlushTimeout => Sys2Proof.Machine.execSpliceFlushTimeout s
  | .rcdExportDone => Sys2Proof.Machine.execRcdExportDone s
  | .pairEventAck b src => Sys2Proof.Machine.execPairEventAck b src s
  | .alarmConditionCleared k => Sys2Proof.Machine.execAlarmConditionCleared k s
  | .svcNoise n => Sys2Proof.Machine.execSvcNoise n s
  | .nvmEccError fatal => Sys2Proof.Machine.execNvmEccError fatal s
  | .ramEcc => Sys2Proof.Machine.execRamEcc s

end Sys2Proof.Machine
end

