-- ==== Sys2Proof/Machine/Step.lean ====
section
/-!
DEFINITION. The step of the block: the command at the front of the queue takes effect on the rest; with no command waiting,
time passes (DESIGN CHOICE, log entry 3).
-/

namespace Sys2Proof.Machine

/-- With no command waiting, one microsecond passes, and the machines that watch time and the pins follow (DESIGN CHOICE, log entry 3). -/
def State.idle (s : State) : State := { s with m := (s.m.advance 1).settle s.m }

/-- One step: the command that has waited longest, on everything but itself. -/
def step (s : State) : Host.Outcome State Fault Refusal :=
  match s.pending with
  | [] => .next s.idle
  | c :: rest => exec c { s with pending := rest }

/-- The state with the command that a word spells in front of its queue; unchanged where the word spells none. -/
def State.withFetchWord (s : State) (nbits w : Nat) : State :=
  match Sys2Proof.decodeTableWord nbits w with
  | some c => { s with pending := c :: s.pending }
  | none => s

end Sys2Proof.Machine
end

