-- ==== Sys2Proof/Safety.lean ====
section
/-!
DEFINITION. The terms that statements about the block use: what it is for a command to complete, for an access to be granted,
for a strand to be able to issue an instruction, and what always holds of the pins and of the memories.
-/

namespace Sys2Proof.Machine

/-! ### Completion -/

/-- Command `i` completes on `s` with its own effect `m'`: exec answers the next state in which the queue is as it was and the
chip is `m'` as the machines that watch, and then the pins, follow it (Machine/Settle.lean). -/
def Completes (i : Instr) (s : State) (m' : Chip) : Prop :=
  exec i s = .next { m := m'.settle s.m, pending := s.pending }

/-! ### Accesses (R9, R12, R35) -/

/-- The port or strand `ag` is answered at all: the chip is powered, and the service port is within a session or at boot. -/
def Chip.open_ (m : Chip) (ag : Agent) : Prop :=
  m.portShut = false ∧ (ag = .svc → m.pwr.base = .boot ∨ 2 ≤ m.upd.session)

/-- A write of `d` at `addr` by `ag` takes effect at once: the port is answered, no rejection of R12 applies and the power
domain is usable. -/
def Chip.grants (m : Chip) (ag : Agent) (addr : Nat) (d : Word) : Prop :=
  m.open_ ag ∧ m.writeVerdict ag addr d = none ∧ m.usableDom (domOf addr) = true

/-- A read at `addr` by `ag` takes effect at once. -/
def Chip.grantsRead (m : Chip) (ag : Agent) (addr : Nat) : Prop :=
  m.open_ ag ∧ (m.gate false ag addr 0).first = none ∧ m.usableDom (domOf addr) = true ∧
    m.cursorWaits { ag := ag, write := false, addr := addr, data := 0, dst := 0 } = false

/-- The chip after a granted write whose effect gave `m'` and whose status is `st`: HST_STAT notes a host write, and the port
is told. -/
def Chip.written (m m' : Chip) (ag : Agent) (addr : Nat) (st : Status) : Chip :=
  (m'.noteHostWrite ag addr st m.pwr.base).respond ag st 0

/-- The command `i ag` is a write of `d` to instance `n` of register `r` by `ag`: whenever it is granted, it completes with OK
and the effect `f`. -/
def WriteRow (i : Agent → Instr) (r : RName) (n : Nat) (d : Word) (f : Agent → Chip → Chip) : Prop :=
  ∀ ag s, s.m.grants ag (r.addr n) d → Completes (i ag) s (s.m.written (f ag s.m) ag (r.addr n) .ok)

/-- The command `i ag` is a read of instance `n` of register `r` by `ag`: whenever it is granted, it completes, leaves the chip
and returns the status and the word that `f` gives. -/
def ReadRow (i : Agent → Instr) (r : RName) (n : Nat) (f : Agent → Chip → Chip × Word × Status) : Prop :=
  ∀ ag s, s.m.grantsRead ag (r.addr n) →
    Completes (i ag) s ((f ag s.m).1.respond ag (f ag s.m).2.2 (f ag s.m).2.1)

/-! ### Strands (R94, R121, R143) -/

/-- Strand `k` may issue the instruction word `w`: it is RUNNING at that word, its budget is not used up, and the word after
it lies in its owner's region. -/
def Chip.mayIssue (m : Chip) (k : Nat) (w : Word) : Prop :=
  m.atWord k w = true ∧ (m.strand k).act < m.fld .layBudget k 20 0 ∧ inRegion (m.strand k).owner ((m.strand k).pc + 4) = true

/-- The strand moved on to the next instruction, one more instruction counted. -/
def Strand.moved (s : Strand) : Strand := { s with pc := s.pc + 4, act := s.act + 1, slice := s.slice + 1 }

/-- The strand with a result in register `d`; S14 keeps only [11:0] (R145). -/
def Strand.result (s : Strand) (d : Nat) (r : Word) : Strand := s.put d (if d = 14 then r &&& 0xFFF else r)

/-- The strand with flags set (R146). -/
def Strand.flags (s : Strand) (z n c v : Bool) : Strand := { s with z := z, n := n, c := c, v := v }

/-- The instruction `i`, of word `w`, is an operation on strand `k` alone: whenever the strand may issue it, it completes with
the strand as `f` gives it, moved on, and nothing else changed. -/
def StrandRow (i : Instr) (k : Nat) (w : Word) (f : Strand → Strand) : Prop :=
  ∀ s, s.m.mayIssue k w → Completes i s (s.m.putStrand k (f (s.m.strand k)).moved)

/-- A result that sets Z and N and leaves C and V (R146). -/
def Strand.zeroNeg (s : Strand) (d : Nat) (r : Word) : Strand := (s.flags (r == 0) r.msb s.c s.v).result d r

/-- A signed value that no 32-bit word holds. -/
def overflows (t : Int) : Bool := t < -2147483648 || 2147483647 < t

/-- The nearest signed 32-bit value (R151). -/
def clamp32 (t : Int) : Int := max (-2147483648) (min 2147483647 t)

/-- The flags of x + y + cin, and of x − y − cin (R146). -/
def Strand.sumFlags (s : Strand) (x y : Word) (cin : Nat) : Strand :=
  let r := x + y + BitVec.ofNat 32 cin
  s.flags (r == 0) r.msb (2 ^ 32 ≤ x.toNat + y.toNat + cin) (overflows (x.toInt + y.toInt + cin))
def Strand.diffFlags (s : Strand) (x y : Word) (cin : Nat) : Strand :=
  let r := x - y - BitVec.ofNat 32 cin
  s.flags (r == 0) r.msb (x.toNat < y.toNat + cin) (overflows (x.toInt - y.toInt - cin))

/-- The carry flag as a number. -/
def Strand.carry (s : Strand) : Nat := if s.c then 1 else 0

/-- Z and N of a shifted word; C is the last bit shifted out, unchanged for an amount of 0 (R146). -/
def Strand.shifted (s : Strand) (d : Nat) (r : Word) (n : Nat) (out : Bool) : Strand :=
  (s.flags (r == 0) r.msb (if n = 0 then s.c else out) s.v).result d r

/-- A result that sets Z, N and V and leaves C (R151). -/
def Strand.saturated (s : Strand) (d : Nat) (r : Word) (v : Bool) : Strand := (s.flags (r == 0) r.msb s.c v).result d r

/-- The effective address of a load or store: A plus the sign-extended immediate, in 32 bits. -/
def Strand.effAddr (s : Strand) (a : Nat) (imm : BitVec 16) : Nat := (s.reg a + imm.signExtend 32).toNat

/-- An access of `w` bytes at `addr` is aligned and lies in a space of `size` bytes (R102). -/
def accessOk (addr w size : Nat) : Prop := addr % w = 0 ∧ addr + w ≤ size

/-- `w` little-endian bytes from address `a` on, as a word (R3). -/
def bytesWord (f : Nat → Nat) (a w : Nat) : Word :=
  BitVec.ofNat 32 ((List.range w).foldr (fun i n => f (a + i) * 256 ^ i + n) 0)

/-- A byte of the commons, and of a strand's local store. -/
def Chip.commonByte (m : Chip) (a : Nat) : Nat := (m.common (a / 4)).toNat / 2 ^ (8 * (a % 4)) % 256
def Strand.localByte (s : Strand) (a : Nat) : Nat := (s.loc (a / 4)).toNat / 2 ^ (8 * (a % 4)) % 256

/-- Byte `i` of a word (R3). -/
def wordByte (w : Word) (i : Nat) : Nat := w.toNat / 256 ^ i % 256

/-- `m'` differs from `m` in the context of strand `k` and the order of the READY queue alone. -/
def Chip.strandOnly (m m' : Chip) (k : Nat) : Prop :=
  (∀ j, j ≠ k → m'.strand j = m.strand j) ∧
    ({ m' with lay := { m'.lay with strands := m.lay.strands, queue := m.lay.queue } } : Chip) = m

/-- The command completes with the context of strand `k` become `t`, the READY queue become `q`, and nothing else changed. -/
def StrandBecomes (i : Instr) (s : State) (k : Nat) (t : Strand) (q : List Nat) : Prop :=
  ∃ m', Completes i s m' ∧ m'.strand k = t ∧ m'.lay.queue = q ∧ s.m.strandOnly m' k

/-- Strand `k` stands RUNNING at the word `w` with budget left (the issue of a control transfer, halt or yield, R121, R143). -/
def Chip.standsAt (m : Chip) (k : Nat) (w : Word) : Prop :=
  m.atWord k w = true ∧ (m.strand k).act < m.fld .layBudget k 20 0

/-- The strand moved to another PC, one more instruction counted. -/
def Strand.jumped (s : Strand) (pc : Nat) : Strand := { s with pc := pc, act := s.act + 1, slice := s.slice + 1 }

/-- The strand with S14 holding a status and a WAKE code (R92). -/
def Strand.told (s : Strand) (st : Status) (wake : Nat) : Strand := s.put 14 (BitVec.ofNat 32 (wake * 256 + st.code))

/-- The strand WAITING at a wait it has issued (R94). -/
def Strand.waits (s : Strand) (c : WaitOn) (timeout now : Nat) : Strand :=
  { s with act := s.act + 1, slice := s.slice + 1, st := .waiting, wait := some c, timeout := timeout, waitAt := now, keep := false }

/-! ### Service frames (R627 to R631, R635) -/

/-- The service frame of opcode `op`, number `seq`, tag `tag` and body `body` is taken: the part is powered and no service access
is held; it is tagged with its session's key exactly in a key session; within a session it is no repeat and, but for IDENT and
OPEN, the next in order; at boot it is IDENT, and outside a session IDENT, OPEN or the awaited AUTH. -/
def Chip.svcTakes (m : Chip) (op seq : Nat) (tag : Option (List Nat)) (body : List Nat) : Prop :=
  m.alive = true ∧ m.svcWaits = false ∧
    (if m.upd.session = 3 then tag = some (svcTag m.upd.ks (svcCore seq op 2 body)) else tag = none) ∧
    (m.upd.session ≠ 0 → ¬(seq = m.upd.seq ∧ m.upd.resp ≠ []) ∧ (op ≠ 1 → op ≠ 2 → seq = (m.upd.seq + 1) % 65536)) ∧
    (m.pwr.base ≠ .boot ∨ op = 1) ∧ (2 ≤ m.upd.session ∨ op = 1 ∨ op = 2 ∨ (op = 3 ∧ m.upd.session = 1))

/-- The chip `n`, reached from the frame that `m` accepted, with the response of status `st` and data `data`. -/
def Chip.svcAnswers (m n : Chip) (op seq : Nat) (st : Status) (data : List Nat) : Chip :=
  n.svcSend m.upd m.pwr.base op seq (st.code :: data)

/-! ### What always holds -/

/-- Every pin is driven as the state says (R25, R49, R61, R552, R556, R580). -/
def Chip.PinsOk (m : Chip) : Prop := m.pins = m.pinsOf

end Sys2Proof.Machine
end

