-- ==== Sys2Proof/Certificates/Slice0/Obligations.lean ====
section
/-!
DEFINITION. The statements for the provers, by block of the chip. `Completes i s m'` (Safety.lean) says that exec answers a next
state; so every clause below that concludes it is a completion statement of its command.
-/

open Sys2Proof Sys2Proof.Machine

/-- For every command c, chip m and queue q, the step of the state whose queue is c :: q is exec of c on the chip m with queue
q. A command's statement reaches a run through this one. On an empty queue a step answers the state one microsecond later:
the time counts, and in a powered chip the operating time; then the machines that watch act and the pins are driven, as
after every command.  That idling takes a microsecond is the model's choice (log entry 3). (R12, R46) -/
def Obligations.StepRunsFrontOrIdles : Prop :=
  (∀ (c : Instr) (m : Chip) (q : List Instr), step { m := m, pending := c :: q } = exec c { m := m, pending := q }) ∧
  (∀ m : Chip, step { m := m, pending := [] } = .next { m := Chip.settle { m with now := m.now + 1, upUs := if m.pwr.base = .off ∨ m.pwr.base = .ship then m.upUs else m.upUs + 1 } m, pending := [] })

/-- State.reset has base state BOOT and reported mode 2, an empty queue, every register at the reset value of its row, zero in
the commons and the strands, no session, no transaction, an empty recorder queue, and the outputs driven low. Values the
spec leaves open (log entries) are not stated. (R6, R46, R49, R653) -/
def Obligations.ResetState : Prop :=
  State.reset.pending = [] ∧ State.reset.m.pwr.base = .boot ∧ State.reset.m.mode = 2 ∧
  (∀ r i, State.reset.m.get r i = resetWord (r, i)) ∧ (∀ k, State.reset.m.common k = 0) ∧
  (∀ k, (State.reset.m.strand k).st = .free) ∧ State.reset.m.upd.session = 0 ∧ State.reset.m.ptn.pool = [] ∧
  State.reset.m.rcd.queue = [] ∧ State.reset.m.pins.gen = 0 ∧ State.reset.m.pins.seqEn = 0 ∧ State.reset.m.pins.rstN = 0 ∧
  State.reset.m.pins.bcvHi = 0 ∧ State.reset.m.pins.bcvLo = 0 ∧ State.reset.m.pins.axcHi = 0 ∧ State.reset.m.pins.axcLo = 0 ∧ State.reset.m.PinsOk

/-- From every state whose pins are driven as the state says (branch gates and drives, sequencer enables, reset and interrupt
lines, the error line, string switches, the converter gates and the interlock; all low in OFF, SHIP and BOOT), a step
answers a next state, its pins are driven as that state says, and its queue is the queue without its first command. From any
other state the first command makes it so. (R14, R25, R49, R61, R358, R552, R556, R580) -/
def Obligations.PinsAndQueueAtEveryStep : Prop :=
  (∀ s : State, s.m.PinsOk → ∃ s', step s = .next s' ∧ s'.m.PinsOk ∧ s'.pending = s.pending.tail) ∧
  (∀ (i : Instr) (s : State), ∃ m' : Chip, exec i s = .next { m := m', pending := s.pending } ∧ m'.PinsOk) ∧
  (∀ m : Chip, m.PinsOk → (m.pwr.base = .off ∨ m.pwr.base = .ship ∨ m.pwr.base = .boot) → m.pins = Pins.init) ∧
  (∀ (m : Chip) (n : Nat), m.PinsOk → m.pwr.base ≠ .off → m.pwr.base ≠ .ship → m.pwr.base ≠ .boot → n < 24 →
    has m.pins.gen n = (m.branch n).gen)

/-- Whatever rejections apply to an access, the one returned is the first in the order of R12; a register write by a port that
is answered, rejected by any of them, completes with that status and no word. (R12) -/
def Obligations.RejectionOrder : Prop :=
  (∀ v : Verdict, v.eauth = true → v.first = some .eauth) ∧
  (∀ v : Verdict, v.eauth = false → v.erange = true → v.first = some .erange) ∧
  (∀ v : Verdict, v.eauth = false → v.erange = false → v.estate = true → v.first = some .estate) ∧
  (∀ v : Verdict, v.eauth = false → v.erange = false → v.estate = false → v.ebasic = true → v.first = some .ebasic) ∧
  (∀ v : Verdict, v.eauth = false → v.erange = false → v.estate = false → v.ebasic = false → v.ebusy = true → v.first = some .ebusy) ∧
  (∀ (s : State) (ag : Agent) (addr : BitVec 24) (d : Word) (st : Status), s.m.open_ ag →
    ((s.m.gate true ag addr.toNat d).and { (s.m.writeAct ag addr.toNat d).v with
      ebasic := (s.m.writeAct ag addr.toNat d).v.ebasic && !s.m.levelFree ag }).first = some st →
    ∃ m', Completes (.registerWrite ag addr d) s m' ∧ m'.resp = some (ag, st, 0))

/-- A register write rejected with a status other than EAUTH leaves the chip but for what its block records of the rejection and
the port's answer. A granted write of a read-only or read-to-clear word completes with OK and changes no register but
HST_STAT. In OFF and SHIP a register access of any port completes with nothing changed. (R9, R13, R49) -/
def Obligations.RejectedAndUnpoweredAccesses : Prop :=
  (∀ (s : State) (ag : Agent) (addr : BitVec 24) (d : Word) (st : Status), s.m.open_ ag → s.m.writeVerdict ag addr.toNat d = some st → st ≠ .eauth →
    Completes (.registerWrite ag addr d) s ((((s.m.writeAct ag addr.toNat d).rej st s.m).noteHostWrite ag addr.toNat st s.m.pwr.base).respond ag st 0)) ∧
  (∀ (s : State) (ag : Agent) (addr : BitVec 24) (d : Word) (r : RName) (i : Nat), s.m.grants ag addr.toNat d → targetOf addr.toNat = .reg r i →
    r.row.kind = .ro ∨ r.row.kind = .rc → ∃ m', Completes (.registerWrite ag addr d) s m' ∧ m'.resp = some (ag, .ok, 0) ∧
      (∀ q j, (q, j) ≠ (.hstStat, 0) → m'.get q j = s.m.get q j)) ∧
  (∀ (s : State) (ag : Agent) (addr : BitVec 24) (d : Word), s.m.pwr.base = .off ∨ s.m.pwr.base = .ship →
    Completes (.registerWrite ag addr d) s s.m ∧ Completes (.rcFieldRead ag addr) s s.m)

/-- Writing a register, a word of the commons, a word of a strand's local store or a strand's context gives that value back,
leaves every other register, word and strand as it was, and keeps the canonical form in which equal memories are equal data.
(R6, R9, R92, R102) -/
def Obligations.RegistersAndMemories : Prop :=
  (∀ (m : Chip) r i w, (m.put r i w).get r i = w) ∧ (∀ (m : Chip) r i q j w, (q, j) ≠ (r, i) → (m.put r i w).get q j = m.get q j) ∧
  (∀ (m : Chip) i w, (m.putCommon i w).common i = w) ∧ (∀ (m : Chip) i j w, j ≠ i → (m.putCommon i w).common j = m.common j) ∧
  (∀ (m : Chip) i w r k, (m.putCommon i w).get r k = m.get r k ∧ (m.put r k w).common i = m.common i) ∧
  (∀ (m : Chip) k t, (m.putStrand k t).strand k = t) ∧ (∀ (m : Chip) k j t, j ≠ k → (m.putStrand k t).strand j = m.strand j) ∧
  (∀ (t : Strand) i w, ({ t with locals := NTab.set 0 t.locals i w } : Strand).loc i = w) ∧
  (∀ (t : Strand) i j w, j ≠ i → ({ t with locals := NTab.set 0 t.locals i w } : Strand).loc j = t.loc j) ∧
  (∀ (m : Chip) r i w, Tab.wf ltReg resetWord m.regs = true → Tab.wf ltReg resetWord (m.put r i w).regs = true) ∧
  (∀ (m : Chip) i w, Tab.wf ltN (fun _ => (0 : Word)) m.lay.commons = true →
    Tab.wf ltN (fun _ => (0 : Word)) (m.putCommon i w).lay.commons = true)

/-- With no transaction outstanding and none completed, the hand-over machine idle, no share group, the charger idle, no pair
machine running, the journal off, and the reported mode as before, what follows a command leaves the chip as the command
made it but for the pins: outside the modes in which the watching machines run, and in them where the policy, the battery
path, the estimator and the stages find nothing to change. With Completes this gives the whole next state, and so the frame,
of every command in such a state. (R42, R274, R381, R444, R588, R591) -/
def Obligations.SettlingWhenNothingWatches : Prop :=
  (∀ m old : Chip, m.ptn.pool = [] → m.ptn.done = [] → m.cle.slots = [] → m.pol.ho = .idle → m.dom 9 ≠ .on ∨ old.dom 9 = .on →
    m.spl.st = .init ∨ (m.spl.st = .solo ∧ m.twinReady = false) → m.spl.divs = [] → m.spl.outDue = 0 → m.journalling = false →
    m.mode = old.mode → m.up = false → m.settle old = { m with pins := m.pinsOf }) ∧
  (∀ m old : Chip, m.ptn.pool = [] → m.ptn.done = [] → m.ptn.wait = [] → m.cle.slots = [] → m.pol.ho = .idle → m.dom 9 ≠ .on ∨ old.dom 9 = .on →
    m.spl.st = .init ∨ (m.spl.st = .solo ∧ m.twinReady = false) → m.spl.divs = [] → m.spl.outDue = 0 → m.journalling = false →
    m.mode = old.mode → m.up = true → m.vend.pol.cap = none → m.ptn.ents = [] → (∀ x hi, m.clampOn x hi = old.clampOn x hi) →
    (∀ x, (m.conv x).switching = false) → m.polReact old = m → m.pwr.base ≠ .standby ∨ old.pwr.base = .standby → m.batWatch old = m →
    m.chgHold = old.chgHold → m.chgTFrozen = old.chgTFrozen → m.estRuns = false →
    m.settle old = { m with pins := m.pinsOf })

/-- Whenever a strand may issue it, add, adc, addi, sub, sbc or neg completes: the destination takes the 32-bit sum or
difference (S14 keeps [11:0]), Z and N are those of the 32-bit result, C is the carry out of bit 31 or the borrow, V is
signed overflow; cmp and cmpi set the same flags and write no register. The PC moves on by 4, one instruction is counted,
and nothing else of the strand or the chip changes before the watching machines act. (R141, R145, R146) -/
def Obligations.KnarinSumsAndDifferences : Prop :=
  (∀ (k : Fin 256) (d a b : Fin 16), StrandRow (.add k d a b) k (kREG 0x10 d a b 0 0)
    (fun s => (s.sumFlags (s.reg a) (s.reg b) 0).result d ((s.reg a) + (s.reg b)))) ∧
  (∀ (k : Fin 256) (d a b : Fin 16), StrandRow (.adc k d a b) k (kREG 0x11 d a b 0 0)
    (fun s => (s.sumFlags (s.reg a) (s.reg b) s.carry).result d ((s.reg a) + (s.reg b) + BitVec.ofNat 32 s.carry))) ∧
  (∀ (k : Fin 256) (d a : Fin 16) (imm : BitVec 16), StrandRow (.addi k d a imm) k (kIMM 0x32 d a imm.toNat)
    (fun s => (s.sumFlags (s.reg a) (imm.signExtend 32) 0).result d ((s.reg a) + (imm.signExtend 32)))) ∧
  (∀ (k : Fin 256) (d a b : Fin 16), StrandRow (.sub k d a b) k (kREG 0x12 d a b 0 0)
    (fun s => (s.diffFlags (s.reg a) (s.reg b) 0).result d ((s.reg a) - (s.reg b)))) ∧
  (∀ (k : Fin 256) (d a b : Fin 16), StrandRow (.sbc k d a b) k (kREG 0x13 d a b 0 0)
    (fun s => (s.diffFlags (s.reg a) (s.reg b) s.carry).result d ((s.reg a) - (s.reg b) - BitVec.ofNat 32 s.carry))) ∧
  (∀ (k : Fin 256) (d a : Fin 16), StrandRow (.neg k d a) k (kREG 0x22 d a 0 0 0)
    (fun s => (s.diffFlags 0 (s.reg a) 0).result d (0 - (s.reg a)))) ∧
  (∀ (k : Fin 256) (a b : Fin 16), StrandRow (.cmp k a b) k (kREG 0x1D 0 a b 0 0) (fun s => s.diffFlags (s.reg a) (s.reg b) 0)) ∧
  (∀ (k : Fin 256) (a : Fin 16) (imm : BitVec 16), StrandRow (.cmpi k a imm) k (kIMM 0x39 0 a imm.toNat)
    (fun s => s.diffFlags (s.reg a) (imm.signExtend 32) 0))

/-- Whenever a strand may issue it, and, or, xor, bic, not, andi, ori, xori, mul, mulh, min and max complete with their result
in the destination, Z and N those of the result, and C and V unchanged; tst sets Z and N of A & B and writes no register;
mov, movi and movhi write the destination and change no flag. mulh gives bits 63 to 32 of the signed product. (R141, R145,
R146) -/
def Obligations.KnarinLogicAndMoves : Prop :=
  (∀ (k : Fin 256) (d a b : Fin 16), StrandRow (.andK k d a b) k (kREG 0x14 d a b 0 0)
    (fun s => s.zeroNeg d ((s.reg a) &&& (s.reg b)))) ∧
  (∀ (k : Fin 256) (d a b : Fin 16), StrandRow (.orK k d a b) k (kREG 0x15 d a b 0 0)
    (fun s => s.zeroNeg d ((s.reg a) ||| (s.reg b)))) ∧
  (∀ (k : Fin 256) (d a b : Fin 16), StrandRow (.xorK k d a b) k (kREG 0x16 d a b 0 0)
    (fun s => s.zeroNeg d ((s.reg a) ^^^ (s.reg b)))) ∧
  (∀ (k : Fin 256) (d a b : Fin 16), StrandRow (.bic k d a b) k (kREG 0x17 d a b 0 0)
    (fun s => s.zeroNeg d ((s.reg a) &&& ~~~(s.reg b)))) ∧
  (∀ (k : Fin 256) (d a : Fin 16), StrandRow (.notK k d a) k (kREG 0x21 d a 0 0 0)
    (fun s => s.zeroNeg d (~~~(s.reg a)))) ∧
  (∀ (k : Fin 256) (d a : Fin 16) (imm : BitVec 16), StrandRow (.andi k d a imm) k (kIMM 0x33 d a imm.toNat)
    (fun s => s.zeroNeg d ((s.reg a) &&& (imm.zeroExtend 32)))) ∧
  (∀ (k : Fin 256) (d a : Fin 16) (imm : BitVec 16), StrandRow (.ori k d a imm) k (kIMM 0x34 d a imm.toNat)
    (fun s => s.zeroNeg d ((s.reg a) ||| (imm.zeroExtend 32)))) ∧
  (∀ (k : Fin 256) (d a : Fin 16) (imm : BitVec 16), StrandRow (.xori k d a imm) k (kIMM 0x35 d a imm.toNat)
    (fun s => s.zeroNeg d ((s.reg a) ^^^ (imm.zeroExtend 32)))) ∧
  (∀ (k : Fin 256) (d a b : Fin 16), StrandRow (.mul k d a b) k (kREG 0x1B d a b 0 0)
    (fun s => s.zeroNeg d ((s.reg a) * (s.reg b)))) ∧
  (∀ (k : Fin 256) (d a b : Fin 16), StrandRow (.mulh k d a b) k (kREG 0x1C d a b 0 0)
    (fun s => s.zeroNeg d (((s.reg a).signExtend 64 * (s.reg b).signExtend 64).extractLsb' 32 32))) ∧
  (∀ (k : Fin 256) (d a b : Fin 16), StrandRow (.minK k d a b) k (kREG 0x24 d a b 0 0)
    (fun s => s.zeroNeg d (if (s.reg b).slt (s.reg a) then (s.reg b) else (s.reg a)))) ∧
  (∀ (k : Fin 256) (d a b : Fin 16), StrandRow (.maxK k d a b) k (kREG 0x25 d a b 0 0)
    (fun s => s.zeroNeg d (if (s.reg a).slt (s.reg b) then (s.reg b) else (s.reg a)))) ∧
  (∀ (k : Fin 256) (a b : Fin 16), StrandRow (.tst k a b) k (kREG 0x26 0 a b 0 0)
    (fun s => s.flags ((s.reg a) &&& (s.reg b) == 0) ((s.reg a) &&& (s.reg b)).msb s.c s.v)) ∧
  (∀ (k : Fin 256) (d a : Fin 16), StrandRow (.mov k d a) k (kREG 0x20 d a 0 0 0)
    (fun s => s.result d (s.reg a))) ∧
  (∀ (k : Fin 256) (d : Fin 16) (imm : BitVec 20), StrandRow (.movi k d imm) k (kIMM20 0x30 d imm.toNat)
    (fun s => s.result d (imm.signExtend 32))) ∧
  (∀ (k : Fin 256) (d : Fin 16) (imm : BitVec 16), StrandRow (.movhi k d imm) k (kIMM 0x31 d 0 imm.toNat)
    (fun s => s.result d (imm ++ (s.reg d).extractLsb' 0 16)))

/-- Whenever a strand may issue it, shl, shr, sar, shli, shri or sari completes with A shifted left, right with zeros, or right
with the sign, by B[4:0] or n; Z and N are those of the result, C is the last bit shifted out and is unchanged for an amount
of 0, V is unchanged. (R141, R145, R146) -/
def Obligations.KnarinShifts : Prop :=
  (∀ (k : Fin 256) (d a b : Fin 16), StrandRow (.shl k d a b) k (kREG 0x18 d a b 0 0)
    (fun s => s.shifted d ((s.reg a) <<< ((s.reg b).toNat % 32)) ((s.reg b).toNat % 32) ((s.reg a).getLsbD (32 - ((s.reg b).toNat % 32))))) ∧
  (∀ (k : Fin 256) (d a b : Fin 16), StrandRow (.shr k d a b) k (kREG 0x19 d a b 0 0)
    (fun s => s.shifted d ((s.reg a) >>> ((s.reg b).toNat % 32)) ((s.reg b).toNat % 32) ((s.reg a).getLsbD (((s.reg b).toNat % 32) - 1)))) ∧
  (∀ (k : Fin 256) (d a b : Fin 16), StrandRow (.sar k d a b) k (kREG 0x1A d a b 0 0)
    (fun s => s.shifted d ((s.reg a).sshiftRight ((s.reg b).toNat % 32)) ((s.reg b).toNat % 32) ((s.reg a).getLsbD (((s.reg b).toNat % 32) - 1)))) ∧
  (∀ (k : Fin 256) (d a : Fin 16) (n : Fin 32), StrandRow (.shli k d a n) k (kIMM 0x36 d a n)
    (fun s => s.shifted d ((s.reg a) <<< n.val) n ((s.reg a).getLsbD (32 - n)))) ∧
  (∀ (k : Fin 256) (d a : Fin 16) (n : Fin 32), StrandRow (.shri k d a n) k (kIMM 0x37 d a n)
    (fun s => s.shifted d ((s.reg a) >>> n.val) n ((s.reg a).getLsbD (n - 1)))) ∧
  (∀ (k : Fin 256) (d a : Fin 16) (n : Fin 32), StrandRow (.sari k d a n) k (kIMM 0x38 d a n)
    (fun s => s.shifted d ((s.reg a).sshiftRight n) n ((s.reg a).getLsbD (n - 1))))

/-- Whenever a strand may issue it, sadd, ssub and qmul complete with the exact sum, difference or rounded Q8.24 product clamped
to 32 signed bits and V = 1 exactly when the clamp changed it; divu and div complete with the quotient truncated toward
zero, or with the substitutes of R151 for a divisor of 0 and for the overflowing quotient, V = 1 exactly for a substitute. Z
and N are those of the result and C is unchanged. (R151) -/
def Obligations.KnarinSaturatingAndDivide : Prop :=
  (∀ (k : Fin 256) (d a b : Fin 16), StrandRow (.sadd k d a b) k (kREG 0x27 d a b 0 0)
    (fun s => s.saturated d (BitVec.ofInt 32 (clamp32 ((s.reg a).toInt + (s.reg b).toInt))) (clamp32 ((s.reg a).toInt + (s.reg b).toInt) != (s.reg a).toInt + (s.reg b).toInt))) ∧
  (∀ (k : Fin 256) (d a b : Fin 16), StrandRow (.ssub k d a b) k (kREG 0x28 d a b 0 0)
    (fun s => s.saturated d (BitVec.ofInt 32 (clamp32 ((s.reg a).toInt - (s.reg b).toInt))) (clamp32 ((s.reg a).toInt - (s.reg b).toInt) != (s.reg a).toInt - (s.reg b).toInt))) ∧
  (∀ (k : Fin 256) (d a b : Fin 16), StrandRow (.qmul k d a b) k (kREG 0x29 d a b 0 0)
    (fun s => s.saturated d (BitVec.ofInt 32 (clamp32 (((s.reg a).toInt * (s.reg b).toInt + 2 ^ 23) / 2 ^ 24))) (clamp32 (((s.reg a).toInt * (s.reg b).toInt + 2 ^ 23) / 2 ^ 24) != ((s.reg a).toInt * (s.reg b).toInt + 2 ^ 23) / 2 ^ 24))) ∧
  (∀ (k : Fin 256) (d a b : Fin 16), StrandRow (.divu k d a b) k (kREG 0x2A d a b 0 0)
    (fun s => if (s.reg b) = 0 then s.saturated d 0xFFFFFFFF true else s.saturated d ((s.reg a) / (s.reg b)) false)) ∧
  (∀ (k : Fin 256) (d a b : Fin 16), StrandRow (.divK k d a b) k (kREG 0x2B d a b 0 0)
    (fun s => if (s.reg b) = 0 then s.saturated d (if (s.reg a).msb then 0x80000000 else 0x7FFFFFFF) true
      else if (s.reg a) = 0x80000000 ∧ (s.reg b) = 0xFFFFFFFF then s.saturated d 0x7FFFFFFF true
      else s.saturated d (BitVec.ofInt 32 ((s.reg a).toInt.tdiv (s.reg b).toInt)) false))

/-- For the word r whose bits are as R152 says (extu: bit i of the field is bit POS + i of A, 0 above the field and above bit
31; exts: the bits above the field are its sign, the top field bit in the word; ins: the field of D replaced by the low bits
of A, bits above 31 discarded), the instruction completes with r in the destination, Z and N of r for extu and exts, no flag
for ins. For exts the bits of the field above bit 31 are read as 0 (the rule's own words; log entry 66). For the number n of
leading zero bits of A (n ≤ 32, the n highest bits are 0, and bit 31 − n is 1 when n < 32), clz completes with n in the
destination, Z = 1 exactly when n = 0, and N, C and V unchanged. (R141, R145, R146, R152) -/
def Obligations.KnarinBitFields : Prop :=
  (∀ (s : State) (k : Fin 256) (d a : Fin 16) (pos wm1 : Fin 32) (r : Word),
    (∀ i < 32, r.getLsbD i = (decide (i ≤ wm1.val) && ((s.m.strand k).reg a).getLsbD (pos + i))) →
    s.m.mayIssue k (kIMM 0x3A d a (wm1 * 32 + pos)) →
    Completes (.extu k d a pos wm1) s (s.m.putStrand k ((s.m.strand k).zeroNeg d r).moved)) ∧
  (∀ (s : State) (k : Fin 256) (d a : Fin 16) (pos wm1 : Fin 32) (r : Word),
    (∀ i < 32, r.getLsbD i = (if i ≤ wm1.val then ((s.m.strand k).reg a).getLsbD (pos + i) else ((s.m.strand k).reg a).getLsbD (min 31 (pos + wm1)))) →
    s.m.mayIssue k (kIMM 0x3B d a (wm1 * 32 + pos)) →
    Completes (.exts k d a pos wm1) s (s.m.putStrand k ((s.m.strand k).zeroNeg d r).moved)) ∧
  (∀ (s : State) (k : Fin 256) (d a : Fin 16) (pos wm1 : Fin 32) (r : Word),
    (∀ i < 32, r.getLsbD i = (if pos.val ≤ i ∧ i ≤ pos + wm1 then ((s.m.strand k).reg a).getLsbD (i - pos) else ((s.m.strand k).reg d).getLsbD i)) →
    s.m.mayIssue k (kIMM 0x3C d a (wm1 * 32 + pos)) →
    Completes (.ins k d a pos wm1) s (s.m.putStrand k ((s.m.strand k).result d r).moved)) ∧
  ∀ (s : State) (k : Fin 256) (d a : Fin 16) (n : Nat), n ≤ 32 →
    (∀ j < n, ((s.m.strand k).reg a).getLsbD (31 - j) = false) → (n < 32 → ((s.m.strand k).reg a).getLsbD (31 - n) = true) →
    s.m.mayIssue k (kREG 0x23 d a 0 0 0) →
    Completes (.clz k d a) s (s.m.putStrand k
      (((s.m.strand k).flags (n == 0) (s.m.strand k).n (s.m.strand k).c (s.m.strand k).v).result d (BitVec.ofNat 32 n)).moved)

/-- Whenever a strand may issue it and the effective address is aligned and inside the space, a load completes with the
destination holding the little-endian bytes at that address, zero-extended; no flag, no other register, no memory and no
other strand changes. (R101, R103, R104, R153) -/
def Obligations.KnarinLoads : Prop :=
  (∀ (s : State) (k : Fin 256) (d a : Fin 16) (imm : BitVec 16), s.m.mayIssue k (kIMM 0x40 d a imm.toNat) → accessOk ((s.m.strand k).effAddr a imm) 4 0x100 →
    Completes (.ldl k d a imm) s (s.m.putStrand k ((s.m.strand k).result d (bytesWord (s.m.strand k).localByte ((s.m.strand k).effAddr a imm) 4)).moved)) ∧
  (∀ (s : State) (k : Fin 256) (d a : Fin 16) (imm : BitVec 16), s.m.mayIssue k (kIMM 0x41 d a imm.toNat) → accessOk ((s.m.strand k).effAddr a imm) 2 0x100 →
    Completes (.ldlh k d a imm) s (s.m.putStrand k ((s.m.strand k).result d (bytesWord (s.m.strand k).localByte ((s.m.strand k).effAddr a imm) 2)).moved)) ∧
  (∀ (s : State) (k : Fin 256) (d a : Fin 16) (imm : BitVec 16), s.m.mayIssue k (kIMM 0x42 d a imm.toNat) → accessOk ((s.m.strand k).effAddr a imm) 1 0x100 →
    Completes (.ldlb k d a imm) s (s.m.putStrand k ((s.m.strand k).result d (bytesWord (s.m.strand k).localByte ((s.m.strand k).effAddr a imm) 1)).moved)) ∧
  (∀ (s : State) (k : Fin 256) (d a : Fin 16) (imm : BitVec 16), s.m.mayIssue k (kIMM 0x46 d a imm.toNat) → accessOk ((s.m.strand k).effAddr a imm) 4 0x40000 →
    Completes (.ldc k d a imm) s (s.m.putStrand k ((s.m.strand k).result d (bytesWord s.m.commonByte ((s.m.strand k).effAddr a imm) 4)).moved)) ∧
  (∀ (s : State) (k : Fin 256) (d a : Fin 16) (imm : BitVec 16), s.m.mayIssue k (kIMM 0x47 d a imm.toNat) → accessOk ((s.m.strand k).effAddr a imm) 2 0x40000 →
    Completes (.ldch k d a imm) s (s.m.putStrand k ((s.m.strand k).result d (bytesWord s.m.commonByte ((s.m.strand k).effAddr a imm) 2)).moved)) ∧
  (∀ (s : State) (k : Fin 256) (d a : Fin 16) (imm : BitVec 16), s.m.mayIssue k (kIMM 0x48 d a imm.toNat) → accessOk ((s.m.strand k).effAddr a imm) 1 0x40000 →
    Completes (.ldcb k d a imm) s (s.m.putStrand k ((s.m.strand k).result d (bytesWord s.m.commonByte ((s.m.strand k).effAddr a imm) 1)).moved))

/-- Whenever a strand may issue it and the effective address is aligned and inside the space, a store completes: the bytes from
the effective address on take the low bytes of D, every other byte of that store reads as before, and no register changes
but S14, which a commons store sets to OK with WAKE 0. (A commons store into the vendor area by another owner's strand is
the subject of KnarinVendorArea.) (R101, R102, R103, R147, R153) -/
def Obligations.KnarinStores : Prop :=
  (∀ (s : State) (k : Fin 256) (d a : Fin 16) (imm : BitVec 16), s.m.mayIssue k (kIMM 0x43 d a imm.toNat) → accessOk ((s.m.strand k).effAddr a imm) 4 0x100 →
    ∃ ls, Completes (.stl k d a imm) s (s.m.putStrand k { (s.m.strand k).moved with locals := ls }) ∧
      ∀ j < 0x100, Strand.localByte { (s.m.strand k) with locals := ls } j =
        if ((s.m.strand k).effAddr a imm) ≤ j ∧ j < ((s.m.strand k).effAddr a imm) + 4 then wordByte ((s.m.strand k).reg d) (j - ((s.m.strand k).effAddr a imm)) else (s.m.strand k).localByte j) ∧
  (∀ (s : State) (k : Fin 256) (d a : Fin 16) (imm : BitVec 16), s.m.mayIssue k (kIMM 0x44 d a imm.toNat) → accessOk ((s.m.strand k).effAddr a imm) 2 0x100 →
    ∃ ls, Completes (.stlh k d a imm) s (s.m.putStrand k { (s.m.strand k).moved with locals := ls }) ∧
      ∀ j < 0x100, Strand.localByte { (s.m.strand k) with locals := ls } j =
        if ((s.m.strand k).effAddr a imm) ≤ j ∧ j < ((s.m.strand k).effAddr a imm) + 2 then wordByte ((s.m.strand k).reg d) (j - ((s.m.strand k).effAddr a imm)) else (s.m.strand k).localByte j) ∧
  (∀ (s : State) (k : Fin 256) (d a : Fin 16) (imm : BitVec 16), s.m.mayIssue k (kIMM 0x45 d a imm.toNat) → accessOk ((s.m.strand k).effAddr a imm) 1 0x100 →
    ∃ ls, Completes (.stlb k d a imm) s (s.m.putStrand k { (s.m.strand k).moved with locals := ls }) ∧
      ∀ j < 0x100, Strand.localByte { (s.m.strand k) with locals := ls } j =
        if ((s.m.strand k).effAddr a imm) ≤ j ∧ j < ((s.m.strand k).effAddr a imm) + 1 then wordByte ((s.m.strand k).reg d) (j - ((s.m.strand k).effAddr a imm)) else (s.m.strand k).localByte j) ∧
  (∀ (s : State) (k : Fin 256) (d a : Fin 16) (imm : BitVec 16), s.m.mayIssue k (kIMM 0x49 d a imm.toNat) → accessOk ((s.m.strand k).effAddr a imm) 4 0x40000 →
    s.m.vendorArea k ((s.m.strand k).effAddr a imm) = false →
    ∃ cs, Completes (.stc k d a imm) s (({ s.m with lay := { s.m.lay with commons := cs } } : Chip).putStrand k ((s.m.strand k).told .ok 0).moved) ∧
      ∀ j < 0x40000, Chip.commonByte { s.m with lay := { s.m.lay with commons := cs } } j =
        if ((s.m.strand k).effAddr a imm) ≤ j ∧ j < ((s.m.strand k).effAddr a imm) + 4 then wordByte ((s.m.strand k).reg d) (j - ((s.m.strand k).effAddr a imm)) else s.m.commonByte j) ∧
  (∀ (s : State) (k : Fin 256) (d a : Fin 16) (imm : BitVec 16), s.m.mayIssue k (kIMM 0x4A d a imm.toNat) → accessOk ((s.m.strand k).effAddr a imm) 2 0x40000 →
    s.m.vendorArea k ((s.m.strand k).effAddr a imm) = false →
    ∃ cs, Completes (.stch k d a imm) s (({ s.m with lay := { s.m.lay with commons := cs } } : Chip).putStrand k ((s.m.strand k).told .ok 0).moved) ∧
      ∀ j < 0x40000, Chip.commonByte { s.m with lay := { s.m.lay with commons := cs } } j =
        if ((s.m.strand k).effAddr a imm) ≤ j ∧ j < ((s.m.strand k).effAddr a imm) + 2 then wordByte ((s.m.strand k).reg d) (j - ((s.m.strand k).effAddr a imm)) else s.m.commonByte j) ∧
  (∀ (s : State) (k : Fin 256) (d a : Fin 16) (imm : BitVec 16), s.m.mayIssue k (kIMM 0x4B d a imm.toNat) → accessOk ((s.m.strand k).effAddr a imm) 1 0x40000 →
    s.m.vendorArea k ((s.m.strand k).effAddr a imm) = false →
    ∃ cs, Completes (.stcb k d a imm) s (({ s.m with lay := { s.m.lay with commons := cs } } : Chip).putStrand k ((s.m.strand k).told .ok 0).moved) ∧
      ∀ j < 0x40000, Chip.commonByte { s.m with lay := { s.m.lay with commons := cs } } j =
        if ((s.m.strand k).effAddr a imm) ≤ j ∧ j < ((s.m.strand k).effAddr a imm) + 1 then wordByte ((s.m.strand k).reg d) (j - ((s.m.strand k).effAddr a imm)) else s.m.commonByte j)

/-- stc, stch, stcb, cas, fadd and xchg by a strand that the vendor does not own, at an address below 0x1_0000 of the commons,
complete with S14.STATUS = EAUTH and the commons unchanged; an atomic's destination receives 0, and cas clears Z. The
rejection is counted for SEC. (R103, R105, R118, R155) -/
def Obligations.KnarinVendorArea : Prop :=
  (∀ (s : State) (k : Fin 256) (d a : Fin 16) (imm : BitVec 16), s.m.mayIssue k (kIMM 0x49 d a imm.toNat) → accessOk ((s.m.strand k).effAddr a imm) 4 0x40000 →
    s.m.vendorArea k ((s.m.strand k).effAddr a imm) = true →
    Completes (.stc k d a imm) s ((s.m.putStrand k ((s.m.strand k).told .eauth 0).moved).eauthNote (.strand k))) ∧
  (∀ (s : State) (k : Fin 256) (d a : Fin 16) (imm : BitVec 16), s.m.mayIssue k (kIMM 0x4A d a imm.toNat) → accessOk ((s.m.strand k).effAddr a imm) 2 0x40000 →
    s.m.vendorArea k ((s.m.strand k).effAddr a imm) = true →
    Completes (.stch k d a imm) s ((s.m.putStrand k ((s.m.strand k).told .eauth 0).moved).eauthNote (.strand k))) ∧
  (∀ (s : State) (k : Fin 256) (d a : Fin 16) (imm : BitVec 16), s.m.mayIssue k (kIMM 0x4B d a imm.toNat) → accessOk ((s.m.strand k).effAddr a imm) 1 0x40000 →
    s.m.vendorArea k ((s.m.strand k).effAddr a imm) = true →
    Completes (.stcb k d a imm) s ((s.m.putStrand k ((s.m.strand k).told .eauth 0).moved).eauthNote (.strand k))) ∧
  (∀ (s : State) (k : Fin 256) (d a b c : Fin 16), s.m.mayIssue k (kREG 0x50 d a b c 0) → accessOk ((s.m.strand k).reg a).toNat 4 0x40000 → s.m.vendorArea k ((s.m.strand k).reg a).toNat = true →
    Completes (.cas k d a b c) s ((s.m.putStrand k ((({ (s.m.strand k) with z := false }).result d 0).told .eauth 0).moved).eauthNote (.strand k))) ∧
  (∀ (s : State) (k : Fin 256) (d a b : Fin 16), s.m.mayIssue k (kREG 0x51 d a b 0 0) → accessOk ((s.m.strand k).reg a).toNat 4 0x40000 → s.m.vendorArea k ((s.m.strand k).reg a).toNat = true →
    Completes (.fadd k d a b) s ((s.m.putStrand k ((((s.m.strand k)).result d 0).told .eauth 0).moved).eauthNote (.strand k))) ∧
  (∀ (s : State) (k : Fin 256) (d a b : Fin 16), s.m.mayIssue k (kREG 0x52 d a b 0 0) → accessOk ((s.m.strand k).reg a).toNat 4 0x40000 → s.m.vendorArea k ((s.m.strand k).reg a).toNat = true →
    Completes (.xchg k d a b) s ((s.m.putStrand k ((((s.m.strand k)).result d 0).told .eauth 0).moved).eauthNote (.strand k)))

/-- Whenever a strand may issue it and the word is aligned, inside the commons and not shut to the strand, an atomic completes
with D = the old word and S14 = OK: cas writes C and sets Z exactly when the old word equals B, and otherwise leaves the
word; fadd writes the sum with B; xchg writes B. Every other word and the other flags are unchanged. (R105, R145, R147,
R155) -/
def Obligations.KnarinAtomics : Prop :=
  (∀ (s : State) (k : Fin 256) (d a b c : Fin 16), s.m.mayIssue k (kREG 0x50 d a b c 0) → accessOk ((s.m.strand k).reg a).toNat 4 0x40000 → s.m.vendorArea k ((s.m.strand k).reg a).toNat = false →
    Completes (.cas k d a b c) s ((if s.m.common (((s.m.strand k).reg a).toNat / 4) = (s.m.strand k).reg b then s.m.putCommon (((s.m.strand k).reg a).toNat / 4) ((s.m.strand k).reg c) else s.m).putStrand k ((({ (s.m.strand k) with z := decide (s.m.common (((s.m.strand k).reg a).toNat / 4) = (s.m.strand k).reg b) }).result d (s.m.common (((s.m.strand k).reg a).toNat / 4))).told .ok 0).moved)) ∧
  (∀ (s : State) (k : Fin 256) (d a b : Fin 16), s.m.mayIssue k (kREG 0x51 d a b 0 0) → accessOk ((s.m.strand k).reg a).toNat 4 0x40000 → s.m.vendorArea k ((s.m.strand k).reg a).toNat = false →
    Completes (.fadd k d a b) s ((s.m.putCommon (((s.m.strand k).reg a).toNat / 4) (s.m.common (((s.m.strand k).reg a).toNat / 4) + (s.m.strand k).reg b)).putStrand k ((((s.m.strand k)).result d (s.m.common (((s.m.strand k).reg a).toNat / 4))).told .ok 0).moved)) ∧
  (∀ (s : State) (k : Fin 256) (d a b : Fin 16), s.m.mayIssue k (kREG 0x52 d a b 0 0) → accessOk ((s.m.strand k).reg a).toNat 4 0x40000 → s.m.vendorArea k ((s.m.strand k).reg a).toNat = false →
    Completes (.xchg k d a b) s ((s.m.putCommon (((s.m.strand k).reg a).toNat / 4) ((s.m.strand k).reg b)).putStrand k ((((s.m.strand k)).result d (s.m.common (((s.m.strand k).reg a).toNat / 4))).told .ok 0).moved))

/-- Every load, store, device access and atomic whose effective address is misaligned or outside its space (256 bytes of local
store, 256 KB of commons, the 24-bit device space) takes the ACCESS strand fault and has no other effect. This says where
these instructions trap. (R102, R104, R122) -/
def Obligations.KnarinAccessFaults : Prop :=
  (∀ (s : State) (k : Fin 256) (d a : Fin 16) (imm : BitVec 16), s.m.mayIssue k (kIMM 0x40 d a imm.toNat) → ¬accessOk ((s.m.strand k).effAddr a imm) 4 0x100 →
    Completes (.ldl k d a imm) s (s.m.strandFault k 2 [])) ∧
  (∀ (s : State) (k : Fin 256) (d a : Fin 16) (imm : BitVec 16), s.m.mayIssue k (kIMM 0x41 d a imm.toNat) → ¬accessOk ((s.m.strand k).effAddr a imm) 2 0x100 →
    Completes (.ldlh k d a imm) s (s.m.strandFault k 2 [])) ∧
  (∀ (s : State) (k : Fin 256) (d a : Fin 16) (imm : BitVec 16), s.m.mayIssue k (kIMM 0x42 d a imm.toNat) → ¬accessOk ((s.m.strand k).effAddr a imm) 1 0x100 →
    Completes (.ldlb k d a imm) s (s.m.strandFault k 2 [])) ∧
  (∀ (s : State) (k : Fin 256) (d a : Fin 16) (imm : BitVec 16), s.m.mayIssue k (kIMM 0x43 d a imm.toNat) → ¬accessOk ((s.m.strand k).effAddr a imm) 4 0x100 →
    Completes (.stl k d a imm) s (s.m.strandFault k 2 [])) ∧
  (∀ (s : State) (k : Fin 256) (d a : Fin 16) (imm : BitVec 16), s.m.mayIssue k (kIMM 0x44 d a imm.toNat) → ¬accessOk ((s.m.strand k).effAddr a imm) 2 0x100 →
    Completes (.stlh k d a imm) s (s.m.strandFault k 2 [])) ∧
  (∀ (s : State) (k : Fin 256) (d a : Fin 16) (imm : BitVec 16), s.m.mayIssue k (kIMM 0x45 d a imm.toNat) → ¬accessOk ((s.m.strand k).effAddr a imm) 1 0x100 →
    Completes (.stlb k d a imm) s (s.m.strandFault k 2 [])) ∧
  (∀ (s : State) (k : Fin 256) (d a : Fin 16) (imm : BitVec 16), s.m.mayIssue k (kIMM 0x46 d a imm.toNat) → ¬accessOk ((s.m.strand k).effAddr a imm) 4 0x40000 →
    Completes (.ldc k d a imm) s (s.m.strandFault k 2 [])) ∧
  (∀ (s : State) (k : Fin 256) (d a : Fin 16) (imm : BitVec 16), s.m.mayIssue k (kIMM 0x47 d a imm.toNat) → ¬accessOk ((s.m.strand k).effAddr a imm) 2 0x40000 →
    Completes (.ldch k d a imm) s (s.m.strandFault k 2 [])) ∧
  (∀ (s : State) (k : Fin 256) (d a : Fin 16) (imm : BitVec 16), s.m.mayIssue k (kIMM 0x48 d a imm.toNat) → ¬accessOk ((s.m.strand k).effAddr a imm) 1 0x40000 →
    Completes (.ldcb k d a imm) s (s.m.strandFault k 2 [])) ∧
  (∀ (s : State) (k : Fin 256) (d a : Fin 16) (imm : BitVec 16), s.m.mayIssue k (kIMM 0x49 d a imm.toNat) → ¬accessOk ((s.m.strand k).effAddr a imm) 4 0x40000 →
    Completes (.stc k d a imm) s (s.m.strandFault k 2 [])) ∧
  (∀ (s : State) (k : Fin 256) (d a : Fin 16) (imm : BitVec 16), s.m.mayIssue k (kIMM 0x4A d a imm.toNat) → ¬accessOk ((s.m.strand k).effAddr a imm) 2 0x40000 →
    Completes (.stch k d a imm) s (s.m.strandFault k 2 [])) ∧
  (∀ (s : State) (k : Fin 256) (d a : Fin 16) (imm : BitVec 16), s.m.mayIssue k (kIMM 0x4B d a imm.toNat) → ¬accessOk ((s.m.strand k).effAddr a imm) 1 0x40000 →
    Completes (.stcb k d a imm) s (s.m.strandFault k 2 [])) ∧
  (∀ (s : State) (k : Fin 256) (d a : Fin 16) (imm : BitVec 16), s.m.mayIssue k (kIMM 0x4C d a imm.toNat) → ¬accessOk ((s.m.strand k).effAddr a imm) 4 0x1000000 →
    Completes (.ldd k d a imm) s (s.m.strandFault k 2 [])) ∧
  (∀ (s : State) (k : Fin 256) (d a : Fin 16) (imm : BitVec 16), s.m.mayIssue k (kIMM 0x4D d a imm.toNat) → ¬accessOk ((s.m.strand k).effAddr a imm) 4 0x1000000 →
    Completes (.std k d a imm) s (s.m.strandFault k 2 [])) ∧
  (∀ (s : State) (k : Fin 256) (d a b c : Fin 16), s.m.mayIssue k (kREG 0x50 d a b c 0) → ¬accessOk ((s.m.strand k).reg a).toNat 4 0x40000 →
    Completes (.cas k d a b c) s (s.m.strandFault k 2 [])) ∧
  (∀ (s : State) (k : Fin 256) (d a b : Fin 16), s.m.mayIssue k (kREG 0x51 d a b 0 0) → ¬accessOk ((s.m.strand k).reg a).toNat 4 0x40000 →
    Completes (.fadd k d a b) s (s.m.strandFault k 2 [])) ∧
  (∀ (s : State) (k : Fin 256) (d a b : Fin 16), s.m.mayIssue k (kREG 0x52 d a b 0 0) → ¬accessOk ((s.m.strand k).reg a).toNat 4 0x40000 →
    Completes (.xchg k d a b) s (s.m.strandFault k 2 []))

/-- nop only moves on. halt leaves the strand HALTED with WHY 0x1 and its PC after the halt, out of the queue. yield leaves it
READY at the back of the queue with a new activation. fault raises STRAND_USER with its code. bcc goes to PC + 4 × offset
when its condition of R156 holds and the target lies in the owner's region, and to the next instruction otherwise; bl also
writes S15 with the address of the next instruction; jr and ret go to A and S15. A word that is no defined instruction, or a
PC outside the region, raises STRAND_ILLEGAL. No flag changes. (R94, R120, R122, R142, R143, R156) -/
def Obligations.KnarinControl : Prop :=
  (∀ k : Fin 256, StrandRow (.nop k) k (kREG 0 0 0 0 0 0) id) ∧
  (∀ (s : State) (k : Fin 256), s.m.standsAt k (kREG 1 0 0 0 0 0) →
    StrandBecomes (.halt k) s k { (s.m.strand k).moved with st := .halted, why := 1, wait := none, after := [], keep := false }
      (s.m.lay.queue.filter (· != k.val))) ∧
  (∀ (s : State) (k : Fin 256), s.m.standsAt k (kREG 2 0 0 0 0 0) →
    StrandBecomes (.yieldK k) s k
      { (s.m.strand k).moved with st := .ready, wait := none, after := [], keep := false, act := 0, slice := 0 }
      (s.m.lay.queue.filter (· != k.val) ++ [k.val])) ∧
  (∀ (s : State) (k : Fin 256) (code : BitVec 8), s.m.mayIssue k (kREG 3 0 0 0 0 code.toNat) →
    Completes (.faultK k code) s (s.m.strandFault k 3 [code.zeroExtend 32])) ∧
  (∀ (s : State) (k : Fin 256) (cond : Fin 11) (off : BitVec 20) (pc : Nat), s.m.standsAt k (kIMM20 0x60 cond off.toNat) →
    [true, (s.m.strand k).z, !(s.m.strand k).z, (s.m.strand k).n != (s.m.strand k).v, (s.m.strand k).n == (s.m.strand k).v, !(s.m.strand k).z && ((s.m.strand k).n == (s.m.strand k).v), (s.m.strand k).z || ((s.m.strand k).n != (s.m.strand k).v),
      (s.m.strand k).c, !(s.m.strand k).c, (s.m.strand k).n, !(s.m.strand k).n][cond.val]? = some true →
    (pc : Int) = (s.m.strand k).pc + 4 * off.toInt → inRegion (s.m.strand k).owner pc = true →
    Completes (.bcc k cond off) s (s.m.putStrand k ((s.m.strand k).jumped pc))) ∧
  (∀ (s : State) (k : Fin 256) (cond : Fin 11) (off : BitVec 20), s.m.mayIssue k (kIMM20 0x60 cond off.toNat) →
    [true, (s.m.strand k).z, !(s.m.strand k).z, (s.m.strand k).n != (s.m.strand k).v, (s.m.strand k).n == (s.m.strand k).v, !(s.m.strand k).z && ((s.m.strand k).n == (s.m.strand k).v), (s.m.strand k).z || ((s.m.strand k).n != (s.m.strand k).v),
      (s.m.strand k).c, !(s.m.strand k).c, (s.m.strand k).n, !(s.m.strand k).n][cond.val]? = some false →
    Completes (.bcc k cond off) s (s.m.putStrand k (s.m.strand k).moved)) ∧
  (∀ (s : State) (k : Fin 256) (off : BitVec 20) (pc : Nat), s.m.standsAt k (kIMM20 0x61 0 off.toNat) →
    (pc : Int) = (s.m.strand k).pc + 4 * off.toInt → inRegion (s.m.strand k).owner pc = true →
    Completes (.bl k off) s (s.m.putStrand k (((s.m.strand k).put 15 (BitVec.ofNat 32 ((s.m.strand k).pc + 4))).jumped pc))) ∧
  (∀ (s : State) (k : Fin 256) (a : Fin 16), s.m.standsAt k (kREG 0x62 0 a 0 0 0) → inRegion (s.m.strand k).owner ((s.m.strand k).reg a).toNat = true →
    Completes (.jr k a) s (s.m.putStrand k ((s.m.strand k).jumped ((s.m.strand k).reg a).toNat))) ∧
  (∀ (s : State) (k : Fin 256), s.m.standsAt k (kREG 0x63 0 0 0 0 0) → inRegion (s.m.strand k).owner ((s.m.strand k).reg 15).toNat = true →
    Completes (.ret k) s (s.m.putStrand k ((s.m.strand k).jumped ((s.m.strand k).reg 15).toNat))) ∧
  (∀ (s : State) (k : Fin 256), (s.m.strand k).st = .running → s.m.overBudget k = false → (s.m.pcIn k = false ∨ wordDefined (s.m.nextWord k) = false) →
    Completes (.undefinedEncoding k) s (s.m.strandFault k 1 []))

/-- Whenever a strand may issue it, sysr completes with D = the strand's index, its LAY_Sn_CTL, its activation counter counting
this instruction, its budget, bits 31 to 0 of the microsecond stamp (latching bits 39 to 32 for this strand), the latched
bits, PWRM_OPSEC, PWRM_PCC or PWRM_MODE; S14 and the flags are unchanged unless S14 is D. (R147, R150) -/
def Obligations.KnarinSystemValues : Prop :=
  (∀ (s : State) (k : Fin 256) (d : Fin 16), s.m.mayIssue k (kREG 4 d 0 0 0 0) →
    Completes (.sysr k d 0) s (s.m.putStrand k (Strand.moved ((s.m.strand k).result d (BitVec.ofNat 32 k))))) ∧
  (∀ (s : State) (k : Fin 256) (d : Fin 16), s.m.mayIssue k (kREG 4 d 0 0 0 1) →
    Completes (.sysr k d 1) s (s.m.putStrand k (Strand.moved ((s.m.strand k).result d (s.m.layCtl k))))) ∧
  (∀ (s : State) (k : Fin 256) (d : Fin 16), s.m.mayIssue k (kREG 4 d 0 0 0 2) →
    Completes (.sysr k d 2) s (s.m.putStrand k (Strand.moved ((s.m.strand k).result d (BitVec.ofNat 32 ((s.m.strand k).act + 1)))))) ∧
  (∀ (s : State) (k : Fin 256) (d : Fin 16), s.m.mayIssue k (kREG 4 d 0 0 0 3) →
    Completes (.sysr k d 3) s (s.m.putStrand k (Strand.moved ((s.m.strand k).result d (BitVec.ofNat 32 (s.m.fld .layBudget k 20 0)))))) ∧
  (∀ (s : State) (k : Fin 256) (d : Fin 16), s.m.mayIssue k (kREG 4 d 0 0 0 4) →
    Completes (.sysr k d 4) s (s.m.putStrand k (Strand.moved { ((s.m.strand k).result d (BitVec.ofNat 32 (s.m.now % 2 ^ 32))) with usecHi := s.m.now / 2 ^ 32 % 256 }))) ∧
  (∀ (s : State) (k : Fin 256) (d : Fin 16), s.m.mayIssue k (kREG 4 d 0 0 0 5) →
    Completes (.sysr k d 5) s (s.m.putStrand k (Strand.moved ((s.m.strand k).result d (BitVec.ofNat 32 (s.m.strand k).usecHi))))) ∧
  (∀ (s : State) (k : Fin 256) (d : Fin 16), s.m.mayIssue k (kREG 4 d 0 0 0 6) →
    Completes (.sysr k d 6) s (s.m.putStrand k (Strand.moved ((s.m.strand k).result d (s.m.pwrmRead .pwrmOpsec 0))))) ∧
  (∀ (s : State) (k : Fin 256) (d : Fin 16), s.m.mayIssue k (kREG 4 d 0 0 0 7) →
    Completes (.sysr k d 7) s (s.m.putStrand k (Strand.moved ((s.m.strand k).result d (s.m.pwrmRead .pwrmPcc 0))))) ∧
  (∀ (s : State) (k : Fin 256) (d : Fin 16), s.m.mayIssue k (kREG 4 d 0 0 0 8) →
    Completes (.sysr k d 8) s (s.m.putStrand k (Strand.moved ((s.m.strand k).result d (s.m.modeWord)))))

/-- A supply loss outside SHIP and OFF, and a VKEEP loss in any state, enter OFF with every register but UPD_CFG at its reset
value, MRAM kept; in SHIP a supply loss only makes wakes wait, and power-up that finds one held enters BOOT with cause 4,
its WAKEBY and the straps kept. The release of power-on reset in OFF enters BOOT with the straps sampled. RST_IN_N in a
powered mode enters BOOT with cause 1, RWS and LK registers, trip counts and UPD_CFG kept and every other register at its
reset value. From BOOT with the collapse detector armed, no erase pending, no staged image, no copy under way and an active
image past its trial that verifies, BOOT_COMPLETE completes: the base state is STANDBY for a primary whose INTLK_IN is low,
which asserts INTLK_OUT, and SHADOW otherwise, and SYS_BOOT shows step 10. From State.reset with no vendor bundle, either
strap and either level of INTLK_IN, the first boot also counts one power cycle, lets the time given pass, and enters SOLO or
SYNC. (R46, R55, R58, R60, R62, R65, R67, R392, R679, R683, R701) -/
def Obligations.ResetsPowerOnAndBoot : Prop :=
  (∀ (s : State), s.m.pwr.base ≠ .ship → s.m.pwr.base ≠ .off → 
    ∃ m', Completes (.supplyLoss) s m' ∧ m'.pwr.base = .off ∧ m'.nvm = s.m.nvm ∧ (∀ r i, r ≠ .updCfg → m'.get r i = resetWord (r, i))) ∧
  (∀ (s : State), s.m.pwr.base = .ship → 
    Completes (.supplyLoss) s ({ s.m with pwr := { s.m.pwr with supLow := true } })) ∧
  (∀ (s : State) (role refsel : Bool), s.m.pwr.base = .ship → s.m.pwr.wakeDue ≠ 0 → 
    ∃ m', Completes (.powerOnResetRelease role refsel) s m' ∧ m'.pwr.base = .boot ∧ m'.pwr.role = s.m.pwr.role ∧ m'.pwr.refsel = s.m.pwr.refsel ∧ m'.pwr.cause = 4 ∧ m'.bat.wakeBy = s.m.pwr.wakeDue ∧
      m'.nvm = s.m.nvm ∧ (∀ r i, keepsReg false r = true → m'.get r i = s.m.get r i) ∧ (∀ r i, keepsReg false r = false → m'.get r i = resetWord (r, i))) ∧
  (∀ (s : State), 
    ∃ m', Completes (.vkeepLoss) s m' ∧ m'.pwr.base = .off ∧ m'.pwr.vkeepLost = true ∧ m'.nvm = s.m.nvm ∧ (∀ r i, r ≠ .updCfg → m'.get r i = resetWord (r, i))) ∧
  (∀ (s : State) (role refsel : Bool), s.m.pwr.base = .off → 
    ∃ m', Completes (.powerOnResetRelease role refsel) s m' ∧ m'.pwr.base = .boot ∧ m'.pwr.role = role ∧ m'.pwr.refsel = refsel ∧ m'.pwr.cause = 0 ∧ m'.nvm = s.m.nvm ∧ (∀ r i, r ≠ .updCfg → m'.get r i = resetWord (r, i))) ∧
  (∀ (s : State), s.m.pwr.base ≠ .ship → s.m.pwr.base ≠ .off → 
    ∃ m', Completes (.warmReset) s m' ∧ m'.pwr.base = .boot ∧ m'.pwr.cause = 1 ∧ m'.nvm = s.m.nvm ∧
      (∀ r i, keepsReg false r = true → m'.get r i = s.m.get r i) ∧ (∀ r i, keepsReg false r = false → m'.get r i = resetWord (r, i))) ∧
  (∀ (s : State) (us copied : Nat) (act rol : Fin 8), s.m.pwr.base = .boot → s.m.pwr.ecdFired = false → s.m.nvm.erasing = false → s.m.upd.copying = none → s.m.upd.stg ≠ .pending → s.m.upd.trial = false → bootCheck act = 0 → 
    ∃ m', Completes (.bootComplete us act (rol, copied)) s m' ∧ m'.pwr.base = (if s.m.pwr.role = false ∧ s.m.spl.inp = false then .standby else .shadow) ∧
      m'.sys.bootStep = 10 ∧ (m'.spl.out = true ↔ s.m.pwr.role = false ∧ s.m.spl.inp = false)) ∧
  (∀ role inp : Bool, ∃ m', Completes (.bootComplete 250000 0 (0, 0))
      { m := { State.reset.m with vend := Vendor.init, pwr := { State.reset.m.pwr with role := role }, spl := { State.reset.m.spl with inp := inp } }, pending := [] } m' ∧
    m'.pwr.base = (if role = false ∧ inp = false then .standby else .shadow) ∧ m'.nvm.pcc = 1 ∧ m'.now = 250000 ∧
    m'.spl.st = (if role = false ∧ inp = false then .solo else .sync))

/-- A granted write of PWRM_CMD completes: START enters SOURCE when the source condition holds and HOLDUP when only a string is
connected; STOP stops the converters, turns every branch off, leaves the policy machines and requests the sequencer OFF, in
STANDBY; SAFE_EXIT clears COND_SAFE and stops the converters at once; SERVICE_ENTER and SERVICE_EXIT set and clear COND_SVC;
LOCK_EXIT clears COND_LOCK with a MODE record; each leaves OK and its code in PWRM_CMDSTAT. RESET is a warm reset with cause
3. The start decision: with the source condition met the base state becomes SOURCE; else, with a string connected, HOLDUP.
An outstanding AUTOSTART decision is withdrawn either way, and when neither applies the base state stays, no earlier than 1
s after boot. AUTOSTART_DECISION with no decision outstanding changes nothing. A granted SHIP completes in base state SHIP:
every string context is cleared, every register but RWS and LK ones, trip counts and UPD_CFG is at its reset value, and
nothing waits in the recorder's queue. (R46, R60, R80, R269, R392, R510, R572, R701) -/
def Obligations.ModeCommands : Prop :=
  (WriteRow (fun ag => .start ag) .pwrmCmd 0 (1)
    (fun _ m => (m.start).put .pwrmCmdstat 0 (wd (1 * 256)))) ∧
  (WriteRow (fun ag => .stop ag) .pwrmCmd 0 (2)
    (fun _ m => (((((({ m with pwr := { m.pwr with base := .standby } } : Chip).convStop 0).convStop 1).brnAllOff 9).polLeave).seqOff).put .pwrmCmdstat 0 (wd (2 * 256)))) ∧
  (WriteRow (fun ag => .safeExit ag) .pwrmCmd 0 (4)
    (fun _ m => (m.safeExit).put .pwrmCmdstat 0 (wd (4 * 256)))) ∧
  (WriteRow (fun ag => .serviceEnter ag) .pwrmCmd 0 (5)
    (fun _ m => ({ m with pwr := { m.pwr with condSvc := true } } : Chip).put .pwrmCmdstat 0 (wd (5 * 256)))) ∧
  (WriteRow (fun ag => .serviceExit ag) .pwrmCmd 0 (6)
    (fun _ m => ({ m with pwr := { m.pwr with condSvc := false } } : Chip).put .pwrmCmdstat 0 (wd (6 * 256)))) ∧
  (WriteRow (fun ag => .lockExit ag) .pwrmCmd 0 (7)
    (fun _ m => (({ m with nvm := { m.nvm with lock := false } } : Chip).modeRecord).put .pwrmCmdstat 0 (wd (7 * 256)))) ∧
  (WriteRow (fun ag => .resetCmd ag) .pwrmCmd 0 (8)
    (fun _ m => m.warmReset 3)) ∧
  (∀ m : Chip, m.srcCondition = true → m.start.pwr.base = .source) ∧
  (∀ m : Chip, m.srcCondition = false → m.stringIn = true → m.start.pwr.base = .holdup) ∧
  (∀ m : Chip, m.srcCondition = false → m.stringIn = false → m.start.pwr.base = m.pwr.base) ∧
  (∀ (s : State), s.m.pwr.autoPend = true → s.m.mode = 3 → s.m.polReady = true → s.m.srcCondition = true → 
    Completes (.autostartDecision) s (Chip.start { s.m with pwr := { s.m.pwr with autoPend := false } })) ∧
  (∀ (s : State), s.m.pwr.autoPend = false → 
    Completes (.autostartDecision) s (s.m)) ∧
  (∀ (s : State) (ag : Agent) (welded : BitVec 4 × Bool), s.m.grants ag (RName.addr .pwrmCmd 0) 3 → (ag = .svc → 2 ≤ s.m.upd.session) → 
    ∃ m', Completes (.ship ag welded) s m' ∧ m'.pwr.base = .ship ∧ m'.bat.str = [] ∧ m'.rcd.queue = [] ∧
      (∀ r i, keepsReg false r = false → m'.get r i = resetWord (r, i)) ∧ m'.resp = some (ag, .ok, 0))

/-- ECD_FIRE with the detector enabled marks it fired and abandons every uncommitted write of the recorder, the capture units
and the estimator; ECD_REARM clears it, and with nothing abandoned and no write due changes nothing else. XT32_LOSS runs
from LFRC and raises source 3, REF_LOSS runs from the wake oscillator and raises source 4; the returns switch back.
OPSEC_COMMIT stores the operating seconds. Each in a powered chip. (R58, R63, R64, R70, R422, R700) -/
def Obligations.CollapseDetectorAndClocks : Prop :=
  (∀ (s : State), s.m.alive = true → s.m.flag .pwrmEcd 0 12 = true → s.m.pwr.ecdFired = false → 
    Completes (.ecdFire) s (((({ s.m with pwr := { s.m.pwr with ecdFired := true } } : Chip).recordAbandon).capAbandon (s.m.rcd.writing.map (fun w => w.2.2.rcd))).storeAbandon)) ∧
  (∀ (s : State), s.m.pwr.ecdFired = true → s.m.nvm.erasing = false → s.m.sec.eraseDue = false → 
    ∃ m', Completes (.ecdRearm) s m' ∧ m'.pwr.ecdFired = false ∧ m'.nvm = s.m.nvm) ∧
  (∀ (s : State), s.m.pwr.ecdFired = true → s.m.nvm.erasing = false → s.m.sec.eraseDue = false → s.m.abandoned = none → (∀ u, (s.m.cap u).torn = false) → s.m.est.abandoned = none → s.m.est.due = false → 
    Completes (.ecdRearm) s ({ s.m with pwr := { s.m.pwr with ecdFired := false } })) ∧
  (∀ (s : State), s.m.alive = true → s.m.pwr.lfrc = false → 
    Completes (.xt32Loss) s (({ s.m with pwr := { s.m.pwr with xtGood := false, lfrc := true } } : Chip).raise 3 0 [])) ∧
  (∀ (s : State), s.m.pwr.base ≠ .off → s.m.pwr.lfrc = true → 
    Completes (.xt32Return) s ({ s.m with pwr := { s.m.pwr with xtGood := true, lfrc := false } })) ∧
  (∀ (s : State), s.m.alive = true → s.m.pwr.refrc = false → 
    Completes (.refLoss) s (({ s.m with pwr := { s.m.pwr with refGood := false, refrc := true } } : Chip).raise 4 0 [])) ∧
  (∀ (s : State), s.m.alive = true → s.m.pwr.refrc = true → 
    Completes (.refReturn) s ({ s.m with pwr := { s.m.pwr with refGood := true, refrc := false } })) ∧
  (∀ (s : State), s.m.alive = true → s.m.pwr.ecdFired = false → 
    Completes (.opsecCommit) s (let m := s.m.elapse s.m.pwr.opsecAt 600000000
      { m with nvm := { m.nvm with opsec := m.opsec }, pwr := { m.pwr with opsecAt := m.now } }))

/-- A granted REGISTER_WRITE completes with the effect and the status of its block. One that no rule rejects but whose domain
sleeps joins the held accesses. HELD_ACCESS_COMPLETE wakes the domain of the oldest access that is ready, performs it and
answers it. DOMAIN_SLEEP returns a domain with no work and no held access to its resting state. LOCKSTEP_MISMATCH and
POLICY_HEARTBEAT raise sources 0, 1 and 2. (R6, R23, R35, R53) -/
def Obligations.DomainsAndHeldAccesses : Prop :=
  (∀ (s : State) (ag : Agent) (addr : BitVec 24) (d : Word), s.m.grants ag addr.toNat d → 
    Completes (.registerWrite ag addr d) s (s.m.written ((s.m.writeAct ag addr.toNat d).eff s.m).1 ag addr.toNat ((s.m.writeAct ag addr.toNat d).eff s.m).2)) ∧
  (∀ (s : State) (ag : Agent) (addr : BitVec 24) (d : Word), s.m.open_ ag → s.m.writeVerdict ag addr.toNat d = none → s.m.usableDom (domOf addr.toNat) = false → 
    Completes (.registerWrite ag addr d) s ({ s.m with pwr := { s.m.pwr with held := s.m.pwr.held ++ [{ ag := ag, write := true, addr := addr.toNat, data := d, dst := 0 }] } })) ∧
  (∀ (s : State) (h : Held), s.m.pwr.held.find? s.m.heldReady = some h → 
    ∃ m', Completes (.heldAccessComplete) s m' ∧ m' = ((({ s.m with pwr := { s.m.pwr with held := s.m.pwr.held.erase h } } : Chip).wake (domOf h.addr)).performHeld h).1.heldAnswer h s.m.pwr.base
        ((({ s.m with pwr := { s.m.pwr with held := s.m.pwr.held.erase h } } : Chip).wake (domOf h.addr)).performHeld h).2.1
        ((({ s.m with pwr := { s.m.pwr with held := s.m.pwr.held.erase h } } : Chip).wake (domOf h.addr)).performHeld h).2.2) ∧
  (∀ (s : State) (d : Dom), s.m.domBusy d = false → (∀ h ∈ s.m.pwr.held, domOf h.addr ≠ d) → 
    Completes (.domainSleep d) s ({ s.m with pwr := { s.m.pwr with awake := NTab.set false s.m.pwr.awake (domIdx d) false } })) ∧
  (∀ (s : State) (p : Pair), s.m.alive = true → 
    Completes (.lockstepMismatch p) s (s.m.raise (match p with | .a => 0 | .b => 1) 0 [])) ∧
  (∀ (s : State), s.m.alive = true → 
    Completes (.policyHeartbeat) s (let m := s.m.elapse s.m.flt.hbAt 30000
      Chip.raise { m with flt := { m.flt with hbAt := m.now } } 2 0 []))

/-- delay and delayv of 0 complete at once with WAKE 0x1; else the strand waits for that time. timer and timerv arm or stop the
timer. waitt with a tick pending takes it: D the missed count, WAKE 0x2; waite with a line count that differs from A gives D
the count, WAKE 0x3. Otherwise the strand is WAITING at the instruction, with the timeout register's value, the PC unmoved
and its activation ending. (R94, R106, R107, R109, R110, R157, R158) -/
def Obligations.KnarinTimeWaits : Prop :=
  (∀ (s : State) (k : Fin 256) (n : BitVec 20), s.m.mayIssue k (kIMM20 0x70 0 n.toNat) → n = 0 → StrandBecomes (.delay k n) s k ((s.m.strand k).told .ok 1).moved s.m.lay.queue) ∧
  (∀ (s : State) (k : Fin 256) (n : BitVec 20), s.m.mayIssue k (kIMM20 0x70 0 n.toNat) → n ≠ 0 → StrandBecomes (.delay k n) s k ((s.m.strand k).waits .delay n.toNat s.m.now) s.m.lay.queue) ∧
  (∀ (s : State) (k : Fin 256) (a : Fin 16), s.m.mayIssue k (kREG 0x71 0 a 0 0 0) → ((s.m.strand k).reg a) = 0 → StrandBecomes (.delayv k a) s k ((s.m.strand k).told .ok 1).moved s.m.lay.queue) ∧
  (∀ (s : State) (k : Fin 256) (a : Fin 16), s.m.mayIssue k (kREG 0x71 0 a 0 0 0) → ((s.m.strand k).reg a) ≠ 0 →
    StrandBecomes (.delayv k a) s k ((s.m.strand k).waits .delay ((s.m.strand k).reg a).toNat s.m.now) s.m.lay.queue) ∧
  (∀ (s : State) (k : Fin 256) (n : BitVec 20), s.m.mayIssue k (kIMM20 0x72 0 n.toNat) →
    StrandBecomes (.timer k n) s k (Strand.moved { (s.m.strand k) with period := n.toNat, timerAt := s.m.now }) s.m.lay.queue) ∧
  (∀ (s : State) (k : Fin 256) (a : Fin 16), s.m.mayIssue k (kREG 0x73 0 a 0 0 0) →
    StrandBecomes (.timerv k a) s k (Strand.moved { (s.m.strand k) with period := ((s.m.strand k).reg a).toNat, timerAt := s.m.now }) s.m.lay.queue) ∧
  (∀ (s : State) (k : Fin 256) (d : Fin 16) (c : Option (Fin 16)), s.m.mayIssue k (kREG 0x74 d 0 0 (timeoutFn (c.map Fin.val) 0).1 (timeoutFn (c.map Fin.val) 0).2) → (s.m.strand k).tick = true →
    StrandBecomes (.waitt k d c) s k ((Strand.told { (s.m.strand k).result d (BitVec.ofNat 32 (s.m.strand k).missed) with tick := false, missed := 0 } .ok 2)).moved s.m.lay.queue) ∧
  (∀ (s : State) (k : Fin 256) (d : Fin 16) (c : Option (Fin 16)), s.m.mayIssue k (kREG 0x74 d 0 0 (timeoutFn (c.map Fin.val) 0).1 (timeoutFn (c.map Fin.val) 0).2) → ¬((s.m.strand k).tick = true) →
    StrandBecomes (.waitt k d c) s k ((s.m.strand k).waits (.tick d) (match c with | some r => ((s.m.strand k).reg r.val).toNat | none => 0) s.m.now) s.m.lay.queue) ∧
  (∀ (s : State) (k : Fin 256) (d : Fin 16) (line : Fin 4) (a : Fin 16) (c : Option (Fin 16)), s.m.mayIssue k (kREG 0x75 d a 0 (timeoutFn (c.map Fin.val) line).1 (timeoutFn (c.map Fin.val) line).2) → s.m.get .layEvline line ≠ (s.m.strand k).reg a →
    StrandBecomes (.waite k d line a c) s k ((((s.m.strand k).result d (s.m.get .layEvline line)).told .ok 3)).moved s.m.lay.queue) ∧
  (∀ (s : State) (k : Fin 256) (d : Fin 16) (line : Fin 4) (a : Fin 16) (c : Option (Fin 16)), s.m.mayIssue k (kREG 0x75 d a 0 (timeoutFn (c.map Fin.val) line).1 (timeoutFn (c.map Fin.val) line).2) → ¬(s.m.get .layEvline line ≠ (s.m.strand k).reg a) →
    StrandBecomes (.waite k d line a c) s k ((s.m.strand k).waits (.line line ((s.m.strand k).reg a) d) (match c with | some r => ((s.m.strand k).reg r.val).toNat | none => 0) s.m.now) s.m.lay.queue)

/-- A token that names no entry of the strand gives ERANGE with D unchanged. A completed one is collected: its entry is free, D
is the result word when the status is OK and 0 otherwise, S14 holds the status with WAKE 0x4. While it is outstanding waitk
leaves the strand WAITING and kpoll returns EBUSY. kdrop frees the entry at once and its transaction completes for no one.
(R106, R107, R111, R113, R157) -/
def Obligations.KnarinTokens : Prop :=
  (∀ (s : State) (k : Fin 256) (d a : Fin 16) (c : Option (Fin 16)), s.m.mayIssue k (kREG 0x76 d a 0 (timeoutFn (c.map Fin.val) 0).1 (timeoutFn (c.map Fin.val) 0).2) → (s.m.strand k).tokenEntry ((s.m.strand k).reg a) = none →
    StrandBecomes (.waitk k d a c) s k ((s.m.strand k).told .erange 0).moved s.m.lay.queue) ∧
  (∀ (s : State) (k : Fin 256) (d a : Fin 16) (c : Option (Fin 16)) (e : Nat) (st : Status) (w : Word), s.m.mayIssue k (kREG 0x76 d a 0 (timeoutFn (c.map Fin.val) 0).1 (timeoutFn (c.map Fin.val) 0).2) → (s.m.strand k).tokenEntry ((s.m.strand k).reg a) = some e →
    ((s.m.strand k).tok e).done = some (st, w) →
    StrandBecomes (.waitk k d a c) s k
      (((((s.m.strand k).putTok e { (s.m.strand k).tok e with used := false, done := none }).result d (if st = .ok then w else 0)).told st 4).moved) s.m.lay.queue) ∧
  (∀ (s : State) (k : Fin 256) (d a : Fin 16) (c : Option (Fin 16)) (e : Nat), s.m.mayIssue k (kREG 0x76 d a 0 (timeoutFn (c.map Fin.val) 0).1 (timeoutFn (c.map Fin.val) 0).2) → (s.m.strand k).tokenEntry ((s.m.strand k).reg a) = some e → ((s.m.strand k).tok e).done = none →
    StrandBecomes (.waitk k d a c) s k ((s.m.strand k).waits (.token ((s.m.strand k).reg a) d) (match c with | some r => ((s.m.strand k).reg r.val).toNat | none => 0) s.m.now) s.m.lay.queue) ∧
  (∀ (s : State) (k : Fin 256) (d a : Fin 16), s.m.mayIssue k (kREG 0x77 d a 0 0 0) → (s.m.strand k).tokenEntry ((s.m.strand k).reg a) = none →
    StrandBecomes (.kpoll k d a) s k ((s.m.strand k).told .erange 0).moved s.m.lay.queue) ∧
  (∀ (s : State) (k : Fin 256) (d a : Fin 16) (e : Nat) (st : Status) (w : Word), s.m.mayIssue k (kREG 0x77 d a 0 0 0) → (s.m.strand k).tokenEntry ((s.m.strand k).reg a) = some e →
    ((s.m.strand k).tok e).done = some (st, w) →
    StrandBecomes (.kpoll k d a) s k
      (((((s.m.strand k).putTok e { (s.m.strand k).tok e with used := false, done := none }).result d (if st = .ok then w else 0)).told st 4).moved) s.m.lay.queue) ∧
  (∀ (s : State) (k : Fin 256) (d a : Fin 16) (e : Nat), s.m.mayIssue k (kREG 0x77 d a 0 0 0) → (s.m.strand k).tokenEntry ((s.m.strand k).reg a) = some e → ((s.m.strand k).tok e).done = none →
    StrandBecomes (.kpoll k d a) s k ((s.m.strand k).told .ebusy 0).moved s.m.lay.queue) ∧
  (∀ (s : State) (k : Fin 256) (a : Fin 16), s.m.mayIssue k (kREG 0x78 0 a 0 0 0) → (s.m.strand k).tokenEntry ((s.m.strand k).reg a) = none →
    StrandBecomes (.kdrop k a) s k ((s.m.strand k).told .erange 0).moved s.m.lay.queue) ∧
  (∀ (s : State) (k : Fin 256) (a : Fin 16) (e : Nat), s.m.mayIssue k (kREG 0x78 0 a 0 0 0) → (s.m.strand k).tokenEntry ((s.m.strand k).reg a) = some e →
    ∃ m', Completes (.kdrop k a) s m' ∧
      m'.strand k = (((s.m.strand k).putTok e { (s.m.strand k).tok e with used := false, done := none }).told .ok 0).moved ∧
      (∀ t ∈ m'.ptn.pool, t.by_ ≠ .strand k e) ∧ m'.regs = s.m.regs ∧ m'.lay.commons = s.m.lay.commons)

/-- On a channel whose end the strand's group is, send appends B to the queue (EFULL and nothing when it holds 16 words), recv
takes the oldest word into D with WAKE 0x5 or waits. ldd and std access the device space, and lrd, lwr, lsp and lcmt the
loop slots and CLE_COMMIT, as the strand's own bus access with its status in S14, when no rule rejects or holds it; the
strand moves on. (R102, R125, R126, R154, R159, R498, R499, R501) -/
def Obligations.KnarinMailboxesAndDevices : Prop :=
  (∀ (s : State) (k : Fin 256) (b : Fin 16) (ch : Fin 64) (side : Bool), s.m.mayIssue k (kREG 0x80 0 0 b 0 ch) → s.m.mbxStatus k ch = .ok →
    sideOf (.strands (s.m.strand k).owner (s.m.strand k).group) ch = some side → (s.m.mq ch side).length < 16 →
    ∃ m', Completes (.send k b ch) s m' ∧ m'.mq ch side = s.m.mq ch side ++ [(s.m.strand k).reg b] ∧ m'.strand k = ((s.m.strand k).told .ok 0).moved) ∧
  (∀ (s : State) (k : Fin 256) (b : Fin 16) (ch : Fin 64) (side : Bool), s.m.mayIssue k (kREG 0x80 0 0 b 0 ch) → s.m.mbxStatus k ch = .ok →
    sideOf (.strands (s.m.strand k).owner (s.m.strand k).group) ch = some side → 16 ≤ (s.m.mq ch side).length →
    StrandBecomes (.send k b ch) s k ((s.m.strand k).told .efull 0).moved s.m.lay.queue) ∧
  (∀ (s : State) (k : Fin 256) (d : Fin 16) (ch : Fin 64) (c : Option (Fin 16)) (side : Bool) (w : Word) (ws : List Word),
    s.m.mayIssue k (kREG 0x81 d 0 0 (timeoutFn (c.map Fin.val) ch).1 (timeoutFn (c.map Fin.val) ch).2) → s.m.mbxStatus k ch = .ok → sideOf (.strands (s.m.strand k).owner (s.m.strand k).group) ch = some side →
    s.m.mq ch (!side) = w :: ws → s.m.waitsBefore k ch = false →
    ∃ m', Completes (.recv k d ch c) s m' ∧ m'.mq ch (!side) = ws ∧ m'.strand k = (((s.m.strand k).result d w).told .ok 5).moved ∧
      m'.regs = s.m.regs) ∧
  (∀ (s : State) (k : Fin 256) (d : Fin 16) (ch : Fin 64) (c : Option (Fin 16)) (side : Bool),
    s.m.mayIssue k (kREG 0x81 d 0 0 (timeoutFn (c.map Fin.val) ch).1 (timeoutFn (c.map Fin.val) ch).2) → s.m.mbxStatus k ch = .ok → sideOf (.strands (s.m.strand k).owner (s.m.strand k).group) ch = some side →
    s.m.mq ch (!side) = [] → StrandBecomes (.recv k d ch c) s k ((s.m.strand k).waits (.mbox ch d) (match c with | some r => ((s.m.strand k).reg r.val).toNat | none => 0) s.m.now) s.m.lay.queue) ∧
  (∀ (s : State) (k : Fin 256) (d a : Fin 16) (w : BitVec 8), s.m.mayIssue k (kREG 0x90 d a 0 0 w.toNat) → ((s.m.strand k).reg a).toNat < 64 →
    (s.m.putStrand k (s.m.strand k).moved).gate false (.strand k) (loopAddr ((s.m.strand k).reg a).toNat w.toNat) 0 = {} →
    ∃ m', Completes (.lrd k d a w) s m' ∧ m'.strand k = ((s.m.strand k).moved.result d ((s.m.putStrand k (s.m.strand k).moved).loopRead ((s.m.strand k).reg a).toNat w.toNat)).told .ok 0 ∧
      s.m.strandOnly m' k) ∧
  (∀ (s : State) (k : Fin 256) (b a : Fin 16) (w : BitVec 8), s.m.mayIssue k (kREG 0x91 0 a b 0 w.toNat) → ((s.m.strand k).reg a).toNat < 64 →
    (s.m.putStrand k (s.m.strand k).moved).writeVerdict (.strand k) (loopAddr ((s.m.strand k).reg a).toNat w.toNat) ((s.m.strand k).reg b) = none →
    Completes (.lwr k b a w) s ((((s.m.putStrand k (s.m.strand k).moved).writeAct (.strand k) (loopAddr ((s.m.strand k).reg a).toNat w.toNat) ((s.m.strand k).reg b)).eff (s.m.putStrand k (s.m.strand k).moved)).1.afterAccess k s.m.pwr.base id (((s.m.putStrand k (s.m.strand k).moved).writeAct (.strand k) (loopAddr ((s.m.strand k).reg a).toNat w.toNat) ((s.m.strand k).reg b)).eff (s.m.putStrand k (s.m.strand k).moved)).2)) ∧
  (∀ (s : State) (k : Fin 256) (b a : Fin 16), s.m.mayIssue k (kREG 0x92 0 a b 0 0) → ((s.m.strand k).reg a).toNat < 64 →
    (s.m.putStrand k (s.m.strand k).moved).writeVerdict (.strand k) (loopAddr ((s.m.strand k).reg a).toNat 2) ((s.m.strand k).reg b) = none →
    Completes (.lsp k b a) s ((((s.m.putStrand k (s.m.strand k).moved).writeAct (.strand k) (loopAddr ((s.m.strand k).reg a).toNat 2) ((s.m.strand k).reg b)).eff (s.m.putStrand k (s.m.strand k).moved)).1.afterAccess k s.m.pwr.base id (((s.m.putStrand k (s.m.strand k).moved).writeAct (.strand k) (loopAddr ((s.m.strand k).reg a).toNat 2) ((s.m.strand k).reg b)).eff (s.m.putStrand k (s.m.strand k).moved)).2)) ∧
  (∀ (s : State) (k : Fin 256) (a : Fin 16) (blk : Fin 8), s.m.mayIssue k (kREG 0x93 0 a 0 0 blk) → ((s.m.strand k).reg a).toNat < 64 →
    (s.m.putStrand k (s.m.strand k).moved).writeVerdict (.strand k) (RName.cleCommit.addr 0) (wd (((s.m.strand k).reg a).toNat + 2 ^ blk.val * 256)) = none →
    Completes (.lcmt k a blk) s ((((s.m.putStrand k (s.m.strand k).moved).writeAct (.strand k) (RName.cleCommit.addr 0) (wd (((s.m.strand k).reg a).toNat + 2 ^ blk.val * 256))).eff (s.m.putStrand k (s.m.strand k).moved)).1.afterAccess k s.m.pwr.base id (((s.m.putStrand k (s.m.strand k).moved).writeAct (.strand k) (RName.cleCommit.addr 0) (wd (((s.m.strand k).reg a).toNat + 2 ^ blk.val * 256))).eff (s.m.putStrand k (s.m.strand k).moved)).2)) ∧
  (∀ (s : State) (k : Fin 256) (d a : Fin 16) (imm : BitVec 16), s.m.mayIssue k (kIMM 0x4D d a imm.toNat) → accessOk ((s.m.strand k).effAddr a imm) 4 0x1000000 →
    (s.m.putStrand k (s.m.strand k).moved).writeVerdict (.strand k) ((s.m.strand k).effAddr a imm) ((s.m.strand k).reg d) = none →
    s.m.mustHold { ag := .strand k, write := true, addr := ((s.m.strand k).effAddr a imm), data := (s.m.strand k).reg d, dst := d } = false →
    Completes (.std k d a imm) s ((((s.m.putStrand k (s.m.strand k).moved).writeAct (.strand k) ((s.m.strand k).effAddr a imm) ((s.m.strand k).reg d)).eff (s.m.putStrand k (s.m.strand k).moved)).1.afterAccess k s.m.pwr.base id
      (((s.m.putStrand k (s.m.strand k).moved).writeAct (.strand k) ((s.m.strand k).effAddr a imm) ((s.m.strand k).reg d)).eff (s.m.putStrand k (s.m.strand k).moved)).2)) ∧
  (∀ (s : State) (k : Fin 256) (d a : Fin 16) (imm : BitVec 16), s.m.mayIssue k (kIMM 0x4C d a imm.toNat) → accessOk ((s.m.strand k).effAddr a imm) 4 0x1000000 →
    s.m.mustHold { ag := .strand k, write := false, addr := ((s.m.strand k).effAddr a imm), data := (s.m.strand k).reg d, dst := d } = false →
    Completes (.ldd k d a imm) s (((s.m.putStrand k (s.m.strand k).moved).busRead (.strand k) ((s.m.strand k).effAddr a imm)).1.afterAccess k s.m.pwr.base
      (fun t => t.dst d ((s.m.putStrand k (s.m.strand k).moved).busRead (.strand k) ((s.m.strand k).effAddr a imm)).2.1) ((s.m.putStrand k (s.m.strand k).moved).busRead (.strand k) ((s.m.strand k).effAddr a imm)).2.2))

/-- Whenever a strand may issue it, has a free token entry and no rule rejects the transaction, a partner instruction completes:
the entry of lowest index is taken with the next serial number, D is the token (serial and entry), S14 is OK, and the
scheduler takes the transaction for that token. rec with allowance left writes a record of kind 3, source 0x100 + strand,
its code and S0 to S7, and returns OK; with the allowance used up it counts the drop in LAY_RECDROP, returns EFULL and
writes none. The allowance is a burst of 64 records refilled at 32 a second (log entry 67). (R111, R112, R127, R161, R603) -/
def Obligations.KnarinPartnerIssuesAndRecords : Prop :=
  (∀ (s : State) (k : Fin 256) (d a : Fin 16) (item : BitVec 12) (i : Nat), s.m.mayIssue k (kPTR 0xA0 d a 0 item.toNat) → (s.m.strand k).freeTok = some i →
    s.m.issueJudge k .read ((s.m.strand k).reg a).toNat item.toNat ((s.m.strand k).reg 0) = .ok →
    Completes (.pread k d a item) s ((s.m.putStrand k (((((s.m.strand k).putTok i { used := true, dropped := false, serial := (((s.m.strand k).tok i).serial + 1) % 4096, done := none }).result d
      (BitVec.ofNat 32 ((((s.m.strand k).tok i).serial + 1) % 4096 * 16 + i))).told .ok 0).moved)).issue .read (.strand k i)
      ((s.m.strand k).reg a).toNat item.toNat ((s.m.strand k).reg 0).toNat ((s.m.strand k).reg 0))) ∧
  (∀ (s : State) (k : Fin 256) (d a b : Fin 16) (item : BitVec 12) (i : Nat), s.m.mayIssue k (kPTR 0xA1 d a b item.toNat) → (s.m.strand k).freeTok = some i →
    s.m.issueJudge k .write ((s.m.strand k).reg a).toNat item.toNat ((s.m.strand k).reg b) = .ok →
    Completes (.pwrite k d a b item) s ((s.m.putStrand k (((((s.m.strand k).putTok i { used := true, dropped := false, serial := (((s.m.strand k).tok i).serial + 1) % 4096, done := none }).result d
      (BitVec.ofNat 32 ((((s.m.strand k).tok i).serial + 1) % 4096 * 16 + i))).told .ok 0).moved)).issue .write (.strand k i)
      ((s.m.strand k).reg a).toNat item.toNat ((s.m.strand k).reg b).toNat ((s.m.strand k).reg b))) ∧
  (∀ (s : State) (k : Fin 256) (d a : Fin 16) (item : BitVec 12) (i : Nat), s.m.mayIssue k (kPTR 0xA2 d a 0 item.toNat) → (s.m.strand k).freeTok = some i →
    s.m.issueJudge k .cmd ((s.m.strand k).reg a).toNat item.toNat ((s.m.strand k).reg 0) = .ok →
    Completes (.pcmd k d a item) s ((s.m.putStrand k (((((s.m.strand k).putTok i { used := true, dropped := false, serial := (((s.m.strand k).tok i).serial + 1) % 4096, done := none }).result d
      (BitVec.ofNat 32 ((((s.m.strand k).tok i).serial + 1) % 4096 * 16 + i))).told .ok 0).moved)).issue .cmd (.strand k i)
      ((s.m.strand k).reg a).toNat item.toNat ((s.m.strand k).reg 0).toNat ((s.m.strand k).reg 0))) ∧
  (∀ (s : State) (k : Fin 256) (d a b : Fin 16) (item : BitVec 12) (i : Nat), s.m.mayIssue k (kPTR 0xA3 d a b item.toNat) → (s.m.strand k).freeTok = some i →
    s.m.issueJudge k .blkr ((s.m.strand k).reg a).toNat item.toNat ((s.m.strand k).reg b) = .ok →
    Completes (.pblkr k d a b item) s ((s.m.putStrand k (((((s.m.strand k).putTok i { used := true, dropped := false, serial := (((s.m.strand k).tok i).serial + 1) % 4096, done := none }).result d
      (BitVec.ofNat 32 ((((s.m.strand k).tok i).serial + 1) % 4096 * 16 + i))).told .ok 0).moved)).issue .blkr (.strand k i)
      ((s.m.strand k).reg a).toNat item.toNat ((s.m.strand k).reg b).toNat ((s.m.strand k).reg b))) ∧
  (∀ (s : State) (k : Fin 256) (d a b : Fin 16) (item : BitVec 12) (i : Nat), s.m.mayIssue k (kPTR 0xA4 d a b item.toNat) → (s.m.strand k).freeTok = some i →
    s.m.issueJudge k .blkw ((s.m.strand k).reg a).toNat item.toNat ((s.m.strand k).reg b) = .ok →
    Completes (.pblkw k d a b item) s ((s.m.putStrand k (((((s.m.strand k).putTok i { used := true, dropped := false, serial := (((s.m.strand k).tok i).serial + 1) % 4096, done := none }).result d
      (BitVec.ofNat 32 ((((s.m.strand k).tok i).serial + 1) % 4096 * 16 + i))).told .ok 0).moved)).issue .blkw (.strand k i)
      ((s.m.strand k).reg a).toNat item.toNat ((s.m.strand k).reg b).toNat ((s.m.strand k).reg b))) ∧
  (∀ (s : State) (k : Fin 256) (d a b : Fin 16) (item : BitVec 12) (i : Nat), s.m.mayIssue k (kPTR 0xA5 d a b item.toNat) → (s.m.strand k).freeTok = some i →
    s.m.issueJudge k .setp ((s.m.strand k).reg a).toNat item.toNat ((s.m.strand k).reg b) = .ok →
    Completes (.psetp k d a b item) s ((s.m.putStrand k (((((s.m.strand k).putTok i { used := true, dropped := false, serial := (((s.m.strand k).tok i).serial + 1) % 4096, done := none }).result d
      (BitVec.ofNat 32 ((((s.m.strand k).tok i).serial + 1) % 4096 * 16 + i))).told .ok 0).moved)).issue .setp (.strand k i)
      ((s.m.strand k).reg a).toNat item.toNat ((s.m.strand k).reg b).toNat ((s.m.strand k).reg b))) ∧
  (∀ (s : State) (k : Fin 256) (code : BitVec 16), s.m.mayIssue k (kIMM 0xB0 0 0 code.toNat) → s.m.recLevel (s.m.strand k).owner + 31250 ≤ 2000000 →
    s.m.rcd.queue.length < 256 →
    ∃ m', Completes (.recNote k code) s m' ∧ m'.strand k = ((s.m.strand k).told .ok 0).moved ∧ m'.regs = s.m.regs ∧
      m'.rcd.queue = s.m.rcd.queue ++ [{ rcd := { kind := 3, source := 0x100 + k, code := code.toNat, inst := 0, sev := 0, stamp := s.m.now, payload := (List.range 8).map (s.m.strand k).reg }, deliv := none }]) ∧
  (∀ (s : State) (k : Fin 256) (code : BitVec 16), s.m.mayIssue k (kIMM 0xB0 0 0 code.toNat) → 2000000 < s.m.recLevel (s.m.strand k).owner + 31250 →
    ∃ m', Completes (.recNote k code) s m' ∧ m'.strand k = ((s.m.strand k).told .efull 0).moved ∧ m'.rcd = s.m.rcd ∧
      m'.fld .layRecdrop 0 15 0 = min 65535 (s.m.fld .layRecdrop 0 15 0 + 1))

/-- For the register, immediate, memory, atomic, mailbox, partner and record instructions named: a RUNNING strand at that word
whose activation has used its budget takes the BUDGET fault; with budget left, and the PC it would set outside its owner's
region, it takes the ILLEGAL fault; either way the instruction has no effect. This says where these instructions trap.
(R121, R122, R142, R143) -/
def Obligations.KnarinBudgetAndRegion : Prop :=
  (∀ (s : State) (k : Fin 256) (d a b : Fin 16), s.m.atWord k (kREG 0x10 d a b 0 0) = true → (s.m.overBudget k = true → Completes (.add k d a b) s (s.m.strandFault k 0 [])) ∧
    (s.m.overBudget k = false → inRegion (s.m.strand k).owner ((s.m.strand k).pc + 4) = false → Completes (.add k d a b) s (s.m.strandFault k 1 []))) ∧
  (∀ (s : State) (k : Fin 256) (d a b : Fin 16), s.m.atWord k (kREG 0x11 d a b 0 0) = true → (s.m.overBudget k = true → Completes (.adc k d a b) s (s.m.strandFault k 0 [])) ∧
    (s.m.overBudget k = false → inRegion (s.m.strand k).owner ((s.m.strand k).pc + 4) = false → Completes (.adc k d a b) s (s.m.strandFault k 1 []))) ∧
  (∀ (s : State) (k : Fin 256) (d a b : Fin 16), s.m.atWord k (kREG 0x12 d a b 0 0) = true → (s.m.overBudget k = true → Completes (.sub k d a b) s (s.m.strandFault k 0 [])) ∧
    (s.m.overBudget k = false → inRegion (s.m.strand k).owner ((s.m.strand k).pc + 4) = false → Completes (.sub k d a b) s (s.m.strandFault k 1 []))) ∧
  (∀ (s : State) (k : Fin 256) (d a b : Fin 16), s.m.atWord k (kREG 0x13 d a b 0 0) = true → (s.m.overBudget k = true → Completes (.sbc k d a b) s (s.m.strandFault k 0 [])) ∧
    (s.m.overBudget k = false → inRegion (s.m.strand k).owner ((s.m.strand k).pc + 4) = false → Completes (.sbc k d a b) s (s.m.strandFault k 1 []))) ∧
  (∀ (s : State) (k : Fin 256) (d a b : Fin 16), s.m.atWord k (kREG 0x14 d a b 0 0) = true → (s.m.overBudget k = true → Completes (.andK k d a b) s (s.m.strandFault k 0 [])) ∧
    (s.m.overBudget k = false → inRegion (s.m.strand k).owner ((s.m.strand k).pc + 4) = false → Completes (.andK k d a b) s (s.m.strandFault k 1 []))) ∧
  (∀ (s : State) (k : Fin 256) (d a b : Fin 16), s.m.atWord k (kREG 0x15 d a b 0 0) = true → (s.m.overBudget k = true → Completes (.orK k d a b) s (s.m.strandFault k 0 [])) ∧
    (s.m.overBudget k = false → inRegion (s.m.strand k).owner ((s.m.strand k).pc + 4) = false → Completes (.orK k d a b) s (s.m.strandFault k 1 []))) ∧
  (∀ (s : State) (k : Fin 256) (d a b : Fin 16), s.m.atWord k (kREG 0x16 d a b 0 0) = true → (s.m.overBudget k = true → Completes (.xorK k d a b) s (s.m.strandFault k 0 [])) ∧
    (s.m.overBudget k = false → inRegion (s.m.strand k).owner ((s.m.strand k).pc + 4) = false → Completes (.xorK k d a b) s (s.m.strandFault k 1 []))) ∧
  (∀ (s : State) (k : Fin 256) (d a b : Fin 16), s.m.atWord k (kREG 0x17 d a b 0 0) = true → (s.m.overBudget k = true → Completes (.bic k d a b) s (s.m.strandFault k 0 [])) ∧
    (s.m.overBudget k = false → inRegion (s.m.strand k).owner ((s.m.strand k).pc + 4) = false → Completes (.bic k d a b) s (s.m.strandFault k 1 []))) ∧
  (∀ (s : State) (k : Fin 256) (d a b : Fin 16), s.m.atWord k (kREG 0x18 d a b 0 0) = true → (s.m.overBudget k = true → Completes (.shl k d a b) s (s.m.strandFault k 0 [])) ∧
    (s.m.overBudget k = false → inRegion (s.m.strand k).owner ((s.m.strand k).pc + 4) = false → Completes (.shl k d a b) s (s.m.strandFault k 1 []))) ∧
  (∀ (s : State) (k : Fin 256) (d a b : Fin 16), s.m.atWord k (kREG 0x19 d a b 0 0) = true → (s.m.overBudget k = true → Completes (.shr k d a b) s (s.m.strandFault k 0 [])) ∧
    (s.m.overBudget k = false → inRegion (s.m.strand k).owner ((s.m.strand k).pc + 4) = false → Completes (.shr k d a b) s (s.m.strandFault k 1 []))) ∧
  (∀ (s : State) (k : Fin 256) (d a b : Fin 16), s.m.atWord k (kREG 0x1A d a b 0 0) = true → (s.m.overBudget k = true → Completes (.sar k d a b) s (s.m.strandFault k 0 [])) ∧
    (s.m.overBudget k = false → inRegion (s.m.strand k).owner ((s.m.strand k).pc + 4) = false → Completes (.sar k d a b) s (s.m.strandFault k 1 []))) ∧
  (∀ (s : State) (k : Fin 256) (d a b : Fin 16), s.m.atWord k (kREG 0x1B d a b 0 0) = true → (s.m.overBudget k = true → Completes (.mul k d a b) s (s.m.strandFault k 0 [])) ∧
    (s.m.overBudget k = false → inRegion (s.m.strand k).owner ((s.m.strand k).pc + 4) = false → Completes (.mul k d a b) s (s.m.strandFault k 1 []))) ∧
  (∀ (s : State) (k : Fin 256) (d a b : Fin 16), s.m.atWord k (kREG 0x1C d a b 0 0) = true → (s.m.overBudget k = true → Completes (.mulh k d a b) s (s.m.strandFault k 0 [])) ∧
    (s.m.overBudget k = false → inRegion (s.m.strand k).owner ((s.m.strand k).pc + 4) = false → Completes (.mulh k d a b) s (s.m.strandFault k 1 []))) ∧
  (∀ (s : State) (k : Fin 256) (d a b : Fin 16), s.m.atWord k (kREG 0x24 d a b 0 0) = true → (s.m.overBudget k = true → Completes (.minK k d a b) s (s.m.strandFault k 0 [])) ∧
    (s.m.overBudget k = false → inRegion (s.m.strand k).owner ((s.m.strand k).pc + 4) = false → Completes (.minK k d a b) s (s.m.strandFault k 1 []))) ∧
  (∀ (s : State) (k : Fin 256) (d a b : Fin 16), s.m.atWord k (kREG 0x25 d a b 0 0) = true → (s.m.overBudget k = true → Completes (.maxK k d a b) s (s.m.strandFault k 0 [])) ∧
    (s.m.overBudget k = false → inRegion (s.m.strand k).owner ((s.m.strand k).pc + 4) = false → Completes (.maxK k d a b) s (s.m.strandFault k 1 []))) ∧
  (∀ (s : State) (k : Fin 256) (d a b : Fin 16), s.m.atWord k (kREG 0x27 d a b 0 0) = true → (s.m.overBudget k = true → Completes (.sadd k d a b) s (s.m.strandFault k 0 [])) ∧
    (s.m.overBudget k = false → inRegion (s.m.strand k).owner ((s.m.strand k).pc + 4) = false → Completes (.sadd k d a b) s (s.m.strandFault k 1 []))) ∧
  (∀ (s : State) (k : Fin 256) (d a b : Fin 16), s.m.atWord k (kREG 0x28 d a b 0 0) = true → (s.m.overBudget k = true → Completes (.ssub k d a b) s (s.m.strandFault k 0 [])) ∧
    (s.m.overBudget k = false → inRegion (s.m.strand k).owner ((s.m.strand k).pc + 4) = false → Completes (.ssub k d a b) s (s.m.strandFault k 1 []))) ∧
  (∀ (s : State) (k : Fin 256) (d a b : Fin 16), s.m.atWord k (kREG 0x29 d a b 0 0) = true → (s.m.overBudget k = true → Completes (.qmul k d a b) s (s.m.strandFault k 0 [])) ∧
    (s.m.overBudget k = false → inRegion (s.m.strand k).owner ((s.m.strand k).pc + 4) = false → Completes (.qmul k d a b) s (s.m.strandFault k 1 []))) ∧
  (∀ (s : State) (k : Fin 256) (d a b : Fin 16), s.m.atWord k (kREG 0x2A d a b 0 0) = true → (s.m.overBudget k = true → Completes (.divu k d a b) s (s.m.strandFault k 0 [])) ∧
    (s.m.overBudget k = false → inRegion (s.m.strand k).owner ((s.m.strand k).pc + 4) = false → Completes (.divu k d a b) s (s.m.strandFault k 1 []))) ∧
  (∀ (s : State) (k : Fin 256) (d a b : Fin 16), s.m.atWord k (kREG 0x2B d a b 0 0) = true → (s.m.overBudget k = true → Completes (.divK k d a b) s (s.m.strandFault k 0 [])) ∧
    (s.m.overBudget k = false → inRegion (s.m.strand k).owner ((s.m.strand k).pc + 4) = false → Completes (.divK k d a b) s (s.m.strandFault k 1 []))) ∧
  (∀ (s : State) (k : Fin 256) (d a b : Fin 16), s.m.atWord k (kREG 0x51 d a b 0 0) = true → (s.m.overBudget k = true → Completes (.fadd k d a b) s (s.m.strandFault k 0 [])) ∧
    (s.m.overBudget k = false → inRegion (s.m.strand k).owner ((s.m.strand k).pc + 4) = false → Completes (.fadd k d a b) s (s.m.strandFault k 1 []))) ∧
  (∀ (s : State) (k : Fin 256) (d a b : Fin 16), s.m.atWord k (kREG 0x52 d a b 0 0) = true → (s.m.overBudget k = true → Completes (.xchg k d a b) s (s.m.strandFault k 0 [])) ∧
    (s.m.overBudget k = false → inRegion (s.m.strand k).owner ((s.m.strand k).pc + 4) = false → Completes (.xchg k d a b) s (s.m.strandFault k 1 []))) ∧
  (∀ (s : State) (k : Fin 256) (d a : Fin 16), s.m.atWord k (kREG 0x20 d a 0 0 0) = true → (s.m.overBudget k = true → Completes (.mov k d a) s (s.m.strandFault k 0 [])) ∧
    (s.m.overBudget k = false → inRegion (s.m.strand k).owner ((s.m.strand k).pc + 4) = false → Completes (.mov k d a) s (s.m.strandFault k 1 []))) ∧
  (∀ (s : State) (k : Fin 256) (d a : Fin 16), s.m.atWord k (kREG 0x21 d a 0 0 0) = true → (s.m.overBudget k = true → Completes (.notK k d a) s (s.m.strandFault k 0 [])) ∧
    (s.m.overBudget k = false → inRegion (s.m.strand k).owner ((s.m.strand k).pc + 4) = false → Completes (.notK k d a) s (s.m.strandFault k 1 []))) ∧
  (∀ (s : State) (k : Fin 256) (d a : Fin 16), s.m.atWord k (kREG 0x22 d a 0 0 0) = true → (s.m.overBudget k = true → Completes (.neg k d a) s (s.m.strandFault k 0 [])) ∧
    (s.m.overBudget k = false → inRegion (s.m.strand k).owner ((s.m.strand k).pc + 4) = false → Completes (.neg k d a) s (s.m.strandFault k 1 []))) ∧
  (∀ (s : State) (k : Fin 256) (d a : Fin 16), s.m.atWord k (kREG 0x23 d a 0 0 0) = true → (s.m.overBudget k = true → Completes (.clz k d a) s (s.m.strandFault k 0 [])) ∧
    (s.m.overBudget k = false → inRegion (s.m.strand k).owner ((s.m.strand k).pc + 4) = false → Completes (.clz k d a) s (s.m.strandFault k 1 []))) ∧
  (∀ (s : State) (k : Fin 256) (d a : Fin 16), s.m.atWord k (kREG 0x77 d a 0 0 0) = true → (s.m.overBudget k = true → Completes (.kpoll k d a) s (s.m.strandFault k 0 [])) ∧
    (s.m.overBudget k = false → inRegion (s.m.strand k).owner ((s.m.strand k).pc + 4) = false → Completes (.kpoll k d a) s (s.m.strandFault k 1 []))) ∧
  (∀ (s : State) (k : Fin 256) (d a : Fin 16) (imm : BitVec 16), s.m.atWord k (kIMM 0x32 d a imm.toNat) = true → (s.m.overBudget k = true → Completes (.addi k d a imm) s (s.m.strandFault k 0 [])) ∧
    (s.m.overBudget k = false → inRegion (s.m.strand k).owner ((s.m.strand k).pc + 4) = false → Completes (.addi k d a imm) s (s.m.strandFault k 1 []))) ∧
  (∀ (s : State) (k : Fin 256) (d a : Fin 16) (imm : BitVec 16), s.m.atWord k (kIMM 0x33 d a imm.toNat) = true → (s.m.overBudget k = true → Completes (.andi k d a imm) s (s.m.strandFault k 0 [])) ∧
    (s.m.overBudget k = false → inRegion (s.m.strand k).owner ((s.m.strand k).pc + 4) = false → Completes (.andi k d a imm) s (s.m.strandFault k 1 []))) ∧
  (∀ (s : State) (k : Fin 256) (d a : Fin 16) (imm : BitVec 16), s.m.atWord k (kIMM 0x34 d a imm.toNat) = true → (s.m.overBudget k = true → Completes (.ori k d a imm) s (s.m.strandFault k 0 [])) ∧
    (s.m.overBudget k = false → inRegion (s.m.strand k).owner ((s.m.strand k).pc + 4) = false → Completes (.ori k d a imm) s (s.m.strandFault k 1 []))) ∧
  (∀ (s : State) (k : Fin 256) (d a : Fin 16) (imm : BitVec 16), s.m.atWord k (kIMM 0x35 d a imm.toNat) = true → (s.m.overBudget k = true → Completes (.xori k d a imm) s (s.m.strandFault k 0 [])) ∧
    (s.m.overBudget k = false → inRegion (s.m.strand k).owner ((s.m.strand k).pc + 4) = false → Completes (.xori k d a imm) s (s.m.strandFault k 1 []))) ∧
  (∀ (s : State) (k : Fin 256) (d a : Fin 16) (imm : BitVec 16), s.m.atWord k (kIMM 0x40 d a imm.toNat) = true → (s.m.overBudget k = true → Completes (.ldl k d a imm) s (s.m.strandFault k 0 [])) ∧
    (s.m.overBudget k = false → inRegion (s.m.strand k).owner ((s.m.strand k).pc + 4) = false → Completes (.ldl k d a imm) s (s.m.strandFault k 1 []))) ∧
  (∀ (s : State) (k : Fin 256) (d a : Fin 16) (imm : BitVec 16), s.m.atWord k (kIMM 0x41 d a imm.toNat) = true → (s.m.overBudget k = true → Completes (.ldlh k d a imm) s (s.m.strandFault k 0 [])) ∧
    (s.m.overBudget k = false → inRegion (s.m.strand k).owner ((s.m.strand k).pc + 4) = false → Completes (.ldlh k d a imm) s (s.m.strandFault k 1 []))) ∧
  (∀ (s : State) (k : Fin 256) (d a : Fin 16) (imm : BitVec 16), s.m.atWord k (kIMM 0x42 d a imm.toNat) = true → (s.m.overBudget k = true → Completes (.ldlb k d a imm) s (s.m.strandFault k 0 [])) ∧
    (s.m.overBudget k = false → inRegion (s.m.strand k).owner ((s.m.strand k).pc + 4) = false → Completes (.ldlb k d a imm) s (s.m.strandFault k 1 []))) ∧
  (∀ (s : State) (k : Fin 256) (d a : Fin 16) (imm : BitVec 16), s.m.atWord k (kIMM 0x43 d a imm.toNat) = true → (s.m.overBudget k = true → Completes (.stl k d a imm) s (s.m.strandFault k 0 [])) ∧
    (s.m.overBudget k = false → inRegion (s.m.strand k).owner ((s.m.strand k).pc + 4) = false → Completes (.stl k d a imm) s (s.m.strandFault k 1 []))) ∧
  (∀ (s : State) (k : Fin 256) (d a : Fin 16) (imm : BitVec 16), s.m.atWord k (kIMM 0x44 d a imm.toNat) = true → (s.m.overBudget k = true → Completes (.stlh k d a imm) s (s.m.strandFault k 0 [])) ∧
    (s.m.overBudget k = false → inRegion (s.m.strand k).owner ((s.m.strand k).pc + 4) = false → Completes (.stlh k d a imm) s (s.m.strandFault k 1 []))) ∧
  (∀ (s : State) (k : Fin 256) (d a : Fin 16) (imm : BitVec 16), s.m.atWord k (kIMM 0x45 d a imm.toNat) = true → (s.m.overBudget k = true → Completes (.stlb k d a imm) s (s.m.strandFault k 0 [])) ∧
    (s.m.overBudget k = false → inRegion (s.m.strand k).owner ((s.m.strand k).pc + 4) = false → Completes (.stlb k d a imm) s (s.m.strandFault k 1 []))) ∧
  (∀ (s : State) (k : Fin 256) (d a : Fin 16) (imm : BitVec 16), s.m.atWord k (kIMM 0x46 d a imm.toNat) = true → (s.m.overBudget k = true → Completes (.ldc k d a imm) s (s.m.strandFault k 0 [])) ∧
    (s.m.overBudget k = false → inRegion (s.m.strand k).owner ((s.m.strand k).pc + 4) = false → Completes (.ldc k d a imm) s (s.m.strandFault k 1 []))) ∧
  (∀ (s : State) (k : Fin 256) (d a : Fin 16) (imm : BitVec 16), s.m.atWord k (kIMM 0x47 d a imm.toNat) = true → (s.m.overBudget k = true → Completes (.ldch k d a imm) s (s.m.strandFault k 0 [])) ∧
    (s.m.overBudget k = false → inRegion (s.m.strand k).owner ((s.m.strand k).pc + 4) = false → Completes (.ldch k d a imm) s (s.m.strandFault k 1 []))) ∧
  (∀ (s : State) (k : Fin 256) (d a : Fin 16) (imm : BitVec 16), s.m.atWord k (kIMM 0x48 d a imm.toNat) = true → (s.m.overBudget k = true → Completes (.ldcb k d a imm) s (s.m.strandFault k 0 [])) ∧
    (s.m.overBudget k = false → inRegion (s.m.strand k).owner ((s.m.strand k).pc + 4) = false → Completes (.ldcb k d a imm) s (s.m.strandFault k 1 []))) ∧
  (∀ (s : State) (k : Fin 256) (d a : Fin 16) (imm : BitVec 16), s.m.atWord k (kIMM 0x49 d a imm.toNat) = true → (s.m.overBudget k = true → Completes (.stc k d a imm) s (s.m.strandFault k 0 [])) ∧
    (s.m.overBudget k = false → inRegion (s.m.strand k).owner ((s.m.strand k).pc + 4) = false → Completes (.stc k d a imm) s (s.m.strandFault k 1 []))) ∧
  (∀ (s : State) (k : Fin 256) (d a : Fin 16) (imm : BitVec 16), s.m.atWord k (kIMM 0x4A d a imm.toNat) = true → (s.m.overBudget k = true → Completes (.stch k d a imm) s (s.m.strandFault k 0 [])) ∧
    (s.m.overBudget k = false → inRegion (s.m.strand k).owner ((s.m.strand k).pc + 4) = false → Completes (.stch k d a imm) s (s.m.strandFault k 1 []))) ∧
  (∀ (s : State) (k : Fin 256) (d a : Fin 16) (imm : BitVec 16), s.m.atWord k (kIMM 0x4B d a imm.toNat) = true → (s.m.overBudget k = true → Completes (.stcb k d a imm) s (s.m.strandFault k 0 [])) ∧
    (s.m.overBudget k = false → inRegion (s.m.strand k).owner ((s.m.strand k).pc + 4) = false → Completes (.stcb k d a imm) s (s.m.strandFault k 1 []))) ∧
  (∀ (s : State) (k : Fin 256) (d a : Fin 16) (imm : BitVec 16), s.m.atWord k (kIMM 0x4C d a imm.toNat) = true → (s.m.overBudget k = true → Completes (.ldd k d a imm) s (s.m.strandFault k 0 [])) ∧
    (s.m.overBudget k = false → inRegion (s.m.strand k).owner ((s.m.strand k).pc + 4) = false → Completes (.ldd k d a imm) s (s.m.strandFault k 1 []))) ∧
  (∀ (s : State) (k : Fin 256) (d a : Fin 16) (imm : BitVec 16), s.m.atWord k (kIMM 0x4D d a imm.toNat) = true → (s.m.overBudget k = true → Completes (.std k d a imm) s (s.m.strandFault k 0 [])) ∧
    (s.m.overBudget k = false → inRegion (s.m.strand k).owner ((s.m.strand k).pc + 4) = false → Completes (.std k d a imm) s (s.m.strandFault k 1 []))) ∧
  (∀ (s : State) (k : Fin 256), s.m.atWord k (kREG 0 0 0 0 0 0) = true → (s.m.overBudget k = true → Completes (.nop k) s (s.m.strandFault k 0 [])) ∧
    (s.m.overBudget k = false → inRegion (s.m.strand k).owner ((s.m.strand k).pc + 4) = false → Completes (.nop k) s (s.m.strandFault k 1 []))) ∧
  (∀ (s : State) (k : Fin 256) (n : BitVec 20), s.m.atWord k (kIMM20 0x72 0 n.toNat) = true → (s.m.overBudget k = true → Completes (.timer k n) s (s.m.strandFault k 0 [])) ∧
    (s.m.overBudget k = false → inRegion (s.m.strand k).owner ((s.m.strand k).pc + 4) = false → Completes (.timer k n) s (s.m.strandFault k 1 []))) ∧
  (∀ (s : State) (k : Fin 256) (n : BitVec 20), s.m.atWord k (kIMM20 0x70 0 n.toNat) = true → (s.m.overBudget k = true → Completes (.delay k n) s (s.m.strandFault k 0 [])) ∧
    (s.m.overBudget k = false → inRegion (s.m.strand k).owner ((s.m.strand k).pc + 4) = false → Completes (.delay k n) s (s.m.strandFault k 1 []))) ∧
  (∀ (s : State) (k : Fin 256) (a : Fin 16), s.m.atWord k (kREG 0x78 0 a 0 0 0) = true → (s.m.overBudget k = true → Completes (.kdrop k a) s (s.m.strandFault k 0 [])) ∧
    (s.m.overBudget k = false → inRegion (s.m.strand k).owner ((s.m.strand k).pc + 4) = false → Completes (.kdrop k a) s (s.m.strandFault k 1 []))) ∧
  (∀ (s : State) (k : Fin 256) (b : Fin 16) (ch : Fin 64), s.m.atWord k (kREG 0x80 0 0 b 0 ch) = true → (s.m.overBudget k = true → Completes (.send k b ch) s (s.m.strandFault k 0 [])) ∧
    (s.m.overBudget k = false → inRegion (s.m.strand k).owner ((s.m.strand k).pc + 4) = false → Completes (.send k b ch) s (s.m.strandFault k 1 []))) ∧
  (∀ (s : State) (k : Fin 256) (d a b c : Fin 16), s.m.atWord k (kREG 0x50 d a b c 0) = true → (s.m.overBudget k = true → Completes (.cas k d a b c) s (s.m.strandFault k 0 [])) ∧
    (s.m.overBudget k = false → inRegion (s.m.strand k).owner ((s.m.strand k).pc + 4) = false → Completes (.cas k d a b c) s (s.m.strandFault k 1 []))) ∧
  (∀ (s : State) (k : Fin 256) (code : BitVec 16), s.m.atWord k (kIMM 0xB0 0 0 code.toNat) = true → (s.m.overBudget k = true → Completes (.recNote k code) s (s.m.strandFault k 0 [])) ∧
    (s.m.overBudget k = false → inRegion (s.m.strand k).owner ((s.m.strand k).pc + 4) = false → Completes (.recNote k code) s (s.m.strandFault k 1 []))) ∧
  (∀ (s : State) (k : Fin 256) (a : Fin 16), s.m.atWord k (kREG 0x62 0 a 0 0 0) = true → (s.m.overBudget k = true → Completes (.jr k a) s (s.m.strandFault k 0 [])) ∧
    (s.m.overBudget k = false → inRegion (s.m.strand k).owner (((s.m.strand k).reg a).toNat) = false → Completes (.jr k a) s (s.m.strandFault k 1 []))) ∧
  (∀ (s : State) (k : Fin 256), s.m.atWord k (kREG 0x63 0 0 0 0 0) = true → (s.m.overBudget k = true → Completes (.ret k) s (s.m.strandFault k 0 [])) ∧
    (s.m.overBudget k = false → inRegion (s.m.strand k).owner (((s.m.strand k).reg 15).toNat) = false → Completes (.ret k) s (s.m.strandFault k 1 []))) ∧
  (∀ (s : State) (k : Fin 256) (d a : Fin 16) (item : BitVec 12), s.m.atWord k (kPTR 0xA0 d a 0 item.toNat) = true → (s.m.overBudget k = true → Completes (.pread k d a item) s (s.m.strandFault k 0 [])) ∧
    (s.m.overBudget k = false → inRegion (s.m.strand k).owner ((s.m.strand k).pc + 4) = false → Completes (.pread k d a item) s (s.m.strandFault k 1 []))) ∧
  (∀ (s : State) (k : Fin 256) (d a b : Fin 16) (item : BitVec 12), s.m.atWord k (kPTR 0xA1 d a b item.toNat) = true → (s.m.overBudget k = true → Completes (.pwrite k d a b item) s (s.m.strandFault k 0 [])) ∧
    (s.m.overBudget k = false → inRegion (s.m.strand k).owner ((s.m.strand k).pc + 4) = false → Completes (.pwrite k d a b item) s (s.m.strandFault k 1 [])))

/-- A granted SEQ_CMD ON sets the on request: OFF starts the up sequence at step 0, HALTED resumes it at its step, any other
state goes on; OFF clears it, and UP, ON and HALTED begin the reverse walk. A granted write of a step register stores its
writable bits. SEQ_PG_CHANGE records the level. SEQ_QUALIFIED, SEQ_DELAY_ELAPSED and a WAIT_DISCH's discharge complete the
step with a trace entry and run the sequence from the next step; in the reverse walk a discharge resumes the walk; a retried
step waits for its delay and is then repeated with its rail asserted. Time passes to the end of the wait where the wait is a
time. A stretched reset output rises; the PG of an enabled rail lost in ON raises source 18 and asserts every reset output
that watches the rail. RAIL_TIMEOUT of a WAIT_GOOD step traces result 2 and raises source 16, RAIL_CHATTER traces result 1
and raises source 15; with policy HALT the sequencer is then HALTED with its summary unless a SAFE reaction has already
turned it down. RAIL_NODISCHARGE in the reverse walk raises source 17 and the walk goes on. (R71, R72, R74, R75, R76, R77,
R78, R79, R80, R81, R83, R158) -/
def Obligations.Sequencer : Prop :=
  (WriteRow (fun ag => .seqOn ag) .seqCmd 0 (1)
    (fun _ m => m.seqOn)) ∧
  (WriteRow (fun ag => .seqOff ag) .seqCmd 0 (2)
    (fun _ m => m.seqOff)) ∧
  (∀ (n : Fin 64) (d : Word), WriteRow (fun ag => .seqStepWrite ag n false d) .seqStepCtl n (d)
    (fun _ m => m.store .seqStepCtl n d)) ∧
  (∀ (n : Fin 64) (d : Word), WriteRow (fun ag => .seqStepWrite ag n true d) .seqStepTmo n (d)
    (fun _ m => m.store .seqStepTmo n d)) ∧
  (∀ m : Chip, m.seqOn.seq.req = true) ∧
  (∀ m : Chip, m.seq.st = .off → m.seqOff = { m with seq := { m.seq with req := false } }) ∧
  (∀ (s : State) (rail : Fin 24) (level : Bool), s.m.seq.wait ≠ .good → has s.m.seq.pg rail ≠ level → 
    Completes (.seqPgChange rail level) s (Chip.seqGood { s.m with seq := { s.m.seq with pg := putM s.m.seq.pg rail level } } s.m)) ∧
  (∀ (s : State), s.m.seq.wait = .good → s.m.pgActive s.m.seq.wrail = true → s.m.seq.qualAt + s.m.stepQual s.m.seq.step ≤ s.m.seqDue → 
    Completes (.seqQualified) s ((s.m.elapse s.m.seq.qualAt (s.m.stepQual s.m.seq.step)).seqStepDone)) ∧
  (∀ (s : State), s.m.seq.wait = .delay → 
    Completes (.seqDelayElapsed) s ((s.m.elapse s.m.seq.stepAt (s.m.stepQual s.m.seq.step)).seqStepDone)) ∧
  (∀ (s : State), s.m.seq.wait = .disch → s.m.railDischarged s.m.seq.wrail = true → 
    Completes (.seqDischarged) s (s.m.seqStepDone)) ∧
  (∀ (s : State), s.m.seq.wait = .downDisch → s.m.railDischarged s.m.seq.wrail = true → 
    Completes (.seqDischarged) s (s.m.seqWalkOn 0)) ∧
  (∀ (s : State), s.m.seq.wait = .restDisch → s.m.railDischarged s.m.seq.wrail = true → 
    Completes (.seqDischarged) s (s.m.seqDownEnd)) ∧
  (∀ (s : State), s.m.seq.wait = .retryDisch → s.m.railDischarged s.m.seq.wrail = true → 
    Completes (.seqDischarged) s (s.m.seqWait s.m.seq.step .retryDelay)) ∧
  (∀ (s : State), s.m.seq.wait = .retryDelay → s.m.stepType s.m.seq.step ≠ 6 → 
    Completes (.seqRetryDelayElapsed) s (Chip.seqWait { s.m.elapse s.m.seq.stepAt (s.m.fld .seqChatter 0 27 20 * 1000) with seq := { s.m.seq with en := setM s.m.seq.en (s.m.stepTarget s.m.seq.step) } } s.m.seq.step .good)) ∧
  (∀ (s : State) (n : Fin 4), s.m.mayRelease n = true → s.m.awaitsReset n = false → 
    Completes (.rstStretchElapsed n) s ({ s.m.elapse (NTab.get 0 s.m.seq.goodAt n) (s.m.stretchUs n) with seq := { s.m.seq with rst := setM s.m.seq.rst n } })) ∧
  (∀ (s : State) (rail : Fin 24), s.m.seq.st = .on → s.m.seqOnRail rail = true → s.m.pgActive rail = false → s.m.pwr.base ≠ .shadow → 
    ∃ m', Completes (.railPgLost rail) s m' ∧ (∃ x, x = (s.m.elapse (NTab.get 0 s.m.seq.pgAt rail) 50).raise 18 0 [wd rail] ∧ m' = { x with seq := { x.seq with rst := m'.seq.rst } } ∧
        ∀ n < 4, has m'.seq.rst n = (has x.seq.rst n && !x.flag .seqRstWatch n rail))) ∧
  (∀ (s : State), s.m.seq.st = .up → s.m.seq.wait = .good → s.m.seqDue < s.m.seq.qualAt + s.m.stepQual s.m.seq.step → s.m.fld .seqStepCtl s.m.seq.step 7 6 = 0 → s.m.sev 16 < 3 → 
    ∃ m', Completes (.railTimeout) s m' ∧ m'.seq.st = .halted ∧ m'.seq.step = s.m.seq.step ∧ m'.seq.result = (if s.m.seq.result = 0 then 2 else s.m.seq.result) ∧
      m'.flag .fltFlag 16 31 = true) ∧
  (∀ (s : State), s.m.seq.st = .up → s.m.seq.wait = .good → s.m.chattered = true → s.m.fld .seqStepCtl s.m.seq.step 7 6 = 0 → s.m.sev 15 < 3 → 
    ∃ m', Completes (.railChatter) s m' ∧ m'.seq.st = .halted ∧ m'.seq.step = s.m.seq.step ∧ m'.seq.result = (if s.m.seq.result = 0 then 1 else s.m.seq.result) ∧
      m'.flag .fltFlag 15 31 = true) ∧
  (∀ (s : State), s.m.seq.st = .down → s.m.seq.wait = .downDisch → s.m.railDischarged s.m.seq.wrail = false → s.m.sev 17 < 3 → 
    ∃ m', Completes (.railNodischarge) s m' ∧ ∃ x : Chip, m' = x.seqWalkOn 3 ∧ x.flag .fltFlag 17 31 = true ∧
        x.seq.result = (if s.m.seq.result = 0 then 3 else s.m.seq.result))

/-- START and RESTART give a fresh context (S0 the argument, every other register, the flags, local store and timer 0, the PC at
the entry) READY at the back of its queue; HALT stops a READY, RUNNING or WAITING strand at HALTED with WHY 0x2, or once a
held access has completed; RESUME makes a HALTED strand READY; FREE frees it, or once a held access has completed; UNFENCE
leaves a FENCED strand HALTED; HALT_OWNER halts every live strand of the owner. A granted BEGIN by the host or service port
erases that owner's region, releases its contexts and opens a load. A granted DATA adds one word. A granted COMMIT of words
that pass every check ends the load, stores the code at the region's start and gives each entry a free context; one that
fails ends it with the status and places nothing. CANCEL ends it. (R93, R94, R123, R130, R131, R133, R134, R138) -/
def Obligations.StrandsAndBundles : Prop :=
  (∀ (k : Fin 256), WriteRow (fun ag => .strandStart ag k) .layCmd 0 (wd (1 + k * 256))
    (fun _ m => ((m.strandFresh k).strandReady k).put .layCmdstat 0 (wd (1 * 256)))) ∧
  (∀ (k : Fin 256), WriteRow (fun ag => .strandHalt ag k) .layCmd 0 (wd (2 + k * 256))
    (fun _ m => (m.strandHalt k).put .layCmdstat 0 (wd (2 * 256)))) ∧
  (∀ (k : Fin 256), WriteRow (fun ag => .strandResume ag k) .layCmd 0 (wd (3 + k * 256))
    (fun _ m => (m.strandReady k).put .layCmdstat 0 (wd (3 * 256)))) ∧
  (∀ (k : Fin 256), WriteRow (fun ag => .strandRestart ag k) .layCmd 0 (wd (4 + k * 256))
    (fun _ m => ((m.strandFresh k).strandReady k).put .layCmdstat 0 (wd (4 * 256)))) ∧
  (∀ (k : Fin 256), WriteRow (fun ag => .strandFree ag k) .layCmd 0 (wd (5 + k * 256))
    (fun _ m => (if (m.strand k).onAccess then m.putStrand k { m.strand k with after := (m.strand k).after ++ [.free] } else m.strandFree k).put .layCmdstat 0 (wd (5 * 256)))) ∧
  (∀ (k : Fin 256), WriteRow (fun ag => .strandUnfence ag k) .layCmd 0 (wd (6 + k * 256))
    (fun _ m => ((m.putStrand k { m.strand k with st := .halted }).dropFence .strand k).put .layCmdstat 0 (wd (6 * 256)))) ∧
  (∀ (o : Owner), WriteRow (fun ag => .haltOwner ag o) .layCmd 0 (wd (7 + Owner.code o * 256))
    (fun _ m => (m.haltOwner o).put .layCmdstat 0 (wd (7 * 256)))) ∧
  (∀ (m : Chip) (k : Nat), ((m.strandFresh k).strandReady k).strand k = { m.strand k with
    regs := NTab.set 0 [] 0 (m.get .layArg k), z := false, n := false, c := false, v := false, pc := m.fld .layEntry k 18 0,
    locals := [], period := 0, tick := false, missed := 0, st := .ready, wait := none, act := 0, keep := false, slice := 0,
    after := [] }) ∧
  (∀ (m : Chip) (k : Nat), (m.strand k).onAccess = false → ((m.strand k).st = .ready ∨ (m.strand k).st = .running ∨
    (m.strand k).st = .waiting) → ((m.strandHalt k).strand k).st = .halted ∧ ((m.strandHalt k).strand k).why = 2) ∧
  (∀ s : State, s.m.grants .host (RName.addr .layBldCtl 0) 1 →
    Completes (.bundleBegin .host) s (s.m.written ((s.m.loadBegin .host).bldStatus .ok) .host (RName.addr .layBldCtl 0) .ok)) ∧
  (∀ s : State, s.m.grants .svc (RName.addr .layBldCtl 0) 1 →
    Completes (.bundleBegin .svc) s (s.m.written ((s.m.loadBegin .svc).bldStatus .ok) .svc (RName.addr .layBldCtl 0) .ok)) ∧
  (∀ (s : State) (ag : Agent) (d : Word) (l : Load), s.m.grants ag (RName.addr .layBldData 0) d → s.m.lay.load = some l →
    4 * l.words.length < (regionOf l.port).2 →
    Completes (.bundleData ag d) s (s.m.written { s.m with lay := { s.m.lay with load := some { l with words := d :: l.words }, bldCount := s.m.lay.bldCount + 1 } } ag (RName.addr .layBldData 0) .ok)) ∧
  (∀ (s : State) (ag : Agent) (l : Load), s.m.grants ag (RName.addr .layBldCtl 0) 2 → s.m.lay.load = some l →
    s.m.bundleStatus l.port l.words.reverse = .ok →
    Completes (.bundleCommit ag) s (s.m.written ((s.m.loadEnd.bldStatus .ok).placeBundle l.port l.words.reverse) ag
      (RName.addr .layBldCtl 0) .ok)) ∧
  (∀ (s : State) (ag : Agent) (l : Load) (st : Status), s.m.grants ag (RName.addr .layBldCtl 0) 2 → s.m.lay.load = some l →
    s.m.bundleStatus l.port l.words.reverse = st → st ≠ .ok →
    Completes (.bundleCommit ag) s (s.m.written (s.m.loadEnd.bldStatus st) ag (RName.addr .layBldCtl 0) st)) ∧
  (WriteRow (fun ag => .bundleCancel ag) .layBldCtl 0 (3)
    (fun _ m => m.loadEnd.bldStatus .ok))

/-- With a free lane, one assignment gives it to the READY strand of highest priority, first in queue order, with WHY and
registers unchanged. SLICE_END of a strand that has used its slice puts it at the back of its queue with its activation
going on when another strand of its priority waits. STRAND_BUDGET raises the owner's BUDGET source. A met wait writes its
results, moves the PC past the wait and makes the strand READY; an expired one sets ETIMEOUT with WAKE 0x7 and consumes
nothing. A timer tick is pending, or counted as missed when one already is. (R94, R95, R96, R108, R110, R121, R158) -/
def Obligations.LanesAndTimers : Prop :=
  (∀ s : State, Completes .strandDispatch s ((List.range 8).foldl (fun m _ => m.assignLane) s.m)) ∧
  (∀ (m : Chip) (k : Nat), m.nextReady = some k → m.running.length < 4 → m.assignLane = m.takeLane k) ∧
  (∀ (m : Chip), m.nextReady = none → m.assignLane = m) ∧
  (∀ (s : State) (k : Fin 256), (s.m.strand k).st = .running → s.m.fld .layCfg 0 16 4 ≤ (s.m.strand k).slice → (∃ j ∈ s.m.lay.queue, (s.m.strand j).prio = (s.m.strand k).runPrio) → 
    Completes (.sliceEnd k) s ((s.m.putStrand k { s.m.strand k with st := .ready, keep := true }).queueBack k)) ∧
  (∀ (s : State) (k : Fin 256), (s.m.strand k).st = .running → s.m.fld .layBudget k 20 0 ≤ (s.m.strand k).act → 
    Completes (.strandBudget k) s (s.m.strandFault k 0 [])) ∧
  (∀ (s : State) (k : Fin 256) (w : WaitOn), (s.m.strand k).st = .waiting → (s.m.strand k).wait = some w → w ≠ .delay → s.m.waitMet k w = true → 
    Completes (.waitWake k) s (((s.m.waitTake k w).pcNext k).strandReady k)) ∧
  (∀ (s : State) (k : Fin 256), (s.m.strand k).st = .waiting → (s.m.strand k).wait = some .delay → 
    Completes (.waitWake k) s ((((s.m.elapse (s.m.strand k).waitAt (s.m.strand k).timeout).waitTake k .delay).pcNext k).strandReady k)) ∧
  (∀ (s : State) (k : Fin 256) (l : Nat) (n : Word) (d : Nat), (s.m.strand k).st = .waiting → (s.m.strand k).timeout ≠ 0 → (s.m.strand k).wait = some (.line l n d) → s.m.get .layEvline l = n → 
    ∃ m', Completes (.waitTimeout k) s m' ∧ (m'.strand k).st = .ready ∧ (m'.strand k).reg 14 = 0x707 ∧ (m'.strand k).pc = (s.m.strand k).pc + 4 ∧
      (∀ r, r ≠ 14 → (m'.strand k).reg r = (s.m.strand k).reg r) ∧ (s.m.strand k).waitAt + (s.m.strand k).timeout ≤ m'.now ∧
      (∀ j, j ≠ k.val → m'.strand j = s.m.strand j) ∧ m'.regs = s.m.regs) ∧
  (∀ (s : State) (k : Fin 256), (s.m.strand k).st ≠ .free → (s.m.strand k).period ≠ 0 → 
    Completes (.strandTimerTick k) s ((s.m.elapse (s.m.strand k).timerAt (s.m.strand k).period).putStrand k { s.m.strand k with
      timerAt := (s.m.strand k).timerAt + (s.m.strand k).period, tick := true,
      missed := if (s.m.strand k).tick then min (2 ^ 32 - 1) ((s.m.strand k).missed + 1) else (s.m.strand k).missed }))

/-- A result of a converter for a channel it converts writes ACQ_RES with NEW set and LOST set if the last was unread, enters
the channel's last eight results, moves its converter to the next channel or gives its pair's turn on, and goes on to the
window comparators, the AC monitor, the result queue, the capture units that the channel paces and the estimator; of a
channel whose turn it is not it changes nothing. A scan boundary of a converter that has passed its highest channel takes
the written mask and DIV. A read of ACQ_RES clears NEW and LOST; a read of ACQ_QPOP1 by the queue's reader takes the oldest
entry, by any other port gives ESTATE; QFLUSH empties the queue. A granted CAL of a pair starts it, with BUSY in
ACQ_CMDSTAT. CAL_DONE with both trims in 16 bits writes them, reports OK and raises event 239; with one outside it leaves
them, reports ERANGE, raises source 31 and event 239. TRACK_UPDATE of an interleaved tracking pair moves OFFS by one toward
equal means of the pairs summed, within 16 bits, and starts a new sum; without TRACK nothing changes. (R167, R169, R174,
R175, R178, R182, R185, R404, R617) -/
def Obligations.AcquisitionResultsAndTrims : Prop :=
  (∀ (s : State) (n : Fin 4) (c : Fin 95) (raw : BitVec 16) (sub : Fin 200), s.m.chExists c = true → s.m.converts n c = true → 
    Completes (.conversionResult n c raw sub) s (let code := s.m.resultCode n c raw.toNat
      let m := s.m.put .acqRes c (wd (b2n (s.m.chDiff c) * 2 ^ 18 + b2n (bitOf (s.m.get .acqRes c) 16 || bitOf (s.m.get .acqRes c) 17) * 2 ^ 17 + 2 ^ 16 + code))
      let m : Chip := { m with acq := { m.acq with hist := NTab.set [] m.acq.hist c ((code :: NTab.get [] m.acq.hist c).take 8) } }
      let m := (m.convMoves n c).pairNote n (m.code c code)
      ((((m.wcResults c (m.code c code)).acmScan c).enqResult n c (m.ilvEn (n.val / 2)) code sub).capPace c).estSample c)) ∧
  (∀ (s : State) (n : Fin 4) (c : Fin 95) (raw : BitVec 16) (sub : Fin 200), s.m.converts n c = false → 
    Completes (.conversionResult n c raw sub) s (s.m)) ∧
  (∀ (s : State) (n : Fin 4), s.m.cvRuns n = true → s.m.ilvEn (n / 2) = false → (s.m.convUse n).next = none → 
    Completes (.acqScanBoundary n) s ((({ s.m.putUse n (s.m.writtenUse n) with acq := { (s.m.putUse n (s.m.writtenUse n)).acq with toPass := clrM s.m.acq.toPass n } } : Chip).acmCheck).loopSources s.m)) ∧
  (ReadRow (fun ag => .acqQpop1Read ag) .acqQpop1 0
    (fun ag m => if m.qReader ag = true then (m.setQueue m.acq.queue.tail, (m.acq.queue.headD (0, 0)).2, .ok) else (m, 0, .estate))) ∧
  (∀ (c : Fin 95), ReadRow (fun ag => .acqResRead ag c) .acqRes c
    (fun _ m => (m.putF .acqRes c 17 16 0, m.get .acqRes c, .ok))) ∧
  (WriteRow (fun ag => .qflush ag) .acqCmd 0 (3)
    (fun _ m => m.qFlush.put .acqCmdstat 0 (wd (3 * 256 + b2n m.acq.cal.isSome * 65536)))) ∧
  (∀ (p : Fin 2), WriteRow (fun ag => .acqCal ag p) .acqCmd 0 (wd (p.val + 1))
    (fun _ m => ({ m with acq := { m.acq with cal := some p.val } } : Chip).put .acqCmdstat 0 (wd ((p.val + 1) * 256 + 65536)))) ∧
  (∀ (s : State) (p : Nat) (offs gain : Int), s.m.acq.cal = some p → -32768 ≤ offs ∧ offs ≤ 32767 → -32768 ≤ gain ∧ gain ≤ 32767 → 
    Completes (.acqCalDone offs gain) s ((((({ s.m with acq := { s.m.acq with cal := none } } : Chip).put .acqIlvOffs p (wd (unI offs 16))).put .acqIlvGain p (wd (unI gain 16))).put .acqCmdstat 0 (wd ((p + 1) * 256))).event 239)) ∧
  (∀ (s : State) (p : Nat) (offs gain : Int), s.m.acq.cal = some p → ¬(-32768 ≤ offs ∧ offs ≤ 32767 ∧ -32768 ≤ gain ∧ gain ≤ 32767) → 
    Completes (.acqCalDone offs gain) s (((({ s.m with acq := { s.m.acq with cal := none } } : Chip).put .acqCmdstat 0 (wd (Status.erange.code + (p + 1) * 256))).raise 31 0 []).event 239)) ∧
  (∀ (s : State) (p : Fin 2), s.m.ilvOn p = true → s.m.flag .acqIlvCfg p 1 = true → trackPairs ≤ (NTab.get (0, (0 : Int)) s.m.acq.pairs p).1 → 0 < (NTab.get (0, (0 : Int)) s.m.acq.pairs p).2 → 
    Completes (.acqTrackUpdate p () ()) s (({ s.m with acq := { s.m.acq with pairs := NTab.set (0, 0) s.m.acq.pairs p (0, 0) } } : Chip).put .acqIlvOffs p (wd (unI (min 32767 (sbits (s.m.get .acqIlvOffs p) 15 0 + 1)) 16)))) ∧
  (∀ (s : State) (p : Fin 2), s.m.ilvOn p = true → s.m.flag .acqIlvCfg p 1 = true → trackPairs ≤ (NTab.get (0, (0 : Int)) s.m.acq.pairs p).1 → (NTab.get (0, (0 : Int)) s.m.acq.pairs p).2 < 0 → 
    Completes (.acqTrackUpdate p () ()) s (({ s.m with acq := { s.m.acq with pairs := NTab.set (0, 0) s.m.acq.pairs p (0, 0) } } : Chip).put .acqIlvOffs p (wd (unI (max (-32768) (sbits (s.m.get .acqIlvOffs p) 15 0 - 1)) 16)))) ∧
  (∀ (s : State) (p : Fin 2), s.m.flag .acqIlvCfg p 1 = false → 
    Completes (.acqTrackUpdate p () ()) s (s.m))

/-- Each detector: from IDLE with LOCK and QDEV deviating scans, an onset raises its ONSET event with the phases and starts
prediction; with the reference VEQ out of its threshold for CONFQ scans, confirmation raises CONFIRM, from IDLE after ONSET
in the same scan; an onset with QDEV clean scans and VEQ within the threshold is cancelled; ENDQ after VEQ is restored an
end raises END with LOCK held and is kept for LOCK without it. A cancellation of no onset changes nothing. While a detector
is active the tracker is frozen. ACM_LOCK sets LOCK with event 193 and takes the ends that wait; ACM_UNLOCK, not frozen,
clears it and raises source 33. (R191, R192, R197, R198) -/
def Obligations.AcMonitorSagAndSwell : Prop :=
  (∀ (s : State), s.m.acmDetects = true → s.m.acq.sag = .idle → s.m.acq.lock = true → s.m.acmQdev ≤ (s.m.acmDet false).dev → 
    Completes (.acmSagOnset ()) s ((s.m.putDet false .onset).acmOnsets false)) ∧
  (∀ m : Chip, m.acmOnsets false = (({ m with acq := { m.acq with onsetPh := (m.acmDet false).phases } } : Chip).event 194).predNote false .onset) ∧
  (∀ (s : State), s.m.acmDetects = true → s.m.acq.sag = .onset → s.m.fld (detReg false) 0 23 16 ≤ (s.m.acmDet false).conf → 
    Completes (.acmSagConfirm) s (((s.m.putDet false .confirmed).event 195).predNote false .confirm)) ∧
  (∀ (s : State), s.m.acmDetects = true → s.m.acq.sag = .idle → s.m.fld (detReg false) 0 23 16 ≤ (s.m.acmDet false).conf → 
    Completes (.acmSagConfirm) s ((((s.m.putDet false .confirmed).acmOnsets false).event 195).predNote false .confirm)) ∧
  (∀ (s : State), s.m.acq.sag = .onset → s.m.acmQdev ≤ (s.m.acmDet false).clean → (s.m.acmDet false).beyond = false → 
    Completes (.acmSagCancel) s (((s.m.putDet false .idle).event 196).predNote false .cancel)) ∧
  (∀ (s : State), s.m.acq.sag ≠ .onset → 
    Completes (.acmSagCancel) s (s.m)) ∧
  (∀ (s : State) (t : Nat), s.m.acq.sag = .confirmed → (s.m.acmDet false).restored = some t → s.m.acq.lock = true → 
    Completes (.acmSagEnd) s ((((s.m.elapse t (1000 * s.m.fld (detReg false) 0 31 24)).putDet false .idle).event 197).predNote false .ends)) ∧
  (∀ (s : State) (t : Nat), s.m.acq.sag = .confirmed → (s.m.acmDet false).restored = some t → s.m.acq.lock = false → 
    Completes (.acmSagEnd) s ({ s.m.elapse t (1000 * s.m.fld (detReg false) 0 31 24) with acq := { s.m.acq with sagEnds := true } })) ∧
  (∀ (s : State), s.m.acmDetects = true → s.m.acq.swell = .idle → s.m.acq.lock = true → s.m.acmQdev ≤ (s.m.acmDet true).dev → 
    Completes (.acmSwellOnset ()) s ((s.m.putDet true .onset).acmOnsets true)) ∧
  (∀ m : Chip, m.acmOnsets true = (({ m with acq := { m.acq with onsetPh := (m.acmDet true).phases } } : Chip).event 198).predNote true .onset) ∧
  (∀ (s : State), s.m.acmDetects = true → s.m.acq.swell = .onset → s.m.fld (detReg true) 0 23 16 ≤ (s.m.acmDet true).conf → 
    Completes (.acmSwellConfirm) s (((s.m.putDet true .confirmed).event 199).predNote true .confirm)) ∧
  (∀ (s : State), s.m.acmDetects = true → s.m.acq.swell = .idle → s.m.fld (detReg true) 0 23 16 ≤ (s.m.acmDet true).conf → 
    Completes (.acmSwellConfirm) s ((((s.m.putDet true .confirmed).acmOnsets true).event 199).predNote true .confirm)) ∧
  (∀ (s : State), s.m.acq.swell = .onset → s.m.acmQdev ≤ (s.m.acmDet true).clean → (s.m.acmDet true).beyond = false → 
    Completes (.acmSwellCancel) s (((s.m.putDet true .idle).event 200).predNote true .cancel)) ∧
  (∀ (s : State), s.m.acq.swell ≠ .onset → 
    Completes (.acmSwellCancel) s (s.m)) ∧
  (∀ (s : State) (t : Nat), s.m.acq.swell = .confirmed → (s.m.acmDet true).restored = some t → s.m.acq.lock = true → 
    Completes (.acmSwellEnd) s ((((s.m.elapse t (1000 * s.m.fld (detReg true) 0 31 24)).putDet true .idle).event 201).predNote true .ends)) ∧
  (∀ (s : State) (t : Nat), s.m.acq.swell = .confirmed → (s.m.acmDet true).restored = some t → s.m.acq.lock = false → 
    Completes (.acmSwellEnd) s ({ s.m.elapse t (1000 * s.m.fld (detReg true) 0 31 24) with acq := { s.m.acq with swellEnds := true } })) ∧
  (∀ (m : Chip) (w : Bool) (st : AcmSt), (m.putDet w st).acq.frozen = ((m.putDet w st).acq.sag != .idle || (m.putDet w st).acq.swell != .idle)) ∧
  (∀ (s : State), s.m.flag .acqAcmCfg 0 0 = true → s.m.acq.lock = true → s.m.acq.frozen = false → 
    Completes (.acmUnlock) s (({ s.m with acq := { s.m.acq with lock := false } } : Chip).raise 33 0 [])) ∧
  (∀ (s : State), s.m.flag .acqAcmCfg 0 0 = true → s.m.acq.lock = false → s.m.acq.sagEnds = false → s.m.acq.swellEnds = false → 
    Completes (.acmLock) s (let m := s.m.trackRebase
      ((Chip.spend { m with acq := { m.acq with lock := true, track := { m.acq.track with freq := lockFreq true m.openVal } } }).event 193)))

/-- A granted CTL write with RUN arms a stopped slot when the admitted load and its own stay within ADMIT, and returns EFULL
with nothing changed when they do not. One without RUN stops an armed slot, at once or when its running sample ends. A write
of SP sets the target, in an armed slot with the test whether it is reached; a write of its value again changes nothing.
CLE_COMMIT moves the staged words of the blocks named into the buffer, and at once into a stopped slot; CLE_KICK triggers an
armed slot. Each reports its status. (R46, R218, R223, R227, R231) -/
def Obligations.LoopSlots : Prop :=
  (∀ (s : State) (ag : Agent) (i : Fin 64) (ctl : Word), s.m.grants ag (loopAddr i 0) (setBit ctl 0 true) → (s.m.lslot i).st = .stopped → s.m.cleAdmit + s.m.runLoad i (setBit ctl 0 true &&& wd 0xF737) ≤ s.m.fld .cleCfg 0 14 8 * 100 → 
    Completes (.slotRun ag i ctl) s (s.m.written (s.m.slotArm i (setBit ctl 0 true &&& wd 0xF737)) ag (loopAddr i 0) .ok)) ∧
  (∀ (s : State) (ag : Agent) (i : Fin 64) (ctl : Word), s.m.grants ag (loopAddr i 0) (setBit ctl 0 true) → (s.m.lslot i).st = .stopped → s.m.fld .cleCfg 0 14 8 * 100 < s.m.cleAdmit + s.m.runLoad i (setBit ctl 0 true &&& wd 0xF737) → 
    Completes (.slotRun ag i ctl) s (s.m.written (s.m) ag (loopAddr i 0) .efull)) ∧
  (∀ (s : State) (ag : Agent) (i : Fin 64) (ctl : Word), s.m.grants ag (loopAddr i 0) (setBit ctl 0 false) → (s.m.lslot i).st = .armed → (s.m.lslot i).after = .none → (s.m.lslot i).run = none → 
    Completes (.slotStop ag i ctl) s (s.m.written (((s.m.putLw i 0 (setBit ctl 0 false &&& wd 0xF737)).slotStopped i).applyBuf i) ag (loopAddr i 0) .ok)) ∧
  (∀ (s : State) (ag : Agent) (i : Fin 64) (ctl : Word), s.m.grants ag (loopAddr i 0) (setBit ctl 0 false) → (s.m.lslot i).st = .armed → (s.m.lslot i).after = .none → (s.m.lslot i).run ≠ none → 
    Completes (.slotStop ag i ctl) s (s.m.written ((s.m.putLw i 0 (setBit ctl 0 false &&& wd 0xF737)).putLslot i { s.m.lslot i with after := .stop, pend := none }) ag (loopAddr i 0) .ok)) ∧
  (∀ (s : State) (ag : Agent) (i : Fin 64) (d : Word), s.m.grants ag (loopAddr i 2) (d) → s.m.lw i 2 ≠ d → (s.m.lslot i).st = .armed → 
    Completes (.loopSpWrite ag i d) s (s.m.written ((s.m.spTarget i d).spReached i) ag (loopAddr i 2) .ok)) ∧
  (∀ (s : State) (ag : Agent) (i : Fin 64) (d : Word), s.m.grants ag (loopAddr i 2) (d) → s.m.lw i 2 ≠ d → (s.m.lslot i).st ≠ .armed → 
    Completes (.loopSpWrite ag i d) s (s.m.written (s.m.spTarget i d) ag (loopAddr i 2) .ok)) ∧
  (∀ (s : State) (ag : Agent) (i : Fin 64) (d : Word), s.m.grants ag (loopAddr i 2) (d) → s.m.lw i 2 = d → 
    Completes (.loopSpWrite ag i d) s (s.m.written (s.m) ag (loopAddr i 2) .ok)) ∧
  (∀ (i : Fin 64) (mask : BitVec 8), WriteRow (fun ag => .cleCommit ag i mask) .cleCommit 0 (wd (i.val + mask.toNat * 256))
    (fun _ m => (m.commit i mask.toNat).put .cleCmdstat 0 (wd (i.val * 256 + mask.toNat * 65536)))) ∧
  (∀ (i : Fin 64), WriteRow (fun ag => .cleKick ag i) .cleKick 0 (wd i.val)
    (fun _ m => (m.slotTrigger i).put .cleCmdstat 0 (wd (i.val * 256))))

/-- LOOP_TRIGGER of an armed slot with nothing outstanding notes the time and makes a sample pending; with a sample pending or
running it counts the overrun and raises source 35. LOOP_SAMPLE_START takes the pending sample due first while a lane is
free, and latches the sources of its blocks. LOOP_SAMPLE_DONE runs the chain, writes OUT, the sample count and the cost,
drives the destination, and ends a stop or a fence that waited. With no sample pending, running or to stop, nothing changes.
PREDICT_CONFW_ELAPSED retracts a tentative output when its window ends. (R46, R218, R222, R223, R224, R226, R228, R238,
R242, R246, R250, R302) -/
def Obligations.LoopSamples : Prop :=
  (∀ (s : State) (i : Fin 64), (s.m.trigOf i).1 ≠ 0 → (s.m.trigOf i).1 ≠ 2 → (s.m.trigOf i).1 ≠ 4 → (s.m.lslot i).st = .armed → (s.m.lslot i).pend = none → (s.m.lslot i).run = none → 
    Completes (.loopTrigger i) s (((s.m.putLw i 15 (wd (s.m.now % 2 ^ 32))).putLslot i { s.m.lslot i with pend := some (s.m.putLw i 15 (wd (s.m.now % 2 ^ 32))).now }).wake .cle)) ∧
  (∀ (s : State) (i : Fin 64), (s.m.trigOf i).1 ≠ 0 → (s.m.trigOf i).1 ≠ 2 → (s.m.trigOf i).1 ≠ 4 → (s.m.lslot i).st = .armed → (s.m.lslot i).pend.isSome = true → 
    Completes (.loopTrigger i) s (let m := s.m.putLw i 15 (wd (s.m.now % 2 ^ 32))
      ((m.putLw i 12 (wd (satTo (2 ^ 32 - 1) ((m.lw i 12).toNat + 1)))).bump .cleOvrcnt 0 15 0 1).raise 35 i [])) ∧
  (∀ (s : State) (i : Fin 64), (s.m.trigOf i).1 = 0 ∨ (s.m.trigOf i).1 = 4 → 
    Completes (.loopTrigger i) s (s.m)) ∧
  (∀ (s : State) (us i : Nat), s.m.lanesUsed < 4 → s.m.nextSample = some i → 
    Completes (.loopSampleStart us) s (let x := s.m.lslot i
      let m := (s.m.putLslot i { x with pend := none, satLo := false, satHi := false }).applyBuf i
      let m := m.putLw i 14 (wd (us % 65536 + max (bits (m.lw i 14) 31 16) (us % 65536) * 65536))
      let dt := if x.first then 0 else m.now - x.lastAt
      let p := match m.predBlk i with
        | some k => m.predStart i k
        | none => (m, [])
      let m := p.1.putLslot i { p.1.lslot i with lastAt := p.1.now, run := some { trig := x.pend.getD 0, latch := p.1.latchAll i, omode := bits (m.lw i 0) 2 1, manout := (m.lw i 4).toInt, events := p.2 } }
      if x.first && x.spRamp then m else (m.spMove i dt).spReached i)) ∧
  (∀ (s : State) (us : Nat), s.m.nextSample = none → 
    Completes (.loopSampleStart us) s (s.m)) ∧
  (∀ (s : State) (i : Fin 64) (sm : Sample), (s.m.lslot i).run = some sm → 
    Completes (.loopSampleDone i) s (let x := s.m.lslot i
      let n := s.m.putLslot i { s.m.lslot i with satLo := false, satHi := false }
      let cyc := chainCost (n.aw i) (n.nblk i) (if x.pstate = .tentative ∨ x.pstate = .retracting then 12 else 6)
      let r := n.runChain i sm (sm.omode != 0 || n.blocked i)
      let m := r.1.putLw i 7 (wdI (r.2.getLast?.getD 0))
      let m := m.putLw i 11 (m.lw i 11 + 1)
      let m := m.putLw i 13 (wd (cyc % 65536 + max (bits (m.lw i 13) 31 16) (cyc % 65536) * 65536))
      let m : Chip := { m with cle := { m.cle with cost := ((m.now, cyc) :: m.cle.cost).filter (fun c => m.now < c.1 + 10000) } }
      let m := (m.putLslot i { m.lslot i with run := none, first := false, ys := r.2 }).slotSampled i
      let m := if (m.dest i).1 = 0 then m else if (m.dest i).1 = 6 then m.partnerOut i else m.writeDest i (m.stQ i (m.nblk i) 0)
      match (m.lslot i).after with
      | .none => m
      | .stop => m.loopStop i
      | .fence => m.slotFenced i)) ∧
  (∀ (s : State) (i : Fin 64), (s.m.lslot i).run = none → 
    Completes (.loopSampleDone i) s (s.m)) ∧
  (∀ (s : State) (i : Fin 64), (s.m.lslot i).after = .stop → 
    Completes (.slotStopComplete i) s (s.m.sampleDone i)) ∧
  (∀ (s : State) (i : Fin 64), (s.m.lslot i).after ≠ .stop → 
    Completes (.slotStopComplete i) s (s.m)) ∧
  (∀ (s : State) (i : Fin 64) (k : Nat), s.m.predBlk i = some k → (s.m.lslot i).bound = true → (s.m.lslot i).pstate = .tentative → 
    Completes (.predictConfwElapsed i) s ((s.m.elapse (s.m.lslot i).onsetAt (s.m.confWin i k)).predRetract i 1)) ∧
  (∀ (s : State) (i : Fin 64), (s.m.lslot i).pstate ≠ .tentative → 
    Completes (.predictConfwElapsed i) s (s.m)) ∧
  (∀ (s : State) (i : Fin 64) (k : Nat), (List.range (s.m.nblk i + 1)).find? (fun k => s.m.plausDue i k) = some k → (s.m.lslot i).bound = true → 
    Completes (.plausibility i) s (((s.m.putPlant i k { s.m.plant i k with raised := true }).holdFence .mark (8 * i + k) 38).raise 38 i [wd i, s.m.stw i k 1, s.m.stw i k 0])) ∧
  (∀ (s : State) (i : Fin 64), (∀ k ≤ s.m.nblk i, (s.m.plant i k).raised = true) → 
    Completes (.plausibility i) s (s.m))

/-- SOURCE_QUALIFIED lets the rest of the dwell of a source that meets its condition pass, and the source is then qualified. A
granted TRANSFER hands over with cause 4. HO_BACKSTOP hands over with cause 3 once the loop output has been high for its
time and the source does not meet its condition. HO_DONE completes ONBATT after its wait with event 207. RET_START, source
qualified after its hold, ramps from 0 with event 208; RET_DONE completes ONSRC, once the output has been low for its dwell,
with event 209. In any other state each changes nothing. With its slots in order every transition stamps itself and writes
RLIM. (R143, R256, R268, R274, R278) -/
def Obligations.PolicyHandOver : Prop :=
  (∀ (s : State) (t : Nat), s.m.pol.srcSince = some t → 
    Completes (.sourceQualified) s (s.m.elapse t (s.m.fld .srcCfg 0 15 0 * 10000))) ∧
  (∀ (m : Chip) (t : Nat), m.pol.srcSince = some t → (m.elapse t (m.fld .srcCfg 0 15 0 * 10000)).srcQualified = true) ∧
  (∀ (s : State), s.m.pol.srcSince = none → 
    Completes (.sourceQualified) s (s.m)) ∧
  (WriteRow (fun ag => .transfer ag) .polCmd 0 (1)
    (fun _ m => { m.handOver .handover 4 with pol := { (m.handOver .handover 4).pol with cmdst := Status.ok.code } })) ∧
  (∀ (s : State) (t : Nat), s.m.pol.outHi = some t → s.m.pol.ho = .onsrc ∨ s.m.pol.ho = .antic → s.m.polFrozen = false → s.m.srcCondition = false → 
    Completes (.hoBackstop) s (((s.m.elapse t (s.m.fld .hoCfg 0 31 24 * 1000)).evalTick).handOver .handover 3)) ∧
  (∀ (s : State), s.m.pol.ho ≠ .onsrc → s.m.pol.ho ≠ .antic → 
    Completes (.hoBackstop) s (s.m)) ∧
  (∀ (s : State), s.m.pol.ho = .handover → s.m.polFrozen = false → s.m.rectsDown = true → 
    Completes (.hoDone) s (((s.m.elapse s.m.pol.hoAt (if s.m.dslot.isSome then 0 else 2000)).evalTick).hoTo .onbatt (fun m => ((m.rslotMode 2 0).eventRecord 207 0 []).event 207))) ∧
  (∀ (s : State), s.m.pol.ho = .handover → s.m.polFrozen = false → s.m.rectsDown = false → 
    Completes (.hoDone) s (((s.m.elapse s.m.pol.hoAt (s.m.fld .hoCfg 0 23 16 * 1000)).evalTick).hoTo .onbatt (fun m => ((m.rslotMode 2 0).eventRecord 207 0 []).event 207))) ∧
  (∀ (s : State), s.m.pol.ho ≠ .handover → 
    Completes (.hoDone) s (s.m)) ∧
  (∀ (s : State) (t : Nat), s.m.pol.ho = .onbatt → s.m.polFrozen = false → s.m.pol.srcSince = some t → 
    Completes (.retStart) s (let m := ((s.m.elapse s.m.pol.hoAt (s.m.fld .hoCfg 0 15 0 * 1000)).elapse t (s.m.fld .srcCfg 0 15 0 * 10000)).evalTick
      (m.rampFrom0 false).hoTo .ret (fun m => ((m.gainsBack.rslotMode 0 0).eventRecord 208 0 []).event 208))) ∧
  (∀ (s : State), s.m.pol.ho ≠ .onbatt → 
    Completes (.retStart) s (s.m)) ∧
  (∀ (s : State) (t : Nat), s.m.pol.ho = .ret → s.m.polFrozen = false → s.m.pol.outLo = some t → 
    Completes (.retDone) s (let m := (s.m.elapse (max t s.m.pol.hoAt) (s.m.fld .hoRet 0 31 16 * 1000)).evalTick
      m.hoTo .onsrc (fun m => (((m.bslotSp m.backSp 0).eventRecord 209 0 []).event 209).openRecord 3))) ∧
  (∀ (s : State), s.m.pol.ho ≠ .ret → 
    Completes (.retDone) s (s.m)) ∧
  (∀ (m : Chip) (st : HoSt) (f : Chip → Chip), m.vendorOk = true →
    m.hoTo st f = Chip.rlimWrite { f m with pol := { (f m).pol with ho := st, hoAt := (f m).now } })

/-- RLIM_WRITE writes the limit 10 ms after the last. SHARE_KEEPALIVE issues the keep-alive when its period is up; SHARE_TRIM
reads each member's output current in member order; SHARE_IMBALANCE of a member that has deviated for its time raises source
39. CAP_RECOMPUTE sets the cap value, at 1.0 where capping stands at its floor. CAP_ENTER caps with event 210 once the loop
output has been high for ENTRYT, CAP_EXIT leaves with event 211 once it has been low for EXITT. BRANCH_SHED turns the next
branch off with event 212; SHED_RESTORE turns on the lowest shed branch that may be turned on; with nothing calm it changes
nothing. (R256, R260, R261, R262, R281, R282, R285, R286) -/
def Obligations.PolicySharingCappingShedding : Prop :=
  (∀ (s : State), s.m.up = true → 
    Completes (.rlimWrite) s ((s.m.elapse s.m.pol.rlimAt 10000).rlimWrite)) ∧
  (∀ (s : State), s.m.up = true → 
    Completes (.shareKeepalive) s (let m := s.m.elapse s.m.pol.keepAt (s.m.fld .shareCfg 0 27 20 * 1000)
      Chip.vendorIssue { m with pol := { m.pol with keepAt := m.now } } .cmd m.shareEntry 0x110 0)) ∧
  (∀ (s : State), s.m.up = true → 
    Completes (.shareTrim ()) s (let m := s.m.elapse s.m.pol.trimAt (s.m.fld .shareTrim 0 31 24 * 10000)
      let m : Chip := { m with pol := { m.pol with trimAt := m.now } }
      (m.membersByMidx m.shareEntry).foldl (fun m e => m.vendorIssue .read e 0x08C 0) m)) ∧
  (∀ (s : State) (e : BitVec 12) (t : Nat), e.toNat ∈ s.m.members s.m.shareEntry → (s.m.share e.toNat).raised = false → (s.m.share e.toNat).devAt = some t → (s.m.share e.toNat).satAt = none → 
    Completes (.shareImbalance e) s (let m := s.m.elapse t (s.m.fld .shareTrim 0 23 16 * 1000000)
      (m.putShare e.toNat { s.m.share e.toNat with raised := true }).raise 39 e.toNat [])) ∧
  (∀ (s : State) (e : BitVec 12), (s.m.share e.toNat).devAt = none → (s.m.share e.toNat).satAt = none → 
    Completes (.shareImbalance e) s (s.m)) ∧
  (∀ (s : State), s.m.up = true → 
    Completes (.capRecompute ()) s ({ (s.m.elapse s.m.pol.capAt 10000).capSet with pol := { (s.m.elapse s.m.pol.capAt 10000).capSet.pol with capAt := (s.m.elapse s.m.pol.capAt 10000).now } })) ∧
  (∀ m : Chip, m.pol.cap = .floor → m.capSet.pol.capVal = q1) ∧
  (∀ (s : State) (t : Nat), s.m.pol.outHi = some t → s.m.pol.cap = .off ∨ s.m.pol.cap = .armed → s.m.pol.ho = .onsrc ∨ s.m.pol.ho = .antic → s.m.polFrozen = false → s.m.socLow = false → s.m.srcCondition = true → 
    Completes (.capEnter) s ((s.m.elapse t (s.m.fld .capCfg 0 19 12 * 100000)).capTo .capped (fun m =>
        let m : Chip := { m with pol := { m.pol with capacity := !(m.pol.capVal < q1 : Bool) } }
        ((m.bslotSp q1 spCreep).eventRecord 210 0 [wd (b2n m.pol.capacity)]).event 210))) ∧
  (∀ (s : State), s.m.pol.cap ≠ .off → s.m.pol.cap ≠ .armed → 
    Completes (.capEnter) s (s.m)) ∧
  (∀ (s : State) (t : Nat), s.m.pol.outLo = some t → s.m.pol.cap = .capped → s.m.pol.ho = .onsrc ∨ s.m.pol.ho = .antic → s.m.polFrozen = false → 
    Completes (.capExit) s (let m := s.m.elapse t (s.m.fld .capCfg 0 31 24 * 1000000)
      m.capTo m.capRest (fun m =>
        let m := if m.pol.cap = .off then m.capFull else m
        ((m.bslotSp m.backSp spCreep).eventRecord 211 0 []).event 211))) ∧
  (∀ (s : State), s.m.pol.cap ≠ .capped → 
    Completes (.capExit) s (s.m)) ∧
  (∀ (s : State) (n : Nat), s.m.shedding = true → s.m.pwr.base ≠ .shadow → s.m.shedNext = some n → 
    Completes (.branchShed) s (let m := (s.m.elapse s.m.pol.shedAt (s.m.fld .shedCfg 0 7 0 * 10000)).brnOff n 1
      let m := m.putBranch n { m.branch n with shed := true }
      let m : Chip := { m with pol := { m.pol with shedAt := m.now, calmAt := none, restAt := none } }
      (m.eventRecord 212 n [wd n]).event 212)) ∧
  (∀ (s : State), s.m.shedding = false → 
    Completes (.branchShed) s (s.m)) ∧
  (∀ (s : State) (n t r : Nat), s.m.up = true → s.m.shedding = false → s.m.pwr.base ≠ .shadow → s.m.pol.calmAt = some t → s.m.restoreNext = some n → s.m.pol.restAt = some r → 
    Completes (.shedRestore) s (let m := s.m.elapse r (s.m.fld .shedCfg 0 7 0 * 10000)
      let m : Chip := { m with pol := { m.pol with restAt := some m.now } }
      match (brnOnAct n m).v.first with
      | some st => (brnOnAct n m).rej st m
      | none => ((brnOnAct n m).eff m).1)) ∧
  (∀ (s : State), s.m.up = true → s.m.pol.calmAt = none → 
    Completes (.shedRestore) s (s.m))

/-- A granted CNV_x_CMD START starts the stopped stage, STOP begins its stop or ends its hiccup, the phase unfence clears the
phase's fence and record, and the stage unfence brings a fenced stage to STOPPED. A granted VCMD supersedes a request that
waits, writes the slot's SLEW and SP from the rate and the target over VREF and keeps its tag, done at once if the slot is
there; with eight completions unread it answers EFULL. A read of VDONE takes the oldest completion, with VALID and the
number left, and 0 when there is none. (R315, R323, R324, R336) -/
def Obligations.ConverterCommands : Prop :=
  (∀ (x : Fin 2), WriteRow (fun ag => .stageStart ag x) .cnvXCmd x (1)
    (fun _ m => m.convStart x)) ∧
  (∀ (x : Fin 2), WriteRow (fun ag => .stageStop ag x) .cnvXCmd x (2)
    (fun _ m => m.convStop x)) ∧
  (∀ (x : Fin 2) (k : Fin 8), WriteRow (fun ag => .phaseUnfence ag x k) .cnvXCmd x (wd (3 + k.val * 256))
    (fun _ m => (m.putConv x ((m.conv x).putPhase k { (m.conv x).phase k with fenced := false })).dropFence (if x = 0 then .phaseB else .phaseA) k)) ∧
  (∀ (x : Fin 2), WriteRow (fun ag => .stageUnfence ag x) .cnvXCmd x (4)
    (fun _ m => (m.convRest x .stopped).dropFence .stage x)) ∧
  (∀ (m : Chip) (x : Nat), (m.conv x).st = .stopped → m.convValid x = true →
    m.convStart x = (((m.putConv x { m.conv x with retry := 0 }).slewRest x).convSoft x).convMinPh x) ∧
  (∀ (m : Chip) (x : Nat), (m.conv x).st = .run →
    m.convStop x = m.putConv x (Conv.eachPhase { m.conv x with st := .stopping, since := m.now, pendStart := false } x
      (fun _ p => { p with de := true, deCnt := 0 }))) ∧
  (∀ (s : State) (ag : Agent) (x : Fin 2) (d : Word), s.m.grants ag (RName.addr .cnvXVcmd x) d → (s.m.conv x).vdone.length < 8 →
    let base := s.m.fld .cnvXVref x 15 0
    let sp := wdI (qSat (rdiv ((bits d 15 0 : Int) * q1) base))
    let m := match (s.m.conv x).vtag with
      | some t => s.m.vdonePush x t .esuperseded
      | none => s.m
    let m := m.putLw (s.m.vslot x) 3 (wdI (qSat (rdiv ((s.m.fld .cnvXVrate x 15 0 : Int) * q1) base)))
    let n := m.putConv x { m.conv x with vtag := some (bits d 23 16), vcSlot := s.m.vslot x }
    m.lw (s.m.vslot x) 2 = sp →
    Completes (.cnvVcmd ag x d) s (s.m.written (if m.lw (s.m.vslot x) 6 = sp then n.vdonePush x (bits d 23 16) .ok else n) ag (RName.addr .cnvXVcmd x) .ok)) ∧
  (∀ (s : State) (ag : Agent) (x : Fin 2) (d : Word), s.m.grants ag (RName.addr .cnvXVcmd x) d → (s.m.conv x).vdone.length < 8 →
    let base := s.m.fld .cnvXVref x 15 0
    let sp := wdI (qSat (rdiv ((bits d 15 0 : Int) * q1) base))
    let m := match (s.m.conv x).vtag with
      | some t => s.m.vdonePush x t .esuperseded
      | none => s.m
    let m := m.putLw (s.m.vslot x) 3 (wdI (qSat (rdiv ((s.m.fld .cnvXVrate x 15 0 : Int) * q1) base)))
    let n := (m.spTarget (s.m.vslot x) sp).putConv x { (m.spTarget (s.m.vslot x) sp).conv x with vtag := some (bits d 23 16), vcSlot := s.m.vslot x }
    m.lw (s.m.vslot x) 2 ≠ sp →
    Completes (.cnvVcmd ag x d) s (s.m.written (n.spReached (s.m.vslot x)) ag (RName.addr .cnvXVcmd x) .ok)) ∧
  (∀ (s : State) (ag : Agent) (x : Fin 2) (d : Word), s.m.grants ag (RName.addr .cnvXVcmd x) d → 8 ≤ (s.m.conv x).vdone.length →
    Completes (.cnvVcmd ag x d) s (s.m.written s.m ag (RName.addr .cnvXVcmd x) .efull)) ∧
  (∀ (x : Fin 2), ReadRow (fun ag => .cnvVdoneRead ag x) .cnvXVdone x
    (fun _ m => match (m.conv x).vdone with
      | [] => (m, 0, .ok)
      | e :: t => (m.putConv x { m.conv x with vdone := t }, wd (e.toNat + 65536 + t.length * 131072), .ok)))

/-- A soft start whose output has reached its share at the fourth checkpoint is in RUN, at an earlier one goes to the next, and
otherwise fails with the limit or the soft-start source. HICCUP_ELAPSED soft-starts again; STOPPING_DONE rests the stage and
takes a pending start; CNV_SHORT in RUN fails it. On an active phase of a switching stage FAST_LIMIT, PHASE_SC, its
resumption, imbalance, zero crossings and DE entry and exit set what they name, PHASE_SC and imbalance with their sources.
At rest none of these changes anything. (R305, R306, R309, R310, R312, R313, R314, R317, R318, R319, R320, R338) -/
def Obligations.ConverterSwitching : Prop :=
  (∀ (s : State) (x : Fin 2), (s.m.conv x).st = .softstart → (s.m.conv x).ckpt = 3 → (let m := s.m.elapse (s.m.conv x).since (4 * s.m.fld .cnvXSs x 11 0 * 100 / 4)
      (4 : Int) * (m.fld .cnvXSs x 19 12 : Int) * (m.fld .cnvXVtgt x 15 0 : Int) * q1 ≤ 400 * m.checkV x) → 
    Completes (.softstartCheckpoint x) s (let m := s.m.elapse (s.m.conv x).since (4 * s.m.fld .cnvXSs x 11 0 * 100 / 4)
      m.putConv x { (s.m.conv x) with ckpt := 4, st := .run, since := m.now })) ∧
  (∀ (s : State) (x : Fin 2), (s.m.conv x).st = .softstart → (s.m.conv x).ckpt < 3 → (let m := s.m.elapse (s.m.conv x).since (((s.m.conv x).ckpt + 1) * s.m.fld .cnvXSs x 11 0 * 100 / 4)
      (((s.m.conv x).ckpt + 1 : Nat) : Int) * (m.fld .cnvXSs x 19 12 : Int) * (m.fld .cnvXVtgt x 15 0 : Int) * q1 ≤ 400 * m.checkV x) → 
    Completes (.softstartCheckpoint x) s (let m := s.m.elapse (s.m.conv x).since (((s.m.conv x).ckpt + 1) * s.m.fld .cnvXSs x 11 0 * 100 / 4)
      m.putConv x { (s.m.conv x) with ckpt := (s.m.conv x).ckpt + 1 })) ∧
  (∀ (s : State) (x : Fin 2), (s.m.conv x).st ≠ .softstart → 
    Completes (.softstartCheckpoint x) s (s.m)) ∧
  (∀ (s : State) (x : Fin 2), (s.m.conv x).st = .hiccup → 
    Completes (.hiccupElapsed x) s ((((s.m.elapse (s.m.conv x).since (s.m.fld .cnvXHic x 15 0 * 1000)).slewRest x).convSoft x).convMinPh x)) ∧
  (∀ (s : State) (x : Fin 2), (s.m.conv x).st = .stopping → (s.m.conv x).pendStart = false → 
    Completes (.stoppingDone x) s ((if s.m.stageQuiet x then s.m else s.m.elapse (s.m.conv x).since 10000).convRest x .stopped)) ∧
  (∀ (s : State) (x : Fin 2), (s.m.conv x).st = .stopping → (s.m.conv x).pendStart = true → 
    Completes (.stoppingDone x) s (let m := (if s.m.stageQuiet x then s.m else s.m.elapse (s.m.conv x).since 10000).convRest x .stopped
      (m.putConv x { m.conv x with pendStart := false }).convStart x)) ∧
  (∀ (s : State) (x : Fin 2), (s.m.conv x).st ≠ .stopping → 
    Completes (.stoppingDone x) s (s.m)) ∧
  (∀ (s : State) (x : Fin 2), (s.m.conv x).st = .run → 16 * s.m.fld .cnvXSs x 31 20 ≤ (s.m.conv x).shCnt → s.m.checkLow x = true → 
    Completes (.cnvShort x) s (s.m.convFail x (if x = 0 then 46 else 56))) ∧
  (∀ (s : State) (k : Fin 8) (cs : Int), (s.m.conv 1).switching = true → has (s.m.conv 1).active k = true → 0 < cs → s.m.fld .cnvXIlim 1 7 0 * 2048 ≤ 100 * cs.natAbs → 
    Completes (.fastLimit 1 (k, cs)) s (s.m.putConv 1 (Conv.putPhase { s.m.conv 1 with limited := true, fastHit := true } k { (s.m.conv 1).phase k with fast := true, fastNow := true, fastHi := true }))) ∧
  (∀ (s : State) (k : Fin 8) (cs : Int), (s.m.conv 0).switching = true → has (s.m.conv 0).active k = true → (s.m.conv 0).kindDuty = true ∨ (0 < (s.m.conv 0).eff ↔ 0 < cs) → s.m.fld .cnvXIlim 0 7 0 * 2048 ≤ 100 * cs.natAbs → 
    Completes (.fastLimit 0 (k, cs)) s (s.m.putConv 0 (Conv.putPhase { s.m.conv 0 with limited := true, fastHit := true } k { (s.m.conv 0).phase k with fast := true, fastNow := true, fastHi := decide (cs < 0) }))) ∧
  (∀ (s : State) (x : Fin 2) (k : Fin 8) (cs : Int), (s.m.conv x).switching = true → has (s.m.conv x).active k = true → ((s.m.conv x).phase k).fenced = false → ((s.m.conv x).phase k).scOff = 0 → s.m.fld .cnvXIlim x 15 8 * 2048 ≤ 100 * cs.natAbs → 
    Completes (.phaseSc x (k, cs)) s ((s.m.putConv x ((s.m.conv x).putPhase k { (s.m.conv x).phase k with scOff := 17 })).raise (if x = 0 then 43 else 53) k [])) ∧
  (∀ (s : State) (x : Fin 2) (k : Fin 8), ((s.m.conv x).phase k).scOff = 1 → ((s.m.conv x).phase k).fenced = false → 
    Completes (.phaseScResume x k) s (s.m.putConv x ((s.m.conv x).putPhase k { (s.m.conv x).phase k with scOff := 0, de := true, deCnt := 0 }))) ∧
  (∀ (s : State) (x : Fin 2) (k : Fin 8), ((s.m.conv x).phase k).scOff ≠ 1 → 
    Completes (.phaseScResume x k) s (s.m)) ∧
  (∀ (s : State) (x : Fin 2), (s.m.conv x).switching = true → (s.m.conv x).slowcl = true → (s.m.conv x).overload = false → 
    Completes (.cnvOverload x) s (((s.m.elapse (s.m.conv x).slowAt (s.m.fld .cnvXSlow x 23 8 * 1000)).putConv x { (s.m.conv x) with overload := true }).raise (if x = 0 then 45 else 55) x [])) ∧
  (∀ (s : State) (x : Fin 2) (k : Fin 8), (s.m.conv x).switching = true → has (s.m.conv x).active k = true → s.m.fld .cnvXImb x 23 16 ≤ ((s.m.conv x).phase k).imb → ((s.m.conv x).phase k).imb ≠ 0 → 
    Completes (.phaseImbalance x k ()) s ((s.m.putConv x ((s.m.conv x).putPhase k { (s.m.conv x).phase k with imb := 0 })).raise (if x = 0 then 44 else 54) k [])) ∧
  (∀ (s : State) (x : Fin 2) (k : Fin 8) (mv : BitVec 12) (frac : BitVec 16), (s.m.conv x).switching = true → has (s.m.conv x).active k = true → s.m.zeroAbove x mv.toNat ≠ ((s.m.conv x).phase k).zc → (x = 0 ∧ (s.m.conv x).syncHi x = false ↔ s.m.zeroAbove x mv.toNat = true) → s.m.inSync x k frac.toNat = true → 
    Completes (.zeroCrossing x (k, mv, frac)) s (s.m.putConv x ((s.m.conv x).putPhase k { (s.m.conv x).phase k with zc := s.m.zeroAbove x mv.toNat, zx := true }))) ∧
  (∀ (s : State) (x : Fin 2) (k : Fin 8), (s.m.conv x).switching = true → has (s.m.conv x).active k = true → s.m.flag .cnvXDe x 0 = true → ((s.m.conv x).phase k).de = false → s.m.fld .cnvXDe x 7 4 ≤ ((s.m.conv x).phase k).deCnt → 
    Completes (.deEntry x k) s (s.m.putConv x ((s.m.conv x).putPhase k { (s.m.conv x).phase k with de := true, deCnt := 0 }))) ∧
  (∀ (s : State) (x : Fin 2) (k : Fin 8), (s.m.conv x).switching = true → has (s.m.conv x).active k = true → ((s.m.conv x).phase k).de = true → s.m.flag .cnvXDe x 1 = false → s.m.fld .cnvXDe x 7 4 ≤ ((s.m.conv x).phase k).deCnt → 
    Completes (.deExit x k) s (s.m.putConv x ((s.m.conv x).putPhase k { (s.m.conv x).phase k with de := false, deCnt := 0 }))) ∧
  (∀ (s : State) (x : Fin 2) (k : Fin 8) (cs : Int) (mv : BitVec 12) (frac : BitVec 16), (s.m.conv x).switching = false →
    (s.m.conv x).quickAt = none → Completes (.fastLimit x (k, cs)) s s.m ∧ Completes (.phaseSc x (k, cs)) s s.m ∧ Completes (.cnvOverload x) s s.m ∧
    Completes (.phaseImbalance x k ()) s s.m ∧ Completes (.zeroCrossing x (k, mv, frac)) s s.m ∧ Completes (.deEntry x k) s s.m ∧
    Completes (.deExit x k) s s.m ∧ Completes (.phaseRotation x) s s.m) ∧
  (∀ (s : State) (x : Fin 2), s.m.fld .cnvXRot x 15 0 ≠ 0 → (s.m.conv x).rot ≠ 0 → (s.m.conv x).rot % s.m.fld .cnvXRot x 15 0 = 0 → (s.m.conv x).st = .run → (s.m.conv x).limited = false → (∀ k < 8, has (s.m.conv x).active k = true → ((s.m.conv x).phase k).de = false) → 
    Completes (.phaseRotation x) s (s.m.putConv x (Conv.eachPhase { (s.m.conv x) with rot := 0 } x (fun k p =>
      if has (s.m.conv x).active k then { p with slot := (p.slot + 1) % popM 8 (s.m.conv x).active, ext := (s.m.conv x).period / popM 8 (s.m.conv x).active, turning := true, took := p.took || p.slot + 1 = popM 8 (s.m.conv x).active } else p))))

/-- STAGE_BOUNDARY of the AXC stage in duty kind closes the period with its currents, steps the duty toward its command, counts
limited periods and starts the next period; a stage that does not switch ignores it. SYNCIN_EDGE within its window gives the
period; SYNC_LOCK and SYNC_LOSS of a synchronised stage set SYNCLK with event 214 and clear it with the stage's source 9.
PERT_TONE_CHANGE of a silent tone takes the word written. BATTERY_REMOVAL_DETECT stops the charging stage at once where it
is driven, carries little and its battery side rises. The retry count clears after 10 s of RUN. (R302, R307, R315, R320,
R325, R327, R328, R330, R331, R335, R337) -/
def Obligations.ConverterPeriodsAndSync : Prop :=
  (∀ (s : State) (cur : List Int), (s.m.conv 1).switching = true → (((s.m.phaseStarts 1 true).boundaryTime 1).periodEnd 1 cur |>.conv 1).frozen = false → (((s.m.phaseStarts 1 true).boundaryTime 1).periodEnd 1 cur |>.convCmd 1).2 = true → 
    Completes (.stageBoundary 1 cur () ()) s (let b := (s.m.phaseStarts 1 true).boundaryTime 1
      let fast := (b.conv 1).fastHit
      let m := b.periodEnd 1 cur
      let r := m.dutyStep 1 (m.convCmd 1).1
      let c := m.countLock 1 (m.countLimits 1 (m.conv 1).slowcl (r.2 || fast) r.1)
      ((m.putConv 1 (respace 1 { c with period := (m.periodNext 1).1, len := (m.periodNext 1).2, fastHit := false })).sendMark 1).pwmTrigger 1)) ∧
  (∀ (s : State) (x : Fin 2) (cur : List Int), (s.m.conv x).switching = false → 
    Completes (.stageBoundary x cur () ()) s (s.m)) ∧
  (∀ (s : State) (per : Nat), s.m.up = true → s.m.edgesSeen = true → s.m.cnv.syncPer * 3 ≤ per * 4 → per * 4 ≤ s.m.cnv.syncPer * 5 → 
    Completes (.syncinEdge per) s ({ s.m.elapse 0 ((s.m.cnv.edgeAt + per) / 800) with cnv := { s.m.cnv with syncPer := per % 65536, edgeAt := s.m.cnv.edgeAt + per } })) ∧
  (∀ (s : State) (per : Nat), s.m.up = true → s.m.edgesSeen = true → s.m.cnv.syncPer ≠ 0 → per * 4 < s.m.cnv.syncPer * 3 ∨ (s.m.cnv.syncPer * 5 < per * 4 ∧ per * 4 < s.m.cnv.syncPer * 7) ∨ s.m.cnv.syncPer * 9 < per * 4 → 
    Completes (.syncinEdge per) s (s.m)) ∧
  (∀ (s : State) (x : Fin 2), s.m.syncing x = true → (s.m.conv x).synclk = false → 16 ≤ (s.m.conv x).lockCnt → 
    Completes (.syncLock x) s (((s.m.putConv x { (s.m.conv x) with synclk := true }).eventRecord 214 x []).event 214)) ∧
  (∀ (s : State) (x : Fin 2), s.m.flag .cnvXCfg x 3 = true → s.m.flag .cnvSync 0 0 = true → (s.m.conv x).track = true → 
    Completes (.syncLoss x) s (let n := s.m.elapse 0 ((s.m.cnv.edgeAt + s.m.cnv.syncPer * 9 / 4) / 800 + 1)
      let m := n.putConv x { n.conv x with synclk := false, lockCnt := 0, track := false }
      Chip.raise { m with cnv := { m.cnv with syncSeen := false } } (if x = 0 then 52 else 62) x [])) ∧
  (∀ (s : State) (x : Fin 2), s.m.flag .cnvXCfg x 3 = false → Completes (.syncLock x) s s.m ∧ Completes (.syncLoss x) s s.m) ∧
  (∀ (s : State) (t : Fin 8), (s.m.tone t).w ≠ s.m.get .cnvPertTone t → bits (s.m.tone t).w 23 16 = 0 → 
    Completes (.pertToneChange t) s (s.m.putTone t { w := s.m.get .cnvPertTone t, t0 := s.m.now, half := 0, run := s.m.pertRuns })) ∧
  (∀ (s : State) (t : Fin 8), (s.m.tone t).w = s.m.get .cnvPertTone t → 
    Completes (.pertToneChange t) s (s.m)) ∧
  (∀ (s : State), (s.m.conv 0).st = .run → (s.m.conv 0).eff ≤ -2 * ((s.m.fld .cnvBcvRem 0 7 0 : Int) * q1 / 1000) → ((s.m.conv 0).meas.natAbs : Int) < (s.m.fld .cnvBcvRem 0 7 0 : Int) * q1 / 1000 → (s.m.conv 0).loHist ≠ [] → (1000 + (s.m.fld .cnvBcvRem 0 15 8 : Int)) * (s.m.conv 0).loMean < 1000 * s.m.loV 0 → 
    Completes (.batteryRemovalDetect) s (({ s.m.quickStop 0 with cnv := { (s.m.quickStop 0).cnv with removed := some (s.m.quickStop 0).now, remFound := false } } : Chip))) ∧
  (∀ (s : State), (s.m.conv 0).st = .stopped → 
    Completes (.batteryRemovalDetect) s (s.m)) ∧
  (∀ (s : State) (x : Fin 2), (s.m.conv x).st = .run → 
    Completes (.stageRetryCountReset x) s ((s.m.elapse (s.m.conv x).since 10000000).putConv x { (s.m.conv x) with retry := 0 })) ∧
  (∀ (s : State) (x : Fin 2), (s.m.conv x).st ≠ .run → 
    Completes (.stageRetryCountReset x) s (s.m))

/-- A granted BRN_n_CMD ON starts the branch by its inrush procedure, OFF turns it off with cause 1 or takes a latched branch to
OFF and drops its fence record, unfence takes a fenced branch to OFF, ECLR zeroes the energy count. A granted read of ELO
gives the low word of the energy and latches the high word for EHI. A granted BAT_CMD does what its code says: CONNECT
matches the string in, CONNECTF closes it at once, DISCONNECT opens a closed string or ends its matching, SUSPEND and RESUME
set and clear the suspension after accounting the charge timers, RESTART decides charging anew. BAT_CMDSTAT shows OK and the
code. (R351, R352, R358, R374, R384, R385) -/
def Obligations.BranchAndBatteryCommands : Prop :=
  (∀ (n : Fin 24), WriteRow (fun ag => .branchOnCmd ag n) .brnNCmd n (1)
    (fun _ m => m.brnOn n)) ∧
  (∀ (n : Fin 24), WriteRow (fun ag => .branchOff ag n) .brnNCmd n (2)
    (fun _ m => if (m.branch n).st = .latched then (m.putBranch n { m.branch n with st := .off, since := m.now }).dropFence .branch n else m.brnOff n 1)) ∧
  (∀ (n : Fin 24), WriteRow (fun ag => .branchUnfence ag n) .brnNCmd n (3)
    (fun _ m => (m.brnTo n .off 0).dropFence .branch n)) ∧
  (∀ (n : Fin 24), WriteRow (fun ag => .eclr ag n) .brnNCmd n (4)
    (fun _ m => m.putBranch n { m.branch n with energy := 0 })) ∧
  (∀ (m : Chip) (n c : Nat), (m.branch n).gen = true → m.brnOff n c = (m.brnTo n .off c).putBranch n { (m.brnTo n .off c).branch n with retry := 0 }) ∧
  (∀ (n : Fin 24), ReadRow (fun ag => .brnEloRead ag n) .brnNElo n
    (fun _ m => (m.putBranch n { m.branch n with ehi := m.brnEnergy n / 2 ^ 32 }, wd (m.brnEnergy n % 2 ^ 32), .ok))) ∧
  (∀ (n : Fin 4), WriteRow (fun ag => .connect ag n) .batCmd 0 (wd (1 + n.val * 256))
    (fun _ m => (m.strConnect n).batStatus .ok 1)) ∧
  (∀ (n : Fin 4), WriteRow (fun ag => .connectf ag n) .batCmd 0 (wd (2 + n.val * 256))
    (fun _ m => (m.strClose n).batStatus .ok 2)) ∧
  (∀ (n : Fin 4), WriteRow (fun ag => .disconnect ag n) .batCmd 0 (wd (3 + n.val * 256))
    (fun _ m => (if (m.bstr n).st = .closed then m.strOpen n else m.putBstr n { m.bstr n with st := .open_, since := m.now }).batStatus .ok 3)) ∧
  (WriteRow (fun ag => .suspend ag) .batCmd 0 (wd 4)
    (fun _ m => (Chip.chgCompute { (m.batTick m.chgFrozen) with bat := { (m.batTick m.chgFrozen).bat with suspend := true } }).batStatus .ok 4)) ∧
  (WriteRow (fun ag => .chgResume ag) .batCmd 0 (wd 5)
    (fun _ m => (Chip.chgCompute { (m.batTick m.chgFrozen) with bat := { (m.batTick m.chgFrozen).bat with suspend := false } }).batStatus .ok 5)) ∧
  (WriteRow (fun ag => .chgRestart ag) .batCmd 0 (wd 6)
    (fun _ m => m.chgDecide.batStatus .ok 6))

/-- A meter result of a configured branch in the powered PWM domain corrects the current by the zero, writes MEAS and
accumulates power and energy; an averaging window writes the mean current and power and starts anew. A trip of a conducting
branch takes cause 2 and source 63, also of one that an overload or an inrush time-out put off within the same 8 µs (the
model's reading, log entry 79), an overload in ON cause 3 and source 64, an inrush time-out 4 and 65, an inrush short 5 and
66, a gate failure latches it with source 67, a pass short in a branch at rest latches it with source 68. BRANCH_ON ends the
inrush with event 213; BRANCH_RETRY starts the next try after its delay; in SHADOW neither does, nor does a retry count
clear. In other states they change nothing. (R46, R349, R353, R357, R358, R360, R361, R362, R363, R365, R590, R617) -/
def Obligations.BranchProtection : Prop :=
  (∀ (s : State) (n : Fin 24) (i : Int) (v : BitVec 16) (want : Int) (gfb : Bool), s.m.dom 8 = .on → s.m.brnConfigured n = true → 
    Completes (.branchMeterSample n i v want gfb) s (let m := (s.m.elapse (s.m.branch n).metAt 8).brnSeeGfb n gfb
      let m := Chip.putBranch { m with brn := { m.brn with held := [] } } n { m.branch n with metAt := m.now, held := [] }
      let b := m.branch n
      let lim : Bool := b.gen && decide (m.brnLimit n < want * 512)
      let raw := i
      let i := max (-32768) (min 32767 (raw - sbits (m.get .brnNZero n) 15 0))
      let p := m.brnProduct n i v.toNat
      let leak := m.brnLeak n i
      let m := m.put .brnNMeas n (wd (unI i 16 + v.toNat * 65536))
      let m := m.putBranch n { b with energy := b.energy + p, cnt := b.cnt + 1, sumI := b.sumI + i, sumV := b.sumV + v.toNat, sumP := b.sumP + p, short := b.short && m.brnLeaks n i, leakAt := leak, limit := lim, limAt := if lim = b.limit then b.limAt else m.now }
      ((m.brnAutoZero n raw).capPace (128 + n)).capPace (192 + n))) ∧
  (∀ (s : State) (n : Fin 24) (i : Int) (v : BitVec 16) (want : Int) (gfb : Bool), s.m.dom 8 ≠ .on → 
    Completes (.branchMeterSample n i v want gfb) s (s.m.brnSeeGfb n gfb)) ∧
  (∀ (s : State) (n : Fin 24), s.m.brnConfigured n = true → (s.m.branch n).cnt ≠ 0 → 
    Completes (.branchAvgWindow n) s (let b := s.m.branch n
      let m := s.m.elapse b.avgAt (s.m.brnShared .brnCfg 15 8 * 10000)
      ((m.putBranch n { b with cnt := 0, sumI := 0, sumV := 0, sumP := 0, avgAt := m.now }).put .brnNIavg n
        (wd (unI (rdiv b.sumI b.cnt) 16 + (2 * b.sumV + b.cnt) / (2 * b.cnt) * 65536))).put .brnNP n (wdI (rdiv b.sumP (10 * 2 ^ 31 * b.cnt))))) ∧
  (∀ (s : State) (n : Fin 24) (cur : Int), s.m.pwr.base ≠ .shadow → (s.m.branch n).gen = true → s.m.fld .brnNTrip n 9 0 * 32768 < 1000 * cur.natAbs → 
    Completes (.branchTrip (n, cur)) s (s.m.brnTrip n 2 63)) ∧
  (∀ (s : State) (n : Fin 24) (cur : Int), s.m.pwr.base ≠ .shadow → (s.m.branch n).gen = false → s.m.brnJustExpired n = false → 
    Completes (.branchTrip (n, cur)) s (s.m)) ∧
  (∀ (s : State) (n : Fin 24) (cur : Int), s.m.pwr.base ≠ .shadow → (s.m.branch n).gen = false → s.m.brnJustExpired n = true → s.m.fld .brnNTrip n 9 0 * 32768 < 1000 * cur.natAbs → 
    Completes (.branchTrip (n, cur)) s ((s.m.putBranch n { s.m.branch n with cause := 2 }).raise 63 n (s.m.brnPayload n))) ∧
  (∀ (s : State) (n : Fin 24), s.m.pwr.base ≠ .shadow → (s.m.branch n).st = .inrush → (s.m.branch n).limit = false → s.m.fld .brnNInr n 31 16 * 65536 ≤ s.m.brnVs n → 
    Completes (.branchOn n) s ((((s.m.elapse (s.m.branch n).limAt (s.m.brnF .brnNRetry n 23 16 * 100)).brnTo n .on 0).eventRecord 213 n []).event 213)) ∧
  (∀ (s : State) (n : Fin 24), (s.m.branch n).st ≠ .inrush → 
    Completes (.branchOn n) s (s.m)) ∧
  (∀ (s : State) (n : Fin 24), s.m.pwr.base ≠ .shadow → (s.m.branch n).st = .inrush → 
    Completes (.branchInrushTimeout n) s ((s.m.elapse (s.m.branch n).since (s.m.fld .brnNTmr n 11 0 * 1000)).brnTrip n 4 65)) ∧
  (∀ (s : State) (n : Fin 24), s.m.pwr.base ≠ .shadow → (s.m.branch n).st ≠ .inrush → 
    Completes (.branchInrushTimeout n) s (s.m)) ∧
  (∀ (s : State) (n : Fin 24), s.m.pwr.base ≠ .shadow → (s.m.branch n).st = .inrush → s.m.fld .brnNInr n 31 16 ≠ 0 → s.m.now ≤ (s.m.branch n).since + s.m.fld .brnNTmr n 19 12 * 100 → 10 * s.m.brnVs n < s.m.fld .brnNInr n 31 16 * 65536 → 
    Completes (.branchInrushShort n) s ((s.m.elapse (s.m.branch n).since (s.m.fld .brnNTmr n 19 12 * 100)).brnTrip n 5 66)) ∧
  (∀ (s : State) (n : Fin 24), s.m.pwr.base ≠ .shadow → (s.m.branch n).st ≠ .inrush → 
    Completes (.branchInrushShort n) s (s.m)) ∧
  (∀ (s : State) (n : Fin 24), s.m.pwr.base ≠ .shadow → (s.m.branch n).st = .on → (s.m.branch n).limit = true → 
    Completes (.branchOverload n) s ((s.m.elapse (s.m.branch n).limAt (s.m.fld .brnNTmr n 31 20 * 1000)).brnTrip n 3 64)) ∧
  (∀ (s : State) (n : Fin 24), s.m.pwr.base ≠ .shadow → (s.m.branch n).st ≠ .on → 
    Completes (.branchOverload n) s (s.m)) ∧
  (∀ (s : State) (n : Fin 24) (k : Fin 3), s.m.pwr.base ≠ .shadow → k = 0 → (s.m.branch n).gen = true → s.m.brnGfb n = false → (s.m.branch n).gfbAt ≤ (s.m.branch n).genAt → 
    Completes (.gateFail n k) s (let m := s.m.elapse (s.m.branch n).genAt (s.m.brnF .brnNGate n 15 8 * 10)
      let m := ((m.brnTo n .latched 6).bump .brnNCnt n 15 0 1).holdFence .branch n 67
      m.raise 67 n (m.brnPayload n))) ∧
  (∀ (s : State) (n : Fin 24) (k : Fin 3), s.m.pwr.base ≠ .shadow → k = 1 → (s.m.branch n).gen = true → s.m.brnGfb n = false → (s.m.branch n).genAt < (s.m.branch n).gfbAt → 
    Completes (.gateFail n k) s (let m := s.m.elapse (s.m.branch n).gfbAt 10
      let m := ((m.brnTo n .latched 6).bump .brnNCnt n 15 0 1).holdFence .branch n 67
      m.raise 67 n (m.brnPayload n))) ∧
  (∀ (s : State) (n : Fin 24) (k : Fin 3), s.m.pwr.base ≠ .shadow → k = 2 → (s.m.branch n).gen = false → (s.m.branch n).genAt ≠ 0 → s.m.brnGfb n = true → (s.m.branch n).gfbAt ≤ (s.m.branch n).genAt → (s.m.branch n).fallRaised = false → 
    Completes (.gateFail n k) s (let m := (s.m.elapse (s.m.branch n).genAt (s.m.brnF .brnNGate n 23 16)).putBranch n { s.m.branch n with fallRaised := true }
      m.raise 67 n (m.brnPayload n))) ∧
  (∀ (s : State) (n : Fin 24), s.m.pwr.base ≠ .shadow → (s.m.branch n).st = .tripped → (s.m.branch n).retry < s.m.brnF .brnNRetry n 3 0 → 
    Completes (.branchRetry n) s ((s.m.elapse (s.m.branch n).since (s.m.brnF .brnNRetry n 15 8 * 100000)).brnInrush n ((s.m.branch n).retry + 1))) ∧
  (∀ (s : State) (n : Fin 24), s.m.brnF .brnNRetry n 3 0 ≤ (s.m.branch n).retry → 
    Completes (.branchRetry n) s (s.m)) ∧
  (∀ (s : State) (n : Fin 24), s.m.pwr.base ≠ .shadow → (s.m.branch n).st = .on → 
    Completes (.branchRetryCountReset n) s (let m := s.m.elapse (s.m.branch n).since 10000000
      m.putBranch n { m.branch n with retry := 0 })) ∧
  (∀ (s : State) (n : Fin 24) (t : Nat), s.m.up = true → s.m.pwr.base ≠ .shadow → (s.m.branch n).leakAt = some t → (s.m.branch n).st = .off → (s.m.branch n).short = false → 
    Completes (.branchPassShort n) s (let m := s.m.elapse t 10000
      let m := ((m.putBranch n { s.m.branch n with st := .latched, since := m.now, cause := 7, short := true }).bump .brnNCnt n 15 0 1).holdFence .branch n 68
      m.raise 68 n (m.brnPayload n))) ∧
  (∀ (s : State) (n : Fin 24), s.m.up = true → s.m.pwr.base ≠ .shadow → (s.m.branch n).short = true → 
    Completes (.branchPassShort n) s (s.m)) ∧
  (∀ (s : State) (t : Nat), s.m.brn.autoLeft = some t → 
    Completes (.branchAutoonStagger) s ((s.m.elapse t (s.m.brnShared .brnStagger 9 0 * 1000)).brnWalk s.m.brn.auto)) ∧
  (∀ (s : State), s.m.brn.autoLeft = none → 
    Completes (.branchAutoonStagger) s (s.m)) ∧
  (∀ (s : State) (n : Fin 24), s.m.pwr.base = .shadow →
    Completes (.branchOn n) s s.m ∧ Completes (.branchRetry n) s s.m ∧ Completes (.branchRetryCountReset n) s s.m)

/-- BAT_INSERTED of an absent string that is in use opens it after its presence time, freezes its estimator, raises event 217
and reads its identity; the answer starts the estimator. STRING_MATCHED closes a string that has matched for 1 s when
connection is permitted. A match time-out, a failing switch, a welded switch and their ends set the state and raise the
string's fault; BAT_REMOVED within 1 ms of a detected removal removes the closed strings whose voltage left; undervoltage of
1 s and overcurrent of 10 ms raise 6 and 7 and open the string where its configuration says so. WAKE_BUTTON and WAKE_SOURCE
wake the part from SHIP where they are enabled. (R374, R376, R377, R378, R392, R393, R396) -/
def Obligations.BatteryStrings : Prop :=
  (∀ (s : State) (n : Fin 4) (t : Nat), (s.m.bstr n).inAt = some t → (s.m.bstr n).st = .absent → s.m.strOn n = true → 
    Completes (.batInserted n) s (let m := (s.m.elapse t (s.m.fld .batPres 0 23 16 * 100000)).estFreeze n
      let m := m.putBstr n { s.m.bstr n with st := .open_, reading := true, idRes := none, ident := 0, since := m.now }
      let m := m.putEstr n { m.estr n with openMv := m.perCell (m.strV n) * 256 }
      ((m.eventRecord 217 n [wd n]).event 217).identIssue n)) ∧
  (∀ (s : State) (n : Fin 4), (s.m.bstr n).st ≠ .absent → 
    Completes (.batInserted n) s (s.m)) ∧
  (∀ (s : State) (n : Fin 4) (good : Bool) (w : Word), (s.m.bstr n).idRes = some (good, w) → (s.m.bstr n).reading = true → 
    Completes (.stringIdentityRead n () ()) s (((s.m.putBstr n { s.m.bstr n with reading := false, idRes := none, ident := if good && s.m.flag .batStrMon n 31 then w else 0 }).estStart n).autoConn n)) ∧
  (∀ (s : State) (n : Fin 4), (s.m.bstr n).reading = false → 
    Completes (.stringIdentityRead n () ()) s (s.m)) ∧
  (∀ (s : State) (n : Fin 4) (t : Nat), (s.m.bstr n).nearAt = some t → (s.m.bstr n).st = .matching → s.m.connPermits = true → 
    Completes (.stringMatched n) s ((s.m.elapse t 1000000).strClose n)) ∧
  (∀ (s : State) (n : Fin 4), (s.m.bstr n).st ≠ .matching → 
    Completes (.stringMatched n) s (s.m)) ∧
  (∀ (s : State) (n : Fin 4), (s.m.bstr n).st = .matching → 
    Completes (.strMatchTimeout n) s (let m := s.m.elapse (s.m.bstr n).since (s.m.fld .batSwcfg 0 31 16 * 60000000)
      (m.putBstr n { (s.m.bstr n) with st := .open_, since := m.now }).strFault n 5)) ∧
  (∀ (s : State) (n : Fin 4) (never : Bool), (s.m.bstr n).st = .closed → never = true → s.m.now ≤ (s.m.bstr n).since + s.m.fld .batSwcfg 0 7 0 * 1000 → 
    Completes (.strSwitchFail (n, never)) s (((s.m.elapse (s.m.bstr n).since (s.m.fld .batSwcfg 0 7 0 * 1000)).strOpen n).strFault n 3)) ∧
  (∀ (s : State) (n : Fin 4) (never : Bool), (s.m.bstr n).st = .closed → never = false → 
    Completes (.strSwitchFail (n, never)) s (((s.m.advance 10).strOpen n).strFault n 3)) ∧
  (∀ (s : State) (n : Fin 4) (never : Bool), (s.m.bstr n).st ≠ .closed → 
    Completes (.strSwitchFail (n, never)) s (s.m)) ∧
  (∀ (s : State) (n : Fin 4), (s.m.bstr n).st = .open_ → (s.m.bstr n).ssw = false → (s.m.bstr n).fellAt ≠ 0 → s.m.now ≤ (s.m.bstr n).fellAt + s.m.fld .batSwcfg 0 7 0 * 1000 → 
    Completes (.strSwitchWeld n) s (let m := s.m.elapse (s.m.bstr n).fellAt (s.m.fld .batSwcfg 0 7 0 * 1000)
      (m.putBstr n { (s.m.bstr n) with st := .stuck, fb := true, since := m.now }).strFault n 4)) ∧
  (∀ (s : State) (n : Fin 4), (s.m.bstr n).st = .stuck → 
    Completes (.stringUnstuck n) s ((s.m.putBstr n { s.m.bstr n with st := .open_, fb := false, since := s.m.now }).strLeft)) ∧
  (∀ (s : State) (n : Fin 4), (s.m.bstr n).st ≠ .stuck → 
    Completes (.stringUnstuck n) s (s.m)) ∧
  (∀ (s : State) (n : Fin 4) (t : Nat), (s.m.bstr n).outAt = some t → (s.m.bstr n).st = .open_ ∨ (s.m.bstr n).st = .matching → 
    Completes (.stringAbsent n) s (let m := s.m.elapse t 100000
      (m.putBstr n { (s.m.bstr n) with st := .absent, reading := false, idRes := none, since := m.now }).eventRecord 217 n [wd n])) ∧
  (∀ (s : State) (n : Fin 4), (s.m.bstr n).st = .closed → 
    Completes (.stringAbsent n) s (s.m)) ∧
  (∀ (s : State) (t : Nat), s.m.cnv.removed = some t → s.m.now ≤ t + 1000 → s.m.strsGone ≠ [] → 
    Completes (.batRemoved ()) s (s.m.strsGone.foldl Chip.strRemoved { s.m with cnv := { s.m.cnv with remFound := true } })) ∧
  (∀ (s : State), s.m.cnv.removed = none → s.m.strsGone = [] → 
    Completes (.batRemoved ()) s (s.m)) ∧
  (∀ (s : State) (n : Fin 4) (t : Nat), (s.m.bstr n).cutAt = some t → (s.m.bstr n).st = .closed → (s.m.bstr n).uvDone = false → 
    Completes (.strUndervolt n) s (let m := ((s.m.elapse t 1000000).putBstr n { (s.m.bstr n) with uvDone := true }).strFault n 6
      if m.flag .batStrCfg n 22 = true then m.strOpen n else m)) ∧
  (∀ (s : State) (n : Fin 4), (s.m.bstr n).cutAt = none → 
    Completes (.strUndervolt n) s (s.m)) ∧
  (∀ (s : State) (n : Fin 4) (t : Nat), (s.m.bstr n).ocAt = some t → (s.m.bstr n).st = .closed → (s.m.bstr n).ocDone = false → 
    Completes (.strOvercurrent n) s (let m := ((s.m.elapse t 10000).putBstr n { (s.m.bstr n) with ocDone := true }).strFault n 7
      if m.flag .batStrCfg n 23 = true then m.strOpen n else m)) ∧
  (∀ (s : State) (n : Fin 4), (s.m.bstr n).ocAt = none → 
    Completes (.strOvercurrent n) s (s.m)) ∧
  (∀ (s : State), s.m.pwr.base = .ship → s.m.flag .batShipCfg 0 0 = true → s.m.pwr.supLow = false → 
    Completes (.wakeButton) s (s.m.shipWake 1)) ∧
  (∀ (s : State), s.m.pwr.base = .ship → s.m.flag .batShipCfg 0 0 = true → s.m.pwr.supLow = true → s.m.pwr.wakeDue = 0 → 
    Completes (.wakeButton) s ({ s.m with pwr := { s.m.pwr with wakeDue := 1 } })) ∧
  (∀ (s : State), s.m.pwr.base ≠ .ship → 
    Completes (.wakeButton) s (s.m)) ∧
  (∀ (s : State) (present : Bool), present = true → s.m.pwr.base = .ship → s.m.flag .batShipCfg 0 1 = true → s.m.pwr.supLow = false → 
    Completes (.wakeSource present) s (Chip.shipWake { s.m with bat := { s.m.bat with shipSrc := true } } 2)) ∧
  (∀ (s : State) (present : Bool), s.m.pwr.base ≠ .ship → 
    Completes (.wakeSource present) s ({ s.m with bat := { s.m.bat with shipSrc := present } }))

/-- CHARGE_RECOMPUTE accounts the charge timers and recomputes every 100 ms. The end of the entry rest goes to TRICKLE, PRECHG
or BULK by the cell voltage, the native profile reporting the rest to the estimator; TRICKLE_DONE to PRECHG and PRECHG_DONE
to BULK after 10 s above; the end of an ON interval begins a rest, the end of an unsteady rest an ON interval; termination
of a continuous profile goes to DONE or FLOAT, recharge from FLOAT to BULK. CHG_NOACCEPT and CHG_TIMEOUT end in FAULT with
their charge fault, CHG_OVERVOLT with fault 2. In other phases they move no phase. (R381, R385, R386, R387, R388, R397) -/
def Obligations.BatteryCharging : Prop :=
  (∀ (s : State), s.m.up = true → 
    Completes (.chargeRecompute) s (let m := (s.m.elapse s.m.bat.compAt 100000).batTick s.m.chgFrozen
      Chip.chgCompute { m with bat := { m.bat with compAt := m.now } })) ∧
  (∀ (s : State), (s.m.batTick s.m.chgFrozen).bat.phase = .entry → (s.m.batTick s.m.chgFrozen).chgFrozen = false → 
    Completes (.chgEntryRestEnd ()) s (let m := s.m.batTick s.m.chgFrozen
      let w := m.chgWait m.bat.phaseUs (m.fld .batChgPulse 0 15 8 * 100000)
      let v := w.restV
      let r := if w.profile = 0 then w.restReports v else w
      if r.profile = 1 ∧ v < (r.fld .batChgVphase 0 15 0 : Int) * q1 then r.chgTo .trickle true
      else if v < (r.fld .batChgVphase 0 31 16 : Int) * q1 then r.chgTo .prechg true
      else r.chgTo .bulk true)) ∧
  (∀ (s : State), (s.m.batTick s.m.chgFrozen).bat.phase ≠ .entry → 
    Completes (.chgEntryRestEnd ()) s (s.m.batTick s.m.chgFrozen)) ∧
  (∀ (s : State) (t : Nat), s.m.bat.lowAt = some t → s.m.bat.phase = .trickle → s.m.chgFrozen = false → 
    Completes (.chgTrickleDone) s ((s.m.elapse t 10000000).chgTo .prechg true)) ∧
  (∀ (s : State), s.m.bat.phase ≠ .trickle → 
    Completes (.chgTrickleDone) s (s.m)) ∧
  (∀ (s : State) (t : Nat), s.m.bat.preAt = some t → s.m.bat.phase = .prechg → s.m.chgFrozen = false → 
    Completes (.chgPrechgDone) s ((s.m.elapse t 10000000).chgTo .bulk true)) ∧
  (∀ (s : State), s.m.bat.phase ≠ .prechg → 
    Completes (.chgPrechgDone) s (s.m)) ∧
  (∀ (s : State), (s.m.batTick s.m.chgFrozen).bat.phase = .trickle → (s.m.batTick s.m.chgFrozen).chgFrozen = false → 
    Completes (.chgNoaccept) s (let m := s.m.batTick s.m.chgFrozen
      ((m.chgWait m.bat.phaseUs (m.fld .batChgTmr 0 7 0 * 60000000)).chgTo .fault false).chgFault 1)) ∧
  (∀ (s : State), (s.m.batTick s.m.chgFrozen).bat.phase = .prechg → (s.m.batTick s.m.chgFrozen).chgFrozen = false → 
    Completes (.chgNoaccept) s (let m := s.m.batTick s.m.chgFrozen
      ((m.chgWait m.bat.phaseUs (m.fld .batChgTmr 0 15 8 * 60000000)).chgTo .fault false).chgFault 1)) ∧
  (∀ (s : State), (s.m.batTick s.m.chgFrozen).bat.phase = .bulk ∨ (s.m.batTick s.m.chgFrozen).bat.phase = .topoff → (s.m.batTick s.m.chgFrozen).profile = 0 → (s.m.batTick s.m.chgFrozen).bat.rest = false → (s.m.batTick s.m.chgFrozen).chgFrozen = false → 
    Completes (.chgOnIntervalEnd) s (let m := s.m.batTick s.m.chgFrozen
      let w := m.chgWait m.bat.ivUs (m.fld .batChgPulse 0 7 0 * 1000000)
      Chip.chgCompute { w with bat := { w.bat with rest := true, ivUs := 0, steady := true, onMean := segMean w.bat.iSeg w.now (min 10000000 (m.fld .batChgPulse 0 7 0 * 1000000)) } })) ∧
  (∀ (s : State), (s.m.batTick s.m.chgFrozen).bat.rest = true → (s.m.batTick s.m.chgFrozen).chgFrozen = false → (s.m.batTick s.m.chgFrozen |>.chgWait (s.m.batTick s.m.chgFrozen).bat.ivUs ((s.m.batTick s.m.chgFrozen).fld .batChgPulse 0 15 8 * 100000)).bat.steady = false → 
    Completes (.chgRestEnd () ()) s (let m := s.m.batTick s.m.chgFrozen
      let w := m.chgWait m.bat.ivUs (m.fld .batChgPulse 0 15 8 * 100000)
      Chip.chgCompute { w with bat := { w.bat with rest := false, ivUs := 0, restOk := false } })) ∧
  (∀ (s : State), (s.m.batTick s.m.chgFrozen).bat.rest = false → 
    Completes (.chgRestEnd () ()) s (s.m.batTick s.m.chgFrozen)) ∧
  (∀ (s : State) (t : Nat), (s.m.batTick s.m.chgFrozen).bat.phase = .topoff → (s.m.batTick s.m.chgFrozen).chgFrozen = false → (s.m.batTick s.m.chgFrozen).profile ≠ 0 → (s.m.batTick s.m.chgFrozen).bat.termAt = some t → 
    Completes (.chgTermination) s (let m := s.m.batTick s.m.chgFrozen
      let w := m.elapse t (m.fld .batChgPulse 0 23 16 * 1000000)
      w.chgTo (if w.flag .batCfg 0 3 = true then .float else .done) true)) ∧
  (∀ (s : State), (s.m.batTick s.m.chgFrozen).bat.phase ≠ .topoff → 
    Completes (.chgTermination) s (s.m.batTick s.m.chgFrozen)) ∧
  (∀ (s : State), (s.m.batTick s.m.chgFrozen).bat.phase = .bulk ∨ (s.m.batTick s.m.chgFrozen).bat.phase = .topoff → (s.m.batTick s.m.chgFrozen).chgFrozen = false → 
    Completes (.chgTimeout) s (let m := s.m.batTick s.m.chgFrozen
      ((m.chgWait m.bat.bulkUs (m.fld .batChgTmr 0 31 16 * 60000000)).chgTo .fault false).chgFault 0)) ∧
  (∀ (s : State) (t : Nat), (s.m.batTick s.m.chgFrozen).bat.phase = .float → (s.m.batTick s.m.chgFrozen).chgFrozen = false → (s.m.batTick s.m.chgFrozen).bat.rchAt = some t → 
    Completes (.chgRecharge) s (((s.m.batTick s.m.chgFrozen).elapse t 10000000).chgTo .bulk true)) ∧
  (∀ (s : State), (s.m.batTick s.m.chgFrozen).bat.phase = .bulk → 
    Completes (.chgRecharge) s (s.m.batTick s.m.chgFrozen)) ∧
  (∀ (s : State) (t : Nat), s.m.bat.ovAt = some t → s.m.bat.phase ≠ .fault → s.m.bat.phase ≠ .idle → 
    Completes (.chgOvervolt) s (((s.m.elapse t 100000).chgTo .fault false).chgFault 2)) ∧
  (∀ (s : State), s.m.bat.phase = .fault → 
    Completes (.chgOvervolt) s (s.m))

/-- EST_UPDATE advances every string that has an origin by 100 ms. A tone window that is not valid counts as bad, a valid one
stores the tone's impedance; either way the next window starts. A string in use whose channels are too slow raises source 86
once. A current step seen at a closed string learns the ohmic resistance −dv ÷ di, and its end RPOL. A module reading is
issued for a monitor that is configured. The periodic store, the stored copy with event 219, a retry and the commands STORE,
RELEARN and FORGET follow their rows. Readings without a monitor, and windows that no correlator runs for, change nothing.
(R401, R404, R405, R407, R408, R415, R417, R420, R421, R422, R424) -/
def Obligations.BatteryEstimation : Prop :=
  (∀ (s : State) (n : Nat) (ns : List Nat), s.m.estRuns = true → (List.range 4).filter (fun n => s.m.strOn n && (s.m.estr n).origin != 0) = n :: ns → 
    Completes (.estUpdate) s ((n :: ns).foldl Chip.estAdvance (s.m.elapse (s.m.estr n).updAt 100000))) ∧
  (∀ (s : State), s.m.estRuns = false → 
    Completes (.estUpdate) s (s.m)) ∧
  (∀ (s : State) (n : Fin 4) (t : Fin 8) (k : Corr), (s.m.estr n).corr.find? (fun e => e.1 = t.val) = some (t.val, k) → s.m.estOn n = true → (s.m.elapse 0 (s.m.corrEnd k)).corrValid n k = false → 
    Completes (.estWindowEnd n t () () () () () ()) s (let m := s.m.elapse 0 (s.m.corrEnd k)
      m.putEstr n { (s.m.estr n) with bad := satTo 65535 ((s.m.estr n).bad + 1), corr := if m.corrOn n t then Tab.insert ltN (Tab.erase (s.m.estr n).corr t.val) t.val (m.corrNew t) else Tab.erase (s.m.estr n).corr t.val })) ∧
  (∀ (s : State) (n : Fin 4) (t : Fin 8) (k : Corr), (s.m.estr n).corr.find? (fun e => e.1 = t.val) = some (t.val, k) → s.m.estOn n = true → (s.m.elapse 0 (s.m.corrEnd k)).corrValid n k = true → 
    Completes (.estWindowEnd n t () () () () () ()) s (let m := (s.m.elapse 0 (s.m.corrEnd k)).corrTake n t k
      m.putEstr n { m.estr n with corr := if m.corrOn n t then Tab.insert ltN (Tab.erase (m.estr n).corr t.val) t.val (m.corrNew t) else Tab.erase (m.estr n).corr t.val })) ∧
  (∀ (s : State) (n : Fin 4) (t : Fin 8), (s.m.estr n).corr.find? (fun e => e.1 = t.val) = none → 
    Completes (.estWindowEnd n t () () () () () ()) s (s.m)) ∧
  (∀ (s : State) (n : Fin 4) (t : Fin 8) (k : Corr), (s.m.estr n).corr.find? (fun e => e.1 = t.val) = some (t.val, k) → s.m.estOn n = false → 
    Completes (.estWindowEnd n t () () () () () ()) s (s.m)) ∧
  (∀ (m : Chip) (n : Nat), m.strOn n = true → m.estRateOk n = false → has m.est.slow n = false →
    m.estSlow n = Chip.raise { m with est := { m.est with slow := setM m.est.slow n } } 86 n []) ∧
  (∀ (s : State) (n : Fin 4) (di dv v0 : Int), s.m.estOn n = true → s.m.strClosed n = true → s.m.estStepSeen n = some (di, dv, v0) → 
    Completes (.estStep n () ()) s (s.m.putEstr n { (s.m.estr n).setR0 (-dv * e32 / (10 * di)) (s.m.overRef n) with hiAt := s.m.now + 1, hiBy := 0, modStep := true, step := some { di := di, dv := dv, stamp := s.m.now, v0 := v0, iNew := s.m.strI n, vs := [(s.m.now, s.m.strV n)] }, corr := (s.m.estr n).corr.map (fun e => (e.1, { e.2 with ok := e.2.ok && !s.m.corrBegun e.2 })) })) ∧
  (∀ (s : State) (n : Fin 4), s.m.estStepSeen n = none → 
    Completes (.estStep n () ()) s (s.m)) ∧
  (∀ (s : State) (n : Fin 4) (st : EstStep), (s.m.estr n).step = some st → 
    ∃ m', Completes (.estStepTstep n () ()) s m' ∧ (m'.estr n).learned.rpol = -(s.m.strV n - st.v0 - st.dv) * e32 / (10 * st.di) ∧ (m'.estr n).step = none ∧
      st.stamp + s.m.fld .estStepcfg 0 15 8 * 100000 ≤ m'.now ∧ m'.regs = s.m.regs) ∧
  (∀ (s : State) (n : Fin 4), (s.m.estr n).step = none → 
    Completes (.estStepTstep n () ()) s (s.m)) ∧
  (∀ (s : State) (n : Fin 4), s.m.estOn n = true → s.m.flag .batStrMon n 31 = true → 
    Completes (.estModuleRead n ()) s (let m := s.m.elapse (s.m.estr n).modAt 10000000
      (m.putEstr n { m.estr n with modAt := m.now }).vendorIssue .read (s.m.fld .batStrMon n 11 0) 0x011 0)) ∧
  (∀ (s : State) (n : Fin 4), s.m.flag .batStrMon n 31 = false → 
    Completes (.estModuleRead n ()) s (s.m)) ∧
  (∀ (s : State), s.m.up = true → 
    Completes (.estStorePeriodic) s (let m := s.m.elapse s.m.est.periodAt (s.m.fld .estStorecfg 0 10 0 * 60000000)
      Chip.storeDue { m with est := { m.est with periodAt := m.now } })) ∧
  (∀ (s : State) (b : Bool), s.m.est.writing = some b → 
    Completes (.estStored) s (let m := s.m.elapse s.m.est.writeAt 2100
      let m := m.putEstSlot b { m.estSlot b with commit := (m.estSlot b).seq }
      let m : Chip := { m with est := { m.est with writing := none, doneAt := m.now, everDone := true } }
      let m := (m.eventRecord 219 0 []).event 219
      if m.est.due then Chip.storeDue { m with est := { m.est with due := false } } else m)) ∧
  (∀ (s : State), s.m.est.writing = none → 
    Completes (.estStored) s (s.m)) ∧
  (∀ (s : State) (b : Bool), s.m.est.abandoned = some b → s.m.pwr.ecdFired = false → s.m.est.writing = none → 
    Completes (.estStoreRetry) s (({ s.m with est := { s.m.est with writing := some b, writeAt := s.m.now, abandoned := none } } : Chip))) ∧
  (∀ (s : State), s.m.est.abandoned = none → s.m.est.due = false → 
    Completes (.estStoreRetry) s (s.m)) ∧
  (∀ (s : State), s.m.est.abandoned = none → s.m.est.due = true → s.m.est.writing = none → s.m.pwr.ecdFired = false → 
    Completes (.estStoreRetry) s (Chip.storeDue ({ s.m with est := { s.m.est with due := false } } : Chip))) ∧
  (WriteRow (fun ag => .estStore ag) .estCmd 0 (1)
    (fun _ m => m.storeDue.estStatus .ok 1)) ∧
  (∀ (n : Fin 4), WriteRow (fun ag => .relearn ag n) .estCmd 0 (wd (2 + n.val * 256))
    (fun _ m => ((m.estUnknown n).estInsertion n).estStatus .ok 2)) ∧
  (∀ (k : Fin 16), WriteRow (fun ag => .forget ag k) .estCmd 0 (wd (3 + k.val * 256))
    (fun _ m => Chip.estStatus { m with est := { m.est with frozen := m.est.frozen.eraseIdx (k - m.liveRecords.length) } } .ok 3))

/-- A granted write of words 1 to 3 of an entry stores the writable bits. TRANSACTION_START serves the path of its number: buses
0 to 15, segments 16 to 19. A transaction ends with ETIMEOUT once TMO (50 ms for 0) has passed since it came to its entry's
head, and the earliest one not held at the queue maximum. A due poll sets the time of the next; with nothing in its way it
is accepted as a read transaction, with a poll of its entry outstanding it is counted lost. The end of a generation hold
releases the transactions it held, issued now. A stalled credit class raises source 89. Unfence, DISCOVER and DISC_CLEAR
report OK; a discovery's end raises event 222. (R428, R434, R437, R446, R447, R448, R450, R452, R454, R456, R457, R459) -/
def Obligations.PartnerTransactions : Prop :=
  (∀ (s : State) (ag : Agent) (e : BitVec 12) (w : Fin 8) (d : Word), 1 ≤ w.val → w.val ≤ 3 → s.m.grants ag (0x400000 + 32 * e.toNat + 4 * w.val) d →
    Completes (.partnerTableWrite ag e w d) s (s.m.written { s.m with ptn := { s.m.ptn with
      table := NTab.set 0 s.m.ptn.table (8 * e.toNat + w.val) (d &&& wd (tabMask w)) } } ag (0x400000 + 32 * e.toNat + 4 * w.val) .ok)) ∧
  (∀ (s : State) (p : Fin 20) (sel : Fin 6), p.val < 16 → 
    Completes (.transactionStart p sel) s (s.m.busStart p sel)) ∧
  (∀ (s : State) (p : Fin 20) (sel : Fin 6), 16 ≤ p.val → 
    Completes (.transactionStart p sel) s (s.m.segStart (p.val - 16))) ∧
  (∀ (s : State) (e : BitVec 12) (t : Txn) (t0 : Nat), s.m.headTxn e.toNat = some t → t.headAt = some t0 → 
    Completes (.transactionTimeout e) s ((s.m.elapse t0 ((if bits (s.m.pw e.toNat 0) 15 8 = 0 then 50 else bits (s.m.pw e.toNat 0) 15 8) * 1000)).endTxn t .etimeout 0)) ∧
  (∀ (s : State) (e : BitVec 12), s.m.headTxn e.toNat = none → 
    Completes (.transactionTimeout e) s (s.m)) ∧
  (∀ (s : State) (e : BitVec 12) (t : Txn), ((s.m.entTxns e.toNat).filter (fun t => t.early.isNone && !t.held)).foldl earlier none = some t → 
    Completes (.qmaxExpiry e) s ((s.m.elapse t.issued (s.m.fld .ptnQmax 0 13 0 * 1000)).endTxn t .etimeout 0)) ∧
  (∀ (s : State) (e : BitVec 12), s.m.entTxns e.toNat = [] → 
    Completes (.qmaxExpiry e) s (s.m)) ∧
  (∀ (s : State) (e : BitVec 12) (r n : Nat), s.m.entDefined e.toNat = true → bitOf (s.m.pw e.toNat 4) 31 = true → s.m.pwr.base ≠ .shadow → (∀ t ∈ s.m.entTxns e.toNat, t.kind ≠ .poll) → s.m.pollsOut < s.m.fld .ptnCfg 0 23 16 → s.m.ringStalled = false → s.m.entFenced e.toNat = false → s.m.poolFull false = false → itemOf (s.m.entClass e.toNat) (bits (s.m.pw e.toNat 4) 27 16) = some (r, n) → 1 ≤ n ∧ n ≤ 4 → 
    Completes (.telemetryPoll e) s (let m := s.m.elapse (s.m.ent e.toNat).pollAt 0
      let m := m.putEnt e.toNat { m.ent e.toNat with pollAt := m.now + m.pollPer e.toNat }
      m.accept e.toNat (bits (s.m.pw e.toNat 4) 27 16) .poll .lib 0 0 0 none false)) ∧
  (∀ (s : State) (e : BitVec 12), s.m.entDefined e.toNat = true → bitOf (s.m.pw e.toNat 4) 31 = true → s.m.pwr.base ≠ .shadow → (s.m.entTxns e.toNat).any (fun t => t.kind = .poll) = true → 
    Completes (.telemetryPoll e) s (let m := s.m.elapse (s.m.ent e.toNat).pollAt 0
      let m := m.putEnt e.toNat { m.ent e.toNat with pollAt := m.now + m.pollPer e.toNat }
      m.pollLost e.toNat)) ∧
  (∀ (s : State) (e : BitVec 12), bitOf (s.m.pw e.toNat 4) 31 = false → 
    Completes (.telemetryPoll e) s (s.m)) ∧
  (∀ (s : State) (shelf : Bool), (if shelf then s.m.ptn.holdShelf else s.m.ptn.holdRect) = true → 
    ∃ m', Completes (.generationHoldEnd shelf) s m' ∧ (if shelf then m'.ptn.holdShelf else m'.ptn.holdRect) = false ∧ m'.ptn.pool = s.m.ptn.pool.map (fun t =>
      if t.held && (s.m.entClass t.entry = 6) = shelf then { t with held := false, issued := m'.now } else t) ∧
      s.m.ptn.holdAt + s.m.ghold shelf * 1000 ≤ m'.now ∧ m'.regs = s.m.regs) ∧
  (∀ (s : State) (e : BitVec 12) (c : Fin 4) (t0 : Nat), (s.m.ent e.toNat).stall = some (c.val, t0, false) → 
    Completes (.ptnCreditStall e c) s (let m := s.m.elapse t0 (s.m.fld .ptnCrto 0 7 0 * 1000)
      (m.putEnt e.toNat { m.ent e.toNat with stall := some (c.val, t0, true) }).raise 89 e.toNat [])) ∧
  (∀ (s : State) (e : BitVec 12) (c : Fin 4), (s.m.ent e.toNat).stall = none → 
    Completes (.ptnCreditStall e c) s (s.m)) ∧
  (∀ (d : Word), WriteRow (fun ag => .ptnTelRdWrite ag d) .ptnTelRd 0 (d)
    (fun _ m => (m.put .ptnTelRd 0 d).ringRearm)) ∧
  (∀ (e : BitVec 12), WriteRow (fun ag => .partnerUnfence ag e) .ptnCmd 0 (wd (1 + e.toNat * 16))
    (fun _ m => (m.entUnfence e.toNat).ptnStatus .ok 1)) ∧
  (∀ (d : Word), WriteRow (fun ag => .discover ag d) .ptnCmd 0 (setBits d 3 0 2)
    (fun _ m => ((Chip.wake { m with ptn := { m.ptn with discRun := some (setBits d 3 0 2), discAt := m.now, discNext := 8, discArbs := 0, idAt := none } } .lnk).idRequest (setBits d 3 0 2)).ptnStatus .ok 2)) ∧
  (WriteRow (fun ag => .discClear ag) .ptnCmd 0 (3)
    (fun _ m => Chip.ptnStatus { m with ptn := { m.ptn with disc := [] } } .ok 3)) ∧
  (∀ (s : State), s.m.ptn.discRun = none → 
    Completes (.ptnDiscovered ()) s (s.m)) ∧
  (∀ (s : State) (d : Word), s.m.ptn.discRun = some d → s.m.discOver d = false → 
    Completes (.ptnDiscovered ()) s (s.m)) ∧
  (∀ (s : State) (d : Word), s.m.ptn.discRun = some d → s.m.discOver d = true → s.m.ptn.idAt = none → 
    Completes (.ptnDiscovered ()) s ((({ s.m with ptn := { s.m.ptn with discRun := none } } : Chip).eventRecord 222 0 [wd s.m.ptn.disc.length]).event 222))

/-- For the transfer on the wire: a completed one gives the word its bytes mean, a NACK counts and ends with ENACK, a stretch
beyond its limit counts and ends with ETIMEOUT, a protocol error with EPROTO, an arbitration lost beyond the retry limit
with EARB. A hail at an idle manager on a bus that no other controller holds begins the alert response; its answer is
recorded with event 223, no answer ends it. A stuck bus aborts its transfer and recovers; a recovery that fails, or a clock
still low after a stretch, fences the bus and raises 91 + n. RECOVER and UNFENCE begin a recovery and show EBUSY. With
nothing on the wire and the clock high the events change nothing. TW_TARGET_WRITE of a code below 0x20 sets the pointer and
acknowledges unless data follow, each byte of which it counts and rejects; a code beyond is not acknowledged. TW_TARGET_READ
without PEC gives the register the pointer names, little-endian, padded with 0xFF to the count read. MIRROR_UPDATE at Basic
writes the eight mirror registers; at Expert it changes nothing. (R464, R465, R466, R467, R468, R470, R471, R472, R473,
R478, R479, R481) -/
def Obligations.TwoWireBuses : Prop :=
  (∀ (s : State) (n : Fin 16) (out : Fin 3) (bytes : List Byte) (v : Nat) (t : Txn) (e : Nat), (s.m.bus n).probe = none → s.m.onBus n = some (t, e) → out.val = 0 → t.kind ≠ .blkr → s.m.readEnd t e (bytes.map BitVec.toNat) = some (.ok, v) → 
    Completes (.twTransferEnd n out bytes) s ((s.m.putBus n { s.m.bus n with got := ackedBytes (bytes.map BitVec.toNat) }).wireEnd n t e .ok v)) ∧
  (∀ (s : State) (n : Fin 16) (out : Fin 3) (bytes : List Byte) (t : Txn) (e : Nat), (s.m.bus n).probe = none → s.m.onBus n = some (t, e) → out.val = 1 → 
    Completes (.twTransferEnd n out bytes) s (((s.m.putBus n { s.m.bus n with got := ackedBytes (bytes.map BitVec.toNat) }).bump .twbNCnt0 n 15 0 1).wireEnd n t e .enack 0)) ∧
  (∀ (s : State) (n : Fin 16) (out : Fin 3) (bytes : List Byte), (s.m.bus n).probe = none → s.m.onBus n = none → 
    Completes (.twTransferEnd n out bytes) s (s.m)) ∧
  (∀ (s : State) (n : Fin 16) (t : Txn) (e : Nat), s.m.inHail n = false → (s.m.bus n).probe = none → s.m.onBus n = some (t, e) → 
    Completes (.twStretchTimeout n) s (let m := s.m.elapse (s.m.bus n).since (s.m.stretchTo n)
      ((m.bump .twbNCnt2 n 15 0 1).wireEnd n t e .etimeout 0).sclLow n (m.now - s.m.stretchTo n))) ∧
  (∀ (s : State) (n : Fin 16), s.m.inHail n = true → 
    Completes (.twStretchTimeout n) s (let m := s.m.elapse (s.m.bus n).since (s.m.stretchTo n)
      ((m.bump .twbNCnt2 n 15 0 1).busIdle n).sclLow n (m.now - s.m.stretchTo n))) ∧
  (∀ (s : State) (n : Fin 16) (t : Txn) (e : Nat), s.m.inHail n = false → (s.m.bus n).probe = none → s.m.onBus n = some (t, e) → s.m.entGroup t.entry = false → s.m.fld .twbNTmo n 19 16 < t.arbs + 1 → 
    Completes (.twArbLost n) s (let m := (s.m.bump .twbNCnt0 n 31 16 1).wireEnd n t e .earb 0
      m.putBus n { m.bus n with other := true })) ∧
  (∀ (s : State) (n : Fin 16), s.m.inHail n = true → 
    Completes (.twArbLost n) s ((s.m.putBus n { s.m.bus n with ara := false, other := true }).bump .twbNCnt0 n 31 16 1)) ∧
  (∀ (s : State) (n : Fin 16) (t : Txn) (e : Nat), s.m.flag .twbNCfg n 4 = false → s.m.inHail n = false → (s.m.bus n).probe = none → s.m.onBus n = some (t, e) → 
    Completes (.twProtoError n) s ((s.m.bump .twbNCnt1 n 15 0 1).wireEnd n t e .eproto 0)) ∧
  (∀ (s : State) (n : Fin 16), s.m.flag .twbNCfg n 0 = true → s.m.flag .twbNCfg n 3 = true → s.m.flag .twbNCfg n 4 = false → s.m.pwr.base ≠ .shadow → s.m.busFenced n = false → (s.m.bus n).st = .idle → (s.m.bus n).onWire = none → (s.m.bus n).other = false → 
    Completes (.twHailDetect n) s ((s.m.putBus n { (s.m.bus n) with st := .hail, aras := 0, ara := false, sda := false, hailAt := s.m.now, since := s.m.now }).advance 20)) ∧
  (∀ (s : State) (n : Fin 16), s.m.flag .twbNCfg n 3 = false → 
    Completes (.twHailDetect n) s (s.m)) ∧
  (∀ (s : State) (n : Fin 16), (s.m.bus n).st = .hail → (s.m.bus n).ara = false → (s.m.bus n).other = false → 
    Completes (.araRead n) s (s.m.putBus n { (s.m.bus n) with ara := true, sda := true, since := s.m.now, sent := [0x19], sel := [], got := [] })) ∧
  (∀ (s : State) (n : Fin 16) (ack : Bool) (a : BitVec 7) (b0 : Fin 2) (e : Nat), s.m.inHail n = true → ack = true → s.m.hailEntry n a.toNat = some e → s.m.fld .twbNTmo n 28 24 ≤ (s.m.bus n).aras + 1 → 
    Completes (.twHail n ack a b0) s (let m := (s.m.put .twbNHail n (wd (a.toNat + b0.val * 128 + e * 256 + 2 ^ 31))).bump .twbNCnt3 n 15 0 1
      let m := (m.eventRecord 223 n [wd a.toNat, wd e, wd b0.val, m.muxWord n]).event 223
      let m := m.putBus n { m.bus n with aras := (s.m.bus n).aras + 1, ara := false, since := m.now, got := [(2 * a.toNat + b0.val, bitOf (s.m.pw e 1) 7)] }
      if m.fld .twbNTmo n 28 24 ≤ (s.m.bus n).aras + 1 then m.busIdle n else m)) ∧
  (∀ (s : State) (n : Fin 16) (ack : Bool) (a : BitVec 7) (b0 : Fin 2), s.m.inHail n = true → ack = false → 
    Completes (.twHail n ack a b0) s (s.m.busIdle n)) ∧
  (∀ (s : State) (n : Fin 16) (ack : Bool) (a : BitVec 7) (b0 : Fin 2), s.m.inHail n = false → 
    Completes (.twHail n ack a b0) s (s.m)) ∧
  (∀ (s : State) (n : Fin 16), (s.m.bus n).st = .hail → (s.m.bus n).ara = false → (s.m.bus n).aras = 0 → 
    Completes (.hailLong n) s ((s.m.elapse (s.m.bus n).hailAt 100).bump .twbNCnt3 n 31 16 1)) ∧
  (∀ (s : State) (n : Fin 16), (s.m.bus n).st ≠ .hail → 
    Completes (.hailLong n) s (s.m)) ∧
  (∀ (s : State) (n : Fin 16), s.m.busRuns n = true → (s.m.bus n).st = .idle → (s.m.bus n).probe = none → s.m.onBus n = none → 
    Completes (.busStuckDetect n) s (let m := s.m.elapse (s.m.bus n).since (s.m.stuckTo n)
      m.putBus n { (s.m.bus n) with st := .recover, onWire := none, ara := false, sda := false, byCmd := 0, wasFenced := false, since := m.now })) ∧
  (∀ (s : State) (n : Fin 16) (t : Txn) (e : Nat), s.m.busRuns n = true → (s.m.bus n).st = .active → (s.m.bus n).probe = none → s.m.onBus n = some (t, e) → 
    Completes (.busStuckDetect n) s (let m := (s.m.elapse (s.m.bus n).since (s.m.stuckTo n)).wireEnd n t e .eabort 0
      m.putBus n { m.bus n with st := .recover, onWire := none, ara := false, sda := false, byCmd := 0, wasFenced := false, since := m.now })) ∧
  (∀ (s : State) (n : Fin 16) (ls : Fin 3), (s.m.bus n).st = .recover → ls.val = 1 → 
    Completes (.busRecoveryEnd n ls) s ((s.m.elapse (s.m.bus n).since ((1 * s.m.sclPeriod n + 999) / 1000)).recovered n)) ∧
  (∀ (s : State) (n : Fin 16) (ls : Fin 3), (s.m.bus n).st = .recover → ls.val = 0 → (s.m.bus n).wasFenced = false → 
    Completes (.busRecoveryEnd n ls) s (let m := s.m.elapse (s.m.bus n).since ((9 * s.m.sclPeriod n + 999) / 1000)
      let b := { m.bus n with sda := false, scl := true }
      (((m.putBus n b).recoverStat n b.byCmd .etimeout).busFence n (91 + n)).raise (91 + n) n (m.stuckPayload n 1))) ∧
  (∀ (s : State) (n : Fin 16) (ls : Fin 3), (s.m.bus n).st ≠ .recover → 
    Completes (.busRecoveryEnd n ls) s (s.m)) ∧
  (∀ (s : State) (n : Fin 16), s.m.busRuns n = true → (s.m.bus n).st = .idle → (s.m.bus n).scl = false → 
    Completes (.busStuckScl n) s (let m := s.m.elapse (s.m.bus n).sclAt (s.m.stuckTo n)
      ((m.busFence n (91 + n)).sclLow n (s.m.bus n).sclAt).raise (91 + n) n (m.stuckPayload n 2))) ∧
  (∀ (s : State) (n : Fin 16), s.m.busBusy n = false → (s.m.bus n).scl = true → 
    Completes (.busStuckScl n) s (s.m)) ∧
  (∀ (s : State) (ag : Agent) (n : Fin 16), s.m.grants ag (RName.addr .twbNCmd n) 1 →
    Completes (.busRecover ag n) s (s.m.written ((s.m.putBus n { s.m.bus n with st := .recover, byCmd := 1, wasFenced := false, since := s.m.now }).twbStatus n 1 .ebusy)
      ag (RName.addr .twbNCmd n) .ok)) ∧
  (∀ (s : State) (ag : Agent) (n : Fin 16), s.m.grants ag (RName.addr .twbNCmd n) 2 →
    Completes (.busUnfence ag n) s (s.m.written ((s.m.putBus n { s.m.bus n with st := .recover, byCmd := 2, wasFenced := true, since := s.m.now }).twbStatus n 2 .ebusy)
      ag (RName.addr .twbNCmd n) .ok)) ∧
  (∀ (s : State) (c : Byte) (x : Nat), s.m.tgtRuns = true → c.toNat < 0x20 → x = 0 → 
    Completes (.twTargetWrite c x) s (({ s.m with twb := { s.m.twb with tgtPtr := c.toNat, tgtAck := true } } : Chip))) ∧
  (∀ (s : State) (c : Byte) (x : Nat), s.m.tgtRuns = true → c.toNat < 0x20 → x ≠ 0 → 
    Completes (.twTargetWrite c x) s (({ s.m with twb := { s.m.twb with tgtPtr := c.toNat, tgtAck := false } } : Chip).bump .twbTgtWrej 0 15 0 x)) ∧
  (∀ (s : State) (c : Byte) (x : Nat), s.m.tgtRuns = true → 0x20 ≤ c.toNat → 
    Completes (.twTargetWrite c x) s (({ s.m with twb := { s.m.twb with tgtAck := false } } : Chip))) ∧
  (∀ (s : State) (count : Nat), s.m.tgtRuns = true → s.m.flag .twbTgtCfg 0 7 = false → 
    Completes (.twTargetRead none count) s (({ s.m with twb := { s.m.twb with tgtOut := (leBytes (s.m.get .twbTgtMir s.m.twb.tgtPtr) ++ List.replicate (count - 4) 0xFF).take count, tgtAck := true } } : Chip))) ∧
  (∀ (s : State) (c : Option Byte) (count : Nat), s.m.tgtRuns = false → 
    Completes (.twTargetRead c count) s (s.m)) ∧
  (∀ (s : State) (v : Nat) (i : Int), s.m.up = true → s.m.expert .twb = false → 
    ∃ m', Completes (.mirrorUpdate v i) s m' ∧ m'.get .twbTgtMir 0 = s.m.modeWord ∧ m'.get .twbTgtMir 1 = wd (v % 65536) ∧ m'.get .twbTgtMir 2 = wdI i ∧
      m'.get .twbTgtMir 3 = (s.m.elapse s.m.twb.mirAt 100000).estRead .estShelfSoc 0 ∧ m'.get .twbTgtMir 5 = (s.m.elapse s.m.twb.mirAt 100000).polStat ∧ m'.get .twbTgtMir 6 = wd (s.m.elapse s.m.twb.mirAt 100000).opsec ∧ m'.get .twbTgtMir 7 = wd s.m.nvm.pcc) ∧
  (∀ (s : State) (v : Nat) (i : Int), s.m.up = true → s.m.expert .twb = true → 
    Completes (.mirrorUpdate v i) s (s.m))

/-- With no host frame open in a powered chip: a write or read with a good CRC whose access is not held is performed, and its
status (and for a read the address and the word) is driven; a bad CRC counts in HST_CNT and drives EPROTO. SUMMARY drives
the status and the summary byte, RE-READ the last read's answer or ESTATE, WIDTH_RESET takes the port to one bit, an unknown
opcode counts. An aborted request has no effect but its count. While a host frame is held open, other frames are ignored.
(R487, R488, R491, R520) -/
def Obligations.HostPort : Prop :=
  (∀ (s : State) (addr : BitVec 24) (d : Word), s.m.alive = true → s.m.hostOpen = false → s.m.hostSilent.mustHold (hostHeld true addr.toNat d) = false → 
    Completes (.hostWrite true addr d) s (let x := s.m.hostSilent.perform (hostHeld true addr.toNat d)
      x.1.hostDrive s.m.pwr.base [x.2.1.code])) ∧
  (∀ (s : State) (addr : BitVec 24) (d : Word), s.m.alive = true → s.m.hostOpen = false → 
    Completes (.hostWrite false addr d) s ((s.m.hostSilent.bump .hstCnt 0 9 0 1).hostDrive s.m.pwr.base [Status.eproto.code])) ∧
  (∀ (s : State) (addr : BitVec 24), s.m.alive = true → s.m.hostOpen = false → s.m.hostSilent.mustHold (hostHeld false addr.toNat 0) = false → 
    Completes (.hostRead true addr) s (let x := s.m.hostSilent.perform (hostHeld false addr.toNat 0)
      (x.1.keepRead x.2.1 addr.toNat x.2.2).hostDrive s.m.pwr.base (x.2.1.code :: (le24 addr.toNat ++ leBytes x.2.2)))) ∧
  (∀ (s : State) (addr : BitVec 24), s.m.alive = true → s.m.hostOpen = false → 
    Completes (.hostRead false addr) s ((s.m.hostSilent.bump .hstCnt 0 9 0 1).hostDrive s.m.pwr.base (Status.eproto.code :: (le24 addr.toNat ++ leBytes 0)))) ∧
  (∀ (s : State), s.m.alive = true → s.m.hostOpen = false → s.m.hostSilent.mayClass .host 0 = true → s.m.hostSilent.mode ≠ 0xB → s.m.pwr.base ≠ .boot → 
    Completes (.hostSummary true) s (s.m.hostSilent.hostDrive s.m.pwr.base [0, s.m.hostSilent.sumByte])) ∧
  (∀ (s : State), s.m.alive = true → s.m.hostOpen = false → 
    Completes (.hostSummary false) s ((s.m.hostSilent.bump .hstCnt 0 9 0 1).hostDrive s.m.pwr.base [Status.eproto.code, 0])) ∧
  (∀ (s : State) (st : Status) (a : Nat) (w : Word), s.m.alive = true → s.m.hostOpen = false → s.m.hst.lastRead = some (st, a, w) → 
    Completes (.hostReread true) s (s.m.hostSilent.hostDrive s.m.pwr.base (readBody st a w))) ∧
  (∀ (s : State), s.m.alive = true → s.m.hostOpen = false → s.m.hst.lastRead = none → 
    Completes (.hostReread true) s (s.m.hostSilent.hostDrive s.m.pwr.base (readBody .estate 0 0))) ∧
  (∀ (s : State), s.m.alive = true → 
    Completes (.widthReset) s (Chip.putF { s.m with hst := { s.m.hst with resp := [], quad := false }, pwr := { s.m.pwr with held := s.m.pwr.held.map (fun h => if h.ag = .host ∧ h.dst = 1 then { h with dst := 2 } else h) } } .hstCfg 0 1 1 0)) ∧
  (∀ (s : State), s.m.alive = true → s.m.hostOpen = false → 
    Completes (.hostFrameAbort .request) s (s.m.hostSilent.bump .hstCnt 0 29 20 1)) ∧
  (∀ (s : State), s.m.alive = true → s.m.hostOpen = false → 
    Completes (.unknownOpcode) s (s.m.hostSilent.bump .hstCnt 0 19 10 1)) ∧
  (∀ (s : State) (c : Bool) (a : BitVec 24) (d : Word), s.m.alive = true → s.m.hostOpen = true →
    Completes (.hostWrite c a d) s s.m ∧ Completes (.hostRead c a) s s.m ∧ Completes (.hostSummary c) s s.m ∧
    Completes (.hostReread c) s s.m ∧ Completes .unknownOpcode s s.m)

/-- A granted write of an authority mask keeps only bits that were set. A granted write of MBX_TX by an end of the channel
appends the word, or answers EFULL with 16 waiting; a read of MBX_RX by an end takes the oldest word, or answers EBUSY. ECHO
returns the words sent, VERSION the active image's words, FW_SNAPSHOT of nothing ERANGE; an unknown code gives ERANGE and an
incomplete request EPROTO at its time-out. A channel with no request is left as it is. (R495, R499, R505) -/
def Obligations.MailboxesAndServices : Prop :=
  (∀ (s : State) (ag : Agent) (d : Word), s.m.grants ag (RName.addr .hstAuthHost 0) d →
    Completes (.authMaskWrite ag 0 d) s (s.m.written (s.m.store .hstAuthHost 0 (s.m.get .hstAuthHost 0 &&& d)) ag (RName.addr .hstAuthHost 0) .ok)) ∧
  (∀ (s : State) (ag : Agent) (d : Word), s.m.grants ag (RName.addr .hstAuthSvc 0) d →
    Completes (.authMaskWrite ag 1 d) s (s.m.written (s.m.store .hstAuthSvc 0 (s.m.get .hstAuthSvc 0 &&& d)) ag (RName.addr .hstAuthSvc 0) .ok)) ∧
  (∀ (s : State) (ag : Agent) (d : Word), s.m.grants ag (RName.addr .hstAuthPeer 0) d →
    Completes (.authMaskWrite ag 2 d) s (s.m.written (s.m.store .hstAuthPeer 0 (s.m.get .hstAuthPeer 0 &&& d)) ag (RName.addr .hstAuthPeer 0) .ok)) ∧
  (∀ (s : State) (ag : Agent) (c : Fin 64) (d : Word) (a : Bool), s.m.grants ag (RName.addr .hstMbxTx c) d →
    (s.m.endOf ag).bind (fun e => sideOf e c) = some a → (s.m.mq c a).length < 16 →
    Completes (.mbxTxWrite ag c d) s (s.m.written (if s.m.mq c a = [] then (s.m.putMq c a [d]).ring (receiver c a) c else s.m.putMq c a (s.m.mq c a ++ [d]))
      ag (RName.addr .hstMbxTx c) .ok)) ∧
  (∀ (s : State) (ag : Agent) (c : Fin 64) (d : Word) (a : Bool), s.m.grants ag (RName.addr .hstMbxTx c) d →
    (s.m.endOf ag).bind (fun e => sideOf e c) = some a → 16 ≤ (s.m.mq c a).length →
    Completes (.mbxTxWrite ag c d) s (s.m.written s.m ag (RName.addr .hstMbxTx c) .efull)) ∧
  (∀ (s : State) (ag : Agent) (c : Fin 64) (a : Bool), s.m.grantsRead ag (RName.addr .hstMbxRx c) →
    (s.m.endOf ag).bind (fun e => sideOf e c) = some a → Completes (.mbxRxRead ag c) s (match s.m.mq c (!a) with
      | [] => s.m.respond ag .ebusy 0
      | w :: ws => (s.m.putMq c (!a) ws).respond ag .ok w)) ∧
  (∀ (s : State) (c : Fin 64) (a : Bool) (h : Word) (ws : List Word), s.m.request c = some (a, h, ws) → bits h 31 24 = 1 → ws.length = bits h 23 20 → ws.length ≤ 14 → 
    Completes (.echo c) s (s.m.reply c a (1 + ws.length) (replyHead h ws.length .ok :: ws))) ∧
  (∀ (s : State) (c : Fin 64) (a : Bool) (h : Word) (ws : List Word), s.m.request c = some (a, h, ws) → bits h 31 24 = 2 → bits h 23 20 = 0 → ws = [] → 
    Completes (.version c) s (s.m.reply c a 1 [replyHead h 3 .ok, wd s.m.upd.act.ver, wd s.m.upd.act.bver, wd s.m.upd.act.dig])) ∧
  (∀ (s : State) (c : Fin 64) (a : Bool) (h : Word) (ws : List Word), s.m.request c = some (a, h, ws) → bits h 31 24 = 3 → bits h 23 20 = 0 → ws = [] → (s.m.mq c (!a)).length < 16 → 
    Completes (.fwSnapshot c) s (s.m.reply c a 1 [replyHead h 0 .erange])) ∧
  (∀ (s : State) (c : Fin 64) (a : Bool) (h : Word) (ws : List Word), s.m.request c = some (a, h, ws) → bits h 31 24 = 3 → ws.length = bits h 23 20 → ws ≠ [] → ws.length ≤ 14 → (s.m.mq c (!a)).length + 1 + ws.length ≤ 16 → 
    Completes (.fwSnapshot c) s (let x := s.m.snapRead (askerOf c a) ws
      x.1.reply c a (1 + ws.length) (replyHead h ws.length (worstOf x.2.2) :: x.2.1))) ∧
  (∀ (s : State) (c : Fin 64) (a : Bool) (h : Word) (ws : List Word), s.m.request c = some (a, h, ws) → ws.length < bits h 23 20 → 
    Completes (.fwRequestTimeout c) s ((s.m.elapse ((s.m.mqTimes c a).headD 0) 10000).reply c a (1 + ws.length) [replyHead h 0 .eproto])) ∧
  (∀ (s : State) (c : Fin 64) (a : Bool) (h : Word) (ws : List Word), s.m.request c = some (a, h, ws) → 3 < bits h 31 24 → ws.length = bits h 23 20 → 
    Completes (.unknownServiceCode c) s (s.m.reply c a (1 + ws.length) [replyHead h 0 .erange])) ∧
  (∀ (s : State) (c : Fin 64), s.m.request c = none → Completes (.echo c) s s.m ∧ Completes (.version c) s s.m ∧
    Completes (.fwSnapshot c) s s.m ∧ Completes (.fwRequestTimeout c) s s.m ∧ Completes (.unknownServiceCode c) s s.m)

/-- On a segment that hears: a RESP with no transaction in flight is dropped; one that matches ends it with the status and word
its bytes mean. A STREAM fills the ring for its entry, CREDIT gives credit, IDRESP within 10 ms of the identity request adds
to the discovery on its segment. A discarded frame is counted. A transmit opportunity sends up to BURST + 1 frames of those
that may go: settings with the gate open only, and RETRACT frames first while a restore is owed; of a segment that only
listens, it is a beacon seen. A link fault that can occur raises 108 + n. A neighbour's READ is answered with SHELFSTAT; its
SET is taken with event 227 unless an older generation than the last; FINAL and RETRACT act on the offer and are answered;
anything else is dropped and answered with link status 6. A segment that does not hear ignores all of these. (R451, R454,
R507, R509, R510, R512, R513, R514, R515, R516, R517, R519) -/
def Obligations.PartnerLink : Prop :=
  (∀ (s : State) (n : Fin 4) (src : Byte) (tag : BitVec 16) (st : Byte) (cr : BitVec 16) (bytes : List Byte), s.m.segHears n = true → (s.m.inFlight n).find? (fun t => t.tag = tag.toNat) = none → 
    Completes (.resp n src tag st cr bytes) s ((s.m.partnerFrame n src.toNat cr.toNat).dropFrame n)) ∧
  (∀ (s : State) (n : Fin 4) (src : Byte) (tag : BitVec 16) (st : Byte) (cr : BitVec 16) (bytes : List Byte) (t : Txn), s.m.segHears n = true → (s.m.inFlight n).find? (fun t => t.tag = tag.toNat) = some t → t.kind ≠ .blkr → t.retries = 0 → 
    Completes (.resp n src tag st cr bytes) s (let m := s.m.partnerFrame n src.toNat cr.toNat
      m.endTxn t (m.respEnd t st.toNat (bytes.map BitVec.toNat)).1 (m.respEnd t st.toNat (bytes.map BitVec.toNat)).2)) ∧
  (∀ (s : State) (n : Fin 4) (src : Byte) (cr : BitVec 16) (rs : List (BitVec 16 × Word)) (e : Nat), s.m.segHears n = true → rs ≠ [] → rs.length ≤ 16 → (s.m.partnerFrame n src.toNat cr.toNat).nodeEntry n src.toNat = some e → 
    Completes (.stream n src cr rs) s (rs.foldl (fun m r => ((if m.ringStalled then m.bump .slkNCnt2 n 31 16 1 else m).ringWrite r.1.toNat e .ok r.2.toNat).reading e r.1.toNat r.2.toNat false) (s.m.partnerFrame n src.toNat cr.toNat))) ∧
  (∀ (s : State) (n : Fin 4) (src : Byte) (cr : BitVec 16), s.m.segHears n = true → 
    Completes (.credit n src cr) s (s.m.partnerFrame n src.toNat cr.toNat)) ∧
  (∀ (s : State) (n : Fin 4) (src : Byte) (cr : BitVec 16), s.m.segHears n = true → (s.m.partnerFrame n src.toNat cr.toNat).ptn.discRun = none → 
    Completes (.idresp n src cr) s (s.m.partnerFrame n src.toNat cr.toNat)) ∧
  (∀ (s : State) (n : Fin 4) (src : Byte) (cr : BitVec 16) (d : Word) (t : Nat), s.m.segHears n = true → (s.m.partnerFrame n src.toNat cr.toNat).ptn.discRun = some d → (s.m.partnerFrame n src.toNat cr.toNat).ptn.idAt = some t → (s.m.partnerFrame n src.toNat cr.toNat).now ≤ t + 10000 → bitOf d 16 = true → bits d 20 17 = n.val → 1 ≤ src.toNat ∧ src.toNat ≤ 31 → 
    Completes (.idresp n src cr) s ((s.m.partnerFrame n src.toNat cr.toNat).discAdd (discWord true n none src.toNat))) ∧
  (∀ (s : State) (n : Fin 4) (k : Fin 3), s.m.segHears n = true → k.val = 0 → 
    Completes (.linkFrameDiscard n k) s ((s.m.putSeg n { s.m.seg n with fcs := s.m.now :: (s.m.seg n).fcs.filter (fun t => s.m.now < t + 1000000) }).bump .slkNCnt1 n 15 0 1)) ∧
  (∀ (s : State) (n : Fin 4) (k : Fin 3), s.m.segHears n = true → k.val ≠ 0 → 
    Completes (.linkFrameDiscard n k) s (s.m.dropFrame n)) ∧
  (∀ (s : State) (n : Fin 4), s.m.segSends n = true → 
    Completes (.plcaTxOpportunity n) s (let may := (s.m.seg n).txq.filter (fun f => (s.m.gateOpen || !f.setting) && (!s.m.restoring (16 + n) || f.typ = 6))
      let r := takeFrames (s.m.fld .slkNPlca n 15 8 + 1) may
      let m := s.m.putSeg n { s.m.seg n with txq := r.1.foldl (fun q f => q.erase f) (s.m.seg n).txq, sent := r.1, wire := r.1.map Frame.octets, beacon := s.m.flag .slkNCfg n 1, beaconAt := if s.m.flag .slkNCfg n 1 = true then s.m.now else (s.m.seg n).beaconAt }
      r.1.foldl (fun m f => m.frameSent n f) (m.bump .slkNCnt0 n 15 0 r.1.length))) ∧
  (∀ (s : State) (n : Fin 4), s.m.segSends n = false → 
    Completes (.plcaTxOpportunity n) s (s.m.beaconSeen n)) ∧
  (∀ (s : State) (n : Fin 4) (c : Fin 4), s.m.segHears n = true → c.val = 1 → s.m.fld .slkNErr n 7 0 < ((s.m.seg n).fcs.filter (fun t => s.m.now < t + 1000000)).length → 
    Completes (.linkFault n c) s ((s.m.putSeg n { s.m.seg n with cause := 1, fcs := [] }).raise (108 + n) n [])) ∧
  (∀ (n : Fin 4), WriteRow (fun ag => .segmentUnfence ag n) .slkNCmd n (1)
    (fun _ m => m.segUnfence n)) ∧
  (∀ (s : State) (n : Fin 4) (src : Byte) (tag : BitVec 16) (want : Byte), s.m.segHears n = true → 
    Completes (.neighbourRead n src tag want) s ((s.m.nbFrame n src.toNat).answer n src.toNat tag.toNat 0x120 2 0 ((leBytes (s.m.get .slkShelfstat 0)).take want.toNat))) ∧
  (∀ (s : State) (n : Fin 4) (src : Byte) (tag : BitVec 16) (g : BitVec 32) (v : Word) (tent : Bool), s.m.segHears n = true → (s.m.nbFrame n src.toNat).slk.offerCmp = false → 
    Completes (.neighbourSetp n src tag g v tent) s (let m := (((s.m.nbFrame n src.toNat).put .slkOffer 0 (wd v.toNat)).put .slkOffergen 0 (wd g.toNat)).put .slkOffersrc 0 (wd (n + src.toNat * 256 + b2n tent * 65536))
      let m : Chip := { m with slk := { m.slk with offerCmp := true, offerAt := m.now } }
      ((m.eventRecord 227 n []).event 227).answer n src.toNat tag.toNat 0x121 0 0 [])) ∧
  (∀ (s : State) (n : Fin 4) (src : Byte) (tag : BitVec 16) (g : BitVec 32) (v : Word) (tent : Bool), s.m.segHears n = true → (s.m.nbFrame n src.toNat).slk.offerCmp = true → g.toNat < ((s.m.nbFrame n src.toNat).get .slkOffergen 0).toNat → 
    Completes (.neighbourSetp n src tag g v tent) s (s.m.nbFrame n src.toNat)) ∧
  (∀ (s : State) (n : Fin 4) (src : Byte) (tag : BitVec 16) (g : BitVec 32) (v : Word) (gf : BitVec 32), s.m.segHears n = true → (s.m.nbFrame n src.toNat).slk.offerCmp = false → 
    Completes (.neighbourRetract n src tag g v gf) s ((s.m.nbFrame n src.toNat).answer n src.toNat tag.toNat 0x121 0 0 [])) ∧
  (∀ (s : State) (n : Fin 4) (src : Byte) (tag : BitVec 16) (g : BitVec 32) (v : Word) (gf : BitVec 32), s.m.segHears n = true → (s.m.nbFrame n src.toNat).slk.offerCmp = true → gf.toNat < ((s.m.nbFrame n src.toNat).get .slkOffergen 0).toNat → ((s.m.nbFrame n src.toNat).get .slkOffergen 0).toNat ≤ g.toNat → 
    Completes (.neighbourRetract n src tag g v gf) s (((((s.m.nbFrame n src.toNat).put .slkOffer 0 (wd v.toNat)).put .slkOffergen 0 (wd gf.toNat)).putF .slkOffersrc 0 16 16 0).answer n src.toNat tag.toNat 0x121 0 0 [])) ∧
  (∀ (s : State) (n : Fin 4) (src : Byte) (tag : BitVec 16) (g : BitVec 32), s.m.segHears n = true → (s.m.nbFrame n src.toNat).slk.offerCmp = true → ((s.m.nbFrame n src.toNat).get .slkOffergen 0).toNat ≤ g.toNat → 
    Completes (.neighbourFinal n src tag g) s (((s.m.nbFrame n src.toNat).putF .slkOffersrc 0 16 16 0).answer n src.toNat tag.toNat 0x121 0 0 [])) ∧
  (∀ (s : State) (n : Fin 4) (src : Byte) (tag : BitVec 16) (item : BitVec 16) (c : Fin 4), s.m.segHears n = true → 
    Completes (.neighbourOther n src tag item c) s (((s.m.nbFrame n src.toNat).dropFrame n).answer n src.toNat tag.toNat item.toNat c 6 [])) ∧
  (∀ (s : State), s.m.slk.offerCmp = true → 
    Completes (.offerHoldExpiry) s ({ s.m.elapse s.m.slk.offerAt 1000000 with slk := { s.m.slk with offerCmp := false } })) ∧
  (∀ (s : State), s.m.slk.offerCmp = false → 
    Completes (.offerHoldExpiry) s (s.m)) ∧
  (∀ (s : State) (n c : Fin 4) (src st : Byte) (tag : BitVec 16) (cr item : BitVec 16), s.m.segHears n = false →
    Completes (.resp n src tag st cr []) s s.m ∧ Completes (.credit n src cr) s s.m ∧ Completes (.idresp n src cr) s s.m ∧
    Completes (.linkFault n c) s s.m ∧ Completes (.neighbourOther n src tag item c) s s.m)

/-- FAULT_EVENT_DELIVERY delivers the oldest committed fault's event, with its error line where it asks for one. A granted read
of FLT_FLAG returns the flag and clears it with the fence reads it stands for. A granted FLT_SRC write is stored;
FLT_SWRAISE raises source 13 for the host's ports and 14 for the service's; EVT_SWSET raises event 240 + n; EVT_PEND clears
the bits written; a pair's acknowledgement clears its bit; EVT_ROUTE keeps the pair bits that only the firmware may write.
THM_READING of a sensor other than 0 is the reading's row of the sensor, with alarm condition 6 present exactly while an on-
die sensor is beyond its limit; a reading of sensor 0 then applies a level change that waits. In OFF, SHIP and BOOT THM does
not run and a reading changes nothing. NVM_ECC_ERROR and RAM_ECC in a powered chip raise sources 5 or 6 and 7. (R529, R538,
R541, R548, R549, R550, R555, R556, R557, R558) -/
def Obligations.ThermalFaultsAndEvents : Prop :=
  (∀ (s : State) (src : Nat) (rest : List Deliv) (d : Deliv), s.m.rcd.deliver = d :: rest → d.err = false → d.src = src → 
    Completes (.faultEventDelivery) s (Chip.deliver { s.m with rcd := { s.m.rcd with deliver := rest } } src)) ∧
  (∀ (s : State) (rest : List Deliv) (d : Deliv), s.m.rcd.deliver = d :: rest → d.err = true → 
    Completes (.faultEventDelivery) s (Chip.deliver { s.m with rcd := { s.m.rcd with deliver := rest }, flt := { s.m.flt with err := NTab.set false s.m.flt.err d.src true } } d.src)) ∧
  (∀ (s : State), s.m.rcd.deliver = [] → 
    Completes (.faultEventDelivery) s (s.m)) ∧
  (∀ (n : Fin 192), ReadRow (fun ag => .fltFlagRead ag n) .fltFlag n
    (fun _ m => ((m.flagRead n).1, m.get .fltFlag n, .ok))) ∧
  (∀ (n : Fin 192) (d : Word), WriteRow (fun ag => .fltSrcWrite ag n d) .fltSrc n (d)
    (fun _ m => m.store .fltSrc n d)) ∧
  (∀ (s : State) (ag : Agent) (code : Byte), s.m.grants ag (RName.addr .fltSwraise 0) (wd code.toNat) → s.m.portOf ag = .host →
    Completes (.fltSwraise ag code) s (s.m.written (s.m.raise 13 0 [wd code.toNat]) ag (RName.addr .fltSwraise 0) .ok)) ∧
  (∀ (s : State) (ag : Agent) (code : Byte), s.m.grants ag (RName.addr .fltSwraise 0) (wd code.toNat) → s.m.portOf ag = .svc →
    Completes (.fltSwraise ag code) s (s.m.written (s.m.raise 14 0 [wd code.toNat]) ag (RName.addr .fltSwraise 0) .ok)) ∧
  (∀ (n : Fin 16), WriteRow (fun ag => .evtSwset ag n) .evtSwset 0 (wd n.val)
    (fun _ m => m.event (240 + n.val))) ∧
  (∀ (s : State) (ag : Agent) (d w : Fin 8) (mask : Word), s.m.grants ag (RName.addr .evtPend (8 * d.val + w.val)) mask → d.val < 2 ∨ 4 ≤ d.val →
    Completes (.evtAck ag d w mask) s (s.m.written (s.m.put .evtPend (8 * d.val + w.val) (s.m.get .evtPend (8 * d.val + w.val) &&& ~~~mask))
      ag (RName.addr .evtPend (8 * d.val + w.val)) .ok)) ∧
  (∀ (s : State) (b : Bool) (n : Fin 256), s.m.up = true → 
    Completes (.pairEventAck b n) s (s.m.putF .evtPend ((if b then 24 else 16) + n.val / 32) (n.val % 32) (n.val % 32) 0)) ∧
  (∀ (s : State) (ag : Agent) (n : Fin 256) (d : Word), ag ≠ .fw → s.m.grants ag (RName.addr .evtRoute n) d →
    Completes (.evtRouteWrite ag n d) s (s.m.written (s.m.put .evtRoute n (wd (bits d 7 4 * 16 + s.m.fld .evtRoute n 3 2 * 4 + bits d 1 0)))
      ag (RName.addr .evtRoute n) .ok)) ∧
  (∀ (s : State) (k : Fin 22) (t : Int) (bad : Bool), s.m.up = false → 
    Completes (.thmReading k t bad) s (s.m)) ∧
  (∀ (s : State) (k : Fin 22) (t : Int) (bad : Bool), k.val ≠ 0 → s.m.up = true → 
    Completes (.thmReading k t bad) s (let m := s.m.thmReading k t bad
      m.secCondition 6 ((List.range 6).any (fun j => (m.sensor (16 + j)).die)))) ∧
  (∀ (s : State) (t : Int) (bad : Bool), s.m.up = true → 
    ∃ m', Completes (.thmReading 0 t bad) s m' ∧ m' = Chip.levelNow ((s.m.thmReading 0 t bad).secCondition 6 ((List.range 6).any (fun j => ((s.m.thmReading 0 t bad).sensor (16 + j)).die))) .thm) ∧
  (∀ (s : State) (fatal : Bool), s.m.alive = true → 
    Completes (.nvmEccError fatal) s (s.m.raise (if fatal then 6 else 5) 0 [])) ∧
  (∀ (s : State), s.m.alive = true → 
    Completes (.ramEcc) s (s.m.raise 7 0 []))

/-- A tamper pin that is enabled and has stayed for its time, a glitch or a clock event sets its condition, with the alarm of
its number when it was not present; ALARM_CONDITION_CLEARED takes it away and raises nothing, of a tamper pin with the time
it went quiet. A granted read of SEC_ALARM_FLG returns and clears it. A granted SEC_ALARM_CFG write is stored. KEY BEGIN
opens provisioning of a slot, KEY_DATA appends up to nine words, COMMIT stores the key and CANCEL forgets it, each with its
status. (R566, R567, R571, R572) -/
def Obligations.SecurityAlarmsAndKeys : Prop :=
  (∀ (s : State) (k : Fin 4), s.m.secOn = true → s.m.flag .secTamperCfg 0 k = true → has s.m.sec.now k = false → 
    Completes (.secTamper k) s (let m := s.m.elapse (NTab.get 0 s.m.sec.quietAt k) (s.m.fld .secTamperCfg 0 15 8 * 1000)
      Chip.secAlarm { m with sec := { m.sec with now := putM m.sec.now k true } } k)) ∧
  (∀ (s : State) (k : Fin 4), s.m.flag .secTamperCfg 0 k = false → 
    Completes (.secTamper k) s (s.m)) ∧
  (∀ (s : State), s.m.alive = true → has s.m.sec.now 4 = false → 
    Completes (.secGlitch) s (Chip.secAlarm { s.m with sec := { s.m.sec with now := putM s.m.sec.now 4 true } } 4)) ∧
  (∀ (s : State), s.m.alive = true → has s.m.sec.now 5 = false → 
    Completes (.secClock) s (Chip.secAlarm { s.m with sec := { s.m.sec with now := putM s.m.sec.now 5 true } } 5)) ∧
  (∀ (s : State) (k : Fin 9), k = 4 ∨ k = 5 ∨ k = 7 ∨ k = 8 → 
    Completes (.alarmConditionCleared k) s ({ s.m with sec := { s.m.sec with now := putM s.m.sec.now k false } })) ∧
  (∀ (s : State) (k : Fin 9), k < 4 → 
    Completes (.alarmConditionCleared k) s ({ s.m with sec := { s.m.sec with now := putM s.m.sec.now k false, quietAt := NTab.set 0 s.m.sec.quietAt k s.m.now } })) ∧
  (∀ (d : Word), WriteRow (fun ag => .secAlarmCfgWrite ag d) .secAlarmCfg 0 (d)
    (fun _ m => m.store .secAlarmCfg 0 d)) ∧
  (ReadRow (fun ag => .secAlarmFlgRead ag) .secAlarmFlg 0
    (fun _ m => (m.put .secAlarmFlg 0 0, m.get .secAlarmFlg 0, .ok))) ∧
  (∀ (i : Fin 4), WriteRow (fun ag => .keyBegin ag i) .secKeyCtl 0 (wd (i.val + 256))
    (fun _ m => Chip.put { m with sec := { m.sec with prov := some (i.val, []) } } .secCmdstat 0 (wd 256))) ∧
  (∀ (s : State) (ag : Agent) (d : Word) (i : Nat) (ws : List Word), s.m.grants ag (RName.addr .secKeyData 0) d → s.m.sec.prov = some (i, ws) →
    Completes (.keyData ag d) s (s.m.written { s.m with sec := { s.m.sec with prov := some (i, if ws.length < 9 then ws ++ [d] else ws) } }
      ag (RName.addr .secKeyData 0) .ok)) ∧
  (∀ (s : State) (ag : Agent) (i : Fin 4), s.m.grants ag (RName.addr .secKeyCtl 0) (wd (i.val + 512)) →
    Completes (.keyCommit ag i) s (s.m.written ((s.m.keyCommit i).1.put .secCmdstat 0 (wd ((s.m.keyCommit i).2.code + 512)))
      ag (RName.addr .secKeyCtl 0) (s.m.keyCommit i).2)) ∧
  (∀ (i : Fin 4), WriteRow (fun ag => .keyCancel ag i) .secKeyCtl 0 (wd (i.val + 768))
    (fun _ m => Chip.put { m with sec := { m.sec with prov := none } } .secCmdstat 0 (wd 768)))

/-- In a powered chip a bad frame counts in SPL_LNKCNT. A good HELLO becomes the twin's state and acknowledges; a JOURNAL in
sequence is applied while the half follows a snapshot; a SNAPSHOT replaces what was journalled; a SPLICE_NOTE in sequence
keeps its cause; a TAKEBACK_REQ at an ACTIVE quiet half is acknowledged and splices, else refused; an ACK at a waiting READY
half marks its turn. PWMMARK is kept, with its distance to the one before where that is a period, by a chip whose gate is
shut. Frames out of sequence only mark the link up. (R585, R587, R588, R589, R591, R595, R597) -/
def Obligations.PairFrames : Prop :=
  (∀ (s : State) (h : Hello), s.m.alive = true → 
    Completes (.hello false h) s (s.m.bump .splLnkcnt 0 15 0 1)) ∧
  (∀ (s : State) (h : Hello), s.m.alive = true → s.m.flag .hstAuthPeer 0 11 = true → h.digest = (Chip.peerAck { s.m with spl := { s.m.spl with link := true, rxAt := s.m.now, twin := some h } } h.ack).upd.act.dig → h.state ≠ 3 → 
    Completes (.hello true h) s (let m := Chip.peerAck { s.m with spl := { s.m.spl with link := true, rxAt := s.m.now, twin := some h } } h.ack
      Chip.splEval { m with spl := { m.spl with mismatch := false, note := if h.state = 1 ∨ h.state = 2 then none else m.spl.note } })) ∧
  (∀ (s : State) (sq : BitVec 16) (items : List JItem), s.m.alive = true → s.m.flag .hstAuthPeer 0 11 = true → sq.toNat = (s.m.spl.rxSeq + 1) % 65536 → ({ s.m with spl := { s.m.spl with link := true, rxAt := s.m.now, rxSeq := sq.toNat } } : Chip).follows = true → s.m.spl.snap = true → 
    Completes (.journal true sq items) s (items.foldl (fun m j => m.applyItem j) ({ s.m with spl := { s.m.spl with link := true, rxAt := s.m.now, rxSeq := sq.toNat } } : Chip))) ∧
  (∀ (s : State) (sq : BitVec 16) (items : List JItem), s.m.alive = true → s.m.flag .hstAuthPeer 0 11 = true → sq.toNat ≠ (s.m.spl.rxSeq + 1) % 65536 → 
    Completes (.journal true sq items) s (({ s.m with spl := { s.m.spl with link := true, rxAt := s.m.now } } : Chip))) ∧
  (∀ (s : State) (sq : BitVec 16) (items : List JItem), s.m.alive = true → s.m.flag .hstAuthPeer 0 11 = true → ({ s.m with spl := { s.m.spl with link := true, rxAt := s.m.now } } : Chip).follows = true → 
    Completes (.snapshot true sq items) s (let m : Chip := { s.m with spl := { s.m.spl with link := true, rxAt := s.m.now, rxSeq := sq.toNat, txns := [], slotOut := [] } }
      let m := items.foldl (fun m j => m.applyItem j) m
      Chip.splEval { m with spl := { m.spl with snap := true } })) ∧
  (∀ (s : State) (sq : BitVec 16) (cause : Byte), s.m.alive = true → s.m.flag .hstAuthPeer 0 11 = true → sq.toNat = (s.m.spl.rxSeq + 1) % 65536 → 
    Completes (.spliceNote true sq cause) s ({ s.m with spl := { s.m.spl with link := true, rxAt := s.m.now, rxSeq := sq.toNat, note := some cause.toNat } })) ∧
  (∀ (s : State) (sq : BitVec 16), s.m.alive = true → s.m.flag .hstAuthPeer 0 11 = true → sq.toNat = (s.m.spl.rxSeq + 1) % 65536 → s.m.spl.st = .active → ({ s.m with spl := { s.m.spl with link := true, rxAt := s.m.now, rxSeq := sq.toNat } } : Chip).quiet = true → 
    Completes (.takebackReq true sq) s ((({ s.m with spl := { s.m.spl with link := true, rxAt := s.m.now, rxSeq := sq.toNat } } : Chip).peerSend .takebackAck).splTrigger 4)) ∧
  (∀ (s : State) (sq : BitVec 16), s.m.alive = true → s.m.flag .hstAuthPeer 0 11 = true → sq.toNat = (s.m.spl.rxSeq + 1) % 65536 → s.m.spl.st = .active → ({ s.m with spl := { s.m.spl with link := true, rxAt := s.m.now, rxSeq := sq.toNat } } : Chip).quiet = false → 
    Completes (.takebackReq true sq) s (({ s.m with spl := { s.m.spl with link := true, rxAt := s.m.now, rxSeq := sq.toNat } } : Chip).peerSend .takebackNak)) ∧
  (∀ (s : State) (sq : BitVec 16), s.m.alive = true → s.m.flag .hstAuthPeer 0 11 = true → sq.toNat = (s.m.spl.rxSeq + 1) % 65536 → s.m.spl.st = .ready → s.m.spl.tbWait = true → 
    Completes (.takebackAck true sq) s ({ s.m with spl := { s.m.spl with link := true, rxAt := s.m.now, rxSeq := sq.toNat, tbWait := false, tbMine := true } })) ∧
  (∀ (s : State) (sq : BitVec 16), s.m.alive = true → s.m.flag .hstAuthPeer 0 11 = true → sq.toNat = (s.m.spl.rxSeq + 1) % 65536 → 
    Completes (.takebackNak true sq) s (({ s.m with spl := { s.m.spl with link := true, rxAt := s.m.now, rxSeq := sq.toNat } } : Chip))) ∧
  (∀ (s : State) (x : Fin 2) (ticks : BitVec 32), s.m.alive = true → s.m.flag .hstAuthPeer 0 11 = true → ({ s.m with spl := { s.m.spl with link := true, rxAt := s.m.now } } : Chip).gateOpen = false → 
    Completes (.pwmmark true x ticks) s (let gap := (ticks.toNat + 2 ^ 32 - NTab.get 0 s.m.spl.marks x) % 2 ^ 32
      let per := if NTab.get 0 s.m.spl.marks x = 0 ∨ gap < 1600 ∨ 16000 < gap then 0 else gap
      { s.m with spl := { s.m.spl with link := true, rxAt := s.m.now, marks := NTab.set 0 s.m.spl.marks x ticks.toNat, markPer := NTab.set 0 s.m.spl.markPer x per } })) ∧
  (∀ (s : State) (x : Fin 2) (ticks : BitVec 32), s.m.alive = true → s.m.flag .hstAuthPeer 0 11 = true → ({ s.m with spl := { s.m.spl with link := true, rxAt := s.m.now } } : Chip).gateOpen = true → 
    Completes (.pwmmark true x ticks) s (({ s.m with spl := { s.m.spl with link := true, rxAt := s.m.now } } : Chip))) ∧
  (∀ (s : State) (sq : BitVec 16) (items : List JItem) (c : Byte), s.m.alive = true →
    Completes (.journal false sq items) s (s.m.bump .splLnkcnt 0 15 0 1) ∧ Completes (.snapshot false sq items) s (s.m.bump .splLnkcnt 0 15 0 1) ∧
    Completes (.spliceNote false sq c) s (s.m.bump .splLnkcnt 0 15 0 1) ∧ Completes (.takebackReq false sq) s (s.m.bump .splLnkcnt 0 15 0 1))

/-- PEER_HELLO_SEND sends this half's HELLO 100 µs after the last. PEER_LINK, 300 µs after the last good frame, marks the link
down, and outside READY raises source 115. A fall of INTLK_IN in READY takes over, in SYNC starts the solo timer; a rise
completes a hand-over from LEAVING or is noted. PEER_INTLK and INTLK_CONFLICT raise source 116; SOLO_TAKE takes over alone
after its time; a flush time-out drops the interlock. TAKEBACK_TIMER asks back in READY; PEER_DIVERGE raises 117, once, for
a watched slot that has been beyond THR for its time. SPLICE, RESYNC and TAKEBACK report OK. In other states they change
nothing. (R46, R49, R480, R586, R591, R593, R594, R597, R599) -/
def Obligations.PairInterlock : Prop :=
  (∀ (s : State), s.m.alive = true → 
    Completes (.peerHelloSend) s ({ s.m.elapse s.m.spl.helloAt 100 with spl := { s.m.spl with hello := some s.m.ownHello, helloAt := (s.m.elapse s.m.spl.helloAt 100).now } })) ∧
  (∀ (s : State), s.m.alive = true → s.m.spl.link = true → s.m.spl.st ≠ .ready → 
    Completes (.peerLink) s ((Chip.raise { (s.m.elapse s.m.spl.rxAt 300) with spl := { s.m.spl with link := false, snap := false, jOn := false, unacked := [] } } 115 0 []).splEval)) ∧
  (∀ (s : State), s.m.alive = true → s.m.spl.link = true → s.m.spl.st = .ready → 
    Completes (.peerLink) s (Chip.splEval { (s.m.elapse s.m.spl.rxAt 300) with spl := { s.m.spl with link := false, snap := false, jOn := false, unacked := [] } })) ∧
  (∀ (s : State), s.m.alive = true → s.m.spl.link = false → 
    Completes (.peerLink) s (s.m)) ∧
  (∀ (s : State), s.m.spl.inp = true → s.m.spl.st = .ready → 
    Completes (.intlkInFall) s ((Chip.advance { s.m with spl := { s.m.spl with inp := false, inLowAt := s.m.now } } 1).take false)) ∧
  (∀ (s : State), s.m.spl.inp = false → 
    Completes (.intlkInFall) s (s.m)) ∧
  (∀ (s : State), s.m.spl.inp = false → s.m.spl.st ≠ .leaving → 
    Completes (.intlkInRise) s (({ s.m with spl := { s.m.spl with inp := true } } : Chip))) ∧
  (∀ (s : State), s.m.spl.inp = false → s.m.spl.st = .leaving → s.m.spl.out = false → s.m.now ≤ s.m.spl.fellAt + 100 → 
    Completes (.intlkInRise) s (let m := if s.m.up = true then s.m.linesRelease else s.m
      { m with spl := { m.spl with st := .sync, inp := true, snap := false, jOn := false, unacked := [], shadowBase := s.m.pwr.base }, pwr := { m.pwr with base := if m.up then .shadow else s.m.pwr.base }, seq := { m.seq with wait := .none } })) ∧
  (∀ (s : State), s.m.spl.inp = true → 
    Completes (.intlkInRise) s (s.m)) ∧
  (∀ (s : State), s.m.spl.st = .leaving → s.m.spl.inp = false → s.m.spl.out = false → 
    Completes (.peerIntlk) s (let m := s.m.elapse s.m.spl.fellAt 100
      (Chip.raise { m with spl := { m.spl with st := .solo, out := true } } 116 0 []).splEval)) ∧
  (∀ (s : State), s.m.spl.st ≠ .leaving → 
    Completes (.peerIntlk) s (s.m)) ∧
  (∀ (s : State) (twin higher : Bool), s.m.spl.out = true → s.m.spl.twin = none → s.m.pwr.role = twin → 
    Completes (.intlkConflict twin higher) s (Chip.raise { s.m with spl := { s.m.spl with inp := true, out := !higher } } 116 0 [])) ∧
  (∀ (s : State) (twin higher : Bool), s.m.spl.out = true → s.m.spl.twin = none → s.m.pwr.role ≠ twin → 
    Completes (.intlkConflict twin higher) s (Chip.raise { s.m with spl := { s.m.spl with inp := true, out := !s.m.pwr.role } } 116 0 [])) ∧
  (∀ (s : State) (twin higher : Bool) (h : Hello), s.m.spl.out = true → s.m.spl.twin = some h → s.m.pwr.role ≠ h.role → 
    Completes (.intlkConflict twin higher) s (Chip.raise { s.m with spl := { s.m.spl with inp := true, out := !s.m.pwr.role } } 116 0 [])) ∧
  (∀ (s : State) (twin higher : Bool), s.m.spl.out = false → 
    Completes (.intlkConflict twin higher) s (s.m)) ∧
  (∀ (s : State), s.m.spl.st = .sync → s.m.spl.inp = false → s.m.spl.link = false → 
    Completes (.soloTake) s ((s.m.elapse s.m.spl.inLowAt (s.m.fld .splCfg 0 27 20 * 100000)).take true)) ∧
  (∀ (s : State), s.m.spl.st ≠ .sync → 
    Completes (.soloTake) s (s.m)) ∧
  (∀ (s : State), s.m.spl.st = .leaving → s.m.spl.out = true → 
    Completes (.spliceFlushTimeout) s ((s.m.elapse s.m.spl.fellAt 50).intlkFall)) ∧
  (∀ (s : State), s.m.spl.out = false → 
    Completes (.spliceFlushTimeout) s (s.m)) ∧
  (∀ (s : State), s.m.spl.st = .ready → s.m.pwr.role = false → s.m.flag .splCfg 0 1 = true → s.m.spl.tbMine = false → s.m.spl.tbWait = true → 
    Completes (.takebackTimer) s ((s.m.elapse s.m.spl.reqAt 1000000).askBack)) ∧
  (∀ (s : State), s.m.spl.st = .ready → s.m.pwr.role = false → s.m.flag .splCfg 0 1 = true → s.m.spl.tbMine = false → s.m.spl.tbWait = false → 
    Completes (.takebackTimer) s ((s.m.elapse s.m.spl.readyAt (s.m.fld .splCfg 0 19 8 * 1000000)).askBack)) ∧
  (∀ (s : State), s.m.spl.st ≠ .ready → 
    Completes (.takebackTimer) s (s.m)) ∧
  (∀ (s : State) (i : Fin 64) (t : Nat), NTab.get none s.m.spl.divs i = some (t, false) → 
    Completes (.peerDiverge i) s (let m := s.m.elapse t (s.m.fld .splDiv 0 15 8 * 1000)
      Chip.raise { m with spl := { m.spl with divs := NTab.set none m.spl.divs i (some (t, true)) } } 117 0 [])) ∧
  (∀ (s : State) (i : Fin 64), NTab.get none s.m.spl.divs i = none → 
    Completes (.peerDiverge i) s (s.m)) ∧
  (WriteRow (fun ag => .splSplice ag) .splCmd 0 (1)
    (fun _ m => (m.splTrigger 3).put .splCmdstat 0 (wd 256))) ∧
  (WriteRow (fun ag => .resync ag) .splCmd 0 (2)
    (fun _ m => m.resync.put .splCmdstat 0 (wd 512))) ∧
  (WriteRow (fun ag => .splTakeback ag) .splCmd 0 (3)
    (fun _ m => m.askBack.put .splCmdstat 0 (wd 768)))

/-- RECORD_WRITE_START, idle, scanned and not collapsed, begins the next record at the position with the next number;
RECORD_COMMIT commits it with its event, or marks the position bad with a GAP and source 8. RCD_CLEAR_DONE leaves one GAP
record. RCD_CMD CLEAR begins the clear of what is stored, EXPORT begins an export; RCD_EXPORT_DONE fills the buffer and
reports OK with a key, ESTATE without. A granted read of RCD_SEQCHK returns the sequence number and moves the cursor on when
it matches and SEQCHK stepping is on. (R58, R604, R608, R609, R612, R613, R614) -/
def Obligations.RecorderWrites : Prop :=
  (∀ (s : State) (q : QRec) (w : Chip), s.m.rcd.writing = none → s.m.rcd.clear = none → s.m.rcd.scanned = true → s.m.pwr.ecdFired = false → s.m.nextRec = some (q, w) → 
    Completes (.recordWriteStart) s (let m := w.putSlot w.rcd.pos (.partialWrite w.rcd.next)
      { m with rcd := { m.rcd with writing := some (w.rcd.pos, w.rcd.next, q), next := w.rcd.next + 1 } })) ∧
  (∀ (s : State), s.m.rcd.writing ≠ none → 
    Completes (.recordWriteStart) s (s.m)) ∧
  (∀ (s : State) (good : Bool) (k n : Nat) (q : QRec), s.m.rcd.writing = some (k, n, q) → good = true → 
    Completes (.recordCommit good) s (let m : Chip := { s.m with rcd := { s.m.rcd with writing := none } }
      let m := m.putSlot k (.record (recFull q.rcd n m.nvm.pcc m.opsec))
      (Chip.posOn { m with rcd := { m.rcd with deliver := m.rcd.deliver ++ q.deliv.toList } } k).capRecord q.rcd true)) ∧
  (∀ (s : State) (good : Bool) (k n : Nat) (q : QRec), s.m.rcd.writing = some (k, n, q) → good = false → 
    Completes (.recordCommit good) s ((((((({ s.m with rcd := { s.m.rcd with writing := none } } : Chip)).putSlot k .bad).posOn k).gapFirst 1 n n 0 0).raise 8 0 []).capRecord q.rcd false)) ∧
  (∀ (s : State) (good : Bool), s.m.rcd.writing = none → 
    Completes (.recordCommit good) s (s.m)) ∧
  (ReadRow (fun ag => .rcdSeqchkRead ag) .rcdSeqchk 0
    (fun ag m => if m.rcd.clear.isSome = true then (m, 0, .ebusy) else
      ((m.cursorRead .rcdSeqchk 0 (Owner.bank (m.authOf ag))).1, (m.window (m.get .rcdCur (Owner.bank (m.authOf ag))).toNat).1.getD 0 0, .ok))) ∧
  (∀ (cap : Bool), WriteRow (fun ag => .rcdClear ag cap) .rcdCmd 0 (wd (1 + b2n cap * 256))
    (fun _ m => ({ m with rcd := { m.rcd with clear := some (leastOf m.seqs, greatestOf m.seqs, cap) } } : Chip).put .rcdCmdstat 0 (wd (1 * 256)))) ∧
  (∀ (s : State) (lo hi : Nat) (cap : Bool), s.m.rcd.clear = some (lo, hi, cap) → s.m.pwr.ecdFired = false → 
    ∃ m', Completes (.rcdClearDone) s m' ∧ m'.rcd.clear = none ∧ m'.rcd.pos = 1 ∧ m'.rcd.next = s.m.rcd.next + 1 ∧ m'.rcd.wrapped = false ∧
      m'.rcd.slots = NTab.set .empty [] 0 (.record (recFull (gapRec s.m.now 2 lo hi (b2n cap) 0) s.m.rcd.next s.m.nvm.pcc s.m.opsec)) ∧
      m'.rcd.caps = (if cap then [] else s.m.rcd.caps)) ∧
  (∀ (s : State), s.m.rcd.clear = none → 
    Completes (.rcdClearDone) s (s.m)) ∧
  (WriteRow (fun ag => .rcdExport ag) .rcdCmd 0 (3)
    (fun ag m => Chip.rcdStatus { m with rcd := { m.rcd with expRun := true, expBank := Owner.bank (m.authOf ag), expBuf := [], expTrailer := [] } } .ebusy 3)) ∧
  (∀ (s : State) (key : List Word), s.m.rcd.expRun = true → s.m.nvm.key0 = some key → 
    Completes (.rcdExportDone) s (let m : Chip := { s.m with rcd := { s.m.rcd with expRun := false, expBuf := s.m.exportRecords, expTrailer := s.m.whipping s.m.exportRecords key } }
      m.put .rcdCmdstat 0 (wd 0x300))) ∧
  (∀ (s : State), s.m.rcd.expRun = false → 
    Completes (.rcdExportDone) s (s.m))

/-- A granted RCD_CAP_CFG enable of an idle unit fills it; a granted TRIG command and the triggers of a fault or event start its
post-trigger part, and count while one runs. CAPTURE_POST_FULL of a unit that has its samples moves it to COMMIT;
RCD_CAPTURE of the unit being committed stores it and queues its record of kind 5; that record's commit makes it DONE and
valid with event 233, and a bad position has it committed again. A granted read of RCD_CAP_DATA gives two samples and moves
the index on, EBUSY while the unit commits. (R606, R618, R619, R620, R621) -/
def Obligations.CaptureUnits : Prop :=
  (∀ (s : State) (ag : Agent) (u : Fin 8) (d : Word), s.m.grants ag (RName.addr .rcdCapCfg u) d → bitOf d 0 = true →
    ((s.m.store .rcdCapCfg u d).cap u).st = .idle →
    Completes (.captureEnable ag u d) s (s.m.written ((s.m.store .rcdCapCfg u d).capFill u) ag (RName.addr .rcdCapCfg u) .ok)) ∧
  (∀ (u : Fin 8), WriteRow (fun ag => .rcdTrig ag u) .rcdCmd 0 (wd (2 + u.val * 16))
    (fun _ m => (m.capTrigger u m.now).put .rcdCmdstat 0 (wd (2 * 256)))) ∧
  (∀ (s : State) (src t : Nat) (rest : List (Nat × Nat)), s.m.rcd.trig = (src, t) :: rest → 
    Completes (.captureTrigger) s ((List.range 8).foldl (fun m u => if m.capOn src u then m.capTrigger u t else m) { s.m with rcd := { s.m.rcd with trig := rest } })) ∧
  (∀ (s : State), s.m.rcd.trig = [] → 
    Completes (.captureTrigger) s (s.m)) ∧
  (∀ (s : State) (u : Fin 8), (s.m.cap u).st = .post → 4096 - (s.m.cap u).preValid ≤ (s.m.cap u).post.length → 
    Completes (.capturePostFull u) s (s.m.putCap u { (s.m.cap u) with st := .commit })) ∧
  (∀ (s : State) (u : Fin 8), (s.m.cap u).st ≠ .post → 
    Completes (.capturePostFull u) s (s.m)) ∧
  (∀ (s : State) (u : Fin 8), s.m.committing = some u.val → s.m.pwr.ecdFired = false → (s.m.cap u).sent = false → s.m.rcd.queue.length < queueMax → 
    ∃ m', Completes (.rcdCapture u) s m' ∧ (m'.cap u).valid = false ∧ (m'.cap u).sent = true ∧ (m'.cap u).stored = (s.m.cap u).pre.reverse ++ (s.m.cap u).post.reverse ∧
      (∃ q : QRec, m'.rcd.queue = s.m.rcd.queue ++ [q] ∧ q.rcd.kind = 5 ∧ q.rcd.code = u.val) ∧ m'.regs = s.m.regs) ∧
  (∀ (m : Chip) (r : Rec), r.kind = 5 → (m.cap r.code).st = .commit → (m.cap r.code).sent = true → m.flag .rcdCapCfg r.code 1 = false →
    m.capRecord r true = (m.putCap r.code { m.cap r.code with st := .done, valid := true, sent := false, pre := [], post := [] }).event 233) ∧
  (∀ (m : Chip) (r : Rec), r.kind = 5 → (m.cap r.code).st = .commit → (m.cap r.code).sent = true →
    m.capRecord r false = m.putCap r.code { m.cap r.code with sent := false }) ∧
  (∀ (s : State) (u : Fin 8), s.m.committing ≠ some u.val → 
    Completes (.rcdCapture u) s (s.m)) ∧
  (ReadRow (fun ag => .rcdCapDataRead ag) .rcdCapData 0
    (fun _ m => let c := m.cap (m.fld .rcdCapSel 0 2 0)
      let k := m.fld .rcdCapSel 0 6 4
      let i := m.fld .rcdCapSel 0 27 16
      if c.st = .commit then (m, 0, .ebusy) else
      (m.putF .rcdCapSel 0 27 16 (i + 2), wd (((c.stored.getD i []).getD k 0) % 65536 + ((c.stored.getD (i + 1) []).getD k 0) % 65536 * 65536), .ok)))

/-- IDENT answers five words. OPEN in presence mode with the line asserted opens a presence session with the device nonce, in
key mode with a key awaits AUTH; a bad mode is ERANGE. AUTH with the right proof opens the key session, with a wrong one
ends with EAUTH. CLOSE ends the session; BAUD takes a new rate until a frame at it, or the fallback, returns; READ and WRITE
not held are performed and answered. A malformed frame and noise count; presence that has fallen for 10 ms ends a presence
session; a session idles out after its time. (R627, R630, R631, R632, R633, R634, R635) -/
def Obligations.ServiceSessions : Prop :=
  (∀ (s : State) (seq : BitVec 16) (tag : Option (List Byte)),
    s.m.svcTakes 1 seq.toNat (tagOf tag) [] → 
    Completes (.ident seq tag) s (s.m.svcAnswers ((s.m.svcAccept seq.toNat)) 1 seq.toNat .ok ([(s.m.svcAccept seq.toNat).slkRead .slkMaclo 0, (s.m.svcAccept seq.toNat).slkRead .slkMachi 0, (s.m.svcAccept seq.toNat).modeWord, (s.m.svcAccept seq.toNat).updRead .updActVer 0, (s.m.svcAccept seq.toNat).updRead .updActDig 0].flatMap leBytes))) ∧
  (∀ (s : State) (seq : BitVec 16) (tag : Option (List Byte)) (mode : Byte) (nh : List Byte),
    s.m.svcTakes 2 seq.toNat (tagOf tag) (mode.toNat :: (nh.map BitVec.toNat)) → mode = 0 → s.m.upd.session < 2 → s.m.upd.present = true → 
    Completes (.openSession seq tag mode nh) s (s.m.svcAnswers (Chip.sessionRecord { (s.m.svcAccept seq.toNat) with upd := { (s.m.svcAccept seq.toNat).upd with session := 2, nh := (nh.map BitVec.toNat), nd := nonceBytes (s.m.svcAccept seq.toNat).upd.nonces, ks := [], nonces := (s.m.svcAccept seq.toNat).upd.nonces + 1 } } true false 0) 2 seq.toNat .ok (nonceBytes (s.m.svcAccept seq.toNat).upd.nonces))) ∧
  (∀ (s : State) (seq : BitVec 16) (tag : Option (List Byte)) (mode : Byte) (nh : List Byte),
    s.m.svcTakes 2 seq.toNat (tagOf tag) (mode.toNat :: (nh.map BitVec.toNat)) → mode = 1 → s.m.upd.session < 2 → s.m.nvm.key2.isSome = true → 
    Completes (.openSession seq tag mode nh) s (s.m.svcAnswers (({ (s.m.svcAccept seq.toNat) with upd := { (s.m.svcAccept seq.toNat).upd with session := 1, nh := (nh.map BitVec.toNat), nd := nonceBytes (s.m.svcAccept seq.toNat).upd.nonces, ks := [], nonces := (s.m.svcAccept seq.toNat).upd.nonces + 1 } } : Chip)) 2 seq.toNat .ok (nonceBytes (s.m.svcAccept seq.toNat).upd.nonces))) ∧
  (∀ (s : State) (seq : BitVec 16) (tag : Option (List Byte)) (mode : Byte) (nh : List Byte),
    s.m.svcTakes 2 seq.toNat (tagOf tag) (mode.toNat :: (nh.map BitVec.toNat)) → 1 < mode.toNat → 
    Completes (.openSession seq tag mode nh) s (s.m.svcAnswers ((s.m.svcAccept seq.toNat)) 2 seq.toNat .erange [])) ∧
  (∀ (s : State) (seq : BitVec 16) (tag : Option (List Byte)) (proof : List Byte),
    s.m.svcTakes 3 seq.toNat (tagOf tag) (proof.map BitVec.toNat) → s.m.upd.session = 1 → s.m.nvm.key2.isSome = true → proof.map BitVec.toNat = hmac256 ((s.m.nvm.key2.getD []).flatMap leBytes) (openWord ++ s.m.upd.nh ++ s.m.upd.nd) → 
    Completes (.auth seq tag proof) s (s.m.svcAnswers (Chip.sessionRecord { (s.m.svcAccept seq.toNat) with upd := { (s.m.svcAccept seq.toNat).upd with session := 3, ks := hmac256 ((s.m.nvm.key2.getD []).flatMap leBytes) (s.m.upd.nh ++ s.m.upd.nd) } } true true 0) 3 seq.toNat .ok [])) ∧
  (∀ (s : State) (seq : BitVec 16) (tag : Option (List Byte)) (proof : List Byte),
    s.m.svcTakes 3 seq.toNat (tagOf tag) (proof.map BitVec.toNat) → s.m.upd.session = 1 → proof.map BitVec.toNat ≠ hmac256 ((s.m.nvm.key2.getD []).flatMap leBytes) (openWord ++ s.m.upd.nh ++ s.m.upd.nd) → 
    Completes (.auth seq tag proof) s (s.m.svcAnswers (Chip.eauthPort { (s.m.svcAccept seq.toNat) with upd := { (s.m.svcAccept seq.toNat).upd with session := 0, nh := [], nd := [], ks := [] } } 1) 3 seq.toNat .eauth [])) ∧
  (∀ (s : State) (seq : BitVec 16) (tag : Option (List Byte)),
    s.m.svcTakes 4 seq.toNat (tagOf tag) [] → 
    Completes (.closeSession seq tag) s (s.m.svcAnswers ((s.m.svcAccept seq.toNat).sessionEnd 0) 4 seq.toNat .ok [])) ∧
  (∀ (s : State) (seq : BitVec 16) (tag : Option (List Byte)) (index : Byte),
    s.m.svcTakes 5 seq.toNat (tagOf tag) [index.toNat] → index.toNat < 9 → 
    Completes (.baud seq tag index) s (s.m.svcAnswers (({ (s.m.svcAccept seq.toNat) with upd := { (s.m.svcAccept seq.toNat).upd with rate := index.toNat, fallback := some ((s.m.svcAccept seq.toNat).upd.rate, (s.m.svcAccept seq.toNat).now) } } : Chip)) 5 seq.toNat .ok [])) ∧
  (∀ (s : State) (seq : BitVec 16) (tag : Option (List Byte)) (addr : BitVec 32),
    s.m.svcTakes 0x10 seq.toNat (tagOf tag) (le32 addr.toNat) → (s.m.svcAccept seq.toNat).mustHold { ag := .svc, write := false, addr := addr.toNat % 2 ^ 24, data := 0, dst := 1 } = false → 
    Completes (.svcRead seq tag addr) s (s.m.svcAnswers (((s.m.svcAccept seq.toNat).perform { ag := .svc, write := false, addr := addr.toNat % 2 ^ 24, data := 0, dst := 1 }).1) 0x10 seq.toNat ((s.m.svcAccept seq.toNat).perform { ag := .svc, write := false, addr := addr.toNat % 2 ^ 24, data := 0, dst := 1 }).2.1 (leBytes ((s.m.svcAccept seq.toNat).perform { ag := .svc, write := false, addr := addr.toNat % 2 ^ 24, data := 0, dst := 1 }).2.2))) ∧
  (∀ (s : State) (seq : BitVec 16) (tag : Option (List Byte)) (addr : BitVec 32) (d : Word),
    s.m.svcTakes 0x11 seq.toNat (tagOf tag) (le32 addr.toNat ++ leBytes d) → (s.m.svcAccept seq.toNat).mustHold { ag := .svc, write := true, addr := addr.toNat % 2 ^ 24, data := d, dst := 1 } = false → 
    Completes (.svcWrite seq tag addr d) s (s.m.svcAnswers (((s.m.svcAccept seq.toNat).perform { ag := .svc, write := true, addr := addr.toNat % 2 ^ 24, data := d, dst := 1 }).1) 0x11 seq.toNat ((s.m.svcAccept seq.toNat).perform { ag := .svc, write := true, addr := addr.toNat % 2 ^ 24, data := d, dst := 1 }).2.1 [])) ∧
  (∀ (s : State) (old at_ : Nat), s.m.upd.fallback = some (old, at_) → 
    Completes (.baudFallback) s (let m := s.m.elapse at_ 1000000
      ({ m with upd := { m.upd with rate := old, fallback := none } } : Chip))) ∧
  (∀ (s : State), s.m.upd.fallback = none → 
    Completes (.baudFallback) s (s.m)) ∧
  (∀ (s : State) (t : Bool), s.m.alive = true → t = false → 
    Completes (.svcMalformedFrame t) s ((s.m.bump .updSvcCnt0 0 15 0 1).frameNote)) ∧
  (∀ (s : State) (t : Bool), s.m.alive = true → t = true → 
    Completes (.svcMalformedFrame t) s (((s.m.bump .updSvcCnt0 0 15 0 1).bump .updSvcCnt1 0 31 16 1).frameNote)) ∧
  (∀ (s : State) (n : Nat), s.m.alive = true → 
    Completes (.svcNoise n) s (s.m.bump .updSvcCnt0 0 31 16 n)) ∧
  (∀ (s : State) (p : Bool), s.m.alive = true → s.m.upd.present ≠ p → p = true ∨ s.m.upd.session ≠ 2 → 
    Completes (.svcPresence p) s ({ s.m.elapse s.m.now 10000 with upd := { s.m.upd with present := p } })) ∧
  (∀ (s : State) (p : Bool), s.m.alive = true → s.m.upd.present = true → p = false → s.m.upd.session = 2 → 
    Completes (.svcPresence p) s (Chip.sessionEnd { s.m.elapse s.m.now 10000 with upd := { s.m.upd with present := false } } 2)) ∧
  (∀ (s : State) (p : Bool), s.m.upd.present = p → 
    Completes (.svcPresence p) s (s.m)) ∧
  (∀ (s : State), 2 ≤ s.m.upd.session → 
    Completes (.svcIdleTimeout) s ((s.m.elapse s.m.upd.validAt (s.m.fld .updSvcCfg 0 7 0 * 60000000)).sessionEnd 1)) ∧
  (∀ (s : State), s.m.upd.session < 2 → 
    Completes (.svcIdleTimeout) s (s.m))

/-- With class 9, IMG_BEGIN in an open service condition with the staging area empty begins a load, IMG_DATA, IMG_FINISH and
IMG_CANCEL do as their rows say, each with its status in UPD_CMDSTAT and in its response. A granted CONFIRM confirms the
trial, UNSTAGE empties the staging area. A passed self-test is noted and confirms a trial where AUTOCONF is set; a failed
one resets with cause 3; the trial's watchdog resets with cause 2. (R60, R638, R639, R643, R644, R645, R701) -/
def Obligations.ServiceImagesAndUpdate : Prop :=
  (∀ (s : State) (seq : BitVec 16) (tag : Option (List Byte)),
    s.m.svcTakes 0x20 seq.toNat (tagOf tag) [] → (s.m.svcAccept seq.toNat).mayClass .svc 9 = true → s.m.upd.stg = .empty → s.m.pwr.condSvc = true → s.m.nvm.lock = false → s.m.upd.trial = false → s.m.pwr.ecdFired = false → 
    Completes (.imgBegin seq tag) s (s.m.svcAnswers (Chip.put ({ (s.m.svcAccept seq.toNat) with upd := { (s.m.svcAccept seq.toNat).upd with stg := .loading, bytes := [] } }) .updCmdstat 0 (wd (Status.code (.ok) + 0x20 * 256))) 0x20 seq.toNat .ok [])) ∧
  (∀ (s : State) (seq : BitVec 16) (tag : Option (List Byte)) (off : BitVec 32) (bs : List Byte),
    s.m.svcTakes 0x21 seq.toNat (tagOf tag) (le32 off.toNat ++ bs.map BitVec.toNat) → (s.m.svcAccept seq.toNat).mayClass .svc 9 = true → 
    Completes (.imgData seq tag off bs) s (s.m.svcAnswers (Chip.put (((s.m.svcAccept seq.toNat).imgData off.toNat (bs.map BitVec.toNat)).1) .updCmdstat 0 (wd (Status.code (((s.m.svcAccept seq.toNat).imgData off.toNat (bs.map BitVec.toNat)).2) + 0x21 * 256))) 0x21 seq.toNat ((s.m.svcAccept seq.toNat).imgData off.toNat (bs.map BitVec.toNat)).2 [])) ∧
  (∀ (s : State) (seq : BitVec 16) (tag : Option (List Byte)),
    s.m.svcTakes 0x22 seq.toNat (tagOf tag) [] → (s.m.svcAccept seq.toNat).mayClass .svc 9 = true → 
    Completes (.imgFinish seq tag) s (s.m.svcAnswers (Chip.put ((s.m.svcAccept seq.toNat).imgFinish.1) .updCmdstat 0 (wd (Status.code ((s.m.svcAccept seq.toNat).imgFinish.2.1) + 0x22 * 256))) 0x22 seq.toNat (s.m.svcAccept seq.toNat).imgFinish.2.1 [(s.m.svcAccept seq.toNat).imgFinish.2.2])) ∧
  (∀ (s : State) (seq : BitVec 16) (tag : Option (List Byte)),
    s.m.svcTakes 0x23 seq.toNat (tagOf tag) [] → (s.m.svcAccept seq.toNat).mayClass .svc 9 = true → 
    Completes (.imgCancel seq tag) s (s.m.svcAnswers (Chip.put ((s.m.svcAccept seq.toNat).imgCancel.1) .updCmdstat 0 (wd (Status.code ((s.m.svcAccept seq.toNat).imgCancel.2) + 0x23 * 256))) 0x23 seq.toNat (s.m.svcAccept seq.toNat).imgCancel.2 [])) ∧
  (WriteRow (fun ag => .updConfirm ag) .updCmd 0 (1)
    (fun _ m => m.confirm.put .updCmdstat 0 (wd 256))) ∧
  (WriteRow (fun ag => .unstage ag) .updCmd 0 (2)
    (fun _ m => m.stageEmpty.put .updCmdstat 0 (wd 512))) ∧
  (∀ (s : State), s.m.fwRuns = true → s.m.upd.trial = true → s.m.flag .updCfg 0 16 = true → s.m.pwr.ecdFired = false → 
    Completes (.updSelftestPass) s (Chip.confirm { s.m with upd := { s.m.upd with selftest := true } })) ∧
  (∀ (s : State), s.m.fwRuns = true → s.m.upd.trial = false → 
    Completes (.updSelftestPass) s ({ s.m with upd := { s.m.upd with selftest := true } })) ∧
  (∀ (s : State), s.m.fwRuns = false → 
    Completes (.updSelftestPass) s (s.m)) ∧
  (∀ (s : State), s.m.fwRuns = true → 
    Completes (.updSelftestFail) s (Chip.warmReset { s.m with upd := { s.m.upd with failed := s.m.upd.trial && !s.m.pwr.ecdFired } } 3)) ∧
  (∀ (s : State), s.m.fwRuns = false → 
    Completes (.updSelftestFail) s (s.m)) ∧
  (∀ (s : State), s.m.upd.trial = true → s.m.up = true → 
    Completes (.updWatchdogExpiry) s ((s.m.elapse s.m.upd.trialAt (s.m.fld .updCfg 0 10 0 * 60000000)).warmReset 2)) ∧
  (∀ (s : State), s.m.upd.trial = false → 
    Completes (.updWatchdogExpiry) s (s.m))

/-- A granted read of SYS_USECLO returns the time's low word and keeps the high byte for its reader. A granted SYS_LOCK write
with the key locks. BEGIN opens the port's parameter list, DATA appends a pair at the address register, COMMIT stores the
list in order and closes it, CANCEL drops it and ERASE stores none, each with OK. A granted read of a read-to-clear register
returns it and clears it. LEVEL_CHANGE_APPLY in a powered chip applies a pending change of the block's level when the block
is quiescent; otherwise it changes nothing. (R6, R18, R658, R661, R664) -/
def Obligations.SystemRegistersAndParameters : Prop :=
  (ReadRow (fun ag => .sysUsecloRead ag) .sysUseclo 0
    (fun ag m => ({ m with sys := { m.sys with usecHi := NTab.set 0 m.sys.usecHi (Owner.bank (m.authOf ag)) (m.now / 2 ^ 32 % 256) } }, wd (m.now % 2 ^ 32), .ok))) ∧
  (∀ (d : Word), WriteRow (fun ag => .sysLockWrite ag d) .sysLock 0 (d)
    (fun _ m => ({ m with sys := { m.sys with locked := true } } : Chip))) ∧
  (∀ (s : State) (ag : Agent) (p : Nat), s.m.grants ag (RName.addr .sysParamCtl 0) (1) → portCode ag = some p → 
    Completes (.paramBegin ag) s (s.m.written ({ s.m with sys := { (s.m).sys with list := some (p, []), stat := 0 } }) ag (RName.addr .sysParamCtl 0) .ok)) ∧
  (∀ (s : State) (ag : Agent) (p : Nat) (d : Word), s.m.grants ag (RName.addr .sysParamData 0) (d) → portCode ag = some p → (∀ l, s.m.sys.list = some (p, l) → l.length < 8192) → 
    Completes (.paramData ag d) s (s.m.written (s.m.setList (s.m.sys.list.map (fun q => (q.1, (s.m.fld .sysParamAddr 0 23 0, d) :: q.2)))) ag (RName.addr .sysParamData 0) .ok)) ∧
  (∀ (s : State) (ag : Agent) (p : Nat) (l : List (Nat × Word)), s.m.grants ag (RName.addr .sysParamCtl 0) 2 → portCode ag = some p → s.m.sys.list = some (p, l) →
    Completes (.paramCommit ag) s (s.m.written (Chip.paramStatus ((s.m.storeParams p l.reverse).setList none) .ok) ag (RName.addr .sysParamCtl 0) .ok)) ∧
  (∀ (s : State) (ag : Agent) (p : Nat), s.m.grants ag (RName.addr .sysParamCtl 0) (3) → portCode ag = some p → 
    Completes (.paramCancel ag) s (s.m.written ({ s.m with sys := { (s.m).sys with list := none, stat := 0 } }) ag (RName.addr .sysParamCtl 0) .ok)) ∧
  (∀ (s : State) (ag : Agent) (p : Nat), s.m.grants ag (RName.addr .sysParamCtl 0) (4) → portCode ag = some p → 
    Completes (.paramErase ag) s (s.m.written ((s.m.storeParams p []).paramStatus .ok) ag (RName.addr .sysParamCtl 0) .ok)) ∧
  (∀ (s : State) (ag : Agent) (addr : BitVec 24) (r : RName) (i : Nat), s.m.grantsRead ag addr.toNat → targetOf addr.toNat = .reg r i →
    r.row.kind = .rc → r ∉ [.fltFlag, .hstMbxRx, .acqQpop1, .acqRes, .cnvXVdone] →
    Completes (.rcFieldRead ag addr) s ((s.m.put r i (resetWord (r, i))).respond ag .ok (s.m.get r i))) ∧
  (∀ (s : State) (b : Blk), s.m.alive = true → s.m.quiescent b = true → 
    Completes (.levelChangeApply b) s (s.m.levelNow b)) ∧
  (∀ (s : State) (b : Blk), s.m.quiescent b = false → 
    Completes (.levelChangeApply b) s (s.m))
end

