-- ==== Sys2Proof/Laws/Access.lean ====
section
/-!
SUPPORT. What a granted access does, said once: Machine/Bus.lean need not be unfolded for it again. And where the registers that
commands of their own write and read lie.
-/

namespace Sys2Proof.Machine

/-- A granted write takes effect at once: the effect of its block, HST_STAT, and the port's status. -/
theorem Chip.portWrite_granted {m : Chip} {ag : Agent} {addr : Nat} {d : Word} (h : m.grants ag addr d) :
    m.portWrite ag addr d =
      m.written ((m.writeAct ag addr d).eff m).1 ag addr ((m.writeAct ag addr d).eff m).2 := by
  obtain ⟨⟨h1, h2⟩, h3, h4⟩ := h
  have hs : (ag = .svc && m.pwr.base != .boot && m.upd.session < 2 : Bool) = false := by
    by_cases ha : ag = .svc
    · rcases h2 ha with q | q
      · simp [q]
      · simp [Nat.not_lt.2 q]
    · simp [ha]
  have hc : ∀ d', m.cursorWaits { ag := ag, write := true, addr := addr, data := d', dst := 0 } = false := by
    intro d'
    simp only [Chip.cursorWaits]
    cases targetOf addr <;> rfl
  simp only [Chip.portWrite, Chip.access, h1, hs, Chip.mustHold, hc, h4, h3, Chip.perform, Chip.busWrite, Chip.written]
  simp

/-- A granted read takes effect at once. -/
theorem Chip.portRead_granted {m : Chip} {ag : Agent} {addr : Nat} (h : m.grantsRead ag addr) :
    m.portRead ag addr = (m.busRead ag addr).1.respond ag (m.busRead ag addr).2.2 (m.busRead ag addr).2.1 := by
  obtain ⟨⟨h1, h2⟩, h3, h4, h5⟩ := h
  have hs : (ag = .svc && m.pwr.base != .boot && m.upd.session < 2 : Bool) = false := by
    by_cases ha : ag = .svc
    · rcases h2 ha with q | q
      · simp [q]
      · simp [Nat.not_lt.2 q]
    · simp [ha]
  simp only [Chip.portRead, Chip.access, h1, hs, Chip.mustHold, h5, h4, h3, Chip.perform]
  simp

/-- A write that a rule rejects has no effect but what its block and the EAUTH count note, and is told so (R12, R13). -/
theorem Chip.busWrite_rejected {m : Chip} {ag : Agent} {addr : Nat} {d : Word} {st : Status}
    (h : m.writeVerdict ag addr d = some st) : m.busWrite ag addr d = (m.rejectWrite ag addr d st, st) := by
  simp [Chip.busWrite, h]

/-- A command that is a write of a register of its own: its statement follows from the effect that the register's block gives
the write. -/
theorem writeRow_of {i : Agent → Instr} {r : RName} {n : Nat} {d : Word} {f : Agent → Chip → Chip}
    (hx : ∀ ag s, exec (i ag) s = s.finish (s.m.regWrite ag r n d)) (ht : targetOf (r.addr n) = .reg r n)
    (he : ∀ ag m, (m.regAct ag r n d).eff m = (f ag m, .ok)) : WriteRow i r n d f := by
  intro ag s h
  rw [Completes, hx, Chip.regWrite, Chip.portWrite_granted h]
  simp only [Chip.writeAct, ht, he]
  rfl

/-- A command that is a read of a register of its own, likewise. -/
theorem readRow_of {i : Agent → Instr} {r : RName} {n : Nat} {f : Agent → Chip → Chip × Word × Status}
    (hx : ∀ ag s, exec (i ag) s = s.finish (s.m.regRd ag r n)) (ht : targetOf (r.addr n) = .reg r n)
    (he : ∀ ag m, m.regRead ag r n = f ag m) (ho : ∀ ag m, (f ag m).2.2 ≠ .eauth) : ReadRow i r n f := by
  intro ag s h
  rw [Completes, hx, Chip.regRd, Chip.portRead_granted h]
  simp only [Chip.busRead, h.2.1, Chip.readAt, ht, he, ho, if_false]
  rfl

end Sys2Proof.Machine
end

