-- ==== Sys2Proof/Laws/Addresses.lean ====
section
/-!
SUPPORT. Where the registers that commands of their own write and read lie in the address space (R30): one lemma for each.
-/

namespace Sys2Proof.Machine

-- One theorem at a time: each kernel evaluation takes a thread with a stack of its own.
set_option Elab.async false

theorem targetOf_pwrmCmd : targetOf (RName.addr .pwrmCmd 0) = .reg .pwrmCmd 0 := by decide +kernel
theorem targetOf_seqCmd : targetOf (RName.addr .seqCmd 0) = .reg .seqCmd 0 := by decide +kernel
theorem targetOf_seqStepCtl : ∀ n : Fin 64, targetOf (RName.addr .seqStepCtl n) = .reg .seqStepCtl n := by decide +kernel
theorem targetOf_seqStepTmo : ∀ n : Fin 64, targetOf (RName.addr .seqStepTmo n) = .reg .seqStepTmo n := by decide +kernel
theorem targetOf_layCmd : targetOf (RName.addr .layCmd 0) = .reg .layCmd 0 := by decide +kernel
theorem targetOf_layBldCtl : targetOf (RName.addr .layBldCtl 0) = .reg .layBldCtl 0 := by decide +kernel
theorem targetOf_layBldData : targetOf (RName.addr .layBldData 0) = .reg .layBldData 0 := by decide +kernel
theorem targetOf_acqQpop1 : targetOf (RName.addr .acqQpop1 0) = .reg .acqQpop1 0 := by decide +kernel
theorem targetOf_acqRes : ∀ n : Fin 95, targetOf (RName.addr .acqRes n) = .reg .acqRes n := by decide +kernel
theorem targetOf_acqCmd : targetOf (RName.addr .acqCmd 0) = .reg .acqCmd 0 := by decide +kernel
theorem targetOf_cleCommit : targetOf (RName.addr .cleCommit 0) = .reg .cleCommit 0 := by decide +kernel
theorem targetOf_cleKick : targetOf (RName.addr .cleKick 0) = .reg .cleKick 0 := by decide +kernel
theorem targetOf_polCmd : targetOf (RName.addr .polCmd 0) = .reg .polCmd 0 := by decide +kernel
theorem targetOf_cnvXCmd : ∀ n : Fin 2, targetOf (RName.addr .cnvXCmd n) = .reg .cnvXCmd n := by decide +kernel
theorem targetOf_cnvXVcmd : ∀ n : Fin 2, targetOf (RName.addr .cnvXVcmd n) = .reg .cnvXVcmd n := by decide +kernel
theorem targetOf_cnvXVdone : ∀ n : Fin 2, targetOf (RName.addr .cnvXVdone n) = .reg .cnvXVdone n := by decide +kernel
theorem targetOf_brnNCmd : ∀ n : Fin 24, targetOf (RName.addr .brnNCmd n) = .reg .brnNCmd n := by decide +kernel
theorem targetOf_brnNElo : ∀ n : Fin 24, targetOf (RName.addr .brnNElo n) = .reg .brnNElo n := by decide +kernel
theorem targetOf_batCmd : targetOf (RName.addr .batCmd 0) = .reg .batCmd 0 := by decide +kernel
theorem targetOf_estCmd : targetOf (RName.addr .estCmd 0) = .reg .estCmd 0 := by decide +kernel
theorem targetOf_ptnTelRd : targetOf (RName.addr .ptnTelRd 0) = .reg .ptnTelRd 0 := by decide +kernel
theorem targetOf_ptnCmd : targetOf (RName.addr .ptnCmd 0) = .reg .ptnCmd 0 := by decide +kernel
theorem targetOf_twbNCmd : ∀ n : Fin 16, targetOf (RName.addr .twbNCmd n) = .reg .twbNCmd n := by decide +kernel
theorem targetOf_hstAuthHost : targetOf (RName.addr .hstAuthHost 0) = .reg .hstAuthHost 0 := by decide +kernel
theorem targetOf_hstAuthSvc : targetOf (RName.addr .hstAuthSvc 0) = .reg .hstAuthSvc 0 := by decide +kernel
theorem targetOf_hstAuthPeer : targetOf (RName.addr .hstAuthPeer 0) = .reg .hstAuthPeer 0 := by decide +kernel
theorem targetOf_hstMbxTx : ∀ n : Fin 64, targetOf (RName.addr .hstMbxTx n) = .reg .hstMbxTx n := by decide +kernel
theorem targetOf_hstMbxRx : ∀ n : Fin 64, targetOf (RName.addr .hstMbxRx n) = .reg .hstMbxRx n := by decide +kernel
theorem targetOf_slkNCmd : ∀ n : Fin 4, targetOf (RName.addr .slkNCmd n) = .reg .slkNCmd n := by decide +kernel
theorem targetOf_fltFlag : ∀ n : Fin 192, targetOf (RName.addr .fltFlag n) = .reg .fltFlag n := by decide +kernel
theorem targetOf_fltSrc : ∀ n : Fin 192, targetOf (RName.addr .fltSrc n) = .reg .fltSrc n := by decide +kernel
theorem targetOf_fltSwraise : targetOf (RName.addr .fltSwraise 0) = .reg .fltSwraise 0 := by decide +kernel
theorem targetOf_evtSwset : targetOf (RName.addr .evtSwset 0) = .reg .evtSwset 0 := by decide +kernel
theorem targetOf_evtPend : ∀ n : Fin 64, targetOf (RName.addr .evtPend n) = .reg .evtPend n := by decide +kernel
theorem targetOf_evtRoute : ∀ n : Fin 256, targetOf (RName.addr .evtRoute n) = .reg .evtRoute n := by decide +kernel
theorem targetOf_secAlarmCfg : targetOf (RName.addr .secAlarmCfg 0) = .reg .secAlarmCfg 0 := by decide +kernel
theorem targetOf_secAlarmFlg : targetOf (RName.addr .secAlarmFlg 0) = .reg .secAlarmFlg 0 := by decide +kernel
theorem targetOf_secKeyCtl : targetOf (RName.addr .secKeyCtl 0) = .reg .secKeyCtl 0 := by decide +kernel
theorem targetOf_secKeyData : targetOf (RName.addr .secKeyData 0) = .reg .secKeyData 0 := by decide +kernel
theorem targetOf_splCmd : targetOf (RName.addr .splCmd 0) = .reg .splCmd 0 := by decide +kernel
theorem targetOf_rcdSeqchk : targetOf (RName.addr .rcdSeqchk 0) = .reg .rcdSeqchk 0 := by decide +kernel
theorem targetOf_rcdCmd : targetOf (RName.addr .rcdCmd 0) = .reg .rcdCmd 0 := by decide +kernel
theorem targetOf_rcdCapCfg : ∀ n : Fin 8, targetOf (RName.addr .rcdCapCfg n) = .reg .rcdCapCfg n := by decide +kernel
theorem targetOf_rcdCapData : targetOf (RName.addr .rcdCapData 0) = .reg .rcdCapData 0 := by decide +kernel
theorem targetOf_sysUseclo : targetOf (RName.addr .sysUseclo 0) = .reg .sysUseclo 0 := by decide +kernel
theorem targetOf_updCmd : targetOf (RName.addr .updCmd 0) = .reg .updCmd 0 := by decide +kernel
theorem targetOf_sysLock : targetOf (RName.addr .sysLock 0) = .reg .sysLock 0 := by decide +kernel
theorem targetOf_sysParamCtl : targetOf (RName.addr .sysParamCtl 0) = .reg .sysParamCtl 0 := by decide +kernel
theorem targetOf_sysParamData : targetOf (RName.addr .sysParamData 0) = .reg .sysParamData 0 := by decide +kernel

/-- Word w of loop slot s. -/
theorem targetOf_loop : ∀ (s : Fin 64) (w : Fin 256), targetOf (0x700000 + 1024 * s + 4 * w) = .loopMem s w := by
  intro s w
  have h1 : (0x700000 + 1024 * s.val + 4 * w.val) / 0x10000 = 0x70 := by omega
  have h2 : (0x700000 + 1024 * s.val + 4 * w.val) % 4 = 0 := by omega
  have h3 : (0x700000 + 1024 * s.val + 4 * w.val - 0x700000) / 1024 = s.val := by omega
  have h4 : (0x700000 + 1024 * s.val + 4 * w.val - 0x700000) % 1024 / 4 = w.val := by omega
  simp [targetOf, h1, h2, h3, h4]

/-- Word w of partner table entry e. -/
theorem targetOf_table (e : BitVec 12) (w : Fin 8) :
    targetOf (0x400000 + 32 * e.toNat + 4 * w) = .table e.toNat w := by
  have he := e.isLt
  have h1 : (0x400000 + 32 * e.toNat + 4 * w.val) / 0x10000 = 0x40 ∨
      (0x400000 + 32 * e.toNat + 4 * w.val) / 0x10000 = 0x41 := by omega
  have h2 : (0x400000 + 32 * e.toNat + 4 * w.val) % 4 = 0 := by omega
  have h3 : (0x400000 + 32 * e.toNat + 4 * w.val - 0x400000) / 32 = e.toNat := by omega
  have h4 : (0x400000 + 32 * e.toNat + 4 * w.val - 0x400000) % 32 / 4 = w.val := by omega
  rcases h1 with h1 | h1 <;> simp [targetOf, h1, h2, h3, h4]

end Sys2Proof.Machine
end

