-- ==== Sys2Proof/Laws/Boot.lean ====
section
/-!
SUPPORT. What loading and calibrating the trims at boot leaves alone, said once.
-/

namespace Sys2Proof.Machine

/-- What boot's own steps read is the same in two chips. -/
structure BootSame (a b : Chip) : Prop where
  base : a.pwr.base = b.pwr.base
  role : a.pwr.role = b.pwr.role
  nvm : a.nvm = b.nvm
  spl : a.spl = b.spl
  sys : a.sys = b.sys
  est : a.est = b.est
  seq : a.seq = b.seq
  upd : a.upd = b.upd
  now : a.now = b.now
  slots : a.rcd.slots = b.rcd.slots
  discarded : a.rcd.discarded = b.rcd.discarded
  caps : a.rcd.caps = b.rcd.caps

theorem BootSame.refl (m : Chip) : BootSame m m := ⟨rfl, rfl, rfl, rfl, rfl, rfl, rfl, rfl, rfl, rfl, rfl, rfl⟩

theorem BootSame.trans {a b c : Chip} (h : BootSame a b) (g : BootSame b c) : BootSame a c :=
  ⟨h.base.trans g.base, h.role.trans g.role, h.nvm.trans g.nvm, h.spl.trans g.spl, h.sys.trans g.sys, h.est.trans g.est,
    h.seq.trans g.seq, h.upd.trans g.upd, h.now.trans g.now, h.slots.trans g.slots, h.discarded.trans g.discarded,
    h.caps.trans g.caps⟩

theorem Chip.put_bootSame (m : Chip) (r : RName) (i : Nat) (w : Word) : BootSame (m.put r i w) m := by
  exact ⟨rfl, rfl, rfl, rfl, rfl, rfl, rfl, rfl, rfl, rfl, rfl, rfl⟩

theorem Chip.wake_bootSame (m : Chip) (d : Dom) : BootSame (m.wake d) m := by
  exact ⟨rfl, rfl, rfl, rfl, rfl, rfl, rfl, rfl, rfl, rfl, rfl, rfl⟩

theorem Chip.enqueue_bootSame (m : Chip) (r : Rec) (d : Option Deliv) : BootSame (m.enqueue r d) m := by
  unfold Chip.enqueue; split
  · exact ⟨rfl, rfl, rfl, rfl, rfl, rfl, rfl, rfl, rfl, rfl, rfl, rfl⟩
  · exact ⟨rfl, rfl, rfl, rfl, rfl, rfl, rfl, rfl, rfl, rfl, rfl, rfl⟩

theorem Chip.noteTrig_bootSame (m : Chip) (s : Nat) : BootSame (m.noteTrig s) m := by
  unfold Chip.noteTrig; split <;> exact ⟨rfl, rfl, rfl, rfl, rfl, rfl, rfl, rfl, rfl, rfl, rfl, rfl⟩

theorem Chip.foldl_bootSame {α : Type} (f : Chip → α → Chip) (h : ∀ m a, BootSame (f m a) m) (l : List α) (m : Chip) :
    BootSame (l.foldl f m) m := by
  induction l generalizing m with
  | nil => exact BootSame.refl m
  | cons a t ih => exact (ih (f m a)).trans (h m a)

theorem Chip.deliverTo_bootSame (m : Chip) (s d : Nat) : BootSame (m.deliverTo s d) m := by
  unfold Chip.deliverTo
  split
  · exact BootSame.refl m
  · dsimp only
    repeat' split
    all_goals first
      | exact ((Chip.wake_bootSame _ _).trans (Chip.put_bootSame _ _ _ _)).trans (Chip.put_bootSame _ _ _ _)
      | exact (Chip.wake_bootSame _ _).trans (Chip.put_bootSame _ _ _ _)
      | exact Chip.put_bootSame _ _ _ _

theorem Chip.event_bootSame (m : Chip) (s : Nat) : BootSame (m.event s) m := by
  refine BootSame.trans ?_ (m.noteTrig_bootSame s)
  refine Chip.foldl_bootSame _ (fun m d => ?_) _ _
  split
  · exact m.deliverTo_bootSame s d
  · exact BootSame.refl m

/-- A fault with no unit of its own, raised in BOOT before the twin's link is up, is latched and recorded, no more. -/
theorem Chip.raise_bootSame (m : Chip) (s i : Nat) (p : List Word) (hb : m.pwr.base = .boot) (hs : m.spl.st = .init)
    (hu : scopeOf s = .none) : BootSame (m.raise s i p) m := by
  have hl : ∀ m : Chip, BootSame (m.latch s i p) m := by
    intro m
    unfold Chip.latch; dsimp only
    generalize hp : m.put .fltFlag s (flagAfter (m.get .fltFlag s) (m.sev s) i) = a
    have ha : BootSame a m := hp ▸ m.put_bootSame _ _ _
    split
    · refine (Chip.enqueue_bootSame _ _ _).trans (BootSame.trans ?_ ha)
      exact ⟨rfl, rfl, rfl, rfl, rfl, rfl, rfl, rfl, rfl, rfl, rfl, rfl⟩
    · exact ha
  have h1 := (hl (m.noteTrig s)).trans (m.noteTrig_bootSame s)
  have hup : ((m.noteTrig s).latch s i p).up = false := by
    simp [Chip.up, Chip.powering, h1.base, hb]
  have hd : ∀ c : Bool, ((m.noteTrig s).latch s i p).when c Chip.degrade = (m.noteTrig s).latch s i p := by
    intro c; cases c <;> simp [Chip.when, Chip.degrade, hup]
  have hr : m.raiseOnly s i p = (m.noteTrig s).latch s i p := by
    unfold Chip.raiseOnly; dsimp only
    rw [hd]; unfold Chip.when; split
    · simp [Chip.safeReact, hup]
    · rfl
  have hf : ∀ c : Bool, (m.raiseOnly s i p).when c (fun m => m.fenceUnit s i) = m.raiseOnly s i p := by
    intro c; cases c <;> simp [Chip.when, Chip.fenceUnit, hu]
  unfold Chip.raise; dsimp only
  rw [hf, hr]
  unfold Chip.splFault; split
  · have : ((m.noteTrig s).latch s i p).spl.st = .init := by rw [h1.spl, hs]
    simp only [Chip.splTrigger, this]; exact h1
  · exact h1

theorem Chip.bootCal_bootSame (m : Chip) (p : Nat) (hb : m.pwr.base = .boot) (hs : m.spl.st = .init) :
    BootSame (m.bootCal p) m := by
  unfold Chip.bootCal; dsimp only
  refine (Chip.event_bootSame _ _).trans ?_
  have hm : BootSame ({ m with fresh := m.fresh + 4 } : Chip) m := ⟨rfl, rfl, rfl, rfl, rfl, rfl, rfl, rfl, rfl, rfl, rfl, rfl⟩
  revert hm
  generalize ({ m with fresh := m.fresh + 4 } : Chip) = a
  intro hm
  split
  · exact ((Chip.put_bootSame _ _ _ _).trans (Chip.put_bootSame _ _ _ _)).trans hm
  · exact (Chip.raise_bootSame a 31 0 [] (hm.base.trans hb) ((congrArg Spl.st hm.spl).trans hs) (by decide)).trans hm

/-- Loading and calibrating the trims in BOOT leaves what boot's other steps read. -/
theorem Chip.bootTrims_bootSame (m : Chip) (hb : m.pwr.base = .boot) (hs : m.spl.st = .init) : BootSame m.bootTrims m := by
  unfold Chip.bootTrims; dsimp only
  generalize ha : ((List.range 24).foldl _ m : Chip) = a
  have h1 : BootSame a m := ha ▸ Chip.foldl_bootSame _ (fun m n => m.put_bootSame _ _ _) _ _
  generalize hc : ((List.range 2).foldl _ a : Chip) = c
  have h2 : BootSame c a := hc ▸ Chip.foldl_bootSame _ (fun m p =>
    ((Chip.put_bootSame _ _ _ _).trans (Chip.put_bootSame _ _ _ _)).trans (Chip.put_bootSame _ _ _ _)) _ _
  have h3 := h2.trans h1
  have hb3 : c.pwr.base = .boot := by rw [h3.base, hb]
  have hs3 : c.spl.st = .init := by rw [h3.spl, hs]
  have h4 := c.bootCal_bootSame 0 hb3 hs3
  refine (Chip.bootCal_bootSame _ 1 (by rw [h4.base, hb3]) (by rw [h4.spl, hs3])).trans (h4.trans h3)

end Sys2Proof.Machine
end

