-- ==== Sys2Proof/Laws/State.lean ====
section
/-!
SUPPORT. One lemma for each field of the chip and each basic update that leaves it alone, so that no proof unfolds a record
update.
-/

namespace Sys2Proof.Machine

/-! ### The outcome of a command -/

@[simp] theorem State.finish_eq (s : State) (m : Chip) :
    s.finish m = .next { m := m.settle s.m, pending := s.pending } := rfl

theorem Chip.settle_eq (m old : Chip) : m.settle old = (m.react old).drive := rfl

@[simp] theorem Chip.drive_pins (m : Chip) : m.drive.pins = m.pinsOf := rfl

/-! ### A register write changes the register file alone. -/

@[simp] theorem Chip.put_now (m : Chip) (r : RName) (i : Nat) (w : Word) : (m.put r i w).now = m.now := rfl
@[simp] theorem Chip.put_upUs (m : Chip) (r : RName) (i : Nat) (w : Word) : (m.put r i w).upUs = m.upUs := rfl
@[simp] theorem Chip.put_levels (m : Chip) (r : RName) (i : Nat) (w : Word) : (m.put r i w).levels = m.levels := rfl
@[simp] theorem Chip.put_pwr (m : Chip) (r : RName) (i : Nat) (w : Word) : (m.put r i w).pwr = m.pwr := rfl
@[simp] theorem Chip.put_nvm (m : Chip) (r : RName) (i : Nat) (w : Word) : (m.put r i w).nvm = m.nvm := rfl
@[simp] theorem Chip.put_seq (m : Chip) (r : RName) (i : Nat) (w : Word) : (m.put r i w).seq = m.seq := rfl
@[simp] theorem Chip.put_acq (m : Chip) (r : RName) (i : Nat) (w : Word) : (m.put r i w).acq = m.acq := rfl
@[simp] theorem Chip.put_cle (m : Chip) (r : RName) (i : Nat) (w : Word) : (m.put r i w).cle = m.cle := rfl
@[simp] theorem Chip.put_ptn (m : Chip) (r : RName) (i : Nat) (w : Word) : (m.put r i w).ptn = m.ptn := rfl
@[simp] theorem Chip.put_twb (m : Chip) (r : RName) (i : Nat) (w : Word) : (m.put r i w).twb = m.twb := rfl
@[simp] theorem Chip.put_slk (m : Chip) (r : RName) (i : Nat) (w : Word) : (m.put r i w).slk = m.slk := rfl
@[simp] theorem Chip.put_spl (m : Chip) (r : RName) (i : Nat) (w : Word) : (m.put r i w).spl = m.spl := rfl
@[simp] theorem Chip.put_lay (m : Chip) (r : RName) (i : Nat) (w : Word) : (m.put r i w).lay = m.lay := rfl
@[simp] theorem Chip.put_brn (m : Chip) (r : RName) (i : Nat) (w : Word) : (m.put r i w).brn = m.brn := rfl
@[simp] theorem Chip.put_cnv (m : Chip) (r : RName) (i : Nat) (w : Word) : (m.put r i w).cnv = m.cnv := rfl
@[simp] theorem Chip.put_flt (m : Chip) (r : RName) (i : Nat) (w : Word) : (m.put r i w).flt = m.flt := rfl
@[simp] theorem Chip.put_sec (m : Chip) (r : RName) (i : Nat) (w : Word) : (m.put r i w).sec = m.sec := rfl
@[simp] theorem Chip.put_rcd (m : Chip) (r : RName) (i : Nat) (w : Word) : (m.put r i w).rcd = m.rcd := rfl
@[simp] theorem Chip.put_hst (m : Chip) (r : RName) (i : Nat) (w : Word) : (m.put r i w).hst = m.hst := rfl
@[simp] theorem Chip.put_pol (m : Chip) (r : RName) (i : Nat) (w : Word) : (m.put r i w).pol = m.pol := rfl
@[simp] theorem Chip.put_bat (m : Chip) (r : RName) (i : Nat) (w : Word) : (m.put r i w).bat = m.bat := rfl
@[simp] theorem Chip.put_est (m : Chip) (r : RName) (i : Nat) (w : Word) : (m.put r i w).est = m.est := rfl
@[simp] theorem Chip.put_thm (m : Chip) (r : RName) (i : Nat) (w : Word) : (m.put r i w).thm = m.thm := rfl
@[simp] theorem Chip.put_upd (m : Chip) (r : RName) (i : Nat) (w : Word) : (m.put r i w).upd = m.upd := rfl
@[simp] theorem Chip.put_sys (m : Chip) (r : RName) (i : Nat) (w : Word) : (m.put r i w).sys = m.sys := rfl
@[simp] theorem Chip.put_pins (m : Chip) (r : RName) (i : Nat) (w : Word) : (m.put r i w).pins = m.pins := rfl
@[simp] theorem Chip.put_resp (m : Chip) (r : RName) (i : Nat) (w : Word) : (m.put r i w).resp = m.resp := rfl
@[simp] theorem Chip.put_vend (m : Chip) (r : RName) (i : Nat) (w : Word) : (m.put r i w).vend = m.vend := rfl
@[simp] theorem Chip.put_fresh (m : Chip) (r : RName) (i : Nat) (w : Word) : (m.put r i w).fresh = m.fresh := rfl

/-! ### A strand context written changes the lay engine alone. -/

@[simp] theorem Chip.putStrand_regs (m : Chip) (k : Nat) (s : Strand) : (m.putStrand k s).regs = m.regs := rfl
@[simp] theorem Chip.putStrand_now (m : Chip) (k : Nat) (s : Strand) : (m.putStrand k s).now = m.now := rfl
@[simp] theorem Chip.putStrand_upUs (m : Chip) (k : Nat) (s : Strand) : (m.putStrand k s).upUs = m.upUs := rfl
@[simp] theorem Chip.putStrand_levels (m : Chip) (k : Nat) (s : Strand) : (m.putStrand k s).levels = m.levels := rfl
@[simp] theorem Chip.putStrand_pwr (m : Chip) (k : Nat) (s : Strand) : (m.putStrand k s).pwr = m.pwr := rfl
@[simp] theorem Chip.putStrand_nvm (m : Chip) (k : Nat) (s : Strand) : (m.putStrand k s).nvm = m.nvm := rfl
@[simp] theorem Chip.putStrand_seq (m : Chip) (k : Nat) (s : Strand) : (m.putStrand k s).seq = m.seq := rfl
@[simp] theorem Chip.putStrand_acq (m : Chip) (k : Nat) (s : Strand) : (m.putStrand k s).acq = m.acq := rfl
@[simp] theorem Chip.putStrand_cle (m : Chip) (k : Nat) (s : Strand) : (m.putStrand k s).cle = m.cle := rfl
@[simp] theorem Chip.putStrand_ptn (m : Chip) (k : Nat) (s : Strand) : (m.putStrand k s).ptn = m.ptn := rfl
@[simp] theorem Chip.putStrand_twb (m : Chip) (k : Nat) (s : Strand) : (m.putStrand k s).twb = m.twb := rfl
@[simp] theorem Chip.putStrand_slk (m : Chip) (k : Nat) (s : Strand) : (m.putStrand k s).slk = m.slk := rfl
@[simp] theorem Chip.putStrand_spl (m : Chip) (k : Nat) (s : Strand) : (m.putStrand k s).spl = m.spl := rfl
@[simp] theorem Chip.putStrand_brn (m : Chip) (k : Nat) (s : Strand) : (m.putStrand k s).brn = m.brn := rfl
@[simp] theorem Chip.putStrand_cnv (m : Chip) (k : Nat) (s : Strand) : (m.putStrand k s).cnv = m.cnv := rfl
@[simp] theorem Chip.putStrand_flt (m : Chip) (k : Nat) (s : Strand) : (m.putStrand k s).flt = m.flt := rfl
@[simp] theorem Chip.putStrand_sec (m : Chip) (k : Nat) (s : Strand) : (m.putStrand k s).sec = m.sec := rfl
@[simp] theorem Chip.putStrand_rcd (m : Chip) (k : Nat) (s : Strand) : (m.putStrand k s).rcd = m.rcd := rfl
@[simp] theorem Chip.putStrand_hst (m : Chip) (k : Nat) (s : Strand) : (m.putStrand k s).hst = m.hst := rfl
@[simp] theorem Chip.putStrand_pol (m : Chip) (k : Nat) (s : Strand) : (m.putStrand k s).pol = m.pol := rfl
@[simp] theorem Chip.putStrand_bat (m : Chip) (k : Nat) (s : Strand) : (m.putStrand k s).bat = m.bat := rfl
@[simp] theorem Chip.putStrand_est (m : Chip) (k : Nat) (s : Strand) : (m.putStrand k s).est = m.est := rfl
@[simp] theorem Chip.putStrand_thm (m : Chip) (k : Nat) (s : Strand) : (m.putStrand k s).thm = m.thm := rfl
@[simp] theorem Chip.putStrand_upd (m : Chip) (k : Nat) (s : Strand) : (m.putStrand k s).upd = m.upd := rfl
@[simp] theorem Chip.putStrand_sys (m : Chip) (k : Nat) (s : Strand) : (m.putStrand k s).sys = m.sys := rfl
@[simp] theorem Chip.putStrand_pins (m : Chip) (k : Nat) (s : Strand) : (m.putStrand k s).pins = m.pins := rfl
@[simp] theorem Chip.putStrand_resp (m : Chip) (k : Nat) (s : Strand) : (m.putStrand k s).resp = m.resp := rfl
@[simp] theorem Chip.putStrand_vend (m : Chip) (k : Nat) (s : Strand) : (m.putStrand k s).vend = m.vend := rfl
@[simp] theorem Chip.putStrand_fresh (m : Chip) (k : Nat) (s : Strand) : (m.putStrand k s).fresh = m.fresh := rfl

/-! ### A commons word written changes the lay engine alone. -/

@[simp] theorem Chip.putCommon_regs (m : Chip) (i : Nat) (w : Word) : (m.putCommon i w).regs = m.regs := rfl
@[simp] theorem Chip.putCommon_now (m : Chip) (i : Nat) (w : Word) : (m.putCommon i w).now = m.now := rfl
@[simp] theorem Chip.putCommon_upUs (m : Chip) (i : Nat) (w : Word) : (m.putCommon i w).upUs = m.upUs := rfl
@[simp] theorem Chip.putCommon_levels (m : Chip) (i : Nat) (w : Word) : (m.putCommon i w).levels = m.levels := rfl
@[simp] theorem Chip.putCommon_pwr (m : Chip) (i : Nat) (w : Word) : (m.putCommon i w).pwr = m.pwr := rfl
@[simp] theorem Chip.putCommon_nvm (m : Chip) (i : Nat) (w : Word) : (m.putCommon i w).nvm = m.nvm := rfl
@[simp] theorem Chip.putCommon_seq (m : Chip) (i : Nat) (w : Word) : (m.putCommon i w).seq = m.seq := rfl
@[simp] theorem Chip.putCommon_acq (m : Chip) (i : Nat) (w : Word) : (m.putCommon i w).acq = m.acq := rfl
@[simp] theorem Chip.putCommon_cle (m : Chip) (i : Nat) (w : Word) : (m.putCommon i w).cle = m.cle := rfl
@[simp] theorem Chip.putCommon_ptn (m : Chip) (i : Nat) (w : Word) : (m.putCommon i w).ptn = m.ptn := rfl
@[simp] theorem Chip.putCommon_twb (m : Chip) (i : Nat) (w : Word) : (m.putCommon i w).twb = m.twb := rfl
@[simp] theorem Chip.putCommon_slk (m : Chip) (i : Nat) (w : Word) : (m.putCommon i w).slk = m.slk := rfl
@[simp] theorem Chip.putCommon_spl (m : Chip) (i : Nat) (w : Word) : (m.putCommon i w).spl = m.spl := rfl
@[simp] theorem Chip.putCommon_brn (m : Chip) (i : Nat) (w : Word) : (m.putCommon i w).brn = m.brn := rfl
@[simp] theorem Chip.putCommon_cnv (m : Chip) (i : Nat) (w : Word) : (m.putCommon i w).cnv = m.cnv := rfl
@[simp] theorem Chip.putCommon_flt (m : Chip) (i : Nat) (w : Word) : (m.putCommon i w).flt = m.flt := rfl
@[simp] theorem Chip.putCommon_sec (m : Chip) (i : Nat) (w : Word) : (m.putCommon i w).sec = m.sec := rfl
@[simp] theorem Chip.putCommon_rcd (m : Chip) (i : Nat) (w : Word) : (m.putCommon i w).rcd = m.rcd := rfl
@[simp] theorem Chip.putCommon_hst (m : Chip) (i : Nat) (w : Word) : (m.putCommon i w).hst = m.hst := rfl
@[simp] theorem Chip.putCommon_pol (m : Chip) (i : Nat) (w : Word) : (m.putCommon i w).pol = m.pol := rfl
@[simp] theorem Chip.putCommon_bat (m : Chip) (i : Nat) (w : Word) : (m.putCommon i w).bat = m.bat := rfl
@[simp] theorem Chip.putCommon_est (m : Chip) (i : Nat) (w : Word) : (m.putCommon i w).est = m.est := rfl
@[simp] theorem Chip.putCommon_thm (m : Chip) (i : Nat) (w : Word) : (m.putCommon i w).thm = m.thm := rfl
@[simp] theorem Chip.putCommon_upd (m : Chip) (i : Nat) (w : Word) : (m.putCommon i w).upd = m.upd := rfl
@[simp] theorem Chip.putCommon_sys (m : Chip) (i : Nat) (w : Word) : (m.putCommon i w).sys = m.sys := rfl
@[simp] theorem Chip.putCommon_pins (m : Chip) (i : Nat) (w : Word) : (m.putCommon i w).pins = m.pins := rfl
@[simp] theorem Chip.putCommon_resp (m : Chip) (i : Nat) (w : Word) : (m.putCommon i w).resp = m.resp := rfl
@[simp] theorem Chip.putCommon_vend (m : Chip) (i : Nat) (w : Word) : (m.putCommon i w).vend = m.vend := rfl
@[simp] theorem Chip.putCommon_fresh (m : Chip) (i : Nat) (w : Word) : (m.putCommon i w).fresh = m.fresh := rfl

/-! ### A branch written changes the branches alone. -/

@[simp] theorem Chip.putBranch_regs (m : Chip) (n : Nat) (b : Branch) : (m.putBranch n b).regs = m.regs := rfl
@[simp] theorem Chip.putBranch_now (m : Chip) (n : Nat) (b : Branch) : (m.putBranch n b).now = m.now := rfl
@[simp] theorem Chip.putBranch_upUs (m : Chip) (n : Nat) (b : Branch) : (m.putBranch n b).upUs = m.upUs := rfl
@[simp] theorem Chip.putBranch_levels (m : Chip) (n : Nat) (b : Branch) : (m.putBranch n b).levels = m.levels := rfl
@[simp] theorem Chip.putBranch_pwr (m : Chip) (n : Nat) (b : Branch) : (m.putBranch n b).pwr = m.pwr := rfl
@[simp] theorem Chip.putBranch_nvm (m : Chip) (n : Nat) (b : Branch) : (m.putBranch n b).nvm = m.nvm := rfl
@[simp] theorem Chip.putBranch_seq (m : Chip) (n : Nat) (b : Branch) : (m.putBranch n b).seq = m.seq := rfl
@[simp] theorem Chip.putBranch_acq (m : Chip) (n : Nat) (b : Branch) : (m.putBranch n b).acq = m.acq := rfl
@[simp] theorem Chip.putBranch_cle (m : Chip) (n : Nat) (b : Branch) : (m.putBranch n b).cle = m.cle := rfl
@[simp] theorem Chip.putBranch_ptn (m : Chip) (n : Nat) (b : Branch) : (m.putBranch n b).ptn = m.ptn := rfl
@[simp] theorem Chip.putBranch_twb (m : Chip) (n : Nat) (b : Branch) : (m.putBranch n b).twb = m.twb := rfl
@[simp] theorem Chip.putBranch_slk (m : Chip) (n : Nat) (b : Branch) : (m.putBranch n b).slk = m.slk := rfl
@[simp] theorem Chip.putBranch_spl (m : Chip) (n : Nat) (b : Branch) : (m.putBranch n b).spl = m.spl := rfl
@[simp] theorem Chip.putBranch_lay (m : Chip) (n : Nat) (b : Branch) : (m.putBranch n b).lay = m.lay := rfl
@[simp] theorem Chip.putBranch_cnv (m : Chip) (n : Nat) (b : Branch) : (m.putBranch n b).cnv = m.cnv := rfl
@[simp] theorem Chip.putBranch_flt (m : Chip) (n : Nat) (b : Branch) : (m.putBranch n b).flt = m.flt := rfl
@[simp] theorem Chip.putBranch_sec (m : Chip) (n : Nat) (b : Branch) : (m.putBranch n b).sec = m.sec := rfl
@[simp] theorem Chip.putBranch_rcd (m : Chip) (n : Nat) (b : Branch) : (m.putBranch n b).rcd = m.rcd := rfl
@[simp] theorem Chip.putBranch_hst (m : Chip) (n : Nat) (b : Branch) : (m.putBranch n b).hst = m.hst := rfl
@[simp] theorem Chip.putBranch_pol (m : Chip) (n : Nat) (b : Branch) : (m.putBranch n b).pol = m.pol := rfl
@[simp] theorem Chip.putBranch_bat (m : Chip) (n : Nat) (b : Branch) : (m.putBranch n b).bat = m.bat := rfl
@[simp] theorem Chip.putBranch_est (m : Chip) (n : Nat) (b : Branch) : (m.putBranch n b).est = m.est := rfl
@[simp] theorem Chip.putBranch_thm (m : Chip) (n : Nat) (b : Branch) : (m.putBranch n b).thm = m.thm := rfl
@[simp] theorem Chip.putBranch_upd (m : Chip) (n : Nat) (b : Branch) : (m.putBranch n b).upd = m.upd := rfl
@[simp] theorem Chip.putBranch_sys (m : Chip) (n : Nat) (b : Branch) : (m.putBranch n b).sys = m.sys := rfl
@[simp] theorem Chip.putBranch_pins (m : Chip) (n : Nat) (b : Branch) : (m.putBranch n b).pins = m.pins := rfl
@[simp] theorem Chip.putBranch_resp (m : Chip) (n : Nat) (b : Branch) : (m.putBranch n b).resp = m.resp := rfl
@[simp] theorem Chip.putBranch_vend (m : Chip) (n : Nat) (b : Branch) : (m.putBranch n b).vend = m.vend := rfl
@[simp] theorem Chip.putBranch_fresh (m : Chip) (n : Nat) (b : Branch) : (m.putBranch n b).fresh = m.fresh := rfl

/-! ### A stage written changes the stages alone. -/

@[simp] theorem Chip.putConv_regs (m : Chip) (x : Nat) (c : Conv) : (m.putConv x c).regs = m.regs := rfl
@[simp] theorem Chip.putConv_now (m : Chip) (x : Nat) (c : Conv) : (m.putConv x c).now = m.now := rfl
@[simp] theorem Chip.putConv_upUs (m : Chip) (x : Nat) (c : Conv) : (m.putConv x c).upUs = m.upUs := rfl
@[simp] theorem Chip.putConv_levels (m : Chip) (x : Nat) (c : Conv) : (m.putConv x c).levels = m.levels := rfl
@[simp] theorem Chip.putConv_pwr (m : Chip) (x : Nat) (c : Conv) : (m.putConv x c).pwr = m.pwr := rfl
@[simp] theorem Chip.putConv_nvm (m : Chip) (x : Nat) (c : Conv) : (m.putConv x c).nvm = m.nvm := rfl
@[simp] theorem Chip.putConv_seq (m : Chip) (x : Nat) (c : Conv) : (m.putConv x c).seq = m.seq := rfl
@[simp] theorem Chip.putConv_acq (m : Chip) (x : Nat) (c : Conv) : (m.putConv x c).acq = m.acq := rfl
@[simp] theorem Chip.putConv_cle (m : Chip) (x : Nat) (c : Conv) : (m.putConv x c).cle = m.cle := rfl
@[simp] theorem Chip.putConv_ptn (m : Chip) (x : Nat) (c : Conv) : (m.putConv x c).ptn = m.ptn := rfl
@[simp] theorem Chip.putConv_twb (m : Chip) (x : Nat) (c : Conv) : (m.putConv x c).twb = m.twb := rfl
@[simp] theorem Chip.putConv_slk (m : Chip) (x : Nat) (c : Conv) : (m.putConv x c).slk = m.slk := rfl
@[simp] theorem Chip.putConv_spl (m : Chip) (x : Nat) (c : Conv) : (m.putConv x c).spl = m.spl := rfl
@[simp] theorem Chip.putConv_lay (m : Chip) (x : Nat) (c : Conv) : (m.putConv x c).lay = m.lay := rfl
@[simp] theorem Chip.putConv_brn (m : Chip) (x : Nat) (c : Conv) : (m.putConv x c).brn = m.brn := rfl
@[simp] theorem Chip.putConv_flt (m : Chip) (x : Nat) (c : Conv) : (m.putConv x c).flt = m.flt := rfl
@[simp] theorem Chip.putConv_sec (m : Chip) (x : Nat) (c : Conv) : (m.putConv x c).sec = m.sec := rfl
@[simp] theorem Chip.putConv_rcd (m : Chip) (x : Nat) (c : Conv) : (m.putConv x c).rcd = m.rcd := rfl
@[simp] theorem Chip.putConv_hst (m : Chip) (x : Nat) (c : Conv) : (m.putConv x c).hst = m.hst := rfl
@[simp] theorem Chip.putConv_pol (m : Chip) (x : Nat) (c : Conv) : (m.putConv x c).pol = m.pol := rfl
@[simp] theorem Chip.putConv_bat (m : Chip) (x : Nat) (c : Conv) : (m.putConv x c).bat = m.bat := rfl
@[simp] theorem Chip.putConv_est (m : Chip) (x : Nat) (c : Conv) : (m.putConv x c).est = m.est := rfl
@[simp] theorem Chip.putConv_thm (m : Chip) (x : Nat) (c : Conv) : (m.putConv x c).thm = m.thm := rfl
@[simp] theorem Chip.putConv_upd (m : Chip) (x : Nat) (c : Conv) : (m.putConv x c).upd = m.upd := rfl
@[simp] theorem Chip.putConv_sys (m : Chip) (x : Nat) (c : Conv) : (m.putConv x c).sys = m.sys := rfl
@[simp] theorem Chip.putConv_pins (m : Chip) (x : Nat) (c : Conv) : (m.putConv x c).pins = m.pins := rfl
@[simp] theorem Chip.putConv_resp (m : Chip) (x : Nat) (c : Conv) : (m.putConv x c).resp = m.resp := rfl
@[simp] theorem Chip.putConv_vend (m : Chip) (x : Nat) (c : Conv) : (m.putConv x c).vend = m.vend := rfl
@[simp] theorem Chip.putConv_fresh (m : Chip) (x : Nat) (c : Conv) : (m.putConv x c).fresh = m.fresh := rfl

/-! ### A string written changes the battery path alone. -/

@[simp] theorem Chip.putBstr_regs (m : Chip) (n : Nat) (b : BStr) : (m.putBstr n b).regs = m.regs := rfl
@[simp] theorem Chip.putBstr_now (m : Chip) (n : Nat) (b : BStr) : (m.putBstr n b).now = m.now := rfl
@[simp] theorem Chip.putBstr_upUs (m : Chip) (n : Nat) (b : BStr) : (m.putBstr n b).upUs = m.upUs := rfl
@[simp] theorem Chip.putBstr_levels (m : Chip) (n : Nat) (b : BStr) : (m.putBstr n b).levels = m.levels := rfl
@[simp] theorem Chip.putBstr_pwr (m : Chip) (n : Nat) (b : BStr) : (m.putBstr n b).pwr = m.pwr := rfl
@[simp] theorem Chip.putBstr_nvm (m : Chip) (n : Nat) (b : BStr) : (m.putBstr n b).nvm = m.nvm := rfl
@[simp] theorem Chip.putBstr_seq (m : Chip) (n : Nat) (b : BStr) : (m.putBstr n b).seq = m.seq := rfl
@[simp] theorem Chip.putBstr_acq (m : Chip) (n : Nat) (b : BStr) : (m.putBstr n b).acq = m.acq := rfl
@[simp] theorem Chip.putBstr_cle (m : Chip) (n : Nat) (b : BStr) : (m.putBstr n b).cle = m.cle := rfl
@[simp] theorem Chip.putBstr_ptn (m : Chip) (n : Nat) (b : BStr) : (m.putBstr n b).ptn = m.ptn := rfl
@[simp] theorem Chip.putBstr_twb (m : Chip) (n : Nat) (b : BStr) : (m.putBstr n b).twb = m.twb := rfl
@[simp] theorem Chip.putBstr_slk (m : Chip) (n : Nat) (b : BStr) : (m.putBstr n b).slk = m.slk := rfl
@[simp] theorem Chip.putBstr_spl (m : Chip) (n : Nat) (b : BStr) : (m.putBstr n b).spl = m.spl := rfl
@[simp] theorem Chip.putBstr_lay (m : Chip) (n : Nat) (b : BStr) : (m.putBstr n b).lay = m.lay := rfl
@[simp] theorem Chip.putBstr_brn (m : Chip) (n : Nat) (b : BStr) : (m.putBstr n b).brn = m.brn := rfl
@[simp] theorem Chip.putBstr_cnv (m : Chip) (n : Nat) (b : BStr) : (m.putBstr n b).cnv = m.cnv := rfl
@[simp] theorem Chip.putBstr_flt (m : Chip) (n : Nat) (b : BStr) : (m.putBstr n b).flt = m.flt := rfl
@[simp] theorem Chip.putBstr_sec (m : Chip) (n : Nat) (b : BStr) : (m.putBstr n b).sec = m.sec := rfl
@[simp] theorem Chip.putBstr_rcd (m : Chip) (n : Nat) (b : BStr) : (m.putBstr n b).rcd = m.rcd := rfl
@[simp] theorem Chip.putBstr_hst (m : Chip) (n : Nat) (b : BStr) : (m.putBstr n b).hst = m.hst := rfl
@[simp] theorem Chip.putBstr_pol (m : Chip) (n : Nat) (b : BStr) : (m.putBstr n b).pol = m.pol := rfl
@[simp] theorem Chip.putBstr_est (m : Chip) (n : Nat) (b : BStr) : (m.putBstr n b).est = m.est := rfl
@[simp] theorem Chip.putBstr_thm (m : Chip) (n : Nat) (b : BStr) : (m.putBstr n b).thm = m.thm := rfl
@[simp] theorem Chip.putBstr_upd (m : Chip) (n : Nat) (b : BStr) : (m.putBstr n b).upd = m.upd := rfl
@[simp] theorem Chip.putBstr_sys (m : Chip) (n : Nat) (b : BStr) : (m.putBstr n b).sys = m.sys := rfl
@[simp] theorem Chip.putBstr_pins (m : Chip) (n : Nat) (b : BStr) : (m.putBstr n b).pins = m.pins := rfl
@[simp] theorem Chip.putBstr_resp (m : Chip) (n : Nat) (b : BStr) : (m.putBstr n b).resp = m.resp := rfl
@[simp] theorem Chip.putBstr_vend (m : Chip) (n : Nat) (b : BStr) : (m.putBstr n b).vend = m.vend := rfl
@[simp] theorem Chip.putBstr_fresh (m : Chip) (n : Nat) (b : BStr) : (m.putBstr n b).fresh = m.fresh := rfl

/-! ### A partner entry written changes the partners alone. -/

@[simp] theorem Chip.putEnt_regs (m : Chip) (e : Nat) (x : Ent) : (m.putEnt e x).regs = m.regs := rfl
@[simp] theorem Chip.putEnt_now (m : Chip) (e : Nat) (x : Ent) : (m.putEnt e x).now = m.now := rfl
@[simp] theorem Chip.putEnt_upUs (m : Chip) (e : Nat) (x : Ent) : (m.putEnt e x).upUs = m.upUs := rfl
@[simp] theorem Chip.putEnt_levels (m : Chip) (e : Nat) (x : Ent) : (m.putEnt e x).levels = m.levels := rfl
@[simp] theorem Chip.putEnt_pwr (m : Chip) (e : Nat) (x : Ent) : (m.putEnt e x).pwr = m.pwr := rfl
@[simp] theorem Chip.putEnt_nvm (m : Chip) (e : Nat) (x : Ent) : (m.putEnt e x).nvm = m.nvm := rfl
@[simp] theorem Chip.putEnt_seq (m : Chip) (e : Nat) (x : Ent) : (m.putEnt e x).seq = m.seq := rfl
@[simp] theorem Chip.putEnt_acq (m : Chip) (e : Nat) (x : Ent) : (m.putEnt e x).acq = m.acq := rfl
@[simp] theorem Chip.putEnt_cle (m : Chip) (e : Nat) (x : Ent) : (m.putEnt e x).cle = m.cle := rfl
@[simp] theorem Chip.putEnt_twb (m : Chip) (e : Nat) (x : Ent) : (m.putEnt e x).twb = m.twb := rfl
@[simp] theorem Chip.putEnt_slk (m : Chip) (e : Nat) (x : Ent) : (m.putEnt e x).slk = m.slk := rfl
@[simp] theorem Chip.putEnt_spl (m : Chip) (e : Nat) (x : Ent) : (m.putEnt e x).spl = m.spl := rfl
@[simp] theorem Chip.putEnt_lay (m : Chip) (e : Nat) (x : Ent) : (m.putEnt e x).lay = m.lay := rfl
@[simp] theorem Chip.putEnt_brn (m : Chip) (e : Nat) (x : Ent) : (m.putEnt e x).brn = m.brn := rfl
@[simp] theorem Chip.putEnt_cnv (m : Chip) (e : Nat) (x : Ent) : (m.putEnt e x).cnv = m.cnv := rfl
@[simp] theorem Chip.putEnt_flt (m : Chip) (e : Nat) (x : Ent) : (m.putEnt e x).flt = m.flt := rfl
@[simp] theorem Chip.putEnt_sec (m : Chip) (e : Nat) (x : Ent) : (m.putEnt e x).sec = m.sec := rfl
@[simp] theorem Chip.putEnt_rcd (m : Chip) (e : Nat) (x : Ent) : (m.putEnt e x).rcd = m.rcd := rfl
@[simp] theorem Chip.putEnt_hst (m : Chip) (e : Nat) (x : Ent) : (m.putEnt e x).hst = m.hst := rfl
@[simp] theorem Chip.putEnt_pol (m : Chip) (e : Nat) (x : Ent) : (m.putEnt e x).pol = m.pol := rfl
@[simp] theorem Chip.putEnt_bat (m : Chip) (e : Nat) (x : Ent) : (m.putEnt e x).bat = m.bat := rfl
@[simp] theorem Chip.putEnt_est (m : Chip) (e : Nat) (x : Ent) : (m.putEnt e x).est = m.est := rfl
@[simp] theorem Chip.putEnt_thm (m : Chip) (e : Nat) (x : Ent) : (m.putEnt e x).thm = m.thm := rfl
@[simp] theorem Chip.putEnt_upd (m : Chip) (e : Nat) (x : Ent) : (m.putEnt e x).upd = m.upd := rfl
@[simp] theorem Chip.putEnt_sys (m : Chip) (e : Nat) (x : Ent) : (m.putEnt e x).sys = m.sys := rfl
@[simp] theorem Chip.putEnt_pins (m : Chip) (e : Nat) (x : Ent) : (m.putEnt e x).pins = m.pins := rfl
@[simp] theorem Chip.putEnt_resp (m : Chip) (e : Nat) (x : Ent) : (m.putEnt e x).resp = m.resp := rfl
@[simp] theorem Chip.putEnt_vend (m : Chip) (e : Nat) (x : Ent) : (m.putEnt e x).vend = m.vend := rfl
@[simp] theorem Chip.putEnt_fresh (m : Chip) (e : Nat) (x : Ent) : (m.putEnt e x).fresh = m.fresh := rfl

/-! ### A two-wire bus written changes the two-wire block alone. -/

@[simp] theorem Chip.putBus_regs (m : Chip) (n : Nat) (b : Bus) : (m.putBus n b).regs = m.regs := rfl
@[simp] theorem Chip.putBus_now (m : Chip) (n : Nat) (b : Bus) : (m.putBus n b).now = m.now := rfl
@[simp] theorem Chip.putBus_upUs (m : Chip) (n : Nat) (b : Bus) : (m.putBus n b).upUs = m.upUs := rfl
@[simp] theorem Chip.putBus_levels (m : Chip) (n : Nat) (b : Bus) : (m.putBus n b).levels = m.levels := rfl
@[simp] theorem Chip.putBus_pwr (m : Chip) (n : Nat) (b : Bus) : (m.putBus n b).pwr = m.pwr := rfl
@[simp] theorem Chip.putBus_nvm (m : Chip) (n : Nat) (b : Bus) : (m.putBus n b).nvm = m.nvm := rfl
@[simp] theorem Chip.putBus_seq (m : Chip) (n : Nat) (b : Bus) : (m.putBus n b).seq = m.seq := rfl
@[simp] theorem Chip.putBus_acq (m : Chip) (n : Nat) (b : Bus) : (m.putBus n b).acq = m.acq := rfl
@[simp] theorem Chip.putBus_cle (m : Chip) (n : Nat) (b : Bus) : (m.putBus n b).cle = m.cle := rfl
@[simp] theorem Chip.putBus_ptn (m : Chip) (n : Nat) (b : Bus) : (m.putBus n b).ptn = m.ptn := rfl
@[simp] theorem Chip.putBus_slk (m : Chip) (n : Nat) (b : Bus) : (m.putBus n b).slk = m.slk := rfl
@[simp] theorem Chip.putBus_spl (m : Chip) (n : Nat) (b : Bus) : (m.putBus n b).spl = m.spl := rfl
@[simp] theorem Chip.putBus_lay (m : Chip) (n : Nat) (b : Bus) : (m.putBus n b).lay = m.lay := rfl
@[simp] theorem Chip.putBus_brn (m : Chip) (n : Nat) (b : Bus) : (m.putBus n b).brn = m.brn := rfl
@[simp] theorem Chip.putBus_cnv (m : Chip) (n : Nat) (b : Bus) : (m.putBus n b).cnv = m.cnv := rfl
@[simp] theorem Chip.putBus_flt (m : Chip) (n : Nat) (b : Bus) : (m.putBus n b).flt = m.flt := rfl
@[simp] theorem Chip.putBus_sec (m : Chip) (n : Nat) (b : Bus) : (m.putBus n b).sec = m.sec := rfl
@[simp] theorem Chip.putBus_rcd (m : Chip) (n : Nat) (b : Bus) : (m.putBus n b).rcd = m.rcd := rfl
@[simp] theorem Chip.putBus_hst (m : Chip) (n : Nat) (b : Bus) : (m.putBus n b).hst = m.hst := rfl
@[simp] theorem Chip.putBus_pol (m : Chip) (n : Nat) (b : Bus) : (m.putBus n b).pol = m.pol := rfl
@[simp] theorem Chip.putBus_bat (m : Chip) (n : Nat) (b : Bus) : (m.putBus n b).bat = m.bat := rfl
@[simp] theorem Chip.putBus_est (m : Chip) (n : Nat) (b : Bus) : (m.putBus n b).est = m.est := rfl
@[simp] theorem Chip.putBus_thm (m : Chip) (n : Nat) (b : Bus) : (m.putBus n b).thm = m.thm := rfl
@[simp] theorem Chip.putBus_upd (m : Chip) (n : Nat) (b : Bus) : (m.putBus n b).upd = m.upd := rfl
@[simp] theorem Chip.putBus_sys (m : Chip) (n : Nat) (b : Bus) : (m.putBus n b).sys = m.sys := rfl
@[simp] theorem Chip.putBus_pins (m : Chip) (n : Nat) (b : Bus) : (m.putBus n b).pins = m.pins := rfl
@[simp] theorem Chip.putBus_resp (m : Chip) (n : Nat) (b : Bus) : (m.putBus n b).resp = m.resp := rfl
@[simp] theorem Chip.putBus_vend (m : Chip) (n : Nat) (b : Bus) : (m.putBus n b).vend = m.vend := rfl
@[simp] theorem Chip.putBus_fresh (m : Chip) (n : Nat) (b : Bus) : (m.putBus n b).fresh = m.fresh := rfl

/-! ### A link segment written changes the shelf link alone. -/

@[simp] theorem Chip.putSeg_regs (m : Chip) (n : Nat) (g : Seg) : (m.putSeg n g).regs = m.regs := rfl
@[simp] theorem Chip.putSeg_now (m : Chip) (n : Nat) (g : Seg) : (m.putSeg n g).now = m.now := rfl
@[simp] theorem Chip.putSeg_upUs (m : Chip) (n : Nat) (g : Seg) : (m.putSeg n g).upUs = m.upUs := rfl
@[simp] theorem Chip.putSeg_levels (m : Chip) (n : Nat) (g : Seg) : (m.putSeg n g).levels = m.levels := rfl
@[simp] theorem Chip.putSeg_pwr (m : Chip) (n : Nat) (g : Seg) : (m.putSeg n g).pwr = m.pwr := rfl
@[simp] theorem Chip.putSeg_nvm (m : Chip) (n : Nat) (g : Seg) : (m.putSeg n g).nvm = m.nvm := rfl
@[simp] theorem Chip.putSeg_seq (m : Chip) (n : Nat) (g : Seg) : (m.putSeg n g).seq = m.seq := rfl
@[simp] theorem Chip.putSeg_acq (m : Chip) (n : Nat) (g : Seg) : (m.putSeg n g).acq = m.acq := rfl
@[simp] theorem Chip.putSeg_cle (m : Chip) (n : Nat) (g : Seg) : (m.putSeg n g).cle = m.cle := rfl
@[simp] theorem Chip.putSeg_ptn (m : Chip) (n : Nat) (g : Seg) : (m.putSeg n g).ptn = m.ptn := rfl
@[simp] theorem Chip.putSeg_twb (m : Chip) (n : Nat) (g : Seg) : (m.putSeg n g).twb = m.twb := rfl
@[simp] theorem Chip.putSeg_spl (m : Chip) (n : Nat) (g : Seg) : (m.putSeg n g).spl = m.spl := rfl
@[simp] theorem Chip.putSeg_lay (m : Chip) (n : Nat) (g : Seg) : (m.putSeg n g).lay = m.lay := rfl
@[simp] theorem Chip.putSeg_brn (m : Chip) (n : Nat) (g : Seg) : (m.putSeg n g).brn = m.brn := rfl
@[simp] theorem Chip.putSeg_cnv (m : Chip) (n : Nat) (g : Seg) : (m.putSeg n g).cnv = m.cnv := rfl
@[simp] theorem Chip.putSeg_flt (m : Chip) (n : Nat) (g : Seg) : (m.putSeg n g).flt = m.flt := rfl
@[simp] theorem Chip.putSeg_sec (m : Chip) (n : Nat) (g : Seg) : (m.putSeg n g).sec = m.sec := rfl
@[simp] theorem Chip.putSeg_rcd (m : Chip) (n : Nat) (g : Seg) : (m.putSeg n g).rcd = m.rcd := rfl
@[simp] theorem Chip.putSeg_hst (m : Chip) (n : Nat) (g : Seg) : (m.putSeg n g).hst = m.hst := rfl
@[simp] theorem Chip.putSeg_pol (m : Chip) (n : Nat) (g : Seg) : (m.putSeg n g).pol = m.pol := rfl
@[simp] theorem Chip.putSeg_bat (m : Chip) (n : Nat) (g : Seg) : (m.putSeg n g).bat = m.bat := rfl
@[simp] theorem Chip.putSeg_est (m : Chip) (n : Nat) (g : Seg) : (m.putSeg n g).est = m.est := rfl
@[simp] theorem Chip.putSeg_thm (m : Chip) (n : Nat) (g : Seg) : (m.putSeg n g).thm = m.thm := rfl
@[simp] theorem Chip.putSeg_upd (m : Chip) (n : Nat) (g : Seg) : (m.putSeg n g).upd = m.upd := rfl
@[simp] theorem Chip.putSeg_sys (m : Chip) (n : Nat) (g : Seg) : (m.putSeg n g).sys = m.sys := rfl
@[simp] theorem Chip.putSeg_pins (m : Chip) (n : Nat) (g : Seg) : (m.putSeg n g).pins = m.pins := rfl
@[simp] theorem Chip.putSeg_resp (m : Chip) (n : Nat) (g : Seg) : (m.putSeg n g).resp = m.resp := rfl
@[simp] theorem Chip.putSeg_vend (m : Chip) (n : Nat) (g : Seg) : (m.putSeg n g).vend = m.vend := rfl
@[simp] theorem Chip.putSeg_fresh (m : Chip) (n : Nat) (g : Seg) : (m.putSeg n g).fresh = m.fresh := rfl

/-! ### A member of the share group written changes the policy alone. -/

@[simp] theorem Chip.putShare_regs (m : Chip) (e : Nat) (x : Share) : (m.putShare e x).regs = m.regs := rfl
@[simp] theorem Chip.putShare_now (m : Chip) (e : Nat) (x : Share) : (m.putShare e x).now = m.now := rfl
@[simp] theorem Chip.putShare_upUs (m : Chip) (e : Nat) (x : Share) : (m.putShare e x).upUs = m.upUs := rfl
@[simp] theorem Chip.putShare_levels (m : Chip) (e : Nat) (x : Share) : (m.putShare e x).levels = m.levels := rfl
@[simp] theorem Chip.putShare_pwr (m : Chip) (e : Nat) (x : Share) : (m.putShare e x).pwr = m.pwr := rfl
@[simp] theorem Chip.putShare_nvm (m : Chip) (e : Nat) (x : Share) : (m.putShare e x).nvm = m.nvm := rfl
@[simp] theorem Chip.putShare_seq (m : Chip) (e : Nat) (x : Share) : (m.putShare e x).seq = m.seq := rfl
@[simp] theorem Chip.putShare_acq (m : Chip) (e : Nat) (x : Share) : (m.putShare e x).acq = m.acq := rfl
@[simp] theorem Chip.putShare_cle (m : Chip) (e : Nat) (x : Share) : (m.putShare e x).cle = m.cle := rfl
@[simp] theorem Chip.putShare_ptn (m : Chip) (e : Nat) (x : Share) : (m.putShare e x).ptn = m.ptn := rfl
@[simp] theorem Chip.putShare_twb (m : Chip) (e : Nat) (x : Share) : (m.putShare e x).twb = m.twb := rfl
@[simp] theorem Chip.putShare_slk (m : Chip) (e : Nat) (x : Share) : (m.putShare e x).slk = m.slk := rfl
@[simp] theorem Chip.putShare_spl (m : Chip) (e : Nat) (x : Share) : (m.putShare e x).spl = m.spl := rfl
@[simp] theorem Chip.putShare_lay (m : Chip) (e : Nat) (x : Share) : (m.putShare e x).lay = m.lay := rfl
@[simp] theorem Chip.putShare_brn (m : Chip) (e : Nat) (x : Share) : (m.putShare e x).brn = m.brn := rfl
@[simp] theorem Chip.putShare_cnv (m : Chip) (e : Nat) (x : Share) : (m.putShare e x).cnv = m.cnv := rfl
@[simp] theorem Chip.putShare_flt (m : Chip) (e : Nat) (x : Share) : (m.putShare e x).flt = m.flt := rfl
@[simp] theorem Chip.putShare_sec (m : Chip) (e : Nat) (x : Share) : (m.putShare e x).sec = m.sec := rfl
@[simp] theorem Chip.putShare_rcd (m : Chip) (e : Nat) (x : Share) : (m.putShare e x).rcd = m.rcd := rfl
@[simp] theorem Chip.putShare_hst (m : Chip) (e : Nat) (x : Share) : (m.putShare e x).hst = m.hst := rfl
@[simp] theorem Chip.putShare_bat (m : Chip) (e : Nat) (x : Share) : (m.putShare e x).bat = m.bat := rfl
@[simp] theorem Chip.putShare_est (m : Chip) (e : Nat) (x : Share) : (m.putShare e x).est = m.est := rfl
@[simp] theorem Chip.putShare_thm (m : Chip) (e : Nat) (x : Share) : (m.putShare e x).thm = m.thm := rfl
@[simp] theorem Chip.putShare_upd (m : Chip) (e : Nat) (x : Share) : (m.putShare e x).upd = m.upd := rfl
@[simp] theorem Chip.putShare_sys (m : Chip) (e : Nat) (x : Share) : (m.putShare e x).sys = m.sys := rfl
@[simp] theorem Chip.putShare_pins (m : Chip) (e : Nat) (x : Share) : (m.putShare e x).pins = m.pins := rfl
@[simp] theorem Chip.putShare_resp (m : Chip) (e : Nat) (x : Share) : (m.putShare e x).resp = m.resp := rfl
@[simp] theorem Chip.putShare_vend (m : Chip) (e : Nat) (x : Share) : (m.putShare e x).vend = m.vend := rfl
@[simp] theorem Chip.putShare_fresh (m : Chip) (e : Nat) (x : Share) : (m.putShare e x).fresh = m.fresh := rfl

/-! ### A tone written changes the converter block alone. -/

@[simp] theorem Chip.putTone_regs (m : Chip) (t : Nat) (x : Tone) : (m.putTone t x).regs = m.regs := rfl
@[simp] theorem Chip.putTone_now (m : Chip) (t : Nat) (x : Tone) : (m.putTone t x).now = m.now := rfl
@[simp] theorem Chip.putTone_upUs (m : Chip) (t : Nat) (x : Tone) : (m.putTone t x).upUs = m.upUs := rfl
@[simp] theorem Chip.putTone_levels (m : Chip) (t : Nat) (x : Tone) : (m.putTone t x).levels = m.levels := rfl
@[simp] theorem Chip.putTone_pwr (m : Chip) (t : Nat) (x : Tone) : (m.putTone t x).pwr = m.pwr := rfl
@[simp] theorem Chip.putTone_nvm (m : Chip) (t : Nat) (x : Tone) : (m.putTone t x).nvm = m.nvm := rfl
@[simp] theorem Chip.putTone_seq (m : Chip) (t : Nat) (x : Tone) : (m.putTone t x).seq = m.seq := rfl
@[simp] theorem Chip.putTone_acq (m : Chip) (t : Nat) (x : Tone) : (m.putTone t x).acq = m.acq := rfl
@[simp] theorem Chip.putTone_cle (m : Chip) (t : Nat) (x : Tone) : (m.putTone t x).cle = m.cle := rfl
@[simp] theorem Chip.putTone_ptn (m : Chip) (t : Nat) (x : Tone) : (m.putTone t x).ptn = m.ptn := rfl
@[simp] theorem Chip.putTone_twb (m : Chip) (t : Nat) (x : Tone) : (m.putTone t x).twb = m.twb := rfl
@[simp] theorem Chip.putTone_slk (m : Chip) (t : Nat) (x : Tone) : (m.putTone t x).slk = m.slk := rfl
@[simp] theorem Chip.putTone_spl (m : Chip) (t : Nat) (x : Tone) : (m.putTone t x).spl = m.spl := rfl
@[simp] theorem Chip.putTone_lay (m : Chip) (t : Nat) (x : Tone) : (m.putTone t x).lay = m.lay := rfl
@[simp] theorem Chip.putTone_brn (m : Chip) (t : Nat) (x : Tone) : (m.putTone t x).brn = m.brn := rfl
@[simp] theorem Chip.putTone_flt (m : Chip) (t : Nat) (x : Tone) : (m.putTone t x).flt = m.flt := rfl
@[simp] theorem Chip.putTone_sec (m : Chip) (t : Nat) (x : Tone) : (m.putTone t x).sec = m.sec := rfl
@[simp] theorem Chip.putTone_rcd (m : Chip) (t : Nat) (x : Tone) : (m.putTone t x).rcd = m.rcd := rfl
@[simp] theorem Chip.putTone_hst (m : Chip) (t : Nat) (x : Tone) : (m.putTone t x).hst = m.hst := rfl
@[simp] theorem Chip.putTone_pol (m : Chip) (t : Nat) (x : Tone) : (m.putTone t x).pol = m.pol := rfl
@[simp] theorem Chip.putTone_bat (m : Chip) (t : Nat) (x : Tone) : (m.putTone t x).bat = m.bat := rfl
@[simp] theorem Chip.putTone_est (m : Chip) (t : Nat) (x : Tone) : (m.putTone t x).est = m.est := rfl
@[simp] theorem Chip.putTone_thm (m : Chip) (t : Nat) (x : Tone) : (m.putTone t x).thm = m.thm := rfl
@[simp] theorem Chip.putTone_upd (m : Chip) (t : Nat) (x : Tone) : (m.putTone t x).upd = m.upd := rfl
@[simp] theorem Chip.putTone_sys (m : Chip) (t : Nat) (x : Tone) : (m.putTone t x).sys = m.sys := rfl
@[simp] theorem Chip.putTone_pins (m : Chip) (t : Nat) (x : Tone) : (m.putTone t x).pins = m.pins := rfl
@[simp] theorem Chip.putTone_resp (m : Chip) (t : Nat) (x : Tone) : (m.putTone t x).resp = m.resp := rfl
@[simp] theorem Chip.putTone_vend (m : Chip) (t : Nat) (x : Tone) : (m.putTone t x).vend = m.vend := rfl
@[simp] theorem Chip.putTone_fresh (m : Chip) (t : Nat) (x : Tone) : (m.putTone t x).fresh = m.fresh := rfl

/-! ### A loop slot written changes the loop engine alone. -/

@[simp] theorem Chip.putLslot_regs (m : Chip) (s : Nat) (x : Slot) : (m.putLslot s x).regs = m.regs := rfl
@[simp] theorem Chip.putLslot_now (m : Chip) (s : Nat) (x : Slot) : (m.putLslot s x).now = m.now := rfl
@[simp] theorem Chip.putLslot_upUs (m : Chip) (s : Nat) (x : Slot) : (m.putLslot s x).upUs = m.upUs := rfl
@[simp] theorem Chip.putLslot_levels (m : Chip) (s : Nat) (x : Slot) : (m.putLslot s x).levels = m.levels := rfl
@[simp] theorem Chip.putLslot_pwr (m : Chip) (s : Nat) (x : Slot) : (m.putLslot s x).pwr = m.pwr := rfl
@[simp] theorem Chip.putLslot_nvm (m : Chip) (s : Nat) (x : Slot) : (m.putLslot s x).nvm = m.nvm := rfl
@[simp] theorem Chip.putLslot_seq (m : Chip) (s : Nat) (x : Slot) : (m.putLslot s x).seq = m.seq := rfl
@[simp] theorem Chip.putLslot_acq (m : Chip) (s : Nat) (x : Slot) : (m.putLslot s x).acq = m.acq := rfl
@[simp] theorem Chip.putLslot_ptn (m : Chip) (s : Nat) (x : Slot) : (m.putLslot s x).ptn = m.ptn := rfl
@[simp] theorem Chip.putLslot_twb (m : Chip) (s : Nat) (x : Slot) : (m.putLslot s x).twb = m.twb := rfl
@[simp] theorem Chip.putLslot_slk (m : Chip) (s : Nat) (x : Slot) : (m.putLslot s x).slk = m.slk := rfl
@[simp] theorem Chip.putLslot_spl (m : Chip) (s : Nat) (x : Slot) : (m.putLslot s x).spl = m.spl := rfl
@[simp] theorem Chip.putLslot_lay (m : Chip) (s : Nat) (x : Slot) : (m.putLslot s x).lay = m.lay := rfl
@[simp] theorem Chip.putLslot_brn (m : Chip) (s : Nat) (x : Slot) : (m.putLslot s x).brn = m.brn := rfl
@[simp] theorem Chip.putLslot_cnv (m : Chip) (s : Nat) (x : Slot) : (m.putLslot s x).cnv = m.cnv := rfl
@[simp] theorem Chip.putLslot_flt (m : Chip) (s : Nat) (x : Slot) : (m.putLslot s x).flt = m.flt := rfl
@[simp] theorem Chip.putLslot_sec (m : Chip) (s : Nat) (x : Slot) : (m.putLslot s x).sec = m.sec := rfl
@[simp] theorem Chip.putLslot_rcd (m : Chip) (s : Nat) (x : Slot) : (m.putLslot s x).rcd = m.rcd := rfl
@[simp] theorem Chip.putLslot_hst (m : Chip) (s : Nat) (x : Slot) : (m.putLslot s x).hst = m.hst := rfl
@[simp] theorem Chip.putLslot_pol (m : Chip) (s : Nat) (x : Slot) : (m.putLslot s x).pol = m.pol := rfl
@[simp] theorem Chip.putLslot_bat (m : Chip) (s : Nat) (x : Slot) : (m.putLslot s x).bat = m.bat := rfl
@[simp] theorem Chip.putLslot_est (m : Chip) (s : Nat) (x : Slot) : (m.putLslot s x).est = m.est := rfl
@[simp] theorem Chip.putLslot_thm (m : Chip) (s : Nat) (x : Slot) : (m.putLslot s x).thm = m.thm := rfl
@[simp] theorem Chip.putLslot_upd (m : Chip) (s : Nat) (x : Slot) : (m.putLslot s x).upd = m.upd := rfl
@[simp] theorem Chip.putLslot_sys (m : Chip) (s : Nat) (x : Slot) : (m.putLslot s x).sys = m.sys := rfl
@[simp] theorem Chip.putLslot_pins (m : Chip) (s : Nat) (x : Slot) : (m.putLslot s x).pins = m.pins := rfl
@[simp] theorem Chip.putLslot_resp (m : Chip) (s : Nat) (x : Slot) : (m.putLslot s x).resp = m.resp := rfl
@[simp] theorem Chip.putLslot_vend (m : Chip) (s : Nat) (x : Slot) : (m.putLslot s x).vend = m.vend := rfl
@[simp] theorem Chip.putLslot_fresh (m : Chip) (s : Nat) (x : Slot) : (m.putLslot s x).fresh = m.fresh := rfl

/-! ### A capture unit written changes the recorder alone. -/

@[simp] theorem Chip.putCap_regs (m : Chip) (u : Nat) (c : Cap) : (m.putCap u c).regs = m.regs := rfl
@[simp] theorem Chip.putCap_now (m : Chip) (u : Nat) (c : Cap) : (m.putCap u c).now = m.now := rfl
@[simp] theorem Chip.putCap_upUs (m : Chip) (u : Nat) (c : Cap) : (m.putCap u c).upUs = m.upUs := rfl
@[simp] theorem Chip.putCap_levels (m : Chip) (u : Nat) (c : Cap) : (m.putCap u c).levels = m.levels := rfl
@[simp] theorem Chip.putCap_pwr (m : Chip) (u : Nat) (c : Cap) : (m.putCap u c).pwr = m.pwr := rfl
@[simp] theorem Chip.putCap_nvm (m : Chip) (u : Nat) (c : Cap) : (m.putCap u c).nvm = m.nvm := rfl
@[simp] theorem Chip.putCap_seq (m : Chip) (u : Nat) (c : Cap) : (m.putCap u c).seq = m.seq := rfl
@[simp] theorem Chip.putCap_acq (m : Chip) (u : Nat) (c : Cap) : (m.putCap u c).acq = m.acq := rfl
@[simp] theorem Chip.putCap_cle (m : Chip) (u : Nat) (c : Cap) : (m.putCap u c).cle = m.cle := rfl
@[simp] theorem Chip.putCap_ptn (m : Chip) (u : Nat) (c : Cap) : (m.putCap u c).ptn = m.ptn := rfl
@[simp] theorem Chip.putCap_twb (m : Chip) (u : Nat) (c : Cap) : (m.putCap u c).twb = m.twb := rfl
@[simp] theorem Chip.putCap_slk (m : Chip) (u : Nat) (c : Cap) : (m.putCap u c).slk = m.slk := rfl
@[simp] theorem Chip.putCap_spl (m : Chip) (u : Nat) (c : Cap) : (m.putCap u c).spl = m.spl := rfl
@[simp] theorem Chip.putCap_lay (m : Chip) (u : Nat) (c : Cap) : (m.putCap u c).lay = m.lay := rfl
@[simp] theorem Chip.putCap_brn (m : Chip) (u : Nat) (c : Cap) : (m.putCap u c).brn = m.brn := rfl
@[simp] theorem Chip.putCap_cnv (m : Chip) (u : Nat) (c : Cap) : (m.putCap u c).cnv = m.cnv := rfl
@[simp] theorem Chip.putCap_flt (m : Chip) (u : Nat) (c : Cap) : (m.putCap u c).flt = m.flt := rfl
@[simp] theorem Chip.putCap_sec (m : Chip) (u : Nat) (c : Cap) : (m.putCap u c).sec = m.sec := rfl
@[simp] theorem Chip.putCap_hst (m : Chip) (u : Nat) (c : Cap) : (m.putCap u c).hst = m.hst := rfl
@[simp] theorem Chip.putCap_pol (m : Chip) (u : Nat) (c : Cap) : (m.putCap u c).pol = m.pol := rfl
@[simp] theorem Chip.putCap_bat (m : Chip) (u : Nat) (c : Cap) : (m.putCap u c).bat = m.bat := rfl
@[simp] theorem Chip.putCap_est (m : Chip) (u : Nat) (c : Cap) : (m.putCap u c).est = m.est := rfl
@[simp] theorem Chip.putCap_thm (m : Chip) (u : Nat) (c : Cap) : (m.putCap u c).thm = m.thm := rfl
@[simp] theorem Chip.putCap_upd (m : Chip) (u : Nat) (c : Cap) : (m.putCap u c).upd = m.upd := rfl
@[simp] theorem Chip.putCap_sys (m : Chip) (u : Nat) (c : Cap) : (m.putCap u c).sys = m.sys := rfl
@[simp] theorem Chip.putCap_pins (m : Chip) (u : Nat) (c : Cap) : (m.putCap u c).pins = m.pins := rfl
@[simp] theorem Chip.putCap_resp (m : Chip) (u : Nat) (c : Cap) : (m.putCap u c).resp = m.resp := rfl
@[simp] theorem Chip.putCap_vend (m : Chip) (u : Nat) (c : Cap) : (m.putCap u c).vend = m.vend := rfl
@[simp] theorem Chip.putCap_fresh (m : Chip) (u : Nat) (c : Cap) : (m.putCap u c).fresh = m.fresh := rfl

/-! ### A sensor written changes the thermal block alone. -/

@[simp] theorem Chip.putSensor_regs (m : Chip) (k : Nat) (x : Sensor) : (m.putSensor k x).regs = m.regs := rfl
@[simp] theorem Chip.putSensor_now (m : Chip) (k : Nat) (x : Sensor) : (m.putSensor k x).now = m.now := rfl
@[simp] theorem Chip.putSensor_upUs (m : Chip) (k : Nat) (x : Sensor) : (m.putSensor k x).upUs = m.upUs := rfl
@[simp] theorem Chip.putSensor_levels (m : Chip) (k : Nat) (x : Sensor) : (m.putSensor k x).levels = m.levels := rfl
@[simp] theorem Chip.putSensor_pwr (m : Chip) (k : Nat) (x : Sensor) : (m.putSensor k x).pwr = m.pwr := rfl
@[simp] theorem Chip.putSensor_nvm (m : Chip) (k : Nat) (x : Sensor) : (m.putSensor k x).nvm = m.nvm := rfl
@[simp] theorem Chip.putSensor_seq (m : Chip) (k : Nat) (x : Sensor) : (m.putSensor k x).seq = m.seq := rfl
@[simp] theorem Chip.putSensor_acq (m : Chip) (k : Nat) (x : Sensor) : (m.putSensor k x).acq = m.acq := rfl
@[simp] theorem Chip.putSensor_cle (m : Chip) (k : Nat) (x : Sensor) : (m.putSensor k x).cle = m.cle := rfl
@[simp] theorem Chip.putSensor_ptn (m : Chip) (k : Nat) (x : Sensor) : (m.putSensor k x).ptn = m.ptn := rfl
@[simp] theorem Chip.putSensor_twb (m : Chip) (k : Nat) (x : Sensor) : (m.putSensor k x).twb = m.twb := rfl
@[simp] theorem Chip.putSensor_slk (m : Chip) (k : Nat) (x : Sensor) : (m.putSensor k x).slk = m.slk := rfl
@[simp] theorem Chip.putSensor_spl (m : Chip) (k : Nat) (x : Sensor) : (m.putSensor k x).spl = m.spl := rfl
@[simp] theorem Chip.putSensor_lay (m : Chip) (k : Nat) (x : Sensor) : (m.putSensor k x).lay = m.lay := rfl
@[simp] theorem Chip.putSensor_brn (m : Chip) (k : Nat) (x : Sensor) : (m.putSensor k x).brn = m.brn := rfl
@[simp] theorem Chip.putSensor_cnv (m : Chip) (k : Nat) (x : Sensor) : (m.putSensor k x).cnv = m.cnv := rfl
@[simp] theorem Chip.putSensor_flt (m : Chip) (k : Nat) (x : Sensor) : (m.putSensor k x).flt = m.flt := rfl
@[simp] theorem Chip.putSensor_sec (m : Chip) (k : Nat) (x : Sensor) : (m.putSensor k x).sec = m.sec := rfl
@[simp] theorem Chip.putSensor_rcd (m : Chip) (k : Nat) (x : Sensor) : (m.putSensor k x).rcd = m.rcd := rfl
@[simp] theorem Chip.putSensor_hst (m : Chip) (k : Nat) (x : Sensor) : (m.putSensor k x).hst = m.hst := rfl
@[simp] theorem Chip.putSensor_pol (m : Chip) (k : Nat) (x : Sensor) : (m.putSensor k x).pol = m.pol := rfl
@[simp] theorem Chip.putSensor_bat (m : Chip) (k : Nat) (x : Sensor) : (m.putSensor k x).bat = m.bat := rfl
@[simp] theorem Chip.putSensor_est (m : Chip) (k : Nat) (x : Sensor) : (m.putSensor k x).est = m.est := rfl
@[simp] theorem Chip.putSensor_upd (m : Chip) (k : Nat) (x : Sensor) : (m.putSensor k x).upd = m.upd := rfl
@[simp] theorem Chip.putSensor_sys (m : Chip) (k : Nat) (x : Sensor) : (m.putSensor k x).sys = m.sys := rfl
@[simp] theorem Chip.putSensor_pins (m : Chip) (k : Nat) (x : Sensor) : (m.putSensor k x).pins = m.pins := rfl
@[simp] theorem Chip.putSensor_resp (m : Chip) (k : Nat) (x : Sensor) : (m.putSensor k x).resp = m.resp := rfl
@[simp] theorem Chip.putSensor_vend (m : Chip) (k : Nat) (x : Sensor) : (m.putSensor k x).vend = m.vend := rfl
@[simp] theorem Chip.putSensor_fresh (m : Chip) (k : Nat) (x : Sensor) : (m.putSensor k x).fresh = m.fresh := rfl

/-! ### The estimate of a string written changes the estimator alone. -/

@[simp] theorem Chip.putEstr_regs (m : Chip) (n : Nat) (x : EstStr) : (m.putEstr n x).regs = m.regs := rfl
@[simp] theorem Chip.putEstr_now (m : Chip) (n : Nat) (x : EstStr) : (m.putEstr n x).now = m.now := rfl
@[simp] theorem Chip.putEstr_upUs (m : Chip) (n : Nat) (x : EstStr) : (m.putEstr n x).upUs = m.upUs := rfl
@[simp] theorem Chip.putEstr_levels (m : Chip) (n : Nat) (x : EstStr) : (m.putEstr n x).levels = m.levels := rfl
@[simp] theorem Chip.putEstr_pwr (m : Chip) (n : Nat) (x : EstStr) : (m.putEstr n x).pwr = m.pwr := rfl
@[simp] theorem Chip.putEstr_nvm (m : Chip) (n : Nat) (x : EstStr) : (m.putEstr n x).nvm = m.nvm := rfl
@[simp] theorem Chip.putEstr_seq (m : Chip) (n : Nat) (x : EstStr) : (m.putEstr n x).seq = m.seq := rfl
@[simp] theorem Chip.putEstr_acq (m : Chip) (n : Nat) (x : EstStr) : (m.putEstr n x).acq = m.acq := rfl
@[simp] theorem Chip.putEstr_cle (m : Chip) (n : Nat) (x : EstStr) : (m.putEstr n x).cle = m.cle := rfl
@[simp] theorem Chip.putEstr_ptn (m : Chip) (n : Nat) (x : EstStr) : (m.putEstr n x).ptn = m.ptn := rfl
@[simp] theorem Chip.putEstr_twb (m : Chip) (n : Nat) (x : EstStr) : (m.putEstr n x).twb = m.twb := rfl
@[simp] theorem Chip.putEstr_slk (m : Chip) (n : Nat) (x : EstStr) : (m.putEstr n x).slk = m.slk := rfl
@[simp] theorem Chip.putEstr_spl (m : Chip) (n : Nat) (x : EstStr) : (m.putEstr n x).spl = m.spl := rfl
@[simp] theorem Chip.putEstr_lay (m : Chip) (n : Nat) (x : EstStr) : (m.putEstr n x).lay = m.lay := rfl
@[simp] theorem Chip.putEstr_brn (m : Chip) (n : Nat) (x : EstStr) : (m.putEstr n x).brn = m.brn := rfl
@[simp] theorem Chip.putEstr_cnv (m : Chip) (n : Nat) (x : EstStr) : (m.putEstr n x).cnv = m.cnv := rfl
@[simp] theorem Chip.putEstr_flt (m : Chip) (n : Nat) (x : EstStr) : (m.putEstr n x).flt = m.flt := rfl
@[simp] theorem Chip.putEstr_sec (m : Chip) (n : Nat) (x : EstStr) : (m.putEstr n x).sec = m.sec := rfl
@[simp] theorem Chip.putEstr_rcd (m : Chip) (n : Nat) (x : EstStr) : (m.putEstr n x).rcd = m.rcd := rfl
@[simp] theorem Chip.putEstr_hst (m : Chip) (n : Nat) (x : EstStr) : (m.putEstr n x).hst = m.hst := rfl
@[simp] theorem Chip.putEstr_pol (m : Chip) (n : Nat) (x : EstStr) : (m.putEstr n x).pol = m.pol := rfl
@[simp] theorem Chip.putEstr_bat (m : Chip) (n : Nat) (x : EstStr) : (m.putEstr n x).bat = m.bat := rfl
@[simp] theorem Chip.putEstr_thm (m : Chip) (n : Nat) (x : EstStr) : (m.putEstr n x).thm = m.thm := rfl
@[simp] theorem Chip.putEstr_upd (m : Chip) (n : Nat) (x : EstStr) : (m.putEstr n x).upd = m.upd := rfl
@[simp] theorem Chip.putEstr_sys (m : Chip) (n : Nat) (x : EstStr) : (m.putEstr n x).sys = m.sys := rfl
@[simp] theorem Chip.putEstr_pins (m : Chip) (n : Nat) (x : EstStr) : (m.putEstr n x).pins = m.pins := rfl
@[simp] theorem Chip.putEstr_resp (m : Chip) (n : Nat) (x : EstStr) : (m.putEstr n x).resp = m.resp := rfl
@[simp] theorem Chip.putEstr_vend (m : Chip) (n : Nat) (x : EstStr) : (m.putEstr n x).vend = m.vend := rfl
@[simp] theorem Chip.putEstr_fresh (m : Chip) (n : Nat) (x : EstStr) : (m.putEstr n x).fresh = m.fresh := rfl

/-! ### Time that passes changes the two stamps alone. -/

@[simp] theorem Chip.advance_regs (m : Chip) (d : Nat) : (m.advance d).regs = m.regs := rfl
@[simp] theorem Chip.advance_levels (m : Chip) (d : Nat) : (m.advance d).levels = m.levels := rfl
@[simp] theorem Chip.advance_pwr (m : Chip) (d : Nat) : (m.advance d).pwr = m.pwr := rfl
@[simp] theorem Chip.advance_nvm (m : Chip) (d : Nat) : (m.advance d).nvm = m.nvm := rfl
@[simp] theorem Chip.advance_seq (m : Chip) (d : Nat) : (m.advance d).seq = m.seq := rfl
@[simp] theorem Chip.advance_acq (m : Chip) (d : Nat) : (m.advance d).acq = m.acq := rfl
@[simp] theorem Chip.advance_cle (m : Chip) (d : Nat) : (m.advance d).cle = m.cle := rfl
@[simp] theorem Chip.advance_ptn (m : Chip) (d : Nat) : (m.advance d).ptn = m.ptn := rfl
@[simp] theorem Chip.advance_twb (m : Chip) (d : Nat) : (m.advance d).twb = m.twb := rfl
@[simp] theorem Chip.advance_slk (m : Chip) (d : Nat) : (m.advance d).slk = m.slk := rfl
@[simp] theorem Chip.advance_spl (m : Chip) (d : Nat) : (m.advance d).spl = m.spl := rfl
@[simp] theorem Chip.advance_lay (m : Chip) (d : Nat) : (m.advance d).lay = m.lay := rfl
@[simp] theorem Chip.advance_brn (m : Chip) (d : Nat) : (m.advance d).brn = m.brn := rfl
@[simp] theorem Chip.advance_cnv (m : Chip) (d : Nat) : (m.advance d).cnv = m.cnv := rfl
@[simp] theorem Chip.advance_flt (m : Chip) (d : Nat) : (m.advance d).flt = m.flt := rfl
@[simp] theorem Chip.advance_sec (m : Chip) (d : Nat) : (m.advance d).sec = m.sec := rfl
@[simp] theorem Chip.advance_rcd (m : Chip) (d : Nat) : (m.advance d).rcd = m.rcd := rfl
@[simp] theorem Chip.advance_hst (m : Chip) (d : Nat) : (m.advance d).hst = m.hst := rfl
@[simp] theorem Chip.advance_pol (m : Chip) (d : Nat) : (m.advance d).pol = m.pol := rfl
@[simp] theorem Chip.advance_bat (m : Chip) (d : Nat) : (m.advance d).bat = m.bat := rfl
@[simp] theorem Chip.advance_est (m : Chip) (d : Nat) : (m.advance d).est = m.est := rfl
@[simp] theorem Chip.advance_thm (m : Chip) (d : Nat) : (m.advance d).thm = m.thm := rfl
@[simp] theorem Chip.advance_upd (m : Chip) (d : Nat) : (m.advance d).upd = m.upd := rfl
@[simp] theorem Chip.advance_sys (m : Chip) (d : Nat) : (m.advance d).sys = m.sys := rfl
@[simp] theorem Chip.advance_pins (m : Chip) (d : Nat) : (m.advance d).pins = m.pins := rfl
@[simp] theorem Chip.advance_resp (m : Chip) (d : Nat) : (m.advance d).resp = m.resp := rfl
@[simp] theorem Chip.advance_vend (m : Chip) (d : Nat) : (m.advance d).vend = m.vend := rfl
@[simp] theorem Chip.advance_fresh (m : Chip) (d : Nat) : (m.advance d).fresh = m.fresh := rfl

/-! ### An open value taken changes the counter of open values alone. -/

@[simp] theorem Chip.spend_regs (m : Chip) : (m.spend).regs = m.regs := rfl
@[simp] theorem Chip.spend_now (m : Chip) : (m.spend).now = m.now := rfl
@[simp] theorem Chip.spend_upUs (m : Chip) : (m.spend).upUs = m.upUs := rfl
@[simp] theorem Chip.spend_levels (m : Chip) : (m.spend).levels = m.levels := rfl
@[simp] theorem Chip.spend_pwr (m : Chip) : (m.spend).pwr = m.pwr := rfl
@[simp] theorem Chip.spend_nvm (m : Chip) : (m.spend).nvm = m.nvm := rfl
@[simp] theorem Chip.spend_seq (m : Chip) : (m.spend).seq = m.seq := rfl
@[simp] theorem Chip.spend_acq (m : Chip) : (m.spend).acq = m.acq := rfl
@[simp] theorem Chip.spend_cle (m : Chip) : (m.spend).cle = m.cle := rfl
@[simp] theorem Chip.spend_ptn (m : Chip) : (m.spend).ptn = m.ptn := rfl
@[simp] theorem Chip.spend_twb (m : Chip) : (m.spend).twb = m.twb := rfl
@[simp] theorem Chip.spend_slk (m : Chip) : (m.spend).slk = m.slk := rfl
@[simp] theorem Chip.spend_spl (m : Chip) : (m.spend).spl = m.spl := rfl
@[simp] theorem Chip.spend_lay (m : Chip) : (m.spend).lay = m.lay := rfl
@[simp] theorem Chip.spend_brn (m : Chip) : (m.spend).brn = m.brn := rfl
@[simp] theorem Chip.spend_cnv (m : Chip) : (m.spend).cnv = m.cnv := rfl
@[simp] theorem Chip.spend_flt (m : Chip) : (m.spend).flt = m.flt := rfl
@[simp] theorem Chip.spend_sec (m : Chip) : (m.spend).sec = m.sec := rfl
@[simp] theorem Chip.spend_rcd (m : Chip) : (m.spend).rcd = m.rcd := rfl
@[simp] theorem Chip.spend_hst (m : Chip) : (m.spend).hst = m.hst := rfl
@[simp] theorem Chip.spend_pol (m : Chip) : (m.spend).pol = m.pol := rfl
@[simp] theorem Chip.spend_bat (m : Chip) : (m.spend).bat = m.bat := rfl
@[simp] theorem Chip.spend_est (m : Chip) : (m.spend).est = m.est := rfl
@[simp] theorem Chip.spend_thm (m : Chip) : (m.spend).thm = m.thm := rfl
@[simp] theorem Chip.spend_upd (m : Chip) : (m.spend).upd = m.upd := rfl
@[simp] theorem Chip.spend_sys (m : Chip) : (m.spend).sys = m.sys := rfl
@[simp] theorem Chip.spend_pins (m : Chip) : (m.spend).pins = m.pins := rfl
@[simp] theorem Chip.spend_resp (m : Chip) : (m.spend).resp = m.resp := rfl
@[simp] theorem Chip.spend_vend (m : Chip) : (m.spend).vend = m.vend := rfl

/-! ### A completion changes the response alone. -/

@[simp] theorem Chip.respond_regs (m : Chip) (ag : Agent) (st : Status) (w : Word) : (m.respond ag st w).regs = m.regs := rfl
@[simp] theorem Chip.respond_now (m : Chip) (ag : Agent) (st : Status) (w : Word) : (m.respond ag st w).now = m.now := rfl
@[simp] theorem Chip.respond_upUs (m : Chip) (ag : Agent) (st : Status) (w : Word) : (m.respond ag st w).upUs = m.upUs := rfl
@[simp] theorem Chip.respond_levels (m : Chip) (ag : Agent) (st : Status) (w : Word) : (m.respond ag st w).levels = m.levels := rfl
@[simp] theorem Chip.respond_pwr (m : Chip) (ag : Agent) (st : Status) (w : Word) : (m.respond ag st w).pwr = m.pwr := rfl
@[simp] theorem Chip.respond_nvm (m : Chip) (ag : Agent) (st : Status) (w : Word) : (m.respond ag st w).nvm = m.nvm := rfl
@[simp] theorem Chip.respond_seq (m : Chip) (ag : Agent) (st : Status) (w : Word) : (m.respond ag st w).seq = m.seq := rfl
@[simp] theorem Chip.respond_acq (m : Chip) (ag : Agent) (st : Status) (w : Word) : (m.respond ag st w).acq = m.acq := rfl
@[simp] theorem Chip.respond_cle (m : Chip) (ag : Agent) (st : Status) (w : Word) : (m.respond ag st w).cle = m.cle := rfl
@[simp] theorem Chip.respond_ptn (m : Chip) (ag : Agent) (st : Status) (w : Word) : (m.respond ag st w).ptn = m.ptn := rfl
@[simp] theorem Chip.respond_twb (m : Chip) (ag : Agent) (st : Status) (w : Word) : (m.respond ag st w).twb = m.twb := rfl
@[simp] theorem Chip.respond_slk (m : Chip) (ag : Agent) (st : Status) (w : Word) : (m.respond ag st w).slk = m.slk := rfl
@[simp] theorem Chip.respond_spl (m : Chip) (ag : Agent) (st : Status) (w : Word) : (m.respond ag st w).spl = m.spl := rfl
@[simp] theorem Chip.respond_lay (m : Chip) (ag : Agent) (st : Status) (w : Word) : (m.respond ag st w).lay = m.lay := rfl
@[simp] theorem Chip.respond_brn (m : Chip) (ag : Agent) (st : Status) (w : Word) : (m.respond ag st w).brn = m.brn := rfl
@[simp] theorem Chip.respond_cnv (m : Chip) (ag : Agent) (st : Status) (w : Word) : (m.respond ag st w).cnv = m.cnv := rfl
@[simp] theorem Chip.respond_flt (m : Chip) (ag : Agent) (st : Status) (w : Word) : (m.respond ag st w).flt = m.flt := rfl
@[simp] theorem Chip.respond_sec (m : Chip) (ag : Agent) (st : Status) (w : Word) : (m.respond ag st w).sec = m.sec := rfl
@[simp] theorem Chip.respond_rcd (m : Chip) (ag : Agent) (st : Status) (w : Word) : (m.respond ag st w).rcd = m.rcd := rfl
@[simp] theorem Chip.respond_hst (m : Chip) (ag : Agent) (st : Status) (w : Word) : (m.respond ag st w).hst = m.hst := rfl
@[simp] theorem Chip.respond_pol (m : Chip) (ag : Agent) (st : Status) (w : Word) : (m.respond ag st w).pol = m.pol := rfl
@[simp] theorem Chip.respond_bat (m : Chip) (ag : Agent) (st : Status) (w : Word) : (m.respond ag st w).bat = m.bat := rfl
@[simp] theorem Chip.respond_est (m : Chip) (ag : Agent) (st : Status) (w : Word) : (m.respond ag st w).est = m.est := rfl
@[simp] theorem Chip.respond_thm (m : Chip) (ag : Agent) (st : Status) (w : Word) : (m.respond ag st w).thm = m.thm := rfl
@[simp] theorem Chip.respond_upd (m : Chip) (ag : Agent) (st : Status) (w : Word) : (m.respond ag st w).upd = m.upd := rfl
@[simp] theorem Chip.respond_sys (m : Chip) (ag : Agent) (st : Status) (w : Word) : (m.respond ag st w).sys = m.sys := rfl
@[simp] theorem Chip.respond_pins (m : Chip) (ag : Agent) (st : Status) (w : Word) : (m.respond ag st w).pins = m.pins := rfl
@[simp] theorem Chip.respond_vend (m : Chip) (ag : Agent) (st : Status) (w : Word) : (m.respond ag st w).vend = m.vend := rfl
@[simp] theorem Chip.respond_fresh (m : Chip) (ag : Agent) (st : Status) (w : Word) : (m.respond ag st w).fresh = m.fresh := rfl

/-! ### Driving the pins changes the pins alone. -/

@[simp] theorem Chip.drive_regs (m : Chip) : (m.drive).regs = m.regs := rfl
@[simp] theorem Chip.drive_now (m : Chip) : (m.drive).now = m.now := rfl
@[simp] theorem Chip.drive_upUs (m : Chip) : (m.drive).upUs = m.upUs := rfl
@[simp] theorem Chip.drive_levels (m : Chip) : (m.drive).levels = m.levels := rfl
@[simp] theorem Chip.drive_pwr (m : Chip) : (m.drive).pwr = m.pwr := rfl
@[simp] theorem Chip.drive_nvm (m : Chip) : (m.drive).nvm = m.nvm := rfl
@[simp] theorem Chip.drive_seq (m : Chip) : (m.drive).seq = m.seq := rfl
@[simp] theorem Chip.drive_acq (m : Chip) : (m.drive).acq = m.acq := rfl
@[simp] theorem Chip.drive_cle (m : Chip) : (m.drive).cle = m.cle := rfl
@[simp] theorem Chip.drive_ptn (m : Chip) : (m.drive).ptn = m.ptn := rfl
@[simp] theorem Chip.drive_twb (m : Chip) : (m.drive).twb = m.twb := rfl
@[simp] theorem Chip.drive_slk (m : Chip) : (m.drive).slk = m.slk := rfl
@[simp] theorem Chip.drive_spl (m : Chip) : (m.drive).spl = m.spl := rfl
@[simp] theorem Chip.drive_lay (m : Chip) : (m.drive).lay = m.lay := rfl
@[simp] theorem Chip.drive_brn (m : Chip) : (m.drive).brn = m.brn := rfl
@[simp] theorem Chip.drive_cnv (m : Chip) : (m.drive).cnv = m.cnv := rfl
@[simp] theorem Chip.drive_flt (m : Chip) : (m.drive).flt = m.flt := rfl
@[simp] theorem Chip.drive_sec (m : Chip) : (m.drive).sec = m.sec := rfl
@[simp] theorem Chip.drive_rcd (m : Chip) : (m.drive).rcd = m.rcd := rfl
@[simp] theorem Chip.drive_hst (m : Chip) : (m.drive).hst = m.hst := rfl
@[simp] theorem Chip.drive_pol (m : Chip) : (m.drive).pol = m.pol := rfl
@[simp] theorem Chip.drive_bat (m : Chip) : (m.drive).bat = m.bat := rfl
@[simp] theorem Chip.drive_est (m : Chip) : (m.drive).est = m.est := rfl
@[simp] theorem Chip.drive_thm (m : Chip) : (m.drive).thm = m.thm := rfl
@[simp] theorem Chip.drive_upd (m : Chip) : (m.drive).upd = m.upd := rfl
@[simp] theorem Chip.drive_sys (m : Chip) : (m.drive).sys = m.sys := rfl
@[simp] theorem Chip.drive_resp (m : Chip) : (m.drive).resp = m.resp := rfl
@[simp] theorem Chip.drive_vend (m : Chip) : (m.drive).vend = m.vend := rfl
@[simp] theorem Chip.drive_fresh (m : Chip) : (m.drive).fresh = m.fresh := rfl

end Sys2Proof.Machine
end

