-- ==== Sys2Proof/Laws/Exec.lean ====
section
/-!
SUPPORT. What exec answers for each command: the operation of its row, finished. One lemma for each constructor, so that no proof
unfolds Machine/Dispatch.lean.
-/

namespace Sys2Proof.Machine

@[simp] theorem exec_registerWrite (ag : Agent) (addr : BitVec 24) (d : Word) (σ : State) :
    exec (.registerWrite ag addr d) σ = σ.finish (σ.m.portWrite ag addr.toNat d) := rfl
@[simp] theorem exec_heldAccessComplete (σ : State) :
    exec (.heldAccessComplete) σ = σ.finish (σ.m.heldComplete) := rfl
@[simp] theorem exec_domainSleep (dom : Dom) (σ : State) :
    exec (.domainSleep dom) σ = σ.finish (σ.m.domainSleep dom) := rfl
@[simp] theorem exec_lockstepMismatch (p : Pair) (σ : State) :
    exec (.lockstepMismatch p) σ = σ.finish (σ.m.whenAlive (fun m => m.lockstep p)) := rfl
@[simp] theorem exec_policyHeartbeat (σ : State) :
    exec (.policyHeartbeat) σ = σ.finish (σ.m.whenAlive Chip.heartbeat) := rfl
@[simp] theorem exec_supplyLoss (σ : State) :
    exec (.supplyLoss) σ = σ.finish (σ.m.supplyLoss) := rfl
@[simp] theorem exec_vkeepLoss (σ : State) :
    exec (.vkeepLoss) σ = σ.finish (σ.m.vkeepLoss) := rfl
@[simp] theorem exec_powerOnResetRelease (role : Bool) (refsel : Bool) (σ : State) :
    exec (.powerOnResetRelease role refsel) σ = σ.finish (σ.m.porRelease role refsel) := rfl
@[simp] theorem exec_warmReset (σ : State) :
    exec (.warmReset) σ = σ.finish (σ.m.warmReset 1) := rfl
@[simp] theorem exec_bootComplete (us : Nat) (act : Fin 8) (rol : Fin 8 × Nat) (σ : State) :
    exec (.bootComplete us act rol) σ = σ.finish (σ.m.bootComplete us act rol.1 rol.2) := rfl
@[simp] theorem exec_autostartDecision (σ : State) :
    exec (.autostartDecision) σ = σ.finish (σ.m.autostart) := rfl
@[simp] theorem exec_start (ag : Agent) (σ : State) :
    exec (.start ag) σ = σ.finish (σ.m.regWrite ag .pwrmCmd 0 1) := rfl
@[simp] theorem exec_stop (ag : Agent) (σ : State) :
    exec (.stop ag) σ = σ.finish (σ.m.regWrite ag .pwrmCmd 0 2) := rfl
@[simp] theorem exec_ship (ag : Agent) (welded : BitVec 4 × Bool) (σ : State) :
    exec (.ship ag welded) σ = σ.finish (σ.m.shipCmd ag welded.1.toNat welded.2) := rfl
@[simp] theorem exec_safeExit (ag : Agent) (σ : State) :
    exec (.safeExit ag) σ = σ.finish (σ.m.regWrite ag .pwrmCmd 0 4) := rfl
@[simp] theorem exec_serviceEnter (ag : Agent) (σ : State) :
    exec (.serviceEnter ag) σ = σ.finish (σ.m.regWrite ag .pwrmCmd 0 5) := rfl
@[simp] theorem exec_serviceExit (ag : Agent) (σ : State) :
    exec (.serviceExit ag) σ = σ.finish (σ.m.regWrite ag .pwrmCmd 0 6) := rfl
@[simp] theorem exec_lockExit (ag : Agent) (σ : State) :
    exec (.lockExit ag) σ = σ.finish (σ.m.regWrite ag .pwrmCmd 0 7) := rfl
@[simp] theorem exec_resetCmd (ag : Agent) (σ : State) :
    exec (.resetCmd ag) σ = σ.finish (σ.m.regWrite ag .pwrmCmd 0 8) := rfl
@[simp] theorem exec_ecdFire (σ : State) :
    exec (.ecdFire) σ = σ.finish (σ.m.ecdFire) := rfl
@[simp] theorem exec_ecdRearm (σ : State) :
    exec (.ecdRearm) σ = σ.finish (σ.m.ecdRearm) := rfl
@[simp] theorem exec_xt32Loss (σ : State) :
    exec (.xt32Loss) σ = σ.finish (σ.m.xtLoss) := rfl
@[simp] theorem exec_xt32Return (σ : State) :
    exec (.xt32Return) σ = σ.finish (σ.m.xtReturn) := rfl
@[simp] theorem exec_refLoss (σ : State) :
    exec (.refLoss) σ = σ.finish (σ.m.refLoss) := rfl
@[simp] theorem exec_refReturn (σ : State) :
    exec (.refReturn) σ = σ.finish (σ.m.refReturn) := rfl
@[simp] theorem exec_opsecCommit (σ : State) :
    exec (.opsecCommit) σ = σ.finish (σ.m.opsecCommit) := rfl
@[simp] theorem exec_seqOn (ag : Agent) (σ : State) :
    exec (.seqOn ag) σ = σ.finish (σ.m.regWrite ag .seqCmd 0 1) := rfl
@[simp] theorem exec_seqOff (ag : Agent) (σ : State) :
    exec (.seqOff ag) σ = σ.finish (σ.m.regWrite ag .seqCmd 0 2) := rfl
@[simp] theorem exec_seqStepWrite (ag : Agent) (n : Fin 64) (tmo : Bool) (d : Word) (σ : State) :
    exec (.seqStepWrite ag n tmo d) σ = σ.finish (σ.m.regWrite ag (if tmo then .seqStepTmo else .seqStepCtl) n d) := rfl
@[simp] theorem exec_seqPgChange (rail : Fin 24) (level : Bool) (σ : State) :
    exec (.seqPgChange rail level) σ = σ.finish (σ.m.seqPgChange rail level) := rfl
@[simp] theorem exec_seqQualified (σ : State) :
    exec (.seqQualified) σ = σ.finish (σ.m.seqQualified) := rfl
@[simp] theorem exec_seqDelayElapsed (σ : State) :
    exec (.seqDelayElapsed) σ = σ.finish (σ.m.seqDelayElapsed) := rfl
@[simp] theorem exec_seqDischarged (σ : State) :
    exec (.seqDischarged) σ = σ.finish (σ.m.seqDischarged) := rfl
@[simp] theorem exec_railTimeout (σ : State) :
    exec (.railTimeout) σ = σ.finish (σ.m.seqTimeout) := rfl
@[simp] theorem exec_railChatter (σ : State) :
    exec (.railChatter) σ = σ.finish (σ.m.seqChatter) := rfl
@[simp] theorem exec_seqRetryDelayElapsed (σ : State) :
    exec (.seqRetryDelayElapsed) σ = σ.finish (σ.m.seqRetryDelay) := rfl
@[simp] theorem exec_railNodischarge (σ : State) :
    exec (.railNodischarge) σ = σ.finish (σ.m.seqNoDischarge) := rfl
@[simp] theorem exec_railPgLost (rail : Fin 24) (σ : State) :
    exec (.railPgLost rail) σ = σ.finish (σ.m.railPgLost rail) := rfl
@[simp] theorem exec_rstStretchElapsed (n : Fin 4) (σ : State) :
    exec (.rstStretchElapsed n) σ = σ.finish (σ.m.stretchElapsed n) := rfl
@[simp] theorem exec_strandStart (ag : Agent) (k : Fin 256) (σ : State) :
    exec (.strandStart ag k) σ = σ.finish (σ.m.layCommand ag 1 k) := rfl
@[simp] theorem exec_strandHalt (ag : Agent) (k : Fin 256) (σ : State) :
    exec (.strandHalt ag k) σ = σ.finish (σ.m.layCommand ag 2 k) := rfl
@[simp] theorem exec_strandResume (ag : Agent) (k : Fin 256) (σ : State) :
    exec (.strandResume ag k) σ = σ.finish (σ.m.layCommand ag 3 k) := rfl
@[simp] theorem exec_strandRestart (ag : Agent) (k : Fin 256) (σ : State) :
    exec (.strandRestart ag k) σ = σ.finish (σ.m.layCommand ag 4 k) := rfl
@[simp] theorem exec_strandFree (ag : Agent) (k : Fin 256) (σ : State) :
    exec (.strandFree ag k) σ = σ.finish (σ.m.layCommand ag 5 k) := rfl
@[simp] theorem exec_strandUnfence (ag : Agent) (k : Fin 256) (σ : State) :
    exec (.strandUnfence ag k) σ = σ.finish (σ.m.layCommand ag 6 k) := rfl
@[simp] theorem exec_haltOwner (ag : Agent) (o : Owner) (σ : State) :
    exec (.haltOwner ag o) σ = σ.finish (σ.m.layCommand ag 7 (Owner.code o)) := rfl
@[simp] theorem exec_bundleBegin (ag : Agent) (σ : State) :
    exec (.bundleBegin ag) σ = σ.finish (σ.m.regWrite ag .layBldCtl 0 1) := rfl
@[simp] theorem exec_bundleData (ag : Agent) (d : Word) (σ : State) :
    exec (.bundleData ag d) σ = σ.finish (σ.m.regWrite ag .layBldData 0 d) := rfl
@[simp] theorem exec_bundleCommit (ag : Agent) (σ : State) :
    exec (.bundleCommit ag) σ = σ.finish (σ.m.regWrite ag .layBldCtl 0 2) := rfl
@[simp] theorem exec_bundleCancel (ag : Agent) (σ : State) :
    exec (.bundleCancel ag) σ = σ.finish (σ.m.regWrite ag .layBldCtl 0 3) := rfl
@[simp] theorem exec_strandDispatch (σ : State) :
    exec (.strandDispatch) σ = σ.finish (σ.m.dispatch) := rfl
@[simp] theorem exec_sliceEnd (k : Fin 256) (σ : State) :
    exec (.sliceEnd k) σ = σ.finish (σ.m.sliceEnd k) := rfl
@[simp] theorem exec_strandBudget (k : Fin 256) (σ : State) :
    exec (.strandBudget k) σ = σ.finish (σ.m.budgetFault k) := rfl
@[simp] theorem exec_waitWake (k : Fin 256) (σ : State) :
    exec (.waitWake k) σ = σ.finish (σ.m.waitWake k) := rfl
@[simp] theorem exec_waitTimeout (k : Fin 256) (σ : State) :
    exec (.waitTimeout k) σ = σ.finish (σ.m.waitTimeout k) := rfl
@[simp] theorem exec_strandTimerTick (k : Fin 256) (σ : State) :
    exec (.strandTimerTick k) σ = σ.finish (σ.m.timerTick k) := rfl
@[simp] theorem exec_nop (k : Fin 256) (σ : State) :
    exec (.nop k) σ = σ.finish (σ.m.kNop k) := rfl
@[simp] theorem exec_halt (k : Fin 256) (σ : State) :
    exec (.halt k) σ = σ.finish (σ.m.kHalt k) := rfl
@[simp] theorem exec_yieldK (k : Fin 256) (σ : State) :
    exec (.yieldK k) σ = σ.finish (σ.m.kYield k) := rfl
@[simp] theorem exec_faultK (k : Fin 256) (code : BitVec 8) (σ : State) :
    exec (.faultK k code) σ = σ.finish (σ.m.kFault k code.toNat) := rfl
@[simp] theorem exec_sysr (k : Fin 256) (d : Fin 16) (sel : Fin 9) (σ : State) :
    exec (.sysr k d sel) σ = σ.finish (σ.m.kSysr k d sel) := rfl
@[simp] theorem exec_add (k : Fin 256) (d : Fin 16) (a : Fin 16) (b : Fin 16) (σ : State) :
    exec (.add k d a b) σ = σ.finish (σ.m.kAdd k d a b) := rfl
@[simp] theorem exec_adc (k : Fin 256) (d : Fin 16) (a : Fin 16) (b : Fin 16) (σ : State) :
    exec (.adc k d a b) σ = σ.finish (σ.m.kAdc k d a b) := rfl
@[simp] theorem exec_sub (k : Fin 256) (d : Fin 16) (a : Fin 16) (b : Fin 16) (σ : State) :
    exec (.sub k d a b) σ = σ.finish (σ.m.kSub k d a b) := rfl
@[simp] theorem exec_sbc (k : Fin 256) (d : Fin 16) (a : Fin 16) (b : Fin 16) (σ : State) :
    exec (.sbc k d a b) σ = σ.finish (σ.m.kSbc k d a b) := rfl
@[simp] theorem exec_andK (k : Fin 256) (d : Fin 16) (a : Fin 16) (b : Fin 16) (σ : State) :
    exec (.andK k d a b) σ = σ.finish (σ.m.kAnd k d a b) := rfl
@[simp] theorem exec_orK (k : Fin 256) (d : Fin 16) (a : Fin 16) (b : Fin 16) (σ : State) :
    exec (.orK k d a b) σ = σ.finish (σ.m.kOr k d a b) := rfl
@[simp] theorem exec_xorK (k : Fin 256) (d : Fin 16) (a : Fin 16) (b : Fin 16) (σ : State) :
    exec (.xorK k d a b) σ = σ.finish (σ.m.kXor k d a b) := rfl
@[simp] theorem exec_bic (k : Fin 256) (d : Fin 16) (a : Fin 16) (b : Fin 16) (σ : State) :
    exec (.bic k d a b) σ = σ.finish (σ.m.kBic k d a b) := rfl
@[simp] theorem exec_shl (k : Fin 256) (d : Fin 16) (a : Fin 16) (b : Fin 16) (σ : State) :
    exec (.shl k d a b) σ = σ.finish (σ.m.kShl k d a b) := rfl
@[simp] theorem exec_shr (k : Fin 256) (d : Fin 16) (a : Fin 16) (b : Fin 16) (σ : State) :
    exec (.shr k d a b) σ = σ.finish (σ.m.kShr k d a b) := rfl
@[simp] theorem exec_sar (k : Fin 256) (d : Fin 16) (a : Fin 16) (b : Fin 16) (σ : State) :
    exec (.sar k d a b) σ = σ.finish (σ.m.kSar k d a b) := rfl
@[simp] theorem exec_mul (k : Fin 256) (d : Fin 16) (a : Fin 16) (b : Fin 16) (σ : State) :
    exec (.mul k d a b) σ = σ.finish (σ.m.kMul k d a b) := rfl
@[simp] theorem exec_mulh (k : Fin 256) (d : Fin 16) (a : Fin 16) (b : Fin 16) (σ : State) :
    exec (.mulh k d a b) σ = σ.finish (σ.m.kMulh k d a b) := rfl
@[simp] theorem exec_cmp (k : Fin 256) (a : Fin 16) (b : Fin 16) (σ : State) :
    exec (.cmp k a b) σ = σ.finish (σ.m.kCmp k a b) := rfl
@[simp] theorem exec_mov (k : Fin 256) (d : Fin 16) (a : Fin 16) (σ : State) :
    exec (.mov k d a) σ = σ.finish (σ.m.kMov k d a) := rfl
@[simp] theorem exec_notK (k : Fin 256) (d : Fin 16) (a : Fin 16) (σ : State) :
    exec (.notK k d a) σ = σ.finish (σ.m.kNot k d a) := rfl
@[simp] theorem exec_neg (k : Fin 256) (d : Fin 16) (a : Fin 16) (σ : State) :
    exec (.neg k d a) σ = σ.finish (σ.m.kNeg k d a) := rfl
@[simp] theorem exec_clz (k : Fin 256) (d : Fin 16) (a : Fin 16) (σ : State) :
    exec (.clz k d a) σ = σ.finish (σ.m.kClz k d a) := rfl
@[simp] theorem exec_minK (k : Fin 256) (d : Fin 16) (a : Fin 16) (b : Fin 16) (σ : State) :
    exec (.minK k d a b) σ = σ.finish (σ.m.kMin k d a b) := rfl
@[simp] theorem exec_maxK (k : Fin 256) (d : Fin 16) (a : Fin 16) (b : Fin 16) (σ : State) :
    exec (.maxK k d a b) σ = σ.finish (σ.m.kMax k d a b) := rfl
@[simp] theorem exec_tst (k : Fin 256) (a : Fin 16) (b : Fin 16) (σ : State) :
    exec (.tst k a b) σ = σ.finish (σ.m.kTst k a b) := rfl
@[simp] theorem exec_sadd (k : Fin 256) (d : Fin 16) (a : Fin 16) (b : Fin 16) (σ : State) :
    exec (.sadd k d a b) σ = σ.finish (σ.m.kSadd k d a b) := rfl
@[simp] theorem exec_ssub (k : Fin 256) (d : Fin 16) (a : Fin 16) (b : Fin 16) (σ : State) :
    exec (.ssub k d a b) σ = σ.finish (σ.m.kSsub k d a b) := rfl
@[simp] theorem exec_qmul (k : Fin 256) (d : Fin 16) (a : Fin 16) (b : Fin 16) (σ : State) :
    exec (.qmul k d a b) σ = σ.finish (σ.m.kQmul k d a b) := rfl
@[simp] theorem exec_divu (k : Fin 256) (d : Fin 16) (a : Fin 16) (b : Fin 16) (σ : State) :
    exec (.divu k d a b) σ = σ.finish (σ.m.kDivu k d a b) := rfl
@[simp] theorem exec_divK (k : Fin 256) (d : Fin 16) (a : Fin 16) (b : Fin 16) (σ : State) :
    exec (.divK k d a b) σ = σ.finish (σ.m.kDiv k d a b) := rfl
@[simp] theorem exec_movi (k : Fin 256) (d : Fin 16) (imm : BitVec 20) (σ : State) :
    exec (.movi k d imm) σ = σ.finish (σ.m.kMovi k d imm.toNat) := rfl
@[simp] theorem exec_movhi (k : Fin 256) (d : Fin 16) (imm : BitVec 16) (σ : State) :
    exec (.movhi k d imm) σ = σ.finish (σ.m.kMovhi k d imm.toNat) := rfl
@[simp] theorem exec_addi (k : Fin 256) (d : Fin 16) (a : Fin 16) (imm : BitVec 16) (σ : State) :
    exec (.addi k d a imm) σ = σ.finish (σ.m.kAddi k d a imm.toNat) := rfl
@[simp] theorem exec_andi (k : Fin 256) (d : Fin 16) (a : Fin 16) (imm : BitVec 16) (σ : State) :
    exec (.andi k d a imm) σ = σ.finish (σ.m.kAndi k d a imm.toNat) := rfl
@[simp] theorem exec_ori (k : Fin 256) (d : Fin 16) (a : Fin 16) (imm : BitVec 16) (σ : State) :
    exec (.ori k d a imm) σ = σ.finish (σ.m.kOri k d a imm.toNat) := rfl
@[simp] theorem exec_xori (k : Fin 256) (d : Fin 16) (a : Fin 16) (imm : BitVec 16) (σ : State) :
    exec (.xori k d a imm) σ = σ.finish (σ.m.kXori k d a imm.toNat) := rfl
@[simp] theorem exec_shli (k : Fin 256) (d : Fin 16) (a : Fin 16) (n : Fin 32) (σ : State) :
    exec (.shli k d a n) σ = σ.finish (σ.m.kShli k d a n) := rfl
@[simp] theorem exec_shri (k : Fin 256) (d : Fin 16) (a : Fin 16) (n : Fin 32) (σ : State) :
    exec (.shri k d a n) σ = σ.finish (σ.m.kShri k d a n) := rfl
@[simp] theorem exec_sari (k : Fin 256) (d : Fin 16) (a : Fin 16) (n : Fin 32) (σ : State) :
    exec (.sari k d a n) σ = σ.finish (σ.m.kSari k d a n) := rfl
@[simp] theorem exec_cmpi (k : Fin 256) (a : Fin 16) (imm : BitVec 16) (σ : State) :
    exec (.cmpi k a imm) σ = σ.finish (σ.m.kCmpi k a imm.toNat) := rfl
@[simp] theorem exec_extu (k : Fin 256) (d : Fin 16) (a : Fin 16) (pos : Fin 32) (wm1 : Fin 32) (σ : State) :
    exec (.extu k d a pos wm1) σ = σ.finish (σ.m.kExtu k d a pos wm1) := rfl
@[simp] theorem exec_exts (k : Fin 256) (d : Fin 16) (a : Fin 16) (pos : Fin 32) (wm1 : Fin 32) (σ : State) :
    exec (.exts k d a pos wm1) σ = σ.finish (σ.m.kExts k d a pos wm1) := rfl
@[simp] theorem exec_ins (k : Fin 256) (d : Fin 16) (a : Fin 16) (pos : Fin 32) (wm1 : Fin 32) (σ : State) :
    exec (.ins k d a pos wm1) σ = σ.finish (σ.m.kIns k d a pos wm1) := rfl
@[simp] theorem exec_ldl (k : Fin 256) (d : Fin 16) (a : Fin 16) (imm : BitVec 16) (σ : State) :
    exec (.ldl k d a imm) σ = σ.finish (σ.m.kLdl k d a imm.toNat) := rfl
@[simp] theorem exec_ldlh (k : Fin 256) (d : Fin 16) (a : Fin 16) (imm : BitVec 16) (σ : State) :
    exec (.ldlh k d a imm) σ = σ.finish (σ.m.kLdlh k d a imm.toNat) := rfl
@[simp] theorem exec_ldlb (k : Fin 256) (d : Fin 16) (a : Fin 16) (imm : BitVec 16) (σ : State) :
    exec (.ldlb k d a imm) σ = σ.finish (σ.m.kLdlb k d a imm.toNat) := rfl
@[simp] theorem exec_stl (k : Fin 256) (d : Fin 16) (a : Fin 16) (imm : BitVec 16) (σ : State) :
    exec (.stl k d a imm) σ = σ.finish (σ.m.kStl k d a imm.toNat) := rfl
@[simp] theorem exec_stlh (k : Fin 256) (d : Fin 16) (a : Fin 16) (imm : BitVec 16) (σ : State) :
    exec (.stlh k d a imm) σ = σ.finish (σ.m.kStlh k d a imm.toNat) := rfl
@[simp] theorem exec_stlb (k : Fin 256) (d : Fin 16) (a : Fin 16) (imm : BitVec 16) (σ : State) :
    exec (.stlb k d a imm) σ = σ.finish (σ.m.kStlb k d a imm.toNat) := rfl
@[simp] theorem exec_ldc (k : Fin 256) (d : Fin 16) (a : Fin 16) (imm : BitVec 16) (σ : State) :
    exec (.ldc k d a imm) σ = σ.finish (σ.m.kLdc k d a imm.toNat) := rfl
@[simp] theorem exec_ldch (k : Fin 256) (d : Fin 16) (a : Fin 16) (imm : BitVec 16) (σ : State) :
    exec (.ldch k d a imm) σ = σ.finish (σ.m.kLdch k d a imm.toNat) := rfl
@[simp] theorem exec_ldcb (k : Fin 256) (d : Fin 16) (a : Fin 16) (imm : BitVec 16) (σ : State) :
    exec (.ldcb k d a imm) σ = σ.finish (σ.m.kLdcb k d a imm.toNat) := rfl
@[simp] theorem exec_stc (k : Fin 256) (d : Fin 16) (a : Fin 16) (imm : BitVec 16) (σ : State) :
    exec (.stc k d a imm) σ = σ.finish (σ.m.kStc k d a imm.toNat) := rfl
@[simp] theorem exec_stch (k : Fin 256) (d : Fin 16) (a : Fin 16) (imm : BitVec 16) (σ : State) :
    exec (.stch k d a imm) σ = σ.finish (σ.m.kStch k d a imm.toNat) := rfl
@[simp] theorem exec_stcb (k : Fin 256) (d : Fin 16) (a : Fin 16) (imm : BitVec 16) (σ : State) :
    exec (.stcb k d a imm) σ = σ.finish (σ.m.kStcb k d a imm.toNat) := rfl
@[simp] theorem exec_ldd (k : Fin 256) (d : Fin 16) (a : Fin 16) (imm : BitVec 16) (σ : State) :
    exec (.ldd k d a imm) σ = σ.finish (σ.m.kLdd k d a imm.toNat) := rfl
@[simp] theorem exec_std (k : Fin 256) (d : Fin 16) (a : Fin 16) (imm : BitVec 16) (σ : State) :
    exec (.std k d a imm) σ = σ.finish (σ.m.kStd k d a imm.toNat) := rfl
@[simp] theorem exec_cas (k : Fin 256) (d : Fin 16) (a : Fin 16) (b : Fin 16) (c : Fin 16) (σ : State) :
    exec (.cas k d a b c) σ = σ.finish (σ.m.kCas k d a b c) := rfl
@[simp] theorem exec_fadd (k : Fin 256) (d : Fin 16) (a : Fin 16) (b : Fin 16) (σ : State) :
    exec (.fadd k d a b) σ = σ.finish (σ.m.kFadd k d a b) := rfl
@[simp] theorem exec_xchg (k : Fin 256) (d : Fin 16) (a : Fin 16) (b : Fin 16) (σ : State) :
    exec (.xchg k d a b) σ = σ.finish (σ.m.kXchg k d a b) := rfl
@[simp] theorem exec_bcc (k : Fin 256) (cond : Fin 11) (off : BitVec 20) (σ : State) :
    exec (.bcc k cond off) σ = σ.finish (σ.m.kBcc k cond off.toNat) := rfl
@[simp] theorem exec_bl (k : Fin 256) (off : BitVec 20) (σ : State) :
    exec (.bl k off) σ = σ.finish (σ.m.kBl k off.toNat) := rfl
@[simp] theorem exec_jr (k : Fin 256) (a : Fin 16) (σ : State) :
    exec (.jr k a) σ = σ.finish (σ.m.kJr k a) := rfl
@[simp] theorem exec_ret (k : Fin 256) (σ : State) :
    exec (.ret k) σ = σ.finish (σ.m.kRet k) := rfl
@[simp] theorem exec_delay (k : Fin 256) (n : BitVec 20) (σ : State) :
    exec (.delay k n) σ = σ.finish (σ.m.kDelay k n.toNat) := rfl
@[simp] theorem exec_delayv (k : Fin 256) (a : Fin 16) (σ : State) :
    exec (.delayv k a) σ = σ.finish (σ.m.kDelayv k a) := rfl
@[simp] theorem exec_timer (k : Fin 256) (n : BitVec 20) (σ : State) :
    exec (.timer k n) σ = σ.finish (σ.m.kTimer k n.toNat) := rfl
@[simp] theorem exec_timerv (k : Fin 256) (a : Fin 16) (σ : State) :
    exec (.timerv k a) σ = σ.finish (σ.m.kTimerv k a) := rfl
@[simp] theorem exec_waitt (k : Fin 256) (d : Fin 16) (c : Option (Fin 16)) (σ : State) :
    exec (.waitt k d c) σ = σ.finish (σ.m.kWaitt k d (c.map Fin.val)) := rfl
@[simp] theorem exec_waite (k : Fin 256) (d : Fin 16) (line : Fin 4) (a : Fin 16) (c : Option (Fin 16)) (σ : State) :
    exec (.waite k d line a c) σ = σ.finish (σ.m.kWaite k d line a (c.map Fin.val)) := rfl
@[simp] theorem exec_waitk (k : Fin 256) (d : Fin 16) (a : Fin 16) (c : Option (Fin 16)) (σ : State) :
    exec (.waitk k d a c) σ = σ.finish (σ.m.kWaitk k d a (c.map Fin.val)) := rfl
@[simp] theorem exec_kpoll (k : Fin 256) (d : Fin 16) (a : Fin 16) (σ : State) :
    exec (.kpoll k d a) σ = σ.finish (σ.m.kKpoll k d a) := rfl
@[simp] theorem exec_kdrop (k : Fin 256) (a : Fin 16) (σ : State) :
    exec (.kdrop k a) σ = σ.finish (σ.m.kKdrop k a) := rfl
@[simp] theorem exec_send (k : Fin 256) (b : Fin 16) (ch : Fin 64) (σ : State) :
    exec (.send k b ch) σ = σ.finish (σ.m.kSend k b ch) := rfl
@[simp] theorem exec_recv (k : Fin 256) (d : Fin 16) (ch : Fin 64) (c : Option (Fin 16)) (σ : State) :
    exec (.recv k d ch c) σ = σ.finish (σ.m.kRecv k d ch (c.map Fin.val)) := rfl
@[simp] theorem exec_lrd (k : Fin 256) (d : Fin 16) (a : Fin 16) (w : BitVec 8) (σ : State) :
    exec (.lrd k d a w) σ = σ.finish (σ.m.kLrd k d a w.toNat) := rfl
@[simp] theorem exec_lwr (k : Fin 256) (b : Fin 16) (a : Fin 16) (w : BitVec 8) (σ : State) :
    exec (.lwr k b a w) σ = σ.finish (σ.m.kLwr k b a w.toNat) := rfl
@[simp] theorem exec_lsp (k : Fin 256) (b : Fin 16) (a : Fin 16) (σ : State) :
    exec (.lsp k b a) σ = σ.finish (σ.m.kLsp k b a) := rfl
@[simp] theorem exec_lcmt (k : Fin 256) (a : Fin 16) (blk : Fin 8) (σ : State) :
    exec (.lcmt k a blk) σ = σ.finish (σ.m.kLcmt k a blk) := rfl
@[simp] theorem exec_pread (k : Fin 256) (d : Fin 16) (a : Fin 16) (item : BitVec 12) (σ : State) :
    exec (.pread k d a item) σ = σ.finish (σ.m.kPread k d a item.toNat) := rfl
@[simp] theorem exec_pwrite (k : Fin 256) (d : Fin 16) (a : Fin 16) (b : Fin 16) (item : BitVec 12) (σ : State) :
    exec (.pwrite k d a b item) σ = σ.finish (σ.m.kPwrite k d a b item.toNat) := rfl
@[simp] theorem exec_pcmd (k : Fin 256) (d : Fin 16) (a : Fin 16) (item : BitVec 12) (σ : State) :
    exec (.pcmd k d a item) σ = σ.finish (σ.m.kPcmd k d a item.toNat) := rfl
@[simp] theorem exec_pblkr (k : Fin 256) (d : Fin 16) (a : Fin 16) (b : Fin 16) (item : BitVec 12) (σ : State) :
    exec (.pblkr k d a b item) σ = σ.finish (σ.m.kPblkr k d a b item.toNat) := rfl
@[simp] theorem exec_pblkw (k : Fin 256) (d : Fin 16) (a : Fin 16) (b : Fin 16) (item : BitVec 12) (σ : State) :
    exec (.pblkw k d a b item) σ = σ.finish (σ.m.kPblkw k d a b item.toNat) := rfl
@[simp] theorem exec_psetp (k : Fin 256) (d : Fin 16) (a : Fin 16) (b : Fin 16) (item : BitVec 12) (σ : State) :
    exec (.psetp k d a b item) σ = σ.finish (σ.m.kPsetp k d a b item.toNat) := rfl
@[simp] theorem exec_recNote (k : Fin 256) (code : BitVec 16) (σ : State) :
    exec (.recNote k code) σ = σ.finish (σ.m.kRec k code.toNat) := rfl
@[simp] theorem exec_conversionResult (n : Fin 4) (c : Fin 95) (raw : BitVec 16) (sub : Fin 200) (σ : State) :
    exec (.conversionResult n c raw sub) σ = σ.finish (σ.m.conversionRow n c raw.toNat sub) := rfl
@[simp] theorem exec_acqScanBoundary (n : Fin 4) (σ : State) :
    exec (.acqScanBoundary n) σ = σ.finish (σ.m.scanBoundary n) := rfl
@[simp] theorem exec_acqQpop1Read (ag : Agent) (σ : State) :
    exec (.acqQpop1Read ag) σ = σ.finish (σ.m.regRd ag .acqQpop1 0) := rfl
@[simp] theorem exec_acqResRead (ag : Agent) (c : Fin 95) (σ : State) :
    exec (.acqResRead ag c) σ = σ.finish (σ.m.regRd ag .acqRes c) := rfl
@[simp] theorem exec_acqCal (ag : Agent) (p : Fin 2) (σ : State) :
    exec (.acqCal ag p) σ = σ.finish (σ.m.regWrite ag .acqCmd 0 (wd (p + 1))) := rfl
@[simp] theorem exec_acqCalDone (offs : Int) (gain : Int) (σ : State) :
    exec (.acqCalDone offs gain) σ = σ.finish (σ.m.calDone offs gain) := rfl
@[simp] theorem exec_qflush (ag : Agent) (σ : State) :
    exec (.qflush ag) σ = σ.finish (σ.m.regWrite ag .acqCmd 0 3) := rfl
@[simp] theorem exec_acqTrackUpdate (p : Fin 2) (mean0 : Known) (mean1 : Known) (σ : State) :
    exec (.acqTrackUpdate p mean0 mean1) σ = σ.finish (σ.m.trackUpdate p) := rfl
@[simp] theorem exec_acmUnlock (σ : State) :
    exec (.acmUnlock) σ = σ.finish (σ.m.acmUnlock) := rfl
@[simp] theorem exec_acmLock (σ : State) :
    exec (.acmLock) σ = σ.finish (σ.m.acmLock) := rfl
@[simp] theorem exec_acmSagOnset (phases : Known) (σ : State) :
    exec (.acmSagOnset phases) σ = σ.finish (σ.m.acmOnset false) := rfl
@[simp] theorem exec_acmSagConfirm (σ : State) :
    exec (.acmSagConfirm) σ = σ.finish (σ.m.acmConfirm false) := rfl
@[simp] theorem exec_acmSagCancel (σ : State) :
    exec (.acmSagCancel) σ = σ.finish (σ.m.acmCancel false) := rfl
@[simp] theorem exec_acmSagEnd (σ : State) :
    exec (.acmSagEnd) σ = σ.finish (σ.m.acmEnd false) := rfl
@[simp] theorem exec_acmSwellOnset (phases : Known) (σ : State) :
    exec (.acmSwellOnset phases) σ = σ.finish (σ.m.acmOnset true) := rfl
@[simp] theorem exec_acmSwellConfirm (σ : State) :
    exec (.acmSwellConfirm) σ = σ.finish (σ.m.acmConfirm true) := rfl
@[simp] theorem exec_acmSwellCancel (σ : State) :
    exec (.acmSwellCancel) σ = σ.finish (σ.m.acmCancel true) := rfl
@[simp] theorem exec_acmSwellEnd (σ : State) :
    exec (.acmSwellEnd) σ = σ.finish (σ.m.acmEnd true) := rfl
@[simp] theorem exec_slotRun (ag : Agent) (s : Fin 64) (ctl : Word) (σ : State) :
    exec (.slotRun ag s ctl) σ = σ.finish (σ.m.loopWordWrite ag s 0 (setBit ctl 0 true)) := rfl
@[simp] theorem exec_slotStop (ag : Agent) (s : Fin 64) (ctl : Word) (σ : State) :
    exec (.slotStop ag s ctl) σ = σ.finish (σ.m.loopWordWrite ag s 0 (setBit ctl 0 false)) := rfl
@[simp] theorem exec_slotStopComplete (s : Fin 64) (σ : State) :
    exec (.slotStopComplete s) σ = σ.finish (σ.m.slotStopComplete s) := rfl
@[simp] theorem exec_loopSpWrite (ag : Agent) (s : Fin 64) (d : Word) (σ : State) :
    exec (.loopSpWrite ag s d) σ = σ.finish (σ.m.loopWordWrite ag s 2 d) := rfl
@[simp] theorem exec_cleCommit (ag : Agent) (s : Fin 64) (mask : BitVec 8) (σ : State) :
    exec (.cleCommit ag s mask) σ = σ.finish (σ.m.regWrite ag .cleCommit 0 (wd (s + mask.toNat * 256))) := rfl
@[simp] theorem exec_cleKick (ag : Agent) (s : Fin 64) (σ : State) :
    exec (.cleKick ag s) σ = σ.finish (σ.m.regWrite ag .cleKick 0 (wd s)) := rfl
@[simp] theorem exec_loopTrigger (s : Fin 64) (σ : State) :
    exec (.loopTrigger s) σ = σ.finish (σ.m.loopTrigger s) := rfl
@[simp] theorem exec_loopSampleStart (delay : Nat) (σ : State) :
    exec (.loopSampleStart delay) σ = σ.finish (σ.m.sampleStart delay) := rfl
@[simp] theorem exec_loopSampleDone (s : Fin 64) (σ : State) :
    exec (.loopSampleDone s) σ = σ.finish (σ.m.sampleDone s) := rfl
@[simp] theorem exec_plausibility (s : Fin 64) (σ : State) :
    exec (.plausibility s) σ = σ.finish (σ.m.plausibility s) := rfl
@[simp] theorem exec_predictConfwElapsed (s : Fin 64) (σ : State) :
    exec (.predictConfwElapsed s) σ = σ.finish (σ.m.confElapsed s) := rfl
@[simp] theorem exec_rlimWrite (σ : State) :
    exec (.rlimWrite) σ = σ.finish (σ.m.rlimTick) := rfl
@[simp] theorem exec_shareKeepalive (σ : State) :
    exec (.shareKeepalive) σ = σ.finish (σ.m.whenUp Chip.keepAlive) := rfl
@[simp] theorem exec_shareTrim (amps : Known) (σ : State) :
    exec (.shareTrim amps) σ = σ.finish (σ.m.whenUp Chip.shareTrimTick) := rfl
@[simp] theorem exec_shareImbalance (e : BitVec 12) (σ : State) :
    exec (.shareImbalance e) σ = σ.finish (σ.m.shareImbalance e.toNat) := rfl
@[simp] theorem exec_sourceQualified (σ : State) :
    exec (.sourceQualified) σ = σ.finish (σ.m.sourceQualified) := rfl
@[simp] theorem exec_hoBackstop (σ : State) :
    exec (.hoBackstop) σ = σ.finish (σ.m.hoBackstop) := rfl
@[simp] theorem exec_transfer (ag : Agent) (σ : State) :
    exec (.transfer ag) σ = σ.finish (σ.m.regWrite ag .polCmd 0 1) := rfl
@[simp] theorem exec_hoDone (σ : State) :
    exec (.hoDone) σ = σ.finish (σ.m.hoDone) := rfl
@[simp] theorem exec_retStart (σ : State) :
    exec (.retStart) σ = σ.finish (σ.m.retStart) := rfl
@[simp] theorem exec_retDone (σ : State) :
    exec (.retDone) σ = σ.finish (σ.m.retDone) := rfl
@[simp] theorem exec_capRecompute (v : Known) (σ : State) :
    exec (.capRecompute v) σ = σ.finish (σ.m.whenUp Chip.capRecompute) := rfl
@[simp] theorem exec_capEnter (σ : State) :
    exec (.capEnter) σ = σ.finish (σ.m.capEnter) := rfl
@[simp] theorem exec_capExit (σ : State) :
    exec (.capExit) σ = σ.finish (σ.m.capExit) := rfl
@[simp] theorem exec_branchShed (σ : State) :
    exec (.branchShed) σ = σ.finish (σ.m.branchShed) := rfl
@[simp] theorem exec_shedRestore (σ : State) :
    exec (.shedRestore) σ = σ.finish (σ.m.whenUp Chip.shedRestore) := rfl
@[simp] theorem exec_levelChangeApply (b : Blk) (σ : State) :
    exec (.levelChangeApply b) σ = σ.finish (σ.m.levelApply b) := rfl
@[simp] theorem exec_stageStart (ag : Agent) (x : Fin 2) (σ : State) :
    exec (.stageStart ag x) σ = σ.finish (σ.m.regWrite ag .cnvXCmd x 1) := rfl
@[simp] theorem exec_stageStop (ag : Agent) (x : Fin 2) (σ : State) :
    exec (.stageStop ag x) σ = σ.finish (σ.m.regWrite ag .cnvXCmd x 2) := rfl
@[simp] theorem exec_phaseUnfence (ag : Agent) (x : Fin 2) (k : Fin 8) (σ : State) :
    exec (.phaseUnfence ag x k) σ = σ.finish (σ.m.regWrite ag .cnvXCmd x (wd (3 + k * 256))) := rfl
@[simp] theorem exec_stageUnfence (ag : Agent) (x : Fin 2) (σ : State) :
    exec (.stageUnfence ag x) σ = σ.finish (σ.m.regWrite ag .cnvXCmd x 4) := rfl
@[simp] theorem exec_stageBoundary (x : Fin 2) (cur : List Int) (fast : Known) (paused : Known) (σ : State) :
    exec (.stageBoundary x cur fast paused) σ = σ.finish (σ.m.stageBoundary x cur) := rfl
@[simp] theorem exec_phaseRotation (x : Fin 2) (σ : State) :
    exec (.phaseRotation x) σ = σ.finish (σ.m.phaseRotation x) := rfl
@[simp] theorem exec_softstartCheckpoint (x : Fin 2) (σ : State) :
    exec (.softstartCheckpoint x) σ = σ.finish (σ.m.checkpoint x) := rfl
@[simp] theorem exec_hiccupElapsed (x : Fin 2) (σ : State) :
    exec (.hiccupElapsed x) σ = σ.finish (σ.m.hiccupElapsed x) := rfl
@[simp] theorem exec_stoppingDone (x : Fin 2) (σ : State) :
    exec (.stoppingDone x) σ = σ.finish (σ.m.stoppingDone x) := rfl
@[simp] theorem exec_cnvShort (x : Fin 2) (σ : State) :
    exec (.cnvShort x) σ = σ.finish (σ.m.cnvShort x) := rfl
@[simp] theorem exec_fastLimit (x : Fin 2) (k : Fin 8 × Int) (σ : State) :
    exec (.fastLimit x k) σ = σ.finish (σ.m.fastLimit x k.1 k.2) := rfl
@[simp] theorem exec_phaseSc (x : Fin 2) (k : Fin 8 × Int) (σ : State) :
    exec (.phaseSc x k) σ = σ.finish (σ.m.phaseSc x k.1 k.2) := rfl
@[simp] theorem exec_phaseScResume (x : Fin 2) (k : Fin 8) (σ : State) :
    exec (.phaseScResume x k) σ = σ.finish (σ.m.phaseScResume x k) := rfl
@[simp] theorem exec_cnvOverload (x : Fin 2) (σ : State) :
    exec (.cnvOverload x) σ = σ.finish (σ.m.cnvOverload x) := rfl
@[simp] theorem exec_phaseImbalance (x : Fin 2) (k : Fin 8) (iavg : Known) (σ : State) :
    exec (.phaseImbalance x k iavg) σ = σ.finish (σ.m.phaseImbalance x k) := rfl
@[simp] theorem exec_zeroCrossing (x : Fin 2) (k : Fin 8 × BitVec 12 × BitVec 16) (σ : State) :
    exec (.zeroCrossing x k) σ = σ.finish (σ.m.zeroCrossing x k.1 k.2.1.toNat k.2.2.toNat) := rfl
@[simp] theorem exec_deEntry (x : Fin 2) (k : Fin 8) (σ : State) :
    exec (.deEntry x k) σ = σ.finish (σ.m.deEntry x k) := rfl
@[simp] theorem exec_deExit (x : Fin 2) (k : Fin 8) (σ : State) :
    exec (.deExit x k) σ = σ.finish (σ.m.deExit x k) := rfl
@[simp] theorem exec_batteryRemovalDetect (σ : State) :
    exec (.batteryRemovalDetect) σ = σ.finish (σ.m.batteryRemoval) := rfl
@[simp] theorem exec_syncinEdge (per : Nat) (σ : State) :
    exec (.syncinEdge per) σ = σ.finish (σ.m.whenUp (fun m => m.syncEdge per)) := rfl
@[simp] theorem exec_syncLock (x : Fin 2) (σ : State) :
    exec (.syncLock x) σ = σ.finish (σ.m.syncLock x) := rfl
@[simp] theorem exec_syncLoss (x : Fin 2) (σ : State) :
    exec (.syncLoss x) σ = σ.finish (σ.m.syncLoss x) := rfl
@[simp] theorem exec_cnvVcmd (ag : Agent) (x : Fin 2) (d : Word) (σ : State) :
    exec (.cnvVcmd ag x d) σ = σ.finish (σ.m.regWrite ag .cnvXVcmd x d) := rfl
@[simp] theorem exec_cnvVdoneRead (ag : Agent) (x : Fin 2) (σ : State) :
    exec (.cnvVdoneRead ag x) σ = σ.finish (σ.m.regRd ag .cnvXVdone x) := rfl
@[simp] theorem exec_pertToneChange (t : Fin 8) (σ : State) :
    exec (.pertToneChange t) σ = σ.finish (σ.m.toneChange t) := rfl
@[simp] theorem exec_branchOnCmd (ag : Agent) (n : Fin 24) (σ : State) :
    exec (.branchOnCmd ag n) σ = σ.finish (σ.m.regWrite ag .brnNCmd n 1) := rfl
@[simp] theorem exec_branchOff (ag : Agent) (n : Fin 24) (σ : State) :
    exec (.branchOff ag n) σ = σ.finish (σ.m.regWrite ag .brnNCmd n 2) := rfl
@[simp] theorem exec_branchUnfence (ag : Agent) (n : Fin 24) (σ : State) :
    exec (.branchUnfence ag n) σ = σ.finish (σ.m.regWrite ag .brnNCmd n 3) := rfl
@[simp] theorem exec_eclr (ag : Agent) (n : Fin 24) (σ : State) :
    exec (.eclr ag n) σ = σ.finish (σ.m.regWrite ag .brnNCmd n 4) := rfl
@[simp] theorem exec_branchMeterSample (n : Fin 24) (cur : Int) (v : BitVec 16) (want : Int) (gfb : Bool) (σ : State) :
    exec (.branchMeterSample n cur v want gfb) σ = σ.finish (σ.m.meterRow n cur v.toNat want gfb) := rfl
@[simp] theorem exec_branchAvgWindow (n : Fin 24) (σ : State) :
    exec (.branchAvgWindow n) σ = σ.finish (σ.m.branchAvg n) := rfl
@[simp] theorem exec_brnEloRead (ag : Agent) (n : Fin 24) (σ : State) :
    exec (.brnEloRead ag n) σ = σ.finish (σ.m.regRd ag .brnNElo n) := rfl
@[simp] theorem exec_branchTrip (n : Fin 24 × Int) (σ : State) :
    exec (.branchTrip n) σ = σ.finish (σ.m.brnLocal n.1 (fun m => m.branchTrip n.1 n.2)) := rfl
@[simp] theorem exec_branchOn (n : Fin 24) (σ : State) :
    exec (.branchOn n) σ = σ.finish (σ.m.brnLive (fun m => m.branchOn n)) := rfl
@[simp] theorem exec_branchInrushTimeout (n : Fin 24) (σ : State) :
    exec (.branchInrushTimeout n) σ = σ.finish (σ.m.brnLocal n (fun m => m.branchInrushTimeout n)) := rfl
@[simp] theorem exec_branchInrushShort (n : Fin 24) (σ : State) :
    exec (.branchInrushShort n) σ = σ.finish (σ.m.brnLocal n (fun m => m.branchInrushShort n)) := rfl
@[simp] theorem exec_branchOverload (n : Fin 24) (σ : State) :
    exec (.branchOverload n) σ = σ.finish (σ.m.brnLocal n (fun m => m.branchOverload n)) := rfl
@[simp] theorem exec_gateFail (n : Fin 24) (kind : Fin 3) (σ : State) :
    exec (.gateFail n kind) σ = σ.finish (σ.m.brnLocal n (fun m => m.gateFail n kind)) := rfl
@[simp] theorem exec_branchRetry (n : Fin 24) (σ : State) :
    exec (.branchRetry n) σ = σ.finish (σ.m.brnLive (fun m => m.branchRetry n)) := rfl
@[simp] theorem exec_branchPassShort (n : Fin 24) (σ : State) :
    exec (.branchPassShort n) σ = σ.finish (σ.m.whenUp (fun m => m.brnLocal n (fun m => m.branchPassShort n))) := rfl
@[simp] theorem exec_branchAutoonStagger (σ : State) :
    exec (.branchAutoonStagger) σ = σ.finish (σ.m.brnAutoNext) := rfl
@[simp] theorem exec_connect (ag : Agent) (n : Fin 4) (σ : State) :
    exec (.connect ag n) σ = σ.finish (σ.m.batCommand ag 1 n) := rfl
@[simp] theorem exec_connectf (ag : Agent) (n : Fin 4) (σ : State) :
    exec (.connectf ag n) σ = σ.finish (σ.m.batCommand ag 2 n) := rfl
@[simp] theorem exec_disconnect (ag : Agent) (n : Fin 4) (σ : State) :
    exec (.disconnect ag n) σ = σ.finish (σ.m.batCommand ag 3 n) := rfl
@[simp] theorem exec_suspend (ag : Agent) (σ : State) :
    exec (.suspend ag) σ = σ.finish (σ.m.batCommand ag 4 0) := rfl
@[simp] theorem exec_chgResume (ag : Agent) (σ : State) :
    exec (.chgResume ag) σ = σ.finish (σ.m.batCommand ag 5 0) := rfl
@[simp] theorem exec_chgRestart (ag : Agent) (σ : State) :
    exec (.chgRestart ag) σ = σ.finish (σ.m.batCommand ag 6 0) := rfl
@[simp] theorem exec_batInserted (n : Fin 4) (σ : State) :
    exec (.batInserted n) σ = σ.finish (σ.m.strInserted n) := rfl
@[simp] theorem exec_stringIdentityRead (n : Fin 4) (good : Known) (w : Known) (σ : State) :
    exec (.stringIdentityRead n good w) σ = σ.finish (σ.m.strIdentity n) := rfl
@[simp] theorem exec_stringMatched (n : Fin 4) (σ : State) :
    exec (.stringMatched n) σ = σ.finish (σ.m.strMatched n) := rfl
@[simp] theorem exec_strMatchTimeout (n : Fin 4) (σ : State) :
    exec (.strMatchTimeout n) σ = σ.finish (σ.m.strMatchTimeout n) := rfl
@[simp] theorem exec_strSwitchFail (n : Fin 4 × Bool) (σ : State) :
    exec (.strSwitchFail n) σ = σ.finish (σ.m.strSwitchFail n.1 n.2) := rfl
@[simp] theorem exec_strSwitchWeld (n : Fin 4) (σ : State) :
    exec (.strSwitchWeld n) σ = σ.finish (σ.m.strSwitchWeld n) := rfl
@[simp] theorem exec_stringUnstuck (n : Fin 4) (σ : State) :
    exec (.stringUnstuck n) σ = σ.finish (σ.m.strUnstuck n) := rfl
@[simp] theorem exec_stringAbsent (n : Fin 4) (σ : State) :
    exec (.stringAbsent n) σ = σ.finish (σ.m.strAbsent n) := rfl
@[simp] theorem exec_batRemoved (mask : Known) (σ : State) :
    exec (.batRemoved mask) σ = σ.finish (σ.m.batRemoved) := rfl
@[simp] theorem exec_strUndervolt (n : Fin 4) (σ : State) :
    exec (.strUndervolt n) σ = σ.finish (σ.m.strUndervolt n) := rfl
@[simp] theorem exec_strOvercurrent (n : Fin 4) (σ : State) :
    exec (.strOvercurrent n) σ = σ.finish (σ.m.strOvercurrent n) := rfl
@[simp] theorem exec_chargeRecompute (σ : State) :
    exec (.chargeRecompute) σ = σ.finish (σ.m.whenUp Chip.chargeRecompute) := rfl
@[simp] theorem exec_chgEntryRestEnd (v : Known) (σ : State) :
    exec (.chgEntryRestEnd v) σ = σ.finish (σ.m.entryRestEnd) := rfl
@[simp] theorem exec_chgTrickleDone (σ : State) :
    exec (.chgTrickleDone) σ = σ.finish (σ.m.trickleDone) := rfl
@[simp] theorem exec_chgPrechgDone (σ : State) :
    exec (.chgPrechgDone) σ = σ.finish (σ.m.prechgDone) := rfl
@[simp] theorem exec_chgNoaccept (σ : State) :
    exec (.chgNoaccept) σ = σ.finish (σ.m.chgNoaccept) := rfl
@[simp] theorem exec_chgOnIntervalEnd (σ : State) :
    exec (.chgOnIntervalEnd) σ = σ.finish (σ.m.onIntervalEnd) := rfl
@[simp] theorem exec_chgRestEnd (v : Known) (steady : Known) (σ : State) :
    exec (.chgRestEnd v steady) σ = σ.finish (σ.m.restEnd) := rfl
@[simp] theorem exec_chgTermination (σ : State) :
    exec (.chgTermination) σ = σ.finish (σ.m.chgTerminate) := rfl
@[simp] theorem exec_chgTimeout (σ : State) :
    exec (.chgTimeout) σ = σ.finish (σ.m.chgTimeout) := rfl
@[simp] theorem exec_chgRecharge (σ : State) :
    exec (.chgRecharge) σ = σ.finish (σ.m.chgRecharge) := rfl
@[simp] theorem exec_chgOvervolt (σ : State) :
    exec (.chgOvervolt) σ = σ.finish (σ.m.chgOvervolt) := rfl
@[simp] theorem exec_wakeButton (σ : State) :
    exec (.wakeButton) σ = σ.finish (σ.m.wakeButton) := rfl
@[simp] theorem exec_wakeSource (present : Bool) (σ : State) :
    exec (.wakeSource present) σ = σ.finish (σ.m.wakeSource present) := rfl
@[simp] theorem exec_estUpdate (σ : State) :
    exec (.estUpdate) σ = σ.finish (σ.m.estUpdate) := rfl
@[simp] theorem exec_estWindowEnd (n : Fin 4) (t : Fin 8) (isum : Known) (icos : Known) (vsum : Known) (vcos : Known) (samples : Known) (clean : Known) (σ : State) :
    exec (.estWindowEnd n t isum icos vsum vcos samples clean) σ = σ.finish (σ.m.windowEnd n t) := rfl
@[simp] theorem exec_estStep (n : Fin 4) (di : Known) (dv : Known) (σ : State) :
    exec (.estStep n di dv) σ = σ.finish (σ.m.estStep n) := rfl
@[simp] theorem exec_estStepTstep (n : Fin 4) (dv : Known) (t63 : Known) (σ : State) :
    exec (.estStepTstep n dv t63) σ = σ.finish (σ.m.estTstep n) := rfl
@[simp] theorem exec_estModuleRead (n : Fin 4) (count : Known) (σ : State) :
    exec (.estModuleRead n count) σ = σ.finish (σ.m.moduleRead n) := rfl
@[simp] theorem exec_estStorePeriodic (σ : State) :
    exec (.estStorePeriodic) σ = σ.finish (σ.m.whenUp Chip.storePeriodic) := rfl
@[simp] theorem exec_estStored (σ : State) :
    exec (.estStored) σ = σ.finish (σ.m.storeDone) := rfl
@[simp] theorem exec_estStoreRetry (σ : State) :
    exec (.estStoreRetry) σ = σ.finish (σ.m.storeRetry) := rfl
@[simp] theorem exec_estStore (ag : Agent) (σ : State) :
    exec (.estStore ag) σ = σ.finish (σ.m.regWrite ag .estCmd 0 1) := rfl
@[simp] theorem exec_relearn (ag : Agent) (n : Fin 4) (σ : State) :
    exec (.relearn ag n) σ = σ.finish (σ.m.regWrite ag .estCmd 0 (wd (2 + n * 256))) := rfl
@[simp] theorem exec_forget (ag : Agent) (k : Fin 16) (σ : State) :
    exec (.forget ag k) σ = σ.finish (σ.m.regWrite ag .estCmd 0 (wd (3 + k * 256))) := rfl
@[simp] theorem exec_partnerTableWrite (ag : Agent) (e : BitVec 12) (w : Fin 8) (d : Word) (σ : State) :
    exec (.partnerTableWrite ag e w d) σ = σ.finish (σ.m.portWrite ag (0x400000 + 32 * e.toNat + 4 * w) d) := rfl
@[simp] theorem exec_transactionStart (p : Fin 20) (sel : Fin 6) (σ : State) :
    exec (.transactionStart p sel) σ = σ.finish (σ.m.pathStart p sel) := rfl
@[simp] theorem exec_transactionTimeout (e : BitVec 12) (σ : State) :
    exec (.transactionTimeout e) σ = σ.finish (σ.m.txnTimeout e.toNat) := rfl
@[simp] theorem exec_qmaxExpiry (e : BitVec 12) (σ : State) :
    exec (.qmaxExpiry e) σ = σ.finish (σ.m.qmaxExpiry e.toNat) := rfl
@[simp] theorem exec_telemetryPoll (e : BitVec 12) (σ : State) :
    exec (.telemetryPoll e) σ = σ.finish (σ.m.pollDue e.toNat) := rfl
@[simp] theorem exec_generationHoldEnd (shelf : Bool) (σ : State) :
    exec (.generationHoldEnd shelf) σ = σ.finish (σ.m.holdEnd shelf) := rfl
@[simp] theorem exec_ptnCreditStall (e : BitVec 12) (cls : Fin 4) (σ : State) :
    exec (.ptnCreditStall e cls) σ = σ.finish (σ.m.creditStall e.toNat cls) := rfl
@[simp] theorem exec_ptnTelRdWrite (ag : Agent) (d : Word) (σ : State) :
    exec (.ptnTelRdWrite ag d) σ = σ.finish (σ.m.regWrite ag .ptnTelRd 0 d) := rfl
@[simp] theorem exec_partnerUnfence (ag : Agent) (e : BitVec 12) (σ : State) :
    exec (.partnerUnfence ag e) σ = σ.finish (σ.m.regWrite ag .ptnCmd 0 (wd (1 + e.toNat * 16))) := rfl
@[simp] theorem exec_discover (ag : Agent) (d : Word) (σ : State) :
    exec (.discover ag d) σ = σ.finish (σ.m.regWrite ag .ptnCmd 0 (setBits d 3 0 2)) := rfl
@[simp] theorem exec_ptnDiscovered (found : Known) (σ : State) :
    exec (.ptnDiscovered found) σ = σ.finish (σ.m.discovered) := rfl
@[simp] theorem exec_discClear (ag : Agent) (σ : State) :
    exec (.discClear ag) σ = σ.finish (σ.m.regWrite ag .ptnCmd 0 3) := rfl
@[simp] theorem exec_twTransferEnd (n : Fin 16) (out : Fin 3) (bytes : List Byte) (σ : State) :
    exec (.twTransferEnd n out bytes) σ = σ.finish (σ.m.twEnd n out (bytes.map BitVec.toNat)) := rfl
@[simp] theorem exec_twStretchTimeout (n : Fin 16) (σ : State) :
    exec (.twStretchTimeout n) σ = σ.finish (σ.m.twStretch n) := rfl
@[simp] theorem exec_twArbLost (n : Fin 16) (σ : State) :
    exec (.twArbLost n) σ = σ.finish (σ.m.twArb n) := rfl
@[simp] theorem exec_twProtoError (n : Fin 16) (σ : State) :
    exec (.twProtoError n) σ = σ.finish (σ.m.twProto n) := rfl
@[simp] theorem exec_twHailDetect (n : Fin 16) (σ : State) :
    exec (.twHailDetect n) σ = σ.finish (σ.m.hailDetect n) := rfl
@[simp] theorem exec_twHail (n : Fin 16) (ack : Bool) (a : BitVec 7) (b0 : Fin 2) (σ : State) :
    exec (.twHail n ack a b0) σ = σ.finish (σ.m.araEnd n ack a.toNat b0) := rfl
@[simp] theorem exec_busStuckDetect (n : Fin 16) (σ : State) :
    exec (.busStuckDetect n) σ = σ.finish (σ.m.stuckDetect n) := rfl
@[simp] theorem exec_busRecoveryEnd (n : Fin 16) (lines : Fin 3) (σ : State) :
    exec (.busRecoveryEnd n lines) σ = σ.finish (σ.m.recoveryEnd n lines) := rfl
@[simp] theorem exec_busStuckScl (n : Fin 16) (σ : State) :
    exec (.busStuckScl n) σ = σ.finish (σ.m.stuckScl n) := rfl
@[simp] theorem exec_busRecover (ag : Agent) (n : Fin 16) (σ : State) :
    exec (.busRecover ag n) σ = σ.finish (σ.m.regWrite ag .twbNCmd n 1) := rfl
@[simp] theorem exec_busUnfence (ag : Agent) (n : Fin 16) (σ : State) :
    exec (.busUnfence ag n) σ = σ.finish (σ.m.regWrite ag .twbNCmd n 2) := rfl
@[simp] theorem exec_twTargetWrite (code : Byte) (extra : Nat) (σ : State) :
    exec (.twTargetWrite code extra) σ = σ.finish (σ.m.tgtWrite code.toNat extra) := rfl
@[simp] theorem exec_twTargetRead (code : Option Byte) (count : Nat) (σ : State) :
    exec (.twTargetRead code count) σ = σ.finish (σ.m.tgtRead (code.map BitVec.toNat) count) := rfl
@[simp] theorem exec_mirrorUpdate (vbus : Nat) (iload : Int) (σ : State) :
    exec (.mirrorUpdate vbus iload) σ = σ.finish (σ.m.whenUp (fun m => m.mirrorUpdate vbus iload)) := rfl
@[simp] theorem exec_hostWrite (crcOk : Bool) (addr : BitVec 24) (d : Word) (σ : State) :
    exec (.hostWrite crcOk addr d) σ = σ.finish (σ.m.hostWrite crcOk addr.toNat d) := rfl
@[simp] theorem exec_hostRead (crcOk : Bool) (addr : BitVec 24) (σ : State) :
    exec (.hostRead crcOk addr) σ = σ.finish (σ.m.hostRead crcOk addr.toNat) := rfl
@[simp] theorem exec_hostSummary (crcOk : Bool) (σ : State) :
    exec (.hostSummary crcOk) σ = σ.finish (σ.m.hostSummary crcOk) := rfl
@[simp] theorem exec_hostReread (crcOk : Bool) (σ : State) :
    exec (.hostReread crcOk) σ = σ.finish (σ.m.hostReread crcOk) := rfl
@[simp] theorem exec_widthReset (σ : State) :
    exec (.widthReset) σ = σ.finish (σ.m.widthReset) := rfl
@[simp] theorem exec_hostFrameAbort (a : HostAbort) (σ : State) :
    exec (.hostFrameAbort a) σ = σ.finish (σ.m.hostAbort a) := rfl
@[simp] theorem exec_authMaskWrite (ag : Agent) (o : Fin 3) (d : Word) (σ : State) :
    exec (.authMaskWrite ag o d) σ = σ.finish (σ.m.authWrite ag o d) := rfl
@[simp] theorem exec_mbxTxWrite (ag : Agent) (c : Fin 64) (d : Word) (σ : State) :
    exec (.mbxTxWrite ag c d) σ = σ.finish (σ.m.regWrite ag .hstMbxTx c d) := rfl
@[simp] theorem exec_mbxRxRead (ag : Agent) (c : Fin 64) (σ : State) :
    exec (.mbxRxRead ag c) σ = σ.finish (σ.m.regRd ag .hstMbxRx c) := rfl
@[simp] theorem exec_echo (c : Fin 64) (σ : State) :
    exec (.echo c) σ = σ.finish (σ.m.echo c) := rfl
@[simp] theorem exec_version (c : Fin 64) (σ : State) :
    exec (.version c) σ = σ.finish (σ.m.version c) := rfl
@[simp] theorem exec_fwSnapshot (c : Fin 64) (σ : State) :
    exec (.fwSnapshot c) σ = σ.finish (σ.m.fwSnapshot c) := rfl
@[simp] theorem exec_fwRequestTimeout (c : Fin 64) (σ : State) :
    exec (.fwRequestTimeout c) σ = σ.finish (σ.m.requestTimeout c) := rfl
@[simp] theorem exec_resp (n : Fin 4) (src : Byte) (tag : BitVec 16) (st : Byte) (credit : BitVec 16) (bytes : List Byte) (σ : State) :
    exec (.resp n src tag st credit bytes) σ = σ.finish (σ.m.linkResp n src.toNat tag.toNat st.toNat credit.toNat (bytes.map BitVec.toNat)) := rfl
@[simp] theorem exec_stream (n : Fin 4) (src : Byte) (credit : BitVec 16) (readings : List (BitVec 16 × Word)) (σ : State) :
    exec (.stream n src credit readings) σ = σ.finish (σ.m.linkStream n src.toNat credit.toNat (readings.map (fun r => (r.1.toNat, r.2.toNat)))) := rfl
@[simp] theorem exec_credit (n : Fin 4) (src : Byte) (credit : BitVec 16) (σ : State) :
    exec (.credit n src credit) σ = σ.finish (σ.m.linkCredit n src.toNat credit.toNat) := rfl
@[simp] theorem exec_idresp (n : Fin 4) (src : Byte) (credit : BitVec 16) (σ : State) :
    exec (.idresp n src credit) σ = σ.finish (σ.m.linkIdResp n src.toNat credit.toNat) := rfl
@[simp] theorem exec_linkFrameDiscard (n : Fin 4) (kind : Fin 3) (σ : State) :
    exec (.linkFrameDiscard n kind) σ = σ.finish (σ.m.linkDiscard n kind) := rfl
@[simp] theorem exec_plcaTxOpportunity (n : Fin 4) (σ : State) :
    exec (.plcaTxOpportunity n) σ = σ.finish (σ.m.plcaTx n) := rfl
@[simp] theorem exec_linkFault (n : Fin 4) (cause : Fin 4) (σ : State) :
    exec (.linkFault n cause) σ = σ.finish (σ.m.linkFault n cause) := rfl
@[simp] theorem exec_segmentUnfence (ag : Agent) (n : Fin 4) (σ : State) :
    exec (.segmentUnfence ag n) σ = σ.finish (σ.m.regWrite ag .slkNCmd n 1) := rfl
@[simp] theorem exec_neighbourRead (n : Fin 4) (src : Byte) (tag : BitVec 16) (want : Byte) (σ : State) :
    exec (.neighbourRead n src tag want) σ = σ.finish (σ.m.nbRead n src.toNat tag.toNat want.toNat) := rfl
@[simp] theorem exec_neighbourSetp (n : Fin 4) (src : Byte) (tag : BitVec 16) (gen : BitVec 32) (value : Word) (tent : Bool) (σ : State) :
    exec (.neighbourSetp n src tag gen value tent) σ = σ.finish (σ.m.nbSetp n src.toNat tag.toNat gen.toNat value.toNat tent) := rfl
@[simp] theorem exec_neighbourRetract (n : Fin 4) (src : Byte) (tag : BitVec 16) (gen : BitVec 32) (value : Word) (genf : BitVec 32) (σ : State) :
    exec (.neighbourRetract n src tag gen value genf) σ = σ.finish (σ.m.nbRetract n src.toNat tag.toNat gen.toNat value.toNat genf.toNat) := rfl
@[simp] theorem exec_neighbourFinal (n : Fin 4) (src : Byte) (tag : BitVec 16) (gen : BitVec 32) (σ : State) :
    exec (.neighbourFinal n src tag gen) σ = σ.finish (σ.m.nbFinal n src.toNat tag.toNat gen.toNat) := rfl
@[simp] theorem exec_neighbourOther (n : Fin 4) (src : Byte) (tag : BitVec 16) (item : BitVec 16) (cls : Fin 4) (σ : State) :
    exec (.neighbourOther n src tag item cls) σ = σ.finish (σ.m.nbOther n src.toNat tag.toNat item.toNat cls) := rfl
@[simp] theorem exec_offerHoldExpiry (σ : State) :
    exec (.offerHoldExpiry) σ = σ.finish (σ.m.offerExpiry) := rfl
@[simp] theorem exec_thmReading (k : Fin 22) (t : Int) (bad : Bool) (σ : State) :
    exec (.thmReading k t bad) σ = σ.finish (σ.m.thmSample k t bad) := rfl
@[simp] theorem exec_faultEventDelivery (σ : State) :
    exec (.faultEventDelivery) σ = σ.finish (σ.m.faultDeliver) := rfl
@[simp] theorem exec_fltFlagRead (ag : Agent) (src : Fin 192) (σ : State) :
    exec (.fltFlagRead ag src) σ = σ.finish (σ.m.regRd ag .fltFlag src) := rfl
@[simp] theorem exec_fltSrcWrite (ag : Agent) (src : Fin 192) (d : Word) (σ : State) :
    exec (.fltSrcWrite ag src d) σ = σ.finish (σ.m.regWrite ag .fltSrc src d) := rfl
@[simp] theorem exec_fltSwraise (ag : Agent) (code : Byte) (σ : State) :
    exec (.fltSwraise ag code) σ = σ.finish (σ.m.regWrite ag .fltSwraise 0 (wd code.toNat)) := rfl
@[simp] theorem exec_evtSwset (ag : Agent) (n : Fin 16) (σ : State) :
    exec (.evtSwset ag n) σ = σ.finish (σ.m.regWrite ag .evtSwset 0 (wd n)) := rfl
@[simp] theorem exec_evtAck (ag : Agent) (d : Fin 8) (w : Fin 8) (mask : Word) (σ : State) :
    exec (.evtAck ag d w mask) σ = σ.finish (σ.m.regWrite ag .evtPend (8 * d + w) mask) := rfl
@[simp] theorem exec_evtRouteWrite (ag : Agent) (src : Fin 256) (d : Word) (σ : State) :
    exec (.evtRouteWrite ag src d) σ = σ.finish (σ.m.regWrite ag .evtRoute src d) := rfl
@[simp] theorem exec_secTamper (k : Fin 4) (σ : State) :
    exec (.secTamper k) σ = σ.finish (σ.m.tamper k) := rfl
@[simp] theorem exec_secGlitch (σ : State) :
    exec (.secGlitch) σ = σ.finish (σ.m.whenAlive (fun m => m.secCondition 4 true)) := rfl
@[simp] theorem exec_secClock (σ : State) :
    exec (.secClock) σ = σ.finish (σ.m.whenAlive (fun m => m.secCondition 5 true)) := rfl
@[simp] theorem exec_secAlarmCfgWrite (ag : Agent) (d : Word) (σ : State) :
    exec (.secAlarmCfgWrite ag d) σ = σ.finish (σ.m.regWrite ag .secAlarmCfg 0 d) := rfl
@[simp] theorem exec_secAlarmFlgRead (ag : Agent) (σ : State) :
    exec (.secAlarmFlgRead ag) σ = σ.finish (σ.m.regRd ag .secAlarmFlg 0) := rfl
@[simp] theorem exec_keyBegin (ag : Agent) (slot : Fin 4) (σ : State) :
    exec (.keyBegin ag slot) σ = σ.finish (σ.m.regWrite ag .secKeyCtl 0 (wd (slot + 256))) := rfl
@[simp] theorem exec_keyData (ag : Agent) (d : Word) (σ : State) :
    exec (.keyData ag d) σ = σ.finish (σ.m.regWrite ag .secKeyData 0 d) := rfl
@[simp] theorem exec_keyCommit (ag : Agent) (slot : Fin 4) (σ : State) :
    exec (.keyCommit ag slot) σ = σ.finish (σ.m.regWrite ag .secKeyCtl 0 (wd (slot + 512))) := rfl
@[simp] theorem exec_keyCancel (ag : Agent) (slot : Fin 4) (σ : State) :
    exec (.keyCancel ag slot) σ = σ.finish (σ.m.regWrite ag .secKeyCtl 0 (wd (slot + 768))) := rfl
@[simp] theorem exec_peerHelloSend (σ : State) :
    exec (.peerHelloSend) σ = σ.finish (σ.m.whenAlive Chip.sendHello) := rfl
@[simp] theorem exec_hello (good : Bool) (h : Hello) (σ : State) :
    exec (.hello good h) σ = σ.finish (σ.m.peerFrame good (fun m => m.helloRx h)) := rfl
@[simp] theorem exec_journal (good : Bool) (seq : BitVec 16) (items : List JItem) (σ : State) :
    exec (.journal good seq items) σ = σ.finish (σ.m.peerFrame good (fun m => m.journalRx seq.toNat items)) := rfl
@[simp] theorem exec_snapshot (good : Bool) (seq : BitVec 16) (items : List JItem) (σ : State) :
    exec (.snapshot good seq items) σ = σ.finish (σ.m.peerFrame good (fun m => m.snapshotRx seq.toNat items)) := rfl
@[simp] theorem exec_spliceNote (good : Bool) (seq : BitVec 16) (cause : Byte) (σ : State) :
    exec (.spliceNote good seq cause) σ = σ.finish (σ.m.peerFrame good (fun m => m.noteRx seq.toNat cause.toNat)) := rfl
@[simp] theorem exec_takebackReq (good : Bool) (seq : BitVec 16) (σ : State) :
    exec (.takebackReq good seq) σ = σ.finish (σ.m.peerFrame good (fun m => m.takebackRx seq.toNat)) := rfl
@[simp] theorem exec_takebackAck (good : Bool) (seq : BitVec 16) (σ : State) :
    exec (.takebackAck good seq) σ = σ.finish (σ.m.peerFrame good (fun m => m.takebackAckRx seq.toNat)) := rfl
@[simp] theorem exec_takebackNak (good : Bool) (seq : BitVec 16) (σ : State) :
    exec (.takebackNak good seq) σ = σ.finish (σ.m.peerFrame good (fun m => m.takebackNakRx seq.toNat)) := rfl
@[simp] theorem exec_pwmmark (good : Bool) (x : Fin 2) (ticks : BitVec 32) (σ : State) :
    exec (.pwmmark good x ticks) σ = σ.finish (σ.m.peerFrame good (fun m => m.pwmMark x ticks.toNat)) := rfl
@[simp] theorem exec_peerLink (σ : State) :
    exec (.peerLink) σ = σ.finish (σ.m.whenAlive Chip.linkSilent) := rfl
@[simp] theorem exec_intlkInFall (σ : State) :
    exec (.intlkInFall) σ = σ.finish (σ.m.intlkInFall) := rfl
@[simp] theorem exec_intlkInRise (σ : State) :
    exec (.intlkInRise) σ = σ.finish (σ.m.intlkInRise) := rfl
@[simp] theorem exec_peerIntlk (σ : State) :
    exec (.peerIntlk) σ = σ.finish (σ.m.peerIntlk) := rfl
@[simp] theorem exec_intlkConflict (twinRole : Bool) (higher : Bool) (σ : State) :
    exec (.intlkConflict twinRole higher) σ = σ.finish (σ.m.intlkConflict twinRole higher) := rfl
@[simp] theorem exec_soloTake (σ : State) :
    exec (.soloTake) σ = σ.finish (σ.m.soloTake) := rfl
@[simp] theorem exec_takebackTimer (σ : State) :
    exec (.takebackTimer) σ = σ.finish (σ.m.takebackTimer) := rfl
@[simp] theorem exec_peerDiverge (s : Fin 64) (σ : State) :
    exec (.peerDiverge s) σ = σ.finish (σ.m.peerDiverge s) := rfl
@[simp] theorem exec_splSplice (ag : Agent) (σ : State) :
    exec (.splSplice ag) σ = σ.finish (σ.m.regWrite ag .splCmd 0 1) := rfl
@[simp] theorem exec_resync (ag : Agent) (σ : State) :
    exec (.resync ag) σ = σ.finish (σ.m.regWrite ag .splCmd 0 2) := rfl
@[simp] theorem exec_splTakeback (ag : Agent) (σ : State) :
    exec (.splTakeback ag) σ = σ.finish (σ.m.regWrite ag .splCmd 0 3) := rfl
@[simp] theorem exec_recordWriteStart (σ : State) :
    exec (.recordWriteStart) σ = σ.finish (σ.m.recordStart) := rfl
@[simp] theorem exec_recordCommit (good : Bool) (σ : State) :
    exec (.recordCommit good) σ = σ.finish (σ.m.recordCommit good) := rfl
@[simp] theorem exec_rcdSeqchkRead (ag : Agent) (σ : State) :
    exec (.rcdSeqchkRead ag) σ = σ.finish (σ.m.regRd ag .rcdSeqchk 0) := rfl
@[simp] theorem exec_rcdClear (ag : Agent) (cap : Bool) (σ : State) :
    exec (.rcdClear ag cap) σ = σ.finish (σ.m.regWrite ag .rcdCmd 0 (wd (1 + b2n cap * 256))) := rfl
@[simp] theorem exec_rcdClearDone (σ : State) :
    exec (.rcdClearDone) σ = σ.finish (σ.m.clearDone) := rfl
@[simp] theorem exec_rcdTrig (ag : Agent) (u : Fin 8) (σ : State) :
    exec (.rcdTrig ag u) σ = σ.finish (σ.m.regWrite ag .rcdCmd 0 (wd (2 + u * 16))) := rfl
@[simp] theorem exec_rcdExport (ag : Agent) (σ : State) :
    exec (.rcdExport ag) σ = σ.finish (σ.m.regWrite ag .rcdCmd 0 3) := rfl
@[simp] theorem exec_captureEnable (ag : Agent) (u : Fin 8) (d : Word) (σ : State) :
    exec (.captureEnable ag u d) σ = σ.finish (σ.m.regWrite ag .rcdCapCfg u d) := rfl
@[simp] theorem exec_captureTrigger (σ : State) :
    exec (.captureTrigger) σ = σ.finish (σ.m.capTriggers) := rfl
@[simp] theorem exec_capturePostFull (u : Fin 8) (σ : State) :
    exec (.capturePostFull u) σ = σ.finish (σ.m.captureFull u) := rfl
@[simp] theorem exec_rcdCapture (u : Fin 8) (σ : State) :
    exec (.rcdCapture u) σ = σ.finish (σ.m.capCommit u) := rfl
@[simp] theorem exec_rcdCapDataRead (ag : Agent) (σ : State) :
    exec (.rcdCapDataRead ag) σ = σ.finish (σ.m.regRd ag .rcdCapData 0) := rfl
@[simp] theorem exec_sysUsecloRead (ag : Agent) (σ : State) :
    exec (.sysUsecloRead ag) σ = σ.finish (σ.m.regRd ag .sysUseclo 0) := rfl
@[simp] theorem exec_svcMalformedFrame (tagFails : Bool) (σ : State) :
    exec (.svcMalformedFrame tagFails) σ = σ.finish (σ.m.svcMalformed tagFails) := rfl
@[simp] theorem exec_ident (seq : BitVec 16) (tag : Option (List Byte)) (σ : State) :
    exec (.ident seq tag) σ = σ.finish (σ.m.svcIdent seq.toNat (tagOf tag)) := rfl
@[simp] theorem exec_openSession (seq : BitVec 16) (tag : Option (List Byte)) (mode : Byte) (nh : List Byte) (σ : State) :
    exec (.openSession seq tag mode nh) σ = σ.finish (σ.m.svcOpen seq.toNat (tagOf tag) mode.toNat (nh.map BitVec.toNat)) := rfl
@[simp] theorem exec_auth (seq : BitVec 16) (tag : Option (List Byte)) (proof : List Byte) (σ : State) :
    exec (.auth seq tag proof) σ = σ.finish (σ.m.svcAuth seq.toNat (tagOf tag) (proof.map BitVec.toNat)) := rfl
@[simp] theorem exec_closeSession (seq : BitVec 16) (tag : Option (List Byte)) (σ : State) :
    exec (.closeSession seq tag) σ = σ.finish (σ.m.svcClose seq.toNat (tagOf tag)) := rfl
@[simp] theorem exec_baud (seq : BitVec 16) (tag : Option (List Byte)) (index : Byte) (σ : State) :
    exec (.baud seq tag index) σ = σ.finish (σ.m.svcBaud seq.toNat (tagOf tag) index.toNat) := rfl
@[simp] theorem exec_baudFallback (σ : State) :
    exec (.baudFallback) σ = σ.finish (σ.m.baudFallback) := rfl
@[simp] theorem exec_svcRead (seq : BitVec 16) (tag : Option (List Byte)) (addr : BitVec 32) (σ : State) :
    exec (.svcRead seq tag addr) σ = σ.finish (σ.m.svcRead seq.toNat (tagOf tag) addr.toNat) := rfl
@[simp] theorem exec_svcWrite (seq : BitVec 16) (tag : Option (List Byte)) (addr : BitVec 32) (d : Word) (σ : State) :
    exec (.svcWrite seq tag addr d) σ = σ.finish (σ.m.svcWrite seq.toNat (tagOf tag) addr.toNat d) := rfl
@[simp] theorem exec_imgBegin (seq : BitVec 16) (tag : Option (List Byte)) (σ : State) :
    exec (.imgBegin seq tag) σ = σ.finish (σ.m.svcImgBegin seq.toNat (tagOf tag)) := rfl
@[simp] theorem exec_imgData (seq : BitVec 16) (tag : Option (List Byte)) (off : BitVec 32) (bytes : List Byte) (σ : State) :
    exec (.imgData seq tag off bytes) σ = σ.finish (σ.m.svcImgData seq.toNat (tagOf tag) off.toNat (bytes.map BitVec.toNat)) := rfl
@[simp] theorem exec_imgFinish (seq : BitVec 16) (tag : Option (List Byte)) (σ : State) :
    exec (.imgFinish seq tag) σ = σ.finish (σ.m.svcImgFinish seq.toNat (tagOf tag)) := rfl
@[simp] theorem exec_imgCancel (seq : BitVec 16) (tag : Option (List Byte)) (σ : State) :
    exec (.imgCancel seq tag) σ = σ.finish (σ.m.svcImgCancel seq.toNat (tagOf tag)) := rfl
@[simp] theorem exec_svcPresence (present : Bool) (σ : State) :
    exec (.svcPresence present) σ = σ.finish (σ.m.svcPresence present) := rfl
@[simp] theorem exec_svcIdleTimeout (σ : State) :
    exec (.svcIdleTimeout) σ = σ.finish (σ.m.svcIdle) := rfl
@[simp] theorem exec_updConfirm (ag : Agent) (σ : State) :
    exec (.updConfirm ag) σ = σ.finish (σ.m.regWrite ag .updCmd 0 1) := rfl
@[simp] theorem exec_unstage (ag : Agent) (σ : State) :
    exec (.unstage ag) σ = σ.finish (σ.m.regWrite ag .updCmd 0 2) := rfl
@[simp] theorem exec_updSelftestPass (σ : State) :
    exec (.updSelftestPass) σ = σ.finish (σ.m.selftestPass) := rfl
@[simp] theorem exec_updSelftestFail (σ : State) :
    exec (.updSelftestFail) σ = σ.finish (σ.m.selftestFail) := rfl
@[simp] theorem exec_updWatchdogExpiry (σ : State) :
    exec (.updWatchdogExpiry) σ = σ.finish (σ.m.updWatchdog) := rfl
@[simp] theorem exec_sysLockWrite (ag : Agent) (d : Word) (σ : State) :
    exec (.sysLockWrite ag d) σ = σ.finish (σ.m.regWrite ag .sysLock 0 d) := rfl
@[simp] theorem exec_paramBegin (ag : Agent) (σ : State) :
    exec (.paramBegin ag) σ = σ.finish (σ.m.regWrite ag .sysParamCtl 0 1) := rfl
@[simp] theorem exec_paramData (ag : Agent) (d : Word) (σ : State) :
    exec (.paramData ag d) σ = σ.finish (σ.m.regWrite ag .sysParamData 0 d) := rfl
@[simp] theorem exec_paramCommit (ag : Agent) (σ : State) :
    exec (.paramCommit ag) σ = σ.finish (σ.m.regWrite ag .sysParamCtl 0 2) := rfl
@[simp] theorem exec_paramCancel (ag : Agent) (σ : State) :
    exec (.paramCancel ag) σ = σ.finish (σ.m.regWrite ag .sysParamCtl 0 3) := rfl
@[simp] theorem exec_paramErase (ag : Agent) (σ : State) :
    exec (.paramErase ag) σ = σ.finish (σ.m.regWrite ag .sysParamCtl 0 4) := rfl
@[simp] theorem exec_stageRetryCountReset (x : Fin 2) (σ : State) :
    exec (.stageRetryCountReset x) σ = σ.finish (σ.m.stageRetryReset x) := rfl
@[simp] theorem exec_branchRetryCountReset (n : Fin 24) (σ : State) :
    exec (.branchRetryCountReset n) σ = σ.finish (σ.m.brnLive (fun m => m.branchRetryReset n)) := rfl
@[simp] theorem exec_rcFieldRead (ag : Agent) (addr : BitVec 24) (σ : State) :
    exec (.rcFieldRead ag addr) σ = σ.finish (σ.m.portRead ag addr.toNat) := rfl
@[simp] theorem exec_undefinedEncoding (k : Fin 256) (σ : State) :
    exec (.undefinedEncoding k) σ = σ.finish (σ.m.undefinedWord k) := rfl
@[simp] theorem exec_unknownOpcode (σ : State) :
    exec (.unknownOpcode) σ = σ.finish (σ.m.unknownOpcode) := rfl
@[simp] theorem exec_unknownServiceCode (c : Fin 64) (σ : State) :
    exec (.unknownServiceCode c) σ = σ.finish (σ.m.unknownService c) := rfl
@[simp] theorem exec_araRead (n : Fin 16) (σ : State) :
    exec (.araRead n) σ = σ.finish (σ.m.araStart n) := rfl
@[simp] theorem exec_hailLong (n : Fin 16) (σ : State) :
    exec (.hailLong n) σ = σ.finish (σ.m.hailLong n) := rfl
@[simp] theorem exec_spliceFlushTimeout (σ : State) :
    exec (.spliceFlushTimeout) σ = σ.finish (σ.m.flushTimeout) := rfl
@[simp] theorem exec_rcdExportDone (σ : State) :
    exec (.rcdExportDone) σ = σ.finish (σ.m.exportDone) := rfl
@[simp] theorem exec_pairEventAck (b : Bool) (src : Fin 256) (σ : State) :
    exec (.pairEventAck b src) σ = σ.finish (σ.m.pairAck b src) := rfl
@[simp] theorem exec_alarmConditionCleared (k : Fin 9) (σ : State) :
    exec (.alarmConditionCleared k) σ = σ.finish (σ.m.alarmCeased k) := rfl
@[simp] theorem exec_svcNoise (n : Nat) (σ : State) :
    exec (.svcNoise n) σ = σ.finish (σ.m.svcNoise n) := rfl
@[simp] theorem exec_nvmEccError (fatal : Bool) (σ : State) :
    exec (.nvmEccError fatal) σ = σ.finish (σ.m.whenAlive (fun m => m.raise (if fatal then 6 else 5) 0 [])) := rfl
@[simp] theorem exec_ramEcc (σ : State) :
    exec (.ramEcc) σ = σ.finish (σ.m.whenAlive (fun m => m.raise 7 0 [])) := rfl

end Sys2Proof.Machine
end

