-- ==== Sys2Proof/Laws/Tab.lean ====
section
/-!
SUPPORT. The sparse table of Machine/Tab.lean: a read after a write, and the canonical form, which every write keeps. The
register file, the program store, the commons, the local stores, the loop memory, the partner table and the rings are tables
of this kind, written through `Tab.set` alone.
-/

namespace Sys2Proof.Machine

/-! ### A read after a write -/

theorem Tab.get_erase_self {κ α : Type} [DecidableEq κ] (f : κ → α) (t : Tab κ α) (k : κ) :
    Tab.get f (Tab.erase t k) k = f k := by
  induction t with
  | nil => rfl
  | cons e t ih =>
    obtain ⟨k', v⟩ := e
    by_cases h : k = k' <;> simp [Tab.erase, Tab.get, h] <;> simpa [h] using ih

theorem Tab.get_erase_ne {κ α : Type} [DecidableEq κ] (f : κ → α) (t : Tab κ α) {k j : κ} (h : j ≠ k) :
    Tab.get f (Tab.erase t k) j = Tab.get f t j := by
  induction t with
  | nil => rfl
  | cons e t ih =>
    obtain ⟨k', v⟩ := e
    by_cases hk : k = k'
    · subst hk; simp [Tab.erase, Tab.get, h, ih]
    · by_cases hj : j = k' <;> simp [Tab.erase, Tab.get, hk, hj, ih]

theorem Tab.mem_erase {κ α : Type} [DecidableEq κ] {t : Tab κ α} {k : κ} {e : κ × α} (h : e ∈ Tab.erase t k) :
    e ∈ t ∧ e.1 ≠ k := by
  induction t with
  | nil => simp [Tab.erase] at h
  | cons e' t ih =>
    obtain ⟨k', v⟩ := e'
    by_cases hk : k = k'
    · simp only [Tab.erase, hk, if_true] at h
      have := ih (by simpa [hk] using h)
      exact ⟨List.mem_cons_of_mem _ this.1, this.2⟩
    · simp only [Tab.erase, hk, if_false, List.mem_cons] at h
      rcases h with h | h
      · subst h; exact ⟨List.mem_cons_self .., fun q => hk q.symm⟩
      · exact ⟨List.mem_cons_of_mem _ (ih h).1, (ih h).2⟩

theorem Tab.get_insert_self {κ α : Type} [DecidableEq κ] (lt : κ → κ → Bool) (f : κ → α) (t : Tab κ α) (k : κ) (v : α)
    (h : ∀ e ∈ t, e.1 ≠ k) : Tab.get f (Tab.insert lt t k v) k = v := by
  induction t with
  | nil => simp [Tab.insert, Tab.get]
  | cons e t ih =>
    obtain ⟨k', v'⟩ := e
    have h1 : k ≠ k' := fun q => h _ (List.mem_cons_self ..) q.symm
    have h2 := ih (fun e he => h e (List.mem_cons_of_mem _ he))
    by_cases hl : lt k k' <;> simp [Tab.insert, Tab.get, hl, h1, h2]

theorem Tab.get_insert_ne {κ α : Type} [DecidableEq κ] (lt : κ → κ → Bool) (f : κ → α) (t : Tab κ α) {k j : κ} (v : α)
    (h : j ≠ k) : Tab.get f (Tab.insert lt t k v) j = Tab.get f t j := by
  induction t with
  | nil => simp [Tab.insert, Tab.get, h]
  | cons e t ih =>
    obtain ⟨k', v'⟩ := e
    by_cases hl : lt k k' <;> simp [Tab.insert, Tab.get, hl, h, ih]

/-- A read of the key just written gives the value written. -/
@[simp] theorem Tab.get_set_self {κ α : Type} [DecidableEq κ] [DecidableEq α] (lt : κ → κ → Bool) (f : κ → α)
    (t : Tab κ α) (k : κ) (v : α) : Tab.get f (Tab.set lt f t k v) k = v := by
  by_cases h : v = f k
  · simp [Tab.set, h, Tab.get_erase_self]
  · simp only [Tab.set, h, if_false]
    exact Tab.get_insert_self lt f _ k v (fun e he => (Tab.mem_erase he).2)

/-- A write leaves every other key as it was. -/
theorem Tab.get_set_ne {κ α : Type} [DecidableEq κ] [DecidableEq α] (lt : κ → κ → Bool) (f : κ → α)
    (t : Tab κ α) {k j : κ} (v : α) (h : j ≠ k) : Tab.get f (Tab.set lt f t k v) j = Tab.get f t j := by
  by_cases hv : v = f k
  · simp [Tab.set, hv, Tab.get_erase_ne f t h]
  · simp [Tab.set, hv, Tab.get_insert_ne lt f _ v h, Tab.get_erase_ne f t h]

@[simp] theorem NTab.get_set_self {α : Type} [DecidableEq α] (d : α) (t : NTab α) (k : Nat) (v : α) :
    NTab.get d (NTab.set d t k v) k = v := Tab.get_set_self ..

theorem NTab.get_set_ne {α : Type} [DecidableEq α] (d : α) (t : NTab α) {k j : Nat} (v : α) (h : j ≠ k) :
    NTab.get d (NTab.set d t k v) j = NTab.get d t j := Tab.get_set_ne _ _ _ _ h

/-! ### The canonical form -/

/-- An order that a table may be kept in: transitive, and total on different keys. -/
def KeyOrder {κ : Type} (lt : κ → κ → Bool) : Prop :=
  (∀ a b c, lt a b = true → lt b c = true → lt a c = true) ∧ (∀ a b, lt a b = false → a ≠ b → lt b a = true)

theorem ltN_order : KeyOrder ltN := by
  constructor
  · intro a b c; simp only [ltN, decide_eq_true_eq]; omega
  · intro a b; simp only [ltN, decide_eq_false_iff_not, decide_eq_true_eq]; omega

theorem ltNN_order : KeyOrder ltNN := by
  constructor
  · rintro ⟨a, a'⟩ ⟨b, b'⟩ ⟨c, c'⟩
    simp only [ltNN, Bool.or_eq_true, Bool.and_eq_true, decide_eq_true_eq, beq_iff_eq]; omega
  · rintro ⟨a, a'⟩ ⟨b, b'⟩ h hn
    have : ¬(a = b ∧ a' = b') := fun q => hn (by rw [q.1, q.2])
    simp only [ltNN, Bool.or_eq_false_iff, Bool.and_eq_false_iff, decide_eq_false_iff_not, beq_eq_false_iff_ne] at h
    simp only [ltNN, Bool.or_eq_true, Bool.and_eq_true, decide_eq_true_eq, beq_iff_eq]; omega

theorem ltReg_order : KeyOrder ltReg := by
  constructor
  · intro a b c h1 h2; exact ltNN_order.1 _ _ _ h1 h2
  · rintro ⟨a, i⟩ ⟨b, j⟩ h hn
    refine ltNN_order.2 _ _ h (fun q => hn ?_)
    simp only [Prod.mk.injEq] at q
    have : a = b := by
      have ha := RName.ofNat_ctorIdx a
      have hb := RName.ofNat_ctorIdx b
      rw [q.1] at ha; exact ha.symm.trans hb
    rw [this, q.2]

theorem Tab.wf_cons {κ α : Type} [DecidableEq α] (lt : κ → κ → Bool) (f : κ → α) (k : κ) (v : α) (t : Tab κ α) :
    Tab.wf lt f ((k, v) :: t) = true ↔ v ≠ f k ∧ (∀ e ∈ t, lt k e.1 = true) ∧ Tab.wf lt f t = true := by
  simp [Tab.wf, Bool.and_eq_true, List.all_eq_true, and_assoc]

theorem Tab.wf_erase {κ α : Type} [DecidableEq κ] [DecidableEq α] (lt : κ → κ → Bool) (f : κ → α) (t : Tab κ α) (k : κ)
    (h : Tab.wf lt f t = true) : Tab.wf lt f (Tab.erase t k) = true := by
  induction t with
  | nil => rfl
  | cons e t ih =>
    obtain ⟨k', v⟩ := e
    rw [Tab.wf_cons] at h
    by_cases hk : k = k'
    · rw [show Tab.erase ((k', v) :: t) k = Tab.erase t k from by simp [Tab.erase, hk]]
      exact ih h.2.2
    · rw [show Tab.erase ((k', v) :: t) k = (k', v) :: Tab.erase t k from by simp [Tab.erase, hk], Tab.wf_cons]
      exact ⟨h.1, fun e he => h.2.1 e (Tab.mem_erase he).1, ih h.2.2⟩

theorem Tab.mem_insert {κ α : Type} (lt : κ → κ → Bool) {t : Tab κ α} {k : κ} {v : α} {e : κ × α}
    (h : e ∈ Tab.insert lt t k v) : e = (k, v) ∨ e ∈ t := by
  induction t with
  | nil => left; simpa [Tab.insert] using h
  | cons e' t ih =>
    obtain ⟨k', v'⟩ := e'
    by_cases hl : lt k k' = true
    · simpa [Tab.insert, hl] using h
    · have h' : e ∈ (k', v') :: Tab.insert lt t k v := by simpa [Tab.insert, hl] using h
      rcases List.mem_cons.1 h' with q | q
      · exact Or.inr (q ▸ List.mem_cons_self ..)
      · exact (ih q).imp id (List.mem_cons_of_mem _)

theorem Tab.wf_insert {κ α : Type} [DecidableEq α] {lt : κ → κ → Bool} (ho : KeyOrder lt) (f : κ → α) (t : Tab κ α) (k : κ)
    (v : α) (hv : v ≠ f k) (hk : ∀ e ∈ t, e.1 ≠ k) (h : Tab.wf lt f t = true) :
    Tab.wf lt f (Tab.insert lt t k v) = true := by
  induction t with
  | nil => simp [Tab.insert, Tab.wf, hv]
  | cons e t ih =>
    obtain ⟨k', v'⟩ := e
    have h' := (Tab.wf_cons lt f k' v' t).1 h
    by_cases hl : lt k k' = true
    · rw [show Tab.insert lt ((k', v') :: t) k v = (k, v) :: (k', v') :: t from by simp [Tab.insert, hl], Tab.wf_cons]
      refine ⟨hv, ?_, h⟩
      intro e he
      rcases List.mem_cons.1 he with q | q
      · subst q; exact hl
      · exact ho.1 _ _ _ hl (h'.2.1 e q)
    · rw [show Tab.insert lt ((k', v') :: t) k v = (k', v') :: Tab.insert lt t k v from by simp [Tab.insert, hl], Tab.wf_cons]
      refine ⟨h'.1, ?_, ih (fun e he => hk e (List.mem_cons_of_mem _ he)) h'.2.2⟩
      intro e he
      rcases Tab.mem_insert lt he with q | q
      · subst q
        exact ho.2 _ _ (by simpa using hl) (fun q => hk _ (List.mem_cons_self ..) q.symm)
      · exact h'.2.1 e q

/-- A write keeps the canonical form. -/
theorem Tab.wf_set {κ α : Type} [DecidableEq κ] [DecidableEq α] {lt : κ → κ → Bool} (ho : KeyOrder lt) (f : κ → α)
    (t : Tab κ α) (k : κ) (v : α) (h : Tab.wf lt f t = true) : Tab.wf lt f (Tab.set lt f t k v) = true := by
  by_cases hv : v = f k
  · simpa [Tab.set, hv] using Tab.wf_erase lt f t k h
  · simp only [Tab.set, hv, if_false]
    exact Tab.wf_insert ho f _ k v hv (fun e he => (Tab.mem_erase he).2) (Tab.wf_erase lt f t k h)

theorem NTab.wf_set {α : Type} [DecidableEq α] (d : α) (t : NTab α) (k : Nat) (v : α)
    (h : Tab.wf ltN (fun _ => d) t = true) : Tab.wf ltN (fun _ => d) (NTab.set d t k v) = true :=
  Tab.wf_set ltN_order _ t k v h

/-- A filter keeps the canonical form: what a reset keeps of the register file, and an erased program region. -/
theorem Tab.wf_filter {κ α : Type} [DecidableEq α] (lt : κ → κ → Bool) (f : κ → α) (p : κ × α → Bool) (t : Tab κ α)
    (h : Tab.wf lt f t = true) : Tab.wf lt f (t.filter p) = true := by
  induction t with
  | nil => rfl
  | cons e t ih =>
    obtain ⟨k, v⟩ := e
    have h' := (Tab.wf_cons lt f k v t).1 h
    by_cases hp : p (k, v) = true
    · rw [show ((k, v) :: t).filter p = (k, v) :: t.filter p from by simp [List.filter, hp], Tab.wf_cons]
      exact ⟨h'.1, fun e he => h'.2.1 e (List.mem_filter.1 he).1, ih h'.2.2⟩
    · rw [show ((k, v) :: t).filter p = t.filter p from by simp [List.filter, hp]]
      exact ih h'.2.2

/-! ### The register file, the commons and a strand's local store -/

/-- The register file, the program store and the commons are in canonical form. -/
def Chip.memWf (m : Chip) : Bool :=
  Tab.wf ltReg resetWord m.regs && Tab.wf ltN (fun _ => 0) m.lay.prog && Tab.wf ltN (fun _ => 0) m.lay.commons

@[simp] theorem Chip.get_put_self (m : Chip) (r : RName) (i : Nat) (w : Word) : (m.put r i w).get r i = w := by
  simp [Chip.get, Chip.put]

theorem Chip.get_put_ne (m : Chip) {r q : RName} {i j : Nat} (w : Word) (h : (q, j) ≠ (r, i)) :
    (m.put r i w).get q j = m.get q j := Tab.get_set_ne _ _ _ _ h

@[simp] theorem Chip.strand_putStrand_self (m : Chip) (k : Nat) (s : Strand) : (m.putStrand k s).strand k = s := by
  simp [Chip.strand, Chip.putStrand]

theorem Chip.strand_putStrand_ne (m : Chip) {k j : Nat} (s : Strand) (h : j ≠ k) :
    (m.putStrand k s).strand j = m.strand j := NTab.get_set_ne _ _ _ h

@[simp] theorem Chip.common_putCommon_self (m : Chip) (i : Nat) (w : Word) : (m.putCommon i w).common i = w := by
  simp [Chip.common, Chip.putCommon]

theorem Chip.common_putCommon_ne (m : Chip) {i j : Nat} (w : Word) (h : j ≠ i) :
    (m.putCommon i w).common j = m.common j := NTab.get_set_ne _ _ _ h

theorem Chip.memWf_put (m : Chip) (r : RName) (i : Nat) (w : Word) (h : m.memWf = true) : (m.put r i w).memWf = true := by
  simp only [Chip.memWf, Bool.and_eq_true] at h ⊢
  exact ⟨⟨Tab.wf_set ltReg_order _ _ _ _ h.1.1, h.1.2⟩, h.2⟩

theorem Chip.memWf_putStrand (m : Chip) (k : Nat) (s : Strand) (h : m.memWf = true) : (m.putStrand k s).memWf = true := h

theorem Chip.memWf_putCommon (m : Chip) (i : Nat) (w : Word) (h : m.memWf = true) : (m.putCommon i w).memWf = true := by
  simp only [Chip.memWf, Bool.and_eq_true] at h ⊢
  exact ⟨h.1, NTab.wf_set _ _ _ _ h.2⟩

end Sys2Proof.Machine
end

