-- ==== Sys2Proof/Laws/Knarin.lean ====
section
/-!
SUPPORT. The issue of an instruction, said once: what Chip.issueTo does for a strand that may issue, for one whose budget is
used up, and for one whose next PC leaves its region.
-/

namespace Sys2Proof.Machine

theorem Chip.mayIssue.budget {m : Chip} {k : Nat} {w : Word} (h : m.mayIssue k w) : m.overBudget k = false := by
  simp [Chip.overBudget, Nat.not_le.2 h.2.1]

/-- An instruction that the strand may issue, and whose next PC lies in the region, does what its row says. -/
theorem Chip.issueTo_mayIssue {m : Chip} {k : Nat} {w : Word} {next : Nat} (f : Chip → Chip) (h : m.mayIssue k w)
    (hn : inRegion (m.strand k).owner next = true) : m.issueTo k w next f = f m := by
  simp [Chip.issueTo, h.1, h.budget, hn]

theorem Chip.issueNext_mayIssue {m : Chip} {k : Nat} {w : Word} (f : Chip → Chip) (h : m.mayIssue k w) :
    m.issueNext k w f = f m := Chip.issueTo_mayIssue f h h.2.2

/-- A strand at the word whose budget is used up raises STRAND_BUDGET and issues nothing (R121). -/
theorem Chip.issueTo_overBudget {m : Chip} {k : Nat} {w : Word} (next : Nat) (f : Chip → Chip)
    (h : m.atWord k w = true) (hb : m.overBudget k = true) : m.issueTo k w next f = m.strandFault k 0 [] := by
  simp [Chip.issueTo, h, hb]

/-- A strand whose next PC would leave its region raises STRAND_ILLEGAL (R143). -/
theorem Chip.issueTo_leaves {m : Chip} {k : Nat} {w : Word} {next : Nat} (f : Chip → Chip) (h : m.atWord k w = true)
    (hb : m.overBudget k = false) (hn : inRegion (m.strand k).owner next = false) :
    m.issueTo k w next f = m.strandFault k 1 [] := by
  simp [Chip.issueTo, h, hb, hn]

/-- A command for a strand that does not stand RUNNING at the word changes nothing. -/
theorem Chip.issueTo_elsewhere {m : Chip} {k : Nat} {w : Word} (next : Nat) (f : Chip → Chip) (h : m.atWord k w = false) :
    m.issueTo k w next f = m := by
  simp [Chip.issueTo, h]

@[simp] theorem Strand.result_pc (s : Strand) (d : Nat) (r : Word) : (s.result d r).pc = s.pc := rfl
@[simp] theorem Strand.flags_pc (s : Strand) (z n c v : Bool) : (s.flags z n c v).pc = s.pc := rfl
@[simp] theorem Strand.put_pc (s : Strand) (d : Nat) (r : Word) : (s.put d r).pc = s.pc := rfl
theorem Strand.dst_result (s : Strand) (d : Nat) (r : Word) : s.dst d r = s.result d r := by
  simp [Strand.dst, Strand.result]

/-- An operation on the strand alone: the strand as the row gives it, moved on. -/
theorem Chip.kOp_mayIssue {m : Chip} {k : Nat} {w : Word} (f : Strand → Strand) (h : m.mayIssue k w)
    (hp : (f (m.strand k)).pc = (m.strand k).pc) : m.kOp k w f = m.putStrand k (f (m.strand k)).moved := by
  rw [Chip.kOp, Chip.issueNext_mayIssue _ h]
  simp [Strand.counted, Strand.moved, Chip.pcAfter, hp]

end Sys2Proof.Machine
end

