-- ==== Sys2Proof/Laws/Service.lean ====
section
/-!
SUPPORT. What a taken service frame does, said once (R627 to R631): it is accepted, its row's effect happens, and the response,
if one is due now, is sent.
-/

namespace Sys2Proof.Machine

/-- A taken frame does its row's effect on the chip that accepted it, and answers. -/
theorem Chip.svcFrame_taken {m : Chip} {op seq : Nat} {tag : Option (List Nat)} {body : List Nat}
    {f : Chip → Chip × Option (Status × List Nat)} (h : m.svcTakes op seq tag body) :
    m.svcFrame op seq tag body f =
      (match (f (m.svcAccept seq)).2 with
        | some (st, data) => m.svcAnswers (f (m.svcAccept seq)).1 op seq st data
        | none => (f (m.svcAccept seq)).1) := by
  obtain ⟨ha, hw, ht, hq, hb, hs⟩ := h
  have h1 : (tag.isSome != decide (m.upd.session = 3)) = false := by
    by_cases hk : m.upd.session = 3
    · simp [hk] at ht ⊢; simp [ht]
    · simp [hk] at ht ⊢; simp [ht]
  have h2 : (m.upd.session = 3 && tag != some (svcTag m.upd.ks (svcCore seq op (if tag.isSome then 2 else 0) body)) : Bool) = false := by
    by_cases hk : m.upd.session = 3
    · simp [hk] at ht; simp [ht]
    · simp [hk]
  have h3 : (m.upd.session != 0 && (seq = m.upd.seq : Bool) && !m.upd.resp.isEmpty) = false := by
    by_cases hk : m.upd.session = 0
    · simp [hk]
    · have := (hq hk).1
      by_cases hx : seq = m.upd.seq <;> simp_all
  have h4 : (m.upd.session != 0 && op != 1 && op != 2 && seq != (m.upd.seq + 1) % 65536) = false := by
    by_cases hk : m.upd.session = 0
    · simp [hk]
    · have := (hq hk).2
      by_cases hx : op = 1
      · simp [hx]
      · by_cases hy : op = 2
        · simp [hy]
        · simp [this hx hy]
  have hu : (m.svcAccept seq).pwr = m.pwr := rfl
  have h5 : (m.pwr.base = .boot && op != 1 : Bool) = false := by
    rcases hb with q | q <;> simp [q]
  have h6 : (m.upd.session < 2 && op != 1 && op != 2 && !(op = 3 && m.upd.session = 1) : Bool) = false := by
    rcases hs with q | q | q | q
    · simp [Nat.not_lt.2 q]
    · simp [q]
    · simp [q]
    · simp [q.1, q.2]
  simp only [Chip.svcFrame, ha, hw, h1, h2, h3, h4, hu, h5, h6, Chip.svcAnswers]
  rfl

end Sys2Proof.Machine
end

