-- ==== Sys2Proof/WellFormed.lean ====
section
/-!
DEFINITION. Which commands can occur: the bounds of the operands that are times, measured values and lists, where the type of an
operand does not give them. `exec` is total all the same: it gives an ill-formed command the effect of the same rules.
-/

namespace Sys2Proof

/-- A value of a signed word of `n` bits. -/
def fitsInt (n : Nat) (i : Int) : Bool := -(2 ^ (n - 1) : Int) ≤ i && i < (2 ^ (n - 1) : Int)

/-- A HELLO as its fields allow it (R585): the SPL state is 0 to 5, the digest and the bundle version are words, the
acknowledged number is a SEQ. -/
def Hello.wellFormed (h : Hello) : Bool := h.state ≤ 5 && h.digest < 2 ^ 32 && h.bundle < 2 ^ 32 && h.ack < 65536

/-- A journal item of a kind that R588 lists, each number it carries in a 64-bit field. -/
def JItem.wellFormed (j : JItem) : Bool := 1 ≤ j.kind && j.kind ≤ 0x0C && j.unit < 4096 && j.vals.all (fun v => v < 2 ^ 64)

/-- A service tag is 8 bytes (R626). -/
def tagWellFormed (tag : Option (List Byte)) : Bool :=
  match tag with
  | none => true
  | some bs => bs.length = 8

namespace Instr

/-- The command's operands are in range; where the types bound every operand, it always is. -/
def wellFormed (i : Instr) : Bool :=
  match i with
  | .bootComplete us _ _ => us < 2 ^ 40
  | .acqCalDone offs gain => fitsInt 32 offs && fitsInt 32 gain
  | .loopSampleStart ns => ns < 2 ^ 32
  | .stageBoundary _ cur _ _ => cur.length ≤ 8 && cur.all (fitsInt 12)
  | .fastLimit _ (_, cs) => fitsInt 16 cs
  | .phaseSc _ (_, cs) => fitsInt 16 cs
  | .syncinEdge per => 1 ≤ per && per < 65536
  | .branchMeterSample _ cur _ want _ => fitsInt 16 cur && fitsInt 20 want
  | .branchTrip (_, cur) => fitsInt 20 cur
  | .twTransferEnd _ _ bytes => bytes.length ≤ 256
  | .twTargetWrite _ extra => extra ≤ 256
  | .twTargetRead _ count => 1 ≤ count && count ≤ 256
  | .mirrorUpdate vbus iload => vbus < 65536 && fitsInt 32 iload
  | .resp _ _ _ _ _ bytes => bytes.length ≤ 255
  | .stream _ _ _ readings => 1 ≤ readings.length && readings.length ≤ 16
  | .thmReading _ t _ => fitsInt 16 t
  | .hello _ h => h.wellFormed
  | .journal _ _ items => items.length ≤ 256 && items.all JItem.wellFormed
  | .snapshot _ _ items => items.all JItem.wellFormed
  | .ident _ tag => tagWellFormed tag
  | .openSession _ tag _ nh => tagWellFormed tag && nh.length = 16
  | .auth _ tag proof => tagWellFormed tag && proof.length = 32
  | .closeSession _ tag => tagWellFormed tag
  | .baud _ tag _ => tagWellFormed tag
  | .svcRead _ tag _ => tagWellFormed tag
  | .svcWrite _ tag _ _ => tagWellFormed tag
  | .imgBegin _ tag => tagWellFormed tag
  | .imgData _ tag _ bytes => tagWellFormed tag && 1 ≤ bytes.length && bytes.length ≤ 1036
  | .imgFinish _ tag => tagWellFormed tag
  | .imgCancel _ tag => tagWellFormed tag
  | .svcNoise n => 1 ≤ n
  | _ => true

end Instr

end Sys2Proof
end

