-- ==== Sys2Proof/Tests/Slice0.lean ====
section
/-!
SUPPORT. Tests: an ill-formed command for each check, the spec's worked examples, and for every statement of
Certificates/Slice0/Obligations.lean that has hypotheses, states and operands that meet them, clause by clause.
-/

namespace Sys2Proof.Tests

open Sys2Proof Sys2Proof.Machine

-- One theorem at a time: each kernel evaluation takes a thread with a stack of its own.
set_option Elab.async false

/-! Chips to try the commands on: a chip in STANDBY whose blocks are all at Expert, and what sets one part of it. -/

def up0 : Chip :=
  let m := Chip.init
  { m with vend := Vendor.init, pwr := { m.pwr with base := .standby }, levels := (List.range 18).map (fun i => (i, true)) }

def pw (f : Pwr → Pwr) (m : Chip) : Chip := { m with pwr := f m.pwr }
def nv (f : Nvm → Nvm) (m : Chip) : Chip := { m with nvm := f m.nvm }
def sq (f : Seq → Seq) (m : Chip) : Chip := { m with seq := f m.seq }
def ac (f : Acq → Acq) (m : Chip) : Chip := { m with acq := f m.acq }
def cl (f : Cle → Cle) (m : Chip) : Chip := { m with cle := f m.cle }
def pt (f : Ptn → Ptn) (m : Chip) : Chip := { m with ptn := f m.ptn }
def sk (f : Slk → Slk) (m : Chip) : Chip := { m with slk := f m.slk }
def sp (f : Spl → Spl) (m : Chip) : Chip := { m with spl := f m.spl }
def ly (f : Lay → Lay) (m : Chip) : Chip := { m with lay := f m.lay }
def cn (f : Cnv → Cnv) (m : Chip) : Chip := { m with cnv := f m.cnv }
def se (f : Sec → Sec) (m : Chip) : Chip := { m with sec := f m.sec }
def rc (f : Rcd → Rcd) (m : Chip) : Chip := { m with rcd := f m.rcd }
def hs (f : Hst → Hst) (m : Chip) : Chip := { m with hst := f m.hst }
def po (f : Pol → Pol) (m : Chip) : Chip := { m with pol := f m.pol }
def ba (f : Bat → Bat) (m : Chip) : Chip := { m with bat := f m.bat }
def et (f : Est → Est) (m : Chip) : Chip := { m with est := f m.est }
def ud (f : Upd → Upd) (m : Chip) : Chip := { m with upd := f m.upd }
def sy (f : Sys → Sys) (m : Chip) : Chip := { m with sys := f m.sys }
def str (k : Nat) (f : Strand → Strand) (m : Chip) : Chip := m.putStrand k (f (m.strand k))
def br (k : Nat) (f : Branch → Branch) (m : Chip) : Chip := m.putBranch k (f (m.branch k))
def cv (k : Nat) (f : Conv → Conv) (m : Chip) : Chip := m.putConv k (f (m.conv k))
def bs (k : Nat) (f : BStr → BStr) (m : Chip) : Chip := m.putBstr k (f (m.bstr k))
def es (k : Nat) (f : EstStr → EstStr) (m : Chip) : Chip := m.putEstr k (f (m.estr k))
def bu (k : Nat) (f : Bus → Bus) (m : Chip) : Chip := m.putBus k (f (m.bus k))
def ls (k : Nat) (f : Slot → Slot) (m : Chip) : Chip := m.putLslot k (f (m.lslot k))
def en (k : Nat) (f : Ent → Ent) (m : Chip) : Chip := m.putEnt k (f (m.ent k))
def cp (k : Nat) (f : Cap → Cap) (m : Chip) : Chip := m.putCap k (f (m.cap k))
def rg (r : RName) (i hi lo v : Nat) (m : Chip) : Chip := m.putF r i hi lo v
/-- The same with the estimator off and the image of recovery mode, whose words are known. -/
def up1 : Chip := (up0.putF .estCfg 0 1 1 0) |> ud (fun o => { o with act := Img.none })
def entry (e w : Nat) (d : Word) : Chip → Chip := pt (fun o => { o with table := NTab.set 0 o.table (8 * e + w) d })
def loopw (s w : Nat) (d : Word) : Chip → Chip := cl (fun o => { o with mem := NTab.set 0 o.mem (256 * s + w) d })
def activew (s w : Nat) (d : Word) : Chip → Chip := cl (fun o => { o with active := NTab.set 0 o.active (256 * s + w) d })

/-- Strand `k`, of an owner, RUNNING at the start of its region, where the program store holds `w`, with budget left. -/
def runsAs (ow : Owner) (k : Nat) (w : Word) (m : Chip) : Chip :=
  m |> rg .layBudget k 20 0 100 |> ly (fun o => { o with prog := NTab.set 0 o.prog ((regionOf ow).1 / 4) w })
    |> str k (fun o => { o with st := .running, owner := ow, pc := (regionOf ow).1 })
def runsAt (k : Nat) (w : Word) : Chip → Chip := runsAs .vendor k w

/-- Slot `s` with a chain of SRC and OUT, staged, its trigger the kick. -/
def chain (s : Nat) (m : Chip) : Chip :=
  m |> loopw s 0 0x100 |> loopw s 1 0x100000 |> loopw s 5 1 |> loopw s 32 1 |> loopw s 33 0x600000 |> loopw s 60 9
/-- A program bundle of one context whose code is one word. -/
def sampleBundle : List Word :=
  [0x4B4E5242, 0x10001, 4, BitVec.ofNat 32 (crc32Words [0]), 0, 0, 0, 0, 0, 0, 16, 0, 0]

/-- A command to entry 0, on a wire. -/
def txn : Txn :=
  { id := 0, entry := 0, item := 0, cls := 1, kind := .cmd, by_ := .lib, data := 0, desc := 0, gen := 0, tent := none, issued := 0, headAt := none,
    first := false, retries := 0, arbs := 0, wire := true, started := true, tag := 0, held := false, legs := [], early := none }
def pooled (t : Txn) : Chip → Chip := pt (fun o => { o with pool := [t] })
def hello0 : Hello := { role := false, acting := false, state := 0, digest := 0, bundle := 0, safe := false, ack := 0 }
def record0 : QRec := { rcd := { kind := 0, source := 0, code := 0, inst := 0, sev := 0, stamp := 0, payload := [] }, deliv := none }

/-! ### Ill-formed commands: one for each check of WellFormed.lean -/

theorem test_ill_times :
    (Instr.bootComplete (2 ^ 40) 0 (0, 0)).wellFormed = false ∧ (Instr.loopSampleStart (2 ^ 32)).wellFormed = false ∧
    (Instr.syncinEdge 0).wellFormed = false ∧ (Instr.syncinEdge 65536).wellFormed = false ∧
    (Instr.svcNoise 0).wellFormed = false := by decide

theorem test_ill_measured_values :
    (Instr.acqCalDone (2 ^ 31) 0).wellFormed = false ∧ (Instr.acqCalDone 0 (-2 ^ 31 - 1)).wellFormed = false ∧
    (Instr.stageBoundary 0 [2048] () ()).wellFormed = false ∧ (Instr.stageBoundary 0 (List.replicate 9 0) () ()).wellFormed = false ∧
    (Instr.fastLimit 0 (0, 32768)).wellFormed = false ∧ (Instr.phaseSc 0 (0, -32769)).wellFormed = false ∧
    (Instr.branchMeterSample 0 32768 0 0 false).wellFormed = false ∧ (Instr.branchMeterSample 0 0 0 (2 ^ 19) false).wellFormed = false ∧
    (Instr.branchTrip (0, 2 ^ 19)).wellFormed = false ∧ (Instr.mirrorUpdate 65536 0).wellFormed = false ∧
    (Instr.mirrorUpdate 0 (2 ^ 31)).wellFormed = false ∧ (Instr.thmReading 0 32768 false).wellFormed = false := by decide

theorem test_ill_lists :
    (Instr.twTargetWrite 0 257).wellFormed = false ∧ (Instr.twTargetRead none 0).wellFormed = false ∧
    (Instr.twTargetRead none 257).wellFormed = false ∧ (Instr.stream 0 0 0 []).wellFormed = false ∧
    (Instr.stream 0 0 0 (List.replicate 17 (0, 0))).wellFormed = false := by decide

theorem test_ill_long_lists :
    (Instr.twTransferEnd 0 0 (List.replicate 257 0)).wellFormed = false ∧
    (Instr.resp 0 0 0 0 0 (List.replicate 256 0)).wellFormed = false ∧
    (Instr.journal true 0 (List.replicate 257 { kind := 1, unit := 0, vals := [] })).wellFormed = false := by decide +kernel

theorem test_ill_pair_frames :
    (Instr.hello true { hello0 with state := 6 }).wellFormed = false ∧
    (Instr.hello true { hello0 with digest := 2 ^ 32 }).wellFormed = false ∧
    (Instr.hello true { hello0 with bundle := 2 ^ 32 }).wellFormed = false ∧
    (Instr.hello true { hello0 with ack := 65536 }).wellFormed = false ∧
    (Instr.journal true 0 [{ kind := 0, unit := 0, vals := [] }]).wellFormed = false ∧
    (Instr.journal true 0 [{ kind := 13, unit := 0, vals := [] }]).wellFormed = false ∧
    (Instr.snapshot true 0 [{ kind := 1, unit := 4096, vals := [] }]).wellFormed = false ∧
    (Instr.snapshot true 0 [{ kind := 1, unit := 0, vals := [2 ^ 64] }]).wellFormed = false := by decide

theorem test_ill_service_frames :
    (Instr.ident 0 (some [])).wellFormed = false ∧ (Instr.openSession 0 (some []) 0 (List.replicate 16 0)).wellFormed = false ∧
    (Instr.openSession 0 none 0 []).wellFormed = false ∧ (Instr.auth 0 (some []) (List.replicate 32 0)).wellFormed = false ∧
    (Instr.auth 0 none []).wellFormed = false ∧ (Instr.closeSession 0 (some [])).wellFormed = false ∧
    (Instr.baud 0 (some []) 0).wellFormed = false ∧ (Instr.svcRead 0 (some []) 0).wellFormed = false ∧
    (Instr.svcWrite 0 (some []) 0 0).wellFormed = false ∧ (Instr.imgBegin 0 (some [])).wellFormed = false ∧
    (Instr.imgData 0 (some []) 0 [0]).wellFormed = false ∧ (Instr.imgData 0 none 0 []).wellFormed = false ∧
    (Instr.imgFinish 0 (some [])).wellFormed = false ∧ (Instr.imgCancel 0 (some [])).wellFormed = false := by decide

theorem test_ill_image_block : (Instr.imgData 0 none 0 (List.replicate 1037 0)).wellFormed = false := by decide +kernel

/-! ### Worked examples of the spec -/

/-- The rows give no bits: no word spells a command. -/
theorem test_no_word_spells_a_command : decodeTableWord 32 0x7653 = none ∧ State.reset.withFetchWord 32 0 = State.reset :=
  ⟨rfl, rfl⟩

/-- The words of the polling strand (the assembler example of spec/04_knarin_instruction_reference.md). -/
theorem test_example_words :
    kIMM20 0x72 0 100000 = 0x720186A0 ∧ kIMM20 0x30 9 0x10000 = 0x30910000 ∧ kREG 0x74 0 0 0 0 0 = 0x74000000 ∧
    kIMM 0x32 2 1 0x64 = 0x32210064 ∧ kPTR 0xA0 3 2 0 0x08C = 0xA032008C ∧ kIMM 0x36 4 1 2 = 0x36410002 ∧
    kIMM 0x43 3 4 0 = 0x43340000 ∧ kIMM 0x39 0 1 0xC = 0x3901000C ∧ kIMM20 0x60 2 0xFFFFA = 0x602FFFFA ∧
    kREG 0x76 5 3 0 (timeoutFn (some 7) 0).1 (timeoutFn (some 7) 0).2 = 0x76530780 ∧ kREG 0x10 10 4 9 0 0 = 0x10A49000 ∧
    kIMM 0x49 5 10 0 = 0x495A0000 ∧ kIMM20 0x30 5 0xFFFFF = 0x305FFFFF ∧ kIMM 0xB0 0 0 0x101 = 0xB0000101 := by
  decide +kernel

/-- A strand of the chip after one command. -/
def strandAfter (i : Instr) (m : Chip) (k : Nat) : Option Strand :=
  match exec i { m := m, pending := [] } with
  | .next s => some (s.m.strand k)
  | _ => none

/-- qmul of 1.5 and −0.25 is −0.375, with N set, Z and V clear (the example of R151). -/
theorem test_qmul_example :
    (strandAfter (.qmul 0 3 1 2)
      (up0 |> runsAt 0 0x29312000 |> str 0 (fun o => (o.put 1 0x01800000).put 2 0xFFC00000)) 0).map
        (fun t => (t.reg 3, t.n, t.z, t.v, t.pc)) = some (0xFFA00000, true, false, false, 4) := by decide +kernel

/-- add wraps and sets C and Z; a source is also the destination. -/
theorem test_add_wraps :
    (strandAfter (.add 0 1 1 2) (up0 |> runsAt 0 0x10112000 |> str 0 (fun o => (o.put 1 0xFFFFFFFF).put 2 1)) 0).map
      (fun t => (t.reg 1, t.z, t.n, t.c, t.v, t.pc)) = some (0, true, false, true, false, 4) := by decide +kernel

/-- The SHARE payload, and the length of the RETRACT payload, in the last example of spec/14_host_link_and_mailboxes.md. -/
theorem test_frame_example :
    ({ Frame.blank with typ := 5, tent := true, dst := 255, tag := 40, item := 0x100, gen := 0x412, data := bytesOf 4 0xD9999A ++ bytesOf 4 0x3C } : Frame).bytes.take 24 =
      [0x15, 0x20, 0x00, 0xFF, 0x28, 0x00, 0x00, 0x01, 0x12, 0x04, 0, 0, 8, 0, 0, 0, 0x9A, 0x99, 0xD9, 0, 0x3C, 0, 0, 0] ∧
    ({ Frame.blank with typ := 6, dst := 255, tag := 40, item := 0x100, gen := 0x412, data := bytesOf 4 0xF33333 ++ bytesOf 4 0x411 ++ bytesOf 4 0x3C } : Frame).bytes.length = 46 := by decide +kernel

/-- The chip after reset reports BOOT, its queue is empty and its pins are low. -/
theorem test_reset : State.reset.m.mode = 2 ∧ State.reset.pending = [] ∧ State.reset.m.pins.gen = 0 := by decide +kernel

/-- A step takes the front command: a NOP whose word is at the strand's PC moves it on. -/
theorem test_step_front :
    (match step { m := up0 |> runsAt 0 0, pending := [.nop 0, .nop 0] } with
      | .next s => ((s.m.strand 0).pc, s.pending)
      | _ => (0, [])) = (4, [.nop 0]) := by decide +kernel

/-! ### The hypotheses of the statements: theorem wit_X meets those of Obligations.X -/

theorem wit_PinsAndQueueAtEveryStep :
    (∃ (s : State), (s.m.PinsOk)) ∧
    (∃ (m : Chip), (m.PinsOk) ∧ ((m.pwr.base = .off ∨ m.pwr.base = .ship ∨ m.pwr.base = .boot))) ∧
    (∃ (m : Chip) (n : Nat), (m.PinsOk) ∧ (m.pwr.base ≠ .off) ∧ (m.pwr.base ≠ .ship) ∧ (m.pwr.base ≠ .boot) ∧ (n < 24)) := by
  unfold Chip.PinsOk
  exact ⟨⟨{ m := up0 |> (fun m : Chip => { m with pins := m.pinsOf }), pending := [] }, by decide +kernel⟩,
    ⟨(up0 |> pw (fun o => { o with base := .off }) |> (fun m : Chip => { m with pins := m.pinsOf })), by decide +kernel⟩,
    ⟨(up0 |> (fun m : Chip => { m with pins := m.pinsOf })), 23, by decide +kernel⟩⟩

theorem wit_RejectionOrder :
    (∃ (v : Verdict), (v.eauth = true)) ∧
    (∃ (v : Verdict), (v.eauth = false) ∧ (v.erange = true)) ∧
    (∃ (v : Verdict), (v.eauth = false) ∧ (v.erange = false) ∧ (v.estate = true)) ∧
    (∃ (v : Verdict), (v.eauth = false) ∧ (v.erange = false) ∧ (v.estate = false) ∧ (v.ebasic = true)) ∧
    (∃ (v : Verdict), (v.eauth = false) ∧ (v.erange = false) ∧ (v.estate = false) ∧ (v.ebasic = false) ∧ (v.ebusy = true)) ∧
    (∃ (s : State) (ag : Agent) (addr : BitVec 24) (d : Word) (st : Status), (s.m.open_ ag) ∧ (((s.m.gate true ag addr.toNat d).and { (s.m.writeAct ag addr.toNat d).v with ebasic := (s.m.writeAct ag addr.toNat d).v.ebasic && !s.m.levelFree ag }).first = some st)) := by
  unfold Chip.open_
  exact ⟨⟨{ eauth := true }, by decide +kernel⟩,
    ⟨{ erange := true }, by decide +kernel⟩,
    ⟨{ estate := true }, by decide +kernel⟩,
    ⟨{ ebasic := true }, by decide +kernel⟩,
    ⟨{ ebusy := true }, by decide +kernel⟩,
    ⟨{ m := up0, pending := [] }, .fw, 0xFFFFFC, 0, .erange, by decide +kernel⟩⟩

theorem wit_RejectedAndUnpoweredAccesses :
    (∃ (s : State) (ag : Agent) (addr : BitVec 24) (d : Word) (st : Status), (s.m.open_ ag) ∧ (s.m.writeVerdict ag addr.toNat d = some st) ∧ (st ≠ .eauth)) ∧
    (∃ (s : State) (ag : Agent) (addr : BitVec 24) (d : Word) (r : RName) (i : Nat), (s.m.grants ag addr.toNat d) ∧ (targetOf addr.toNat = .reg r i) ∧ (r.row.kind = .ro ∨ r.row.kind = .rc)) ∧
    (∃ (s : State) (_ag : Agent) (_addr : BitVec 24) (_d : Word), (s.m.pwr.base = .off ∨ s.m.pwr.base = .ship)) := by
  unfold Chip.grants Chip.open_
  exact ⟨⟨{ m := up0, pending := [] }, .fw, 0xFFFFFC, 0, .erange, by decide +kernel⟩,
    ⟨{ m := up0, pending := [] }, .fw, BitVec.ofNat 24 (RName.addr .pwrmMode 0), 0, .pwrmMode, 0, by decide +kernel⟩,
    ⟨{ m := up0 |> pw (fun o => { o with base := .off }), pending := [] }, .fw, 0, 0, by decide +kernel⟩⟩

theorem wit_RegistersAndMemories :
    (∃ (m : Chip), (Tab.wf ltReg resetWord m.regs = true)) ∧
    (∃ (m : Chip), (Tab.wf ltN (fun _ => (0 : Word)) m.lay.commons = true)) := by
  exact ⟨⟨up0, by decide +kernel⟩,
    ⟨up0, by decide +kernel⟩⟩

theorem wit_SettlingWhenNothingWatches :
    (∃ (m : Chip) (old : Chip), (m.ptn.pool = []) ∧ (m.ptn.done = []) ∧ (m.cle.slots = []) ∧ (m.pol.ho = .idle) ∧ (m.dom 9 ≠ .on ∨ old.dom 9 = .on) ∧ (m.spl.st = .init ∨ (m.spl.st = .solo ∧ m.twinReady = false)) ∧ (m.spl.divs = []) ∧ (m.spl.outDue = 0) ∧ (m.journalling = false) ∧ (m.mode = old.mode) ∧ (m.up = false)) ∧
    (∃ (m : Chip) (old : Chip), (m.ptn.pool = []) ∧ (m.ptn.done = []) ∧ (m.ptn.wait = []) ∧ (m.cle.slots = []) ∧ (m.pol.ho = .idle) ∧ (m.dom 9 ≠ .on ∨ old.dom 9 = .on) ∧ (m.spl.st = .init ∨ (m.spl.st = .solo ∧ m.twinReady = false)) ∧ (m.spl.divs = []) ∧ (m.spl.outDue = 0) ∧ (m.journalling = false) ∧ (m.mode = old.mode) ∧ (m.up = true) ∧ (m.vend.pol.cap = none) ∧ (m.ptn.ents = []) ∧ ((∀ x hi, m.clampOn x hi = old.clampOn x hi)) ∧ ((∀ x, (m.conv x).switching = false)) ∧ (m.polReact old = m) ∧ (m.pwr.base ≠ .standby ∨ old.pwr.base = .standby) ∧ (m.batWatch old = m) ∧ (m.chgHold = old.chgHold) ∧ (m.chgTFrozen = old.chgTFrozen) ∧ (m.estRuns = false)) := by
  exact ⟨⟨Chip.init, Chip.init, by decide +kernel⟩,
    ⟨((up1.polReact up1).batWatch up1), ((up1.polReact up1).batWatch up1), (by (repeat' apply And.intro) <;> first | decide +kernel | exact fun _ _ => rfl | (intro x; have h : ((up1.polReact up1).batWatch up1).cnv.stages = [] := (by decide +kernel); (unfold Chip.conv; rw [h]) <;> rfl))⟩⟩

theorem wit_KnarinSumsAndDifferences :
    (∃ (s : State) (k : Fin 256) (d : Fin 16) (a : Fin 16) (b : Fin 16), (s.m.mayIssue k (kREG 0x10 d a b 0 0))) ∧
    (∃ (s : State) (k : Fin 256) (d : Fin 16) (a : Fin 16) (b : Fin 16), (s.m.mayIssue k (kREG 0x11 d a b 0 0))) ∧
    (∃ (s : State) (k : Fin 256) (d : Fin 16) (a : Fin 16) (imm : BitVec 16), (s.m.mayIssue k (kIMM 0x32 d a imm.toNat))) ∧
    (∃ (s : State) (k : Fin 256) (d : Fin 16) (a : Fin 16) (b : Fin 16), (s.m.mayIssue k (kREG 0x12 d a b 0 0))) ∧
    (∃ (s : State) (k : Fin 256) (d : Fin 16) (a : Fin 16) (b : Fin 16), (s.m.mayIssue k (kREG 0x13 d a b 0 0))) ∧
    (∃ (s : State) (k : Fin 256) (d : Fin 16) (a : Fin 16), (s.m.mayIssue k (kREG 0x22 d a 0 0 0))) ∧
    (∃ (s : State) (k : Fin 256) (a : Fin 16) (b : Fin 16), (s.m.mayIssue k (kREG 0x1D 0 a b 0 0))) ∧
    (∃ (s : State) (k : Fin 256) (a : Fin 16) (imm : BitVec 16), (s.m.mayIssue k (kIMM 0x39 0 a imm.toNat))) := by
  unfold Chip.mayIssue
  exact ⟨⟨{ m := up0 |> runsAt 0 (kREG 0x10 0 0 0 0 0), pending := [] }, 0, 0, 0, 0, by decide +kernel⟩,
    ⟨{ m := up0 |> runsAt 0 (kREG 0x11 0 0 0 0 0), pending := [] }, 0, 0, 0, 0, by decide +kernel⟩,
    ⟨{ m := up0 |> runsAt 0 (kIMM 0x32 0 0 0), pending := [] }, 0, 0, 0, 0, by decide +kernel⟩,
    ⟨{ m := up0 |> runsAt 0 (kREG 0x12 0 0 0 0 0), pending := [] }, 0, 0, 0, 0, by decide +kernel⟩,
    ⟨{ m := up0 |> runsAt 0 (kREG 0x13 0 0 0 0 0), pending := [] }, 0, 0, 0, 0, by decide +kernel⟩,
    ⟨{ m := up0 |> runsAt 0 (kREG 0x22 0 0 0 0 0), pending := [] }, 0, 0, 0, by decide +kernel⟩,
    ⟨{ m := up0 |> runsAt 0 (kREG 0x1D 0 0 0 0 0), pending := [] }, 0, 0, 0, by decide +kernel⟩,
    ⟨{ m := up0 |> runsAt 0 (kIMM 0x39 0 0 0), pending := [] }, 0, 0, 0, by decide +kernel⟩⟩

theorem wit_KnarinLogicAndMoves :
    (∃ (s : State) (k : Fin 256) (d : Fin 16) (a : Fin 16) (b : Fin 16), (s.m.mayIssue k (kREG 0x14 d a b 0 0))) ∧
    (∃ (s : State) (k : Fin 256) (d : Fin 16) (a : Fin 16) (b : Fin 16), (s.m.mayIssue k (kREG 0x15 d a b 0 0))) ∧
    (∃ (s : State) (k : Fin 256) (d : Fin 16) (a : Fin 16) (b : Fin 16), (s.m.mayIssue k (kREG 0x16 d a b 0 0))) ∧
    (∃ (s : State) (k : Fin 256) (d : Fin 16) (a : Fin 16) (b : Fin 16), (s.m.mayIssue k (kREG 0x17 d a b 0 0))) ∧
    (∃ (s : State) (k : Fin 256) (d : Fin 16) (a : Fin 16), (s.m.mayIssue k (kREG 0x21 d a 0 0 0))) ∧
    (∃ (s : State) (k : Fin 256) (d : Fin 16) (a : Fin 16) (imm : BitVec 16), (s.m.mayIssue k (kIMM 0x33 d a imm.toNat))) ∧
    (∃ (s : State) (k : Fin 256) (d : Fin 16) (a : Fin 16) (imm : BitVec 16), (s.m.mayIssue k (kIMM 0x34 d a imm.toNat))) ∧
    (∃ (s : State) (k : Fin 256) (d : Fin 16) (a : Fin 16) (imm : BitVec 16), (s.m.mayIssue k (kIMM 0x35 d a imm.toNat))) ∧
    (∃ (s : State) (k : Fin 256) (d : Fin 16) (a : Fin 16) (b : Fin 16), (s.m.mayIssue k (kREG 0x1B d a b 0 0))) ∧
    (∃ (s : State) (k : Fin 256) (d : Fin 16) (a : Fin 16) (b : Fin 16), (s.m.mayIssue k (kREG 0x1C d a b 0 0))) ∧
    (∃ (s : State) (k : Fin 256) (d : Fin 16) (a : Fin 16) (b : Fin 16), (s.m.mayIssue k (kREG 0x24 d a b 0 0))) ∧
    (∃ (s : State) (k : Fin 256) (d : Fin 16) (a : Fin 16) (b : Fin 16), (s.m.mayIssue k (kREG 0x25 d a b 0 0))) ∧
    (∃ (s : State) (k : Fin 256) (a : Fin 16) (b : Fin 16), (s.m.mayIssue k (kREG 0x26 0 a b 0 0))) ∧
    (∃ (s : State) (k : Fin 256) (d : Fin 16) (a : Fin 16), (s.m.mayIssue k (kREG 0x20 d a 0 0 0))) ∧
    (∃ (s : State) (k : Fin 256) (d : Fin 16) (imm : BitVec 20), (s.m.mayIssue k (kIMM20 0x30 d imm.toNat))) ∧
    (∃ (s : State) (k : Fin 256) (d : Fin 16) (imm : BitVec 16), (s.m.mayIssue k (kIMM 0x31 d 0 imm.toNat))) := by
  unfold Chip.mayIssue
  exact ⟨⟨{ m := up0 |> runsAt 0 (kREG 0x14 0 0 0 0 0), pending := [] }, 0, 0, 0, 0, by decide +kernel⟩,
    ⟨{ m := up0 |> runsAt 0 (kREG 0x15 0 0 0 0 0), pending := [] }, 0, 0, 0, 0, by decide +kernel⟩,
    ⟨{ m := up0 |> runsAt 0 (kREG 0x16 0 0 0 0 0), pending := [] }, 0, 0, 0, 0, by decide +kernel⟩,
    ⟨{ m := up0 |> runsAt 0 (kREG 0x17 0 0 0 0 0), pending := [] }, 0, 0, 0, 0, by decide +kernel⟩,
    ⟨{ m := up0 |> runsAt 0 (kREG 0x21 0 0 0 0 0), pending := [] }, 0, 0, 0, by decide +kernel⟩,
    ⟨{ m := up0 |> runsAt 0 (kIMM 0x33 0 0 0), pending := [] }, 0, 0, 0, 0, by decide +kernel⟩,
    ⟨{ m := up0 |> runsAt 0 (kIMM 0x34 0 0 0), pending := [] }, 0, 0, 0, 0, by decide +kernel⟩,
    ⟨{ m := up0 |> runsAt 0 (kIMM 0x35 0 0 0), pending := [] }, 0, 0, 0, 0, by decide +kernel⟩,
    ⟨{ m := up0 |> runsAt 0 (kREG 0x1B 0 0 0 0 0), pending := [] }, 0, 0, 0, 0, by decide +kernel⟩,
    ⟨{ m := up0 |> runsAt 0 (kREG 0x1C 0 0 0 0 0), pending := [] }, 0, 0, 0, 0, by decide +kernel⟩,
    ⟨{ m := up0 |> runsAt 0 (kREG 0x24 0 0 0 0 0), pending := [] }, 0, 0, 0, 0, by decide +kernel⟩,
    ⟨{ m := up0 |> runsAt 0 (kREG 0x25 0 0 0 0 0), pending := [] }, 0, 0, 0, 0, by decide +kernel⟩,
    ⟨{ m := up0 |> runsAt 0 (kREG 0x26 0 0 0 0 0), pending := [] }, 0, 0, 0, by decide +kernel⟩,
    ⟨{ m := up0 |> runsAt 0 (kREG 0x20 0 0 0 0 0), pending := [] }, 0, 0, 0, by decide +kernel⟩,
    ⟨{ m := up0 |> runsAt 0 (kIMM20 0x30 0 0), pending := [] }, 0, 0, 0, by decide +kernel⟩,
    ⟨{ m := up0 |> runsAt 0 (kIMM 0x31 0 0 0), pending := [] }, 0, 0, 0, by decide +kernel⟩⟩

theorem wit_KnarinShifts :
    (∃ (s : State) (k : Fin 256) (d : Fin 16) (a : Fin 16) (b : Fin 16), (s.m.mayIssue k (kREG 0x18 d a b 0 0))) ∧
    (∃ (s : State) (k : Fin 256) (d : Fin 16) (a : Fin 16) (b : Fin 16), (s.m.mayIssue k (kREG 0x19 d a b 0 0))) ∧
    (∃ (s : State) (k : Fin 256) (d : Fin 16) (a : Fin 16) (b : Fin 16), (s.m.mayIssue k (kREG 0x1A d a b 0 0))) ∧
    (∃ (s : State) (k : Fin 256) (d : Fin 16) (a : Fin 16) (n : Fin 32), (s.m.mayIssue k (kIMM 0x36 d a n))) ∧
    (∃ (s : State) (k : Fin 256) (d : Fin 16) (a : Fin 16) (n : Fin 32), (s.m.mayIssue k (kIMM 0x37 d a n))) ∧
    (∃ (s : State) (k : Fin 256) (d : Fin 16) (a : Fin 16) (n : Fin 32), (s.m.mayIssue k (kIMM 0x38 d a n))) := by
  unfold Chip.mayIssue
  exact ⟨⟨{ m := up0 |> runsAt 0 (kREG 0x18 0 0 0 0 0), pending := [] }, 0, 0, 0, 0, by decide +kernel⟩,
    ⟨{ m := up0 |> runsAt 0 (kREG 0x19 0 0 0 0 0), pending := [] }, 0, 0, 0, 0, by decide +kernel⟩,
    ⟨{ m := up0 |> runsAt 0 (kREG 0x1A 0 0 0 0 0), pending := [] }, 0, 0, 0, 0, by decide +kernel⟩,
    ⟨{ m := up0 |> runsAt 0 (kIMM 0x36 0 0 0), pending := [] }, 0, 0, 0, 0, by decide +kernel⟩,
    ⟨{ m := up0 |> runsAt 0 (kIMM 0x37 0 0 0), pending := [] }, 0, 0, 0, 0, by decide +kernel⟩,
    ⟨{ m := up0 |> runsAt 0 (kIMM 0x38 0 0 0), pending := [] }, 0, 0, 0, 0, by decide +kernel⟩⟩

theorem wit_KnarinSaturatingAndDivide :
    (∃ (s : State) (k : Fin 256) (d : Fin 16) (a : Fin 16) (b : Fin 16), (s.m.mayIssue k (kREG 0x27 d a b 0 0))) ∧
    (∃ (s : State) (k : Fin 256) (d : Fin 16) (a : Fin 16) (b : Fin 16), (s.m.mayIssue k (kREG 0x28 d a b 0 0))) ∧
    (∃ (s : State) (k : Fin 256) (d : Fin 16) (a : Fin 16) (b : Fin 16), (s.m.mayIssue k (kREG 0x29 d a b 0 0))) ∧
    (∃ (s : State) (k : Fin 256) (d : Fin 16) (a : Fin 16) (b : Fin 16), (s.m.mayIssue k (kREG 0x2A d a b 0 0))) ∧
    (∃ (s : State) (k : Fin 256) (d : Fin 16) (a : Fin 16) (b : Fin 16), (s.m.mayIssue k (kREG 0x2B d a b 0 0))) := by
  unfold Chip.mayIssue
  exact ⟨⟨{ m := up0 |> runsAt 0 (kREG 0x27 0 0 0 0 0), pending := [] }, 0, 0, 0, 0, by decide +kernel⟩,
    ⟨{ m := up0 |> runsAt 0 (kREG 0x28 0 0 0 0 0), pending := [] }, 0, 0, 0, 0, by decide +kernel⟩,
    ⟨{ m := up0 |> runsAt 0 (kREG 0x29 0 0 0 0 0), pending := [] }, 0, 0, 0, 0, by decide +kernel⟩,
    ⟨{ m := up0 |> runsAt 0 (kREG 0x2A 0 0 0 0 0), pending := [] }, 0, 0, 0, 0, by decide +kernel⟩,
    ⟨{ m := up0 |> runsAt 0 (kREG 0x2B 0 0 0 0 0), pending := [] }, 0, 0, 0, 0, by decide +kernel⟩⟩

theorem wit_KnarinBitFields :
    (∃ (s : State) (k : Fin 256) (d : Fin 16) (a : Fin 16) (n : Nat), (n ≤ 32) ∧ ((∀ j < n, ((s.m.strand k).reg a).getLsbD (31 - j) = false)) ∧ ((n < 32 → ((s.m.strand k).reg a).getLsbD (31 - n) = true)) ∧ (s.m.mayIssue k (kREG 0x23 d a 0 0 0))) := by
  unfold Chip.mayIssue
  exact ⟨{ m := up0 |> runsAt 0 (kREG 0x23 0 0 0 0 0), pending := [] }, 0, 0, 0, 32, by decide +kernel⟩

theorem wit_KnarinLoads :
    (∃ (s : State) (k : Fin 256) (d : Fin 16) (a : Fin 16) (imm : BitVec 16), (s.m.mayIssue k (kIMM 0x40 d a imm.toNat)) ∧ (accessOk ((s.m.strand k).effAddr a imm) 4 0x100)) ∧
    (∃ (s : State) (k : Fin 256) (d : Fin 16) (a : Fin 16) (imm : BitVec 16), (s.m.mayIssue k (kIMM 0x41 d a imm.toNat)) ∧ (accessOk ((s.m.strand k).effAddr a imm) 2 0x100)) ∧
    (∃ (s : State) (k : Fin 256) (d : Fin 16) (a : Fin 16) (imm : BitVec 16), (s.m.mayIssue k (kIMM 0x42 d a imm.toNat)) ∧ (accessOk ((s.m.strand k).effAddr a imm) 1 0x100)) ∧
    (∃ (s : State) (k : Fin 256) (d : Fin 16) (a : Fin 16) (imm : BitVec 16), (s.m.mayIssue k (kIMM 0x46 d a imm.toNat)) ∧ (accessOk ((s.m.strand k).effAddr a imm) 4 0x40000)) ∧
    (∃ (s : State) (k : Fin 256) (d : Fin 16) (a : Fin 16) (imm : BitVec 16), (s.m.mayIssue k (kIMM 0x47 d a imm.toNat)) ∧ (accessOk ((s.m.strand k).effAddr a imm) 2 0x40000)) ∧
    (∃ (s : State) (k : Fin 256) (d : Fin 16) (a : Fin 16) (imm : BitVec 16), (s.m.mayIssue k (kIMM 0x48 d a imm.toNat)) ∧ (accessOk ((s.m.strand k).effAddr a imm) 1 0x40000)) := by
  unfold Chip.mayIssue accessOk
  exact ⟨⟨{ m := up0 |> runsAt 0 (kIMM 0x40 0 0 0), pending := [] }, 0, 0, 0, 0, by decide +kernel⟩,
    ⟨{ m := up0 |> runsAt 0 (kIMM 0x41 0 0 0), pending := [] }, 0, 0, 0, 0, by decide +kernel⟩,
    ⟨{ m := up0 |> runsAt 0 (kIMM 0x42 0 0 0), pending := [] }, 0, 0, 0, 0, by decide +kernel⟩,
    ⟨{ m := up0 |> runsAt 0 (kIMM 0x46 0 0 0), pending := [] }, 0, 0, 0, 0, by decide +kernel⟩,
    ⟨{ m := up0 |> runsAt 0 (kIMM 0x47 0 0 0), pending := [] }, 0, 0, 0, 0, by decide +kernel⟩,
    ⟨{ m := up0 |> runsAt 0 (kIMM 0x48 0 0 0), pending := [] }, 0, 0, 0, 0, by decide +kernel⟩⟩

theorem wit_KnarinStores :
    (∃ (s : State) (k : Fin 256) (d : Fin 16) (a : Fin 16) (imm : BitVec 16), (s.m.mayIssue k (kIMM 0x43 d a imm.toNat)) ∧ (accessOk ((s.m.strand k).effAddr a imm) 4 0x100)) ∧
    (∃ (s : State) (k : Fin 256) (d : Fin 16) (a : Fin 16) (imm : BitVec 16), (s.m.mayIssue k (kIMM 0x44 d a imm.toNat)) ∧ (accessOk ((s.m.strand k).effAddr a imm) 2 0x100)) ∧
    (∃ (s : State) (k : Fin 256) (d : Fin 16) (a : Fin 16) (imm : BitVec 16), (s.m.mayIssue k (kIMM 0x45 d a imm.toNat)) ∧ (accessOk ((s.m.strand k).effAddr a imm) 1 0x100)) ∧
    (∃ (s : State) (k : Fin 256) (d : Fin 16) (a : Fin 16) (imm : BitVec 16), (s.m.mayIssue k (kIMM 0x49 d a imm.toNat)) ∧ (accessOk ((s.m.strand k).effAddr a imm) 4 0x40000) ∧ (s.m.vendorArea k ((s.m.strand k).effAddr a imm) = false)) ∧
    (∃ (s : State) (k : Fin 256) (d : Fin 16) (a : Fin 16) (imm : BitVec 16), (s.m.mayIssue k (kIMM 0x4A d a imm.toNat)) ∧ (accessOk ((s.m.strand k).effAddr a imm) 2 0x40000) ∧ (s.m.vendorArea k ((s.m.strand k).effAddr a imm) = false)) ∧
    (∃ (s : State) (k : Fin 256) (d : Fin 16) (a : Fin 16) (imm : BitVec 16), (s.m.mayIssue k (kIMM 0x4B d a imm.toNat)) ∧ (accessOk ((s.m.strand k).effAddr a imm) 1 0x40000) ∧ (s.m.vendorArea k ((s.m.strand k).effAddr a imm) = false)) := by
  unfold Chip.mayIssue accessOk
  exact ⟨⟨{ m := up0 |> runsAt 0 (kIMM 0x43 0 0 0), pending := [] }, 0, 0, 0, 0, by decide +kernel⟩,
    ⟨{ m := up0 |> runsAt 0 (kIMM 0x44 0 0 0), pending := [] }, 0, 0, 0, 0, by decide +kernel⟩,
    ⟨{ m := up0 |> runsAt 0 (kIMM 0x45 0 0 0), pending := [] }, 0, 0, 0, 0, by decide +kernel⟩,
    ⟨{ m := up0 |> runsAt 0 (kIMM 0x49 0 0 0), pending := [] }, 0, 0, 0, 0, by decide +kernel⟩,
    ⟨{ m := up0 |> runsAt 0 (kIMM 0x4A 0 0 0), pending := [] }, 0, 0, 0, 0, by decide +kernel⟩,
    ⟨{ m := up0 |> runsAt 0 (kIMM 0x4B 0 0 0), pending := [] }, 0, 0, 0, 0, by decide +kernel⟩⟩

theorem wit_KnarinVendorArea :
    (∃ (s : State) (k : Fin 256) (d : Fin 16) (a : Fin 16) (imm : BitVec 16), (s.m.mayIssue k (kIMM 0x49 d a imm.toNat)) ∧ (accessOk ((s.m.strand k).effAddr a imm) 4 0x40000) ∧ (s.m.vendorArea k ((s.m.strand k).effAddr a imm) = true)) ∧
    (∃ (s : State) (k : Fin 256) (d : Fin 16) (a : Fin 16) (imm : BitVec 16), (s.m.mayIssue k (kIMM 0x4A d a imm.toNat)) ∧ (accessOk ((s.m.strand k).effAddr a imm) 2 0x40000) ∧ (s.m.vendorArea k ((s.m.strand k).effAddr a imm) = true)) ∧
    (∃ (s : State) (k : Fin 256) (d : Fin 16) (a : Fin 16) (imm : BitVec 16), (s.m.mayIssue k (kIMM 0x4B d a imm.toNat)) ∧ (accessOk ((s.m.strand k).effAddr a imm) 1 0x40000) ∧ (s.m.vendorArea k ((s.m.strand k).effAddr a imm) = true)) ∧
    (∃ (s : State) (k : Fin 256) (d : Fin 16) (a : Fin 16) (b : Fin 16) (c : Fin 16), (s.m.mayIssue k (kREG 0x50 d a b c 0)) ∧ (accessOk ((s.m.strand k).reg a).toNat 4 0x40000) ∧ (s.m.vendorArea k ((s.m.strand k).reg a).toNat = true)) ∧
    (∃ (s : State) (k : Fin 256) (d : Fin 16) (a : Fin 16) (b : Fin 16), (s.m.mayIssue k (kREG 0x51 d a b 0 0)) ∧ (accessOk ((s.m.strand k).reg a).toNat 4 0x40000) ∧ (s.m.vendorArea k ((s.m.strand k).reg a).toNat = true)) ∧
    (∃ (s : State) (k : Fin 256) (d : Fin 16) (a : Fin 16) (b : Fin 16), (s.m.mayIssue k (kREG 0x52 d a b 0 0)) ∧ (accessOk ((s.m.strand k).reg a).toNat 4 0x40000) ∧ (s.m.vendorArea k ((s.m.strand k).reg a).toNat = true)) := by
  unfold Chip.mayIssue accessOk
  exact ⟨⟨{ m := up0 |> runsAs .host 0 (kIMM 0x49 0 0 0), pending := [] }, 0, 0, 0, 0, by decide +kernel⟩,
    ⟨{ m := up0 |> runsAs .host 0 (kIMM 0x4A 0 0 0), pending := [] }, 0, 0, 0, 0, by decide +kernel⟩,
    ⟨{ m := up0 |> runsAs .host 0 (kIMM 0x4B 0 0 0), pending := [] }, 0, 0, 0, 0, by decide +kernel⟩,
    ⟨{ m := up0 |> runsAs .host 0 (kREG 0x50 0 0 0 0 0), pending := [] }, 0, 0, 0, 0, 0, by decide +kernel⟩,
    ⟨{ m := up0 |> runsAs .host 0 (kREG 0x51 0 0 0 0 0), pending := [] }, 0, 0, 0, 0, by decide +kernel⟩,
    ⟨{ m := up0 |> runsAs .host 0 (kREG 0x52 0 0 0 0 0), pending := [] }, 0, 0, 0, 0, by decide +kernel⟩⟩

theorem wit_KnarinAtomics :
    (∃ (s : State) (k : Fin 256) (d : Fin 16) (a : Fin 16) (b : Fin 16) (c : Fin 16), (s.m.mayIssue k (kREG 0x50 d a b c 0)) ∧ (accessOk ((s.m.strand k).reg a).toNat 4 0x40000) ∧ (s.m.vendorArea k ((s.m.strand k).reg a).toNat = false)) ∧
    (∃ (s : State) (k : Fin 256) (d : Fin 16) (a : Fin 16) (b : Fin 16), (s.m.mayIssue k (kREG 0x51 d a b 0 0)) ∧ (accessOk ((s.m.strand k).reg a).toNat 4 0x40000) ∧ (s.m.vendorArea k ((s.m.strand k).reg a).toNat = false)) ∧
    (∃ (s : State) (k : Fin 256) (d : Fin 16) (a : Fin 16) (b : Fin 16), (s.m.mayIssue k (kREG 0x52 d a b 0 0)) ∧ (accessOk ((s.m.strand k).reg a).toNat 4 0x40000) ∧ (s.m.vendorArea k ((s.m.strand k).reg a).toNat = false)) := by
  unfold Chip.mayIssue accessOk
  exact ⟨⟨{ m := up0 |> runsAt 0 (kREG 0x50 0 0 0 0 0), pending := [] }, 0, 0, 0, 0, 0, by decide +kernel⟩,
    ⟨{ m := up0 |> runsAt 0 (kREG 0x51 0 0 0 0 0), pending := [] }, 0, 0, 0, 0, by decide +kernel⟩,
    ⟨{ m := up0 |> runsAt 0 (kREG 0x52 0 0 0 0 0), pending := [] }, 0, 0, 0, 0, by decide +kernel⟩⟩

theorem wit_KnarinAccessFaults :
    (∃ (s : State) (k : Fin 256) (d : Fin 16) (a : Fin 16) (imm : BitVec 16), (s.m.mayIssue k (kIMM 0x40 d a imm.toNat)) ∧ (¬accessOk ((s.m.strand k).effAddr a imm) 4 0x100)) ∧
    (∃ (s : State) (k : Fin 256) (d : Fin 16) (a : Fin 16) (imm : BitVec 16), (s.m.mayIssue k (kIMM 0x41 d a imm.toNat)) ∧ (¬accessOk ((s.m.strand k).effAddr a imm) 2 0x100)) ∧
    (∃ (s : State) (k : Fin 256) (d : Fin 16) (a : Fin 16) (imm : BitVec 16), (s.m.mayIssue k (kIMM 0x42 d a imm.toNat)) ∧ (¬accessOk ((s.m.strand k).effAddr a imm) 1 0x100)) ∧
    (∃ (s : State) (k : Fin 256) (d : Fin 16) (a : Fin 16) (imm : BitVec 16), (s.m.mayIssue k (kIMM 0x43 d a imm.toNat)) ∧ (¬accessOk ((s.m.strand k).effAddr a imm) 4 0x100)) ∧
    (∃ (s : State) (k : Fin 256) (d : Fin 16) (a : Fin 16) (imm : BitVec 16), (s.m.mayIssue k (kIMM 0x44 d a imm.toNat)) ∧ (¬accessOk ((s.m.strand k).effAddr a imm) 2 0x100)) ∧
    (∃ (s : State) (k : Fin 256) (d : Fin 16) (a : Fin 16) (imm : BitVec 16), (s.m.mayIssue k (kIMM 0x45 d a imm.toNat)) ∧ (¬accessOk ((s.m.strand k).effAddr a imm) 1 0x100)) ∧
    (∃ (s : State) (k : Fin 256) (d : Fin 16) (a : Fin 16) (imm : BitVec 16), (s.m.mayIssue k (kIMM 0x46 d a imm.toNat)) ∧ (¬accessOk ((s.m.strand k).effAddr a imm) 4 0x40000)) ∧
    (∃ (s : State) (k : Fin 256) (d : Fin 16) (a : Fin 16) (imm : BitVec 16), (s.m.mayIssue k (kIMM 0x47 d a imm.toNat)) ∧ (¬accessOk ((s.m.strand k).effAddr a imm) 2 0x40000)) ∧
    (∃ (s : State) (k : Fin 256) (d : Fin 16) (a : Fin 16) (imm : BitVec 16), (s.m.mayIssue k (kIMM 0x48 d a imm.toNat)) ∧ (¬accessOk ((s.m.strand k).effAddr a imm) 1 0x40000)) ∧
    (∃ (s : State) (k : Fin 256) (d : Fin 16) (a : Fin 16) (imm : BitVec 16), (s.m.mayIssue k (kIMM 0x49 d a imm.toNat)) ∧ (¬accessOk ((s.m.strand k).effAddr a imm) 4 0x40000)) ∧
    (∃ (s : State) (k : Fin 256) (d : Fin 16) (a : Fin 16) (imm : BitVec 16), (s.m.mayIssue k (kIMM 0x4A d a imm.toNat)) ∧ (¬accessOk ((s.m.strand k).effAddr a imm) 2 0x40000)) ∧
    (∃ (s : State) (k : Fin 256) (d : Fin 16) (a : Fin 16) (imm : BitVec 16), (s.m.mayIssue k (kIMM 0x4B d a imm.toNat)) ∧ (¬accessOk ((s.m.strand k).effAddr a imm) 1 0x40000)) ∧
    (∃ (s : State) (k : Fin 256) (d : Fin 16) (a : Fin 16) (imm : BitVec 16), (s.m.mayIssue k (kIMM 0x4C d a imm.toNat)) ∧ (¬accessOk ((s.m.strand k).effAddr a imm) 4 0x1000000)) ∧
    (∃ (s : State) (k : Fin 256) (d : Fin 16) (a : Fin 16) (imm : BitVec 16), (s.m.mayIssue k (kIMM 0x4D d a imm.toNat)) ∧ (¬accessOk ((s.m.strand k).effAddr a imm) 4 0x1000000)) ∧
    (∃ (s : State) (k : Fin 256) (d : Fin 16) (a : Fin 16) (b : Fin 16) (c : Fin 16), (s.m.mayIssue k (kREG 0x50 d a b c 0)) ∧ (¬accessOk ((s.m.strand k).reg a).toNat 4 0x40000)) ∧
    (∃ (s : State) (k : Fin 256) (d : Fin 16) (a : Fin 16) (b : Fin 16), (s.m.mayIssue k (kREG 0x51 d a b 0 0)) ∧ (¬accessOk ((s.m.strand k).reg a).toNat 4 0x40000)) ∧
    (∃ (s : State) (k : Fin 256) (d : Fin 16) (a : Fin 16) (b : Fin 16), (s.m.mayIssue k (kREG 0x52 d a b 0 0)) ∧ (¬accessOk ((s.m.strand k).reg a).toNat 4 0x40000)) := by
  unfold Chip.mayIssue accessOk
  exact ⟨⟨{ m := up0 |> runsAt 0 (kIMM 0x40 0 0 0xFFFF), pending := [] }, 0, 0, 0, 0xFFFF, by decide +kernel⟩,
    ⟨{ m := up0 |> runsAt 0 (kIMM 0x41 0 0 0xFFFF), pending := [] }, 0, 0, 0, 0xFFFF, by decide +kernel⟩,
    ⟨{ m := up0 |> runsAt 0 (kIMM 0x42 0 0 0xFFFF), pending := [] }, 0, 0, 0, 0xFFFF, by decide +kernel⟩,
    ⟨{ m := up0 |> runsAt 0 (kIMM 0x43 0 0 0xFFFF), pending := [] }, 0, 0, 0, 0xFFFF, by decide +kernel⟩,
    ⟨{ m := up0 |> runsAt 0 (kIMM 0x44 0 0 0xFFFF), pending := [] }, 0, 0, 0, 0xFFFF, by decide +kernel⟩,
    ⟨{ m := up0 |> runsAt 0 (kIMM 0x45 0 0 0xFFFF), pending := [] }, 0, 0, 0, 0xFFFF, by decide +kernel⟩,
    ⟨{ m := up0 |> runsAt 0 (kIMM 0x46 0 0 0xFFFF), pending := [] }, 0, 0, 0, 0xFFFF, by decide +kernel⟩,
    ⟨{ m := up0 |> runsAt 0 (kIMM 0x47 0 0 0xFFFF), pending := [] }, 0, 0, 0, 0xFFFF, by decide +kernel⟩,
    ⟨{ m := up0 |> runsAt 0 (kIMM 0x48 0 0 0xFFFF), pending := [] }, 0, 0, 0, 0xFFFF, by decide +kernel⟩,
    ⟨{ m := up0 |> runsAt 0 (kIMM 0x49 0 0 0xFFFF), pending := [] }, 0, 0, 0, 0xFFFF, by decide +kernel⟩,
    ⟨{ m := up0 |> runsAt 0 (kIMM 0x4A 0 0 0xFFFF), pending := [] }, 0, 0, 0, 0xFFFF, by decide +kernel⟩,
    ⟨{ m := up0 |> runsAt 0 (kIMM 0x4B 0 0 0xFFFF), pending := [] }, 0, 0, 0, 0xFFFF, by decide +kernel⟩,
    ⟨{ m := up0 |> runsAt 0 (kIMM 0x4C 0 0 0xFFFF), pending := [] }, 0, 0, 0, 0xFFFF, by decide +kernel⟩,
    ⟨{ m := up0 |> runsAt 0 (kIMM 0x4D 0 0 0xFFFF), pending := [] }, 0, 0, 0, 0xFFFF, by decide +kernel⟩,
    ⟨{ m := up0 |> runsAt 0 (kREG 0x50 0 1 0 0 0) |> str 0 (fun o => o.put 1 0xFFFFFFFF), pending := [] }, 0, 0, 1, 0, 0, by decide +kernel⟩,
    ⟨{ m := up0 |> runsAt 0 (kREG 0x51 0 1 0 0 0) |> str 0 (fun o => o.put 1 0xFFFFFFFF), pending := [] }, 0, 0, 1, 0, by decide +kernel⟩,
    ⟨{ m := up0 |> runsAt 0 (kREG 0x52 0 1 0 0 0) |> str 0 (fun o => o.put 1 0xFFFFFFFF), pending := [] }, 0, 0, 1, 0, by decide +kernel⟩⟩

theorem wit_KnarinControl :
    (∃ (s : State) (k : Fin 256), (s.m.mayIssue k (kREG 0 0 0 0 0 0))) ∧
    (∃ (s : State) (k : Fin 256), (s.m.standsAt k (kREG 1 0 0 0 0 0))) ∧
    (∃ (s : State) (k : Fin 256), (s.m.standsAt k (kREG 2 0 0 0 0 0))) ∧
    (∃ (s : State) (k : Fin 256) (code : BitVec 8), (s.m.mayIssue k (kREG 3 0 0 0 0 code.toNat))) ∧
    (∃ (s : State) (k : Fin 256) (cond : Fin 11) (off : BitVec 20) (pc : Nat), (s.m.standsAt k (kIMM20 0x60 cond off.toNat)) ∧ ([true, (s.m.strand k).z, !(s.m.strand k).z, (s.m.strand k).n != (s.m.strand k).v, (s.m.strand k).n == (s.m.strand k).v, !(s.m.strand k).z && ((s.m.strand k).n == (s.m.strand k).v), (s.m.strand k).z || ((s.m.strand k).n != (s.m.strand k).v), (s.m.strand k).c, !(s.m.strand k).c, (s.m.strand k).n, !(s.m.strand k).n][cond.val]? = some true) ∧ ((pc : Int) = (s.m.strand k).pc + 4 * off.toInt) ∧ (inRegion (s.m.strand k).owner pc = true)) ∧
    (∃ (s : State) (k : Fin 256) (cond : Fin 11) (off : BitVec 20), (s.m.mayIssue k (kIMM20 0x60 cond off.toNat)) ∧ ([true, (s.m.strand k).z, !(s.m.strand k).z, (s.m.strand k).n != (s.m.strand k).v, (s.m.strand k).n == (s.m.strand k).v, !(s.m.strand k).z && ((s.m.strand k).n == (s.m.strand k).v), (s.m.strand k).z || ((s.m.strand k).n != (s.m.strand k).v), (s.m.strand k).c, !(s.m.strand k).c, (s.m.strand k).n, !(s.m.strand k).n][cond.val]? = some false)) ∧
    (∃ (s : State) (k : Fin 256) (off : BitVec 20) (pc : Nat), (s.m.standsAt k (kIMM20 0x61 0 off.toNat)) ∧ ((pc : Int) = (s.m.strand k).pc + 4 * off.toInt) ∧ (inRegion (s.m.strand k).owner pc = true)) ∧
    (∃ (s : State) (k : Fin 256) (a : Fin 16), (s.m.standsAt k (kREG 0x62 0 a 0 0 0)) ∧ (inRegion (s.m.strand k).owner ((s.m.strand k).reg a).toNat = true)) ∧
    (∃ (s : State) (k : Fin 256), (s.m.standsAt k (kREG 0x63 0 0 0 0 0)) ∧ (inRegion (s.m.strand k).owner ((s.m.strand k).reg 15).toNat = true)) ∧
    (∃ (s : State) (k : Fin 256), ((s.m.strand k).st = .running) ∧ (s.m.overBudget k = false) ∧ ((s.m.pcIn k = false ∨ wordDefined (s.m.nextWord k) = false))) := by
  unfold Chip.mayIssue Chip.standsAt
  exact ⟨⟨{ m := up0 |> runsAt 0 (kREG 0 0 0 0 0 0), pending := [] }, 0, by decide +kernel⟩,
    ⟨{ m := up0 |> runsAt 0 (kREG 1 0 0 0 0 0), pending := [] }, 0, by decide +kernel⟩,
    ⟨{ m := up0 |> runsAt 0 (kREG 2 0 0 0 0 0), pending := [] }, 0, by decide +kernel⟩,
    ⟨{ m := up0 |> runsAt 0 (kREG 3 0 0 0 0 0), pending := [] }, 0, 0, by decide +kernel⟩,
    ⟨{ m := up0 |> runsAt 0 (kIMM20 0x60 0 0), pending := [] }, 0, 0, 0, 0, by decide +kernel⟩,
    ⟨{ m := up0 |> runsAt 0 (kIMM20 0x60 1 0), pending := [] }, 0, 1, 0, by decide +kernel⟩,
    ⟨{ m := up0 |> runsAt 0 (kIMM20 0x61 0 0), pending := [] }, 0, 0, 0, by decide +kernel⟩,
    ⟨{ m := up0 |> runsAt 0 (kREG 0x62 0 0 0 0 0), pending := [] }, 0, 0, by decide +kernel⟩,
    ⟨{ m := up0 |> runsAt 0 (kREG 0x63 0 0 0 0 0), pending := [] }, 0, by decide +kernel⟩,
    ⟨{ m := up0 |> runsAt 0 0xFFFFFFFF, pending := [] }, 0, by decide +kernel⟩⟩

theorem wit_KnarinSystemValues :
    (∃ (s : State) (k : Fin 256) (d : Fin 16), (s.m.mayIssue k (kREG 4 d 0 0 0 0))) ∧
    (∃ (s : State) (k : Fin 256) (d : Fin 16), (s.m.mayIssue k (kREG 4 d 0 0 0 1))) ∧
    (∃ (s : State) (k : Fin 256) (d : Fin 16), (s.m.mayIssue k (kREG 4 d 0 0 0 2))) ∧
    (∃ (s : State) (k : Fin 256) (d : Fin 16), (s.m.mayIssue k (kREG 4 d 0 0 0 3))) ∧
    (∃ (s : State) (k : Fin 256) (d : Fin 16), (s.m.mayIssue k (kREG 4 d 0 0 0 4))) ∧
    (∃ (s : State) (k : Fin 256) (d : Fin 16), (s.m.mayIssue k (kREG 4 d 0 0 0 5))) ∧
    (∃ (s : State) (k : Fin 256) (d : Fin 16), (s.m.mayIssue k (kREG 4 d 0 0 0 6))) ∧
    (∃ (s : State) (k : Fin 256) (d : Fin 16), (s.m.mayIssue k (kREG 4 d 0 0 0 7))) ∧
    (∃ (s : State) (k : Fin 256) (d : Fin 16), (s.m.mayIssue k (kREG 4 d 0 0 0 8))) := by
  unfold Chip.mayIssue
  exact ⟨⟨{ m := up0 |> runsAt 0 (kREG 4 0 0 0 0 0), pending := [] }, 0, 0, by decide +kernel⟩,
    ⟨{ m := up0 |> runsAt 0 (kREG 4 0 0 0 0 1), pending := [] }, 0, 0, by decide +kernel⟩,
    ⟨{ m := up0 |> runsAt 0 (kREG 4 0 0 0 0 2), pending := [] }, 0, 0, by decide +kernel⟩,
    ⟨{ m := up0 |> runsAt 0 (kREG 4 0 0 0 0 3), pending := [] }, 0, 0, by decide +kernel⟩,
    ⟨{ m := up0 |> runsAt 0 (kREG 4 0 0 0 0 4), pending := [] }, 0, 0, by decide +kernel⟩,
    ⟨{ m := up0 |> runsAt 0 (kREG 4 0 0 0 0 5), pending := [] }, 0, 0, by decide +kernel⟩,
    ⟨{ m := up0 |> runsAt 0 (kREG 4 0 0 0 0 6), pending := [] }, 0, 0, by decide +kernel⟩,
    ⟨{ m := up0 |> runsAt 0 (kREG 4 0 0 0 0 7), pending := [] }, 0, 0, by decide +kernel⟩,
    ⟨{ m := up0 |> runsAt 0 (kREG 4 0 0 0 0 8), pending := [] }, 0, 0, by decide +kernel⟩⟩

theorem wit_ResetsPowerOnAndBoot :
    (∃ (s : State), (s.m.pwr.base ≠ .ship) ∧ (s.m.pwr.base ≠ .off)) ∧
    (∃ (s : State), (s.m.pwr.base = .ship)) ∧
    (∃ (s : State) (_role : Bool) (_refsel : Bool), (s.m.pwr.base = .ship) ∧ (s.m.pwr.wakeDue ≠ 0)) ∧
    (∃ (s : State) (_role : Bool) (_refsel : Bool), (s.m.pwr.base = .off)) ∧
    (∃ (s : State), (s.m.pwr.base ≠ .ship) ∧ (s.m.pwr.base ≠ .off)) ∧
    (∃ (s : State) (_us : Nat) (_copied : Nat) (act : Fin 8) (_rol : Fin 8), (s.m.pwr.base = .boot) ∧ (s.m.pwr.ecdFired = false) ∧ (s.m.nvm.erasing = false) ∧ (s.m.upd.copying = none) ∧ (s.m.upd.stg ≠ .pending) ∧ (s.m.upd.trial = false) ∧ (bootCheck act = 0)) := by
  exact ⟨⟨{ m := up0, pending := [] }, by decide +kernel⟩,
    ⟨{ m := up0 |> pw (fun o => { o with base := .ship }), pending := [] }, by decide +kernel⟩,
    ⟨{ m := up0 |> pw (fun o => { o with base := .ship, wakeDue := 1 }), pending := [] }, false, false, by decide +kernel⟩,
    ⟨{ m := up0 |> pw (fun o => { o with base := .off }), pending := [] }, false, false, by decide +kernel⟩,
    ⟨{ m := up0, pending := [] }, by decide +kernel⟩,
    ⟨{ m := up0 |> pw (fun o => { o with base := .boot }) |> pw (fun o => { o with ecdFired := false }) |> nv (fun o => { o with erasing := false }) |> ud (fun o => { o with copying := none }) |> ud (fun o => { o with trial := false }), pending := [] }, 0, 0, 0, 0, by decide +kernel⟩⟩

theorem wit_ModeCommands :
    (∃ (s : State) (ag : Agent), (s.m.grants ag (RName.addr .pwrmCmd 0) (1))) ∧
    (∃ (s : State) (ag : Agent), (s.m.grants ag (RName.addr .pwrmCmd 0) (2))) ∧
    (∃ (s : State) (ag : Agent), (s.m.grants ag (RName.addr .pwrmCmd 0) (4))) ∧
    (∃ (s : State) (ag : Agent), (s.m.grants ag (RName.addr .pwrmCmd 0) (5))) ∧
    (∃ (s : State) (ag : Agent), (s.m.grants ag (RName.addr .pwrmCmd 0) (6))) ∧
    (∃ (s : State) (ag : Agent), (s.m.grants ag (RName.addr .pwrmCmd 0) (7))) ∧
    (∃ (s : State) (ag : Agent), (s.m.grants ag (RName.addr .pwrmCmd 0) (8))) ∧
    (∃ (m : Chip), (m.srcCondition = true)) ∧
    (∃ (m : Chip), (m.srcCondition = false) ∧ (m.stringIn = true)) ∧
    (∃ (m : Chip), (m.srcCondition = false) ∧ (m.stringIn = false)) ∧
    (∃ (s : State), (s.m.pwr.autoPend = true) ∧ (s.m.mode = 3) ∧ (s.m.polReady = true) ∧ (s.m.srcCondition = true)) ∧
    (∃ (s : State), (s.m.pwr.autoPend = false)) ∧
    (∃ (s : State) (ag : Agent) (_welded : BitVec 4 × Bool), (s.m.grants ag (RName.addr .pwrmCmd 0) 3) ∧ ((ag = .svc → 2 ≤ s.m.upd.session))) := by
  unfold Chip.grants Chip.open_
  exact ⟨⟨{ m := up0 |> po (fun o => { o with profOk := true }) |> rg .srcCfg 0 31 24 0, pending := [] }, .fw, by decide +kernel⟩,
    ⟨{ m := up0 |> pw (fun o => { o with base := .source }), pending := [] }, .fw, by decide +kernel⟩,
    ⟨{ m := up0 |> pw (fun o => { o with condSafe := true }), pending := [] }, .host, by decide +kernel⟩,
    ⟨{ m := up0 |> ud (fun o => { o with session := 2 }), pending := [] }, .svc, by decide +kernel⟩,
    ⟨{ m := up0 |> ud (fun o => { o with session := 2 }) |> pw (fun o => { o with condSvc := true }), pending := [] }, .svc, by decide +kernel⟩,
    ⟨{ m := up0 |> ud (fun o => { o with session := 2, present := true }) |> nv (fun o => { o with lock := true }), pending := [] }, .svc, by decide +kernel⟩,
    ⟨{ m := up0, pending := [] }, .host, by decide +kernel⟩,
    ⟨up0.putF .srcCfg 0 31 24 0, by decide +kernel⟩,
    ⟨(up0 |> rg .srcCfg 0 31 24 1 |> bs 0 (fun o => { o with st := .closed })), by decide +kernel⟩,
    ⟨up0, by decide +kernel⟩,
    ⟨{ m := up0 |> po (fun o => { o with profOk := true }) |> pw (fun o => { o with autoPend := true }) |> rg .srcCfg 0 31 24 0, pending := [] }, by decide +kernel⟩,
    ⟨{ m := up0 |> pw (fun o => { o with autoPend := false }), pending := [] }, by decide +kernel⟩,
    ⟨{ m := up0, pending := [] }, .host, 0, by decide +kernel⟩⟩

theorem wit_CollapseDetectorAndClocks :
    (∃ (s : State), (s.m.alive = true) ∧ (s.m.flag .pwrmEcd 0 12 = true) ∧ (s.m.pwr.ecdFired = false)) ∧
    (∃ (s : State), (s.m.pwr.ecdFired = true) ∧ (s.m.nvm.erasing = false) ∧ (s.m.sec.eraseDue = false)) ∧
    (∃ (s : State), (s.m.pwr.ecdFired = true) ∧ (s.m.nvm.erasing = false) ∧ (s.m.sec.eraseDue = false) ∧ (s.m.abandoned = none) ∧ ((∀ u, (s.m.cap u).torn = false)) ∧ (s.m.est.abandoned = none) ∧ (s.m.est.due = false)) ∧
    (∃ (s : State), (s.m.alive = true) ∧ (s.m.pwr.lfrc = false)) ∧
    (∃ (s : State), (s.m.pwr.base ≠ .off) ∧ (s.m.pwr.lfrc = true)) ∧
    (∃ (s : State), (s.m.alive = true) ∧ (s.m.pwr.refrc = false)) ∧
    (∃ (s : State), (s.m.alive = true) ∧ (s.m.pwr.refrc = true)) ∧
    (∃ (s : State), (s.m.alive = true) ∧ (s.m.pwr.ecdFired = false)) := by
  exact ⟨⟨{ m := up0 |> rg .pwrmEcd 0 12 12 1 |> pw (fun o => { o with ecdFired := false }), pending := [] }, by decide +kernel⟩,
    ⟨{ m := up0 |> pw (fun o => { o with ecdFired := true }) |> nv (fun o => { o with erasing := false }) |> se (fun o => { o with eraseDue := false }), pending := [] }, by decide +kernel⟩,
    ⟨{ m := up0 |> pw (fun o => { o with ecdFired := true }), pending := [] }, (by (repeat' apply And.intro) <;> first | decide +kernel | exact fun _ => rfl)⟩,
    ⟨{ m := up0 |> pw (fun o => { o with lfrc := false }), pending := [] }, by decide +kernel⟩,
    ⟨{ m := up0 |> pw (fun o => { o with lfrc := true }), pending := [] }, by decide +kernel⟩,
    ⟨{ m := up0 |> pw (fun o => { o with refrc := false }), pending := [] }, by decide +kernel⟩,
    ⟨{ m := up0 |> pw (fun o => { o with refrc := true }), pending := [] }, by decide +kernel⟩,
    ⟨{ m := up0 |> pw (fun o => { o with ecdFired := false }), pending := [] }, by decide +kernel⟩⟩

theorem wit_DomainsAndHeldAccesses :
    (∃ (s : State) (ag : Agent) (addr : BitVec 24) (d : Word), (s.m.grants ag addr.toNat d)) ∧
    (∃ (s : State) (ag : Agent) (addr : BitVec 24) (d : Word), (s.m.open_ ag) ∧ (s.m.writeVerdict ag addr.toNat d = none) ∧ (s.m.usableDom (domOf addr.toNat) = false)) ∧
    (∃ (s : State) (h : Held), (s.m.pwr.held.find? s.m.heldReady = some h)) ∧
    (∃ (s : State) (d : Dom), (s.m.domBusy d = false) ∧ ((∀ h ∈ s.m.pwr.held, domOf h.addr ≠ d))) ∧
    (∃ (s : State) (_p : Pair), (s.m.alive = true)) ∧
    (∃ (s : State), (s.m.alive = true)) := by
  unfold Chip.grants Chip.open_
  exact ⟨⟨{ m := up0, pending := [] }, .fw, 0, 0, by decide +kernel⟩,
    ⟨{ m := up0, pending := [] }, .fw, BitVec.ofNat 24 (RName.addr .slkOffergen 0), 0, by decide +kernel⟩,
    ⟨{ m := up0 |> pw (fun o => { o with held := [{ ag := .host, write := false, addr := 0, data := 0, dst := 0 }] }), pending := [] }, { ag := .host, write := false, addr := 0, data := 0, dst := 0 }, by decide +kernel⟩,
    ⟨{ m := up0, pending := [] }, .lnk, by decide +kernel⟩,
    ⟨{ m := up0, pending := [] }, .a, by decide +kernel⟩,
    ⟨{ m := up0, pending := [] }, by decide +kernel⟩⟩

theorem wit_KnarinTimeWaits :
    (∃ (s : State) (k : Fin 256) (n : BitVec 20), (s.m.mayIssue k (kIMM20 0x70 0 n.toNat)) ∧ (n = 0)) ∧
    (∃ (s : State) (k : Fin 256) (n : BitVec 20), (s.m.mayIssue k (kIMM20 0x70 0 n.toNat)) ∧ (n ≠ 0)) ∧
    (∃ (s : State) (k : Fin 256) (a : Fin 16), (s.m.mayIssue k (kREG 0x71 0 a 0 0 0)) ∧ (((s.m.strand k).reg a) = 0)) ∧
    (∃ (s : State) (k : Fin 256) (a : Fin 16), (s.m.mayIssue k (kREG 0x71 0 a 0 0 0)) ∧ (((s.m.strand k).reg a) ≠ 0)) ∧
    (∃ (s : State) (k : Fin 256) (n : BitVec 20), (s.m.mayIssue k (kIMM20 0x72 0 n.toNat))) ∧
    (∃ (s : State) (k : Fin 256) (a : Fin 16), (s.m.mayIssue k (kREG 0x73 0 a 0 0 0))) ∧
    (∃ (s : State) (k : Fin 256) (d : Fin 16) (c : Option (Fin 16)), (s.m.mayIssue k (kREG 0x74 d 0 0 (timeoutFn (c.map Fin.val) 0).1 (timeoutFn (c.map Fin.val) 0).2)) ∧ ((s.m.strand k).tick = true)) ∧
    (∃ (s : State) (k : Fin 256) (d : Fin 16) (c : Option (Fin 16)), (s.m.mayIssue k (kREG 0x74 d 0 0 (timeoutFn (c.map Fin.val) 0).1 (timeoutFn (c.map Fin.val) 0).2)) ∧ (¬((s.m.strand k).tick = true))) ∧
    (∃ (s : State) (k : Fin 256) (d : Fin 16) (line : Fin 4) (a : Fin 16) (c : Option (Fin 16)), (s.m.mayIssue k (kREG 0x75 d a 0 (timeoutFn (c.map Fin.val) line).1 (timeoutFn (c.map Fin.val) line).2)) ∧ (s.m.get .layEvline line ≠ (s.m.strand k).reg a)) ∧
    (∃ (s : State) (k : Fin 256) (d : Fin 16) (line : Fin 4) (a : Fin 16) (c : Option (Fin 16)), (s.m.mayIssue k (kREG 0x75 d a 0 (timeoutFn (c.map Fin.val) line).1 (timeoutFn (c.map Fin.val) line).2)) ∧ (¬(s.m.get .layEvline line ≠ (s.m.strand k).reg a))) := by
  unfold Chip.mayIssue
  exact ⟨⟨{ m := up0 |> runsAt 0 (kIMM20 0x70 0 0), pending := [] }, 0, 0, by decide +kernel⟩,
    ⟨{ m := up0 |> runsAt 0 (kIMM20 0x70 0 1), pending := [] }, 0, 1, by decide +kernel⟩,
    ⟨{ m := up0 |> runsAt 0 (kREG 0x71 0 0 0 0 0), pending := [] }, 0, 0, by decide +kernel⟩,
    ⟨{ m := up0 |> runsAt 0 (kREG 0x71 0 1 0 0 0) |> str 0 (fun o => o.put 1 1), pending := [] }, 0, 1, by decide +kernel⟩,
    ⟨{ m := up0 |> runsAt 0 (kIMM20 0x72 0 0), pending := [] }, 0, 0, by decide +kernel⟩,
    ⟨{ m := up0 |> runsAt 0 (kREG 0x73 0 0 0 0 0), pending := [] }, 0, 0, by decide +kernel⟩,
    ⟨{ m := up0 |> runsAt 0 (kREG 0x74 0 0 0 (timeoutFn (((none : Option (Fin 16))).map Fin.val) 0).1 (timeoutFn (((none : Option (Fin 16))).map Fin.val) 0).2) |> str 0 (fun o => { o with tick := true }), pending := [] }, 0, 0, none, by decide +kernel⟩,
    ⟨{ m := up0 |> runsAt 0 (kREG 0x74 0 0 0 (timeoutFn (((none : Option (Fin 16))).map Fin.val) 0).1 (timeoutFn (((none : Option (Fin 16))).map Fin.val) 0).2), pending := [] }, 0, 0, none, by decide +kernel⟩,
    ⟨{ m := up0 |> runsAt 0 (kREG 0x75 0 1 0 (timeoutFn none 0).1 (timeoutFn none 0).2) |> str 0 (fun o => o.put 1 1), pending := [] }, 0, 0, 0, 1, none, by decide +kernel⟩,
    ⟨{ m := up0 |> runsAt 0 (kREG 0x75 0 0 0 (timeoutFn (((none : Option (Fin 16))).map Fin.val) 0).1 (timeoutFn (((none : Option (Fin 16))).map Fin.val) 0).2), pending := [] }, 0, 0, 0, 0, none, by decide +kernel⟩⟩

theorem wit_KnarinTokens :
    (∃ (s : State) (k : Fin 256) (d : Fin 16) (a : Fin 16) (c : Option (Fin 16)), (s.m.mayIssue k (kREG 0x76 d a 0 (timeoutFn (c.map Fin.val) 0).1 (timeoutFn (c.map Fin.val) 0).2)) ∧ ((s.m.strand k).tokenEntry ((s.m.strand k).reg a) = none)) ∧
    (∃ (s : State) (k : Fin 256) (d : Fin 16) (a : Fin 16) (c : Option (Fin 16)) (e : Nat) (st : Status) (w : Word), (s.m.mayIssue k (kREG 0x76 d a 0 (timeoutFn (c.map Fin.val) 0).1 (timeoutFn (c.map Fin.val) 0).2)) ∧ ((s.m.strand k).tokenEntry ((s.m.strand k).reg a) = some e) ∧ (((s.m.strand k).tok e).done = some (st, w))) ∧
    (∃ (s : State) (k : Fin 256) (d : Fin 16) (a : Fin 16) (c : Option (Fin 16)) (e : Nat), (s.m.mayIssue k (kREG 0x76 d a 0 (timeoutFn (c.map Fin.val) 0).1 (timeoutFn (c.map Fin.val) 0).2)) ∧ ((s.m.strand k).tokenEntry ((s.m.strand k).reg a) = some e) ∧ (((s.m.strand k).tok e).done = none)) ∧
    (∃ (s : State) (k : Fin 256) (d : Fin 16) (a : Fin 16), (s.m.mayIssue k (kREG 0x77 d a 0 0 0)) ∧ ((s.m.strand k).tokenEntry ((s.m.strand k).reg a) = none)) ∧
    (∃ (s : State) (k : Fin 256) (d : Fin 16) (a : Fin 16) (e : Nat) (st : Status) (w : Word), (s.m.mayIssue k (kREG 0x77 d a 0 0 0)) ∧ ((s.m.strand k).tokenEntry ((s.m.strand k).reg a) = some e) ∧ (((s.m.strand k).tok e).done = some (st, w))) ∧
    (∃ (s : State) (k : Fin 256) (d : Fin 16) (a : Fin 16) (e : Nat), (s.m.mayIssue k (kREG 0x77 d a 0 0 0)) ∧ ((s.m.strand k).tokenEntry ((s.m.strand k).reg a) = some e) ∧ (((s.m.strand k).tok e).done = none)) ∧
    (∃ (s : State) (k : Fin 256) (a : Fin 16), (s.m.mayIssue k (kREG 0x78 0 a 0 0 0)) ∧ ((s.m.strand k).tokenEntry ((s.m.strand k).reg a) = none)) ∧
    (∃ (s : State) (k : Fin 256) (a : Fin 16) (e : Nat), (s.m.mayIssue k (kREG 0x78 0 a 0 0 0)) ∧ ((s.m.strand k).tokenEntry ((s.m.strand k).reg a) = some e)) := by
  unfold Chip.mayIssue
  exact ⟨⟨{ m := up0 |> runsAt 0 (kREG 0x76 0 0 0 (timeoutFn (((none : Option (Fin 16))).map Fin.val) 0).1 (timeoutFn (((none : Option (Fin 16))).map Fin.val) 0).2), pending := [] }, 0, 0, 0, none, by decide +kernel⟩,
    ⟨{ m := up0 |> runsAt 0 (kREG 0x76 0 0 0 (timeoutFn (((none : Option (Fin 16))).map Fin.val) 0).1 (timeoutFn (((none : Option (Fin 16))).map Fin.val) 0).2) |> str 0 (fun o => { o with toks := [(0, { used := true, dropped := false, serial := 0, done := some (.ok, 7) })] }), pending := [] }, 0, 0, 0, none, 0, .ok, 7, by decide +kernel⟩,
    ⟨{ m := up0 |> runsAt 0 (kREG 0x76 0 0 0 (timeoutFn (((none : Option (Fin 16))).map Fin.val) 0).1 (timeoutFn (((none : Option (Fin 16))).map Fin.val) 0).2) |> str 0 (fun o => { o with toks := [(0, { used := true, dropped := false, serial := 0, done := none })] }), pending := [] }, 0, 0, 0, none, 0, by decide +kernel⟩,
    ⟨{ m := up0 |> runsAt 0 (kREG 0x77 0 0 0 0 0), pending := [] }, 0, 0, 0, by decide +kernel⟩,
    ⟨{ m := up0 |> runsAt 0 (kREG 0x77 0 0 0 0 0) |> str 0 (fun o => { o with toks := [(0, { used := true, dropped := false, serial := 0, done := some (.ok, 7) })] }), pending := [] }, 0, 0, 0, 0, .ok, 7, by decide +kernel⟩,
    ⟨{ m := up0 |> runsAt 0 (kREG 0x77 0 0 0 0 0) |> str 0 (fun o => { o with toks := [(0, { used := true, dropped := false, serial := 0, done := none })] }), pending := [] }, 0, 0, 0, 0, by decide +kernel⟩,
    ⟨{ m := up0 |> runsAt 0 (kREG 0x78 0 0 0 0 0), pending := [] }, 0, 0, by decide +kernel⟩,
    ⟨{ m := up0 |> runsAt 0 (kREG 0x78 0 0 0 0 0) |> str 0 (fun o => { o with toks := [(0, { used := true, dropped := false, serial := 0, done := none })] }), pending := [] }, 0, 0, 0, by decide +kernel⟩⟩

theorem wit_KnarinMailboxesAndDevices :
    (∃ (s : State) (k : Fin 256) (b : Fin 16) (ch : Fin 64) (side : Bool), (s.m.mayIssue k (kREG 0x80 0 0 b 0 ch)) ∧ (s.m.mbxStatus k ch = .ok) ∧ (sideOf (.strands (s.m.strand k).owner (s.m.strand k).group) ch = some side) ∧ ((s.m.mq ch side).length < 16)) ∧
    (∃ (s : State) (k : Fin 256) (b : Fin 16) (ch : Fin 64) (side : Bool), (s.m.mayIssue k (kREG 0x80 0 0 b 0 ch)) ∧ (s.m.mbxStatus k ch = .ok) ∧ (sideOf (.strands (s.m.strand k).owner (s.m.strand k).group) ch = some side) ∧ (16 ≤ (s.m.mq ch side).length)) ∧
    (∃ (s : State) (k : Fin 256) (d : Fin 16) (a : Fin 16) (w : BitVec 8), (s.m.mayIssue k (kREG 0x90 d a 0 0 w.toNat)) ∧ (((s.m.strand k).reg a).toNat < 64) ∧ ((s.m.putStrand k (s.m.strand k).moved).gate false (.strand k) (loopAddr ((s.m.strand k).reg a).toNat w.toNat) 0 = {})) ∧
    (∃ (s : State) (k : Fin 256) (b : Fin 16) (a : Fin 16) (w : BitVec 8), (s.m.mayIssue k (kREG 0x91 0 a b 0 w.toNat)) ∧ (((s.m.strand k).reg a).toNat < 64) ∧ ((s.m.putStrand k (s.m.strand k).moved).writeVerdict (.strand k) (loopAddr ((s.m.strand k).reg a).toNat w.toNat) ((s.m.strand k).reg b) = none)) ∧
    (∃ (s : State) (k : Fin 256) (b : Fin 16) (a : Fin 16), (s.m.mayIssue k (kREG 0x92 0 a b 0 0)) ∧ (((s.m.strand k).reg a).toNat < 64) ∧ ((s.m.putStrand k (s.m.strand k).moved).writeVerdict (.strand k) (loopAddr ((s.m.strand k).reg a).toNat 2) ((s.m.strand k).reg b) = none)) ∧
    (∃ (s : State) (k : Fin 256) (a : Fin 16) (blk : Fin 8), (s.m.mayIssue k (kREG 0x93 0 a 0 0 blk)) ∧ (((s.m.strand k).reg a).toNat < 64) ∧ ((s.m.putStrand k (s.m.strand k).moved).writeVerdict (.strand k) (RName.cleCommit.addr 0) (wd (((s.m.strand k).reg a).toNat + 2 ^ blk.val * 256)) = none)) ∧
    (∃ (s : State) (k : Fin 256) (d : Fin 16) (a : Fin 16) (imm : BitVec 16), (s.m.mayIssue k (kIMM 0x4D d a imm.toNat)) ∧ (accessOk ((s.m.strand k).effAddr a imm) 4 0x1000000) ∧ ((s.m.putStrand k (s.m.strand k).moved).writeVerdict (.strand k) ((s.m.strand k).effAddr a imm) ((s.m.strand k).reg d) = none) ∧ (s.m.mustHold { ag := .strand k, write := true, addr := ((s.m.strand k).effAddr a imm), data := (s.m.strand k).reg d, dst := d } = false)) ∧
    (∃ (s : State) (k : Fin 256) (d : Fin 16) (a : Fin 16) (imm : BitVec 16), (s.m.mayIssue k (kIMM 0x4C d a imm.toNat)) ∧ (accessOk ((s.m.strand k).effAddr a imm) 4 0x1000000) ∧ (s.m.mustHold { ag := .strand k, write := false, addr := ((s.m.strand k).effAddr a imm), data := (s.m.strand k).reg d, dst := d } = false)) := by
  unfold Chip.mayIssue accessOk
  exact ⟨⟨{ m := up0 |> runsAt 0 (kREG 0x80 0 0 0 0 48), pending := [] }, 0, 0, 48, false, by decide +kernel⟩,
    ⟨{ m := up0 |> runsAt 0 (kREG 0x80 0 0 0 0 48) |> hs (fun o => { o with ba := [(48, List.replicate 16 0)] }), pending := [] }, 0, 0, 48, false, by decide +kernel⟩,
    ⟨{ m := up0 |> runsAt 0 (kREG 0x90 0 0 0 0 0), pending := [] }, 0, 0, 0, 0, by decide +kernel⟩,
    ⟨{ m := up0 |> runsAt 0 (kREG 0x91 0 0 0 0 0), pending := [] }, 0, 0, 0, 0, by decide +kernel⟩,
    ⟨{ m := up0 |> runsAt 0 (kREG 0x92 0 0 0 0 0), pending := [] }, 0, 0, 0, by decide +kernel⟩,
    ⟨{ m := up0 |> runsAt 0 (kREG 0x93 0 0 0 0 0) |> chain 0, pending := [] }, 0, 0, 0, by decide +kernel⟩,
    ⟨{ m := up0 |> runsAt 0 (kIMM 0x4D 0 0 0), pending := [] }, 0, 0, 0, 0, by decide +kernel⟩,
    ⟨{ m := up0 |> runsAt 0 (kIMM 0x4C 0 0 0), pending := [] }, 0, 0, 0, 0, by decide +kernel⟩⟩

theorem wit_KnarinPartnerIssuesAndRecords :
    (∃ (s : State) (k : Fin 256) (d : Fin 16) (a : Fin 16) (item : BitVec 12) (i : Nat), (s.m.mayIssue k (kPTR 0xA0 d a 0 item.toNat)) ∧ ((s.m.strand k).freeTok = some i) ∧ (s.m.issueJudge k .read ((s.m.strand k).reg a).toNat item.toNat ((s.m.strand k).reg 0) = .ok)) ∧
    (∃ (s : State) (k : Fin 256) (d : Fin 16) (a : Fin 16) (b : Fin 16) (item : BitVec 12) (i : Nat), (s.m.mayIssue k (kPTR 0xA1 d a b item.toNat)) ∧ ((s.m.strand k).freeTok = some i) ∧ (s.m.issueJudge k .write ((s.m.strand k).reg a).toNat item.toNat ((s.m.strand k).reg b) = .ok)) ∧
    (∃ (s : State) (k : Fin 256) (d : Fin 16) (a : Fin 16) (item : BitVec 12) (i : Nat), (s.m.mayIssue k (kPTR 0xA2 d a 0 item.toNat)) ∧ ((s.m.strand k).freeTok = some i) ∧ (s.m.issueJudge k .cmd ((s.m.strand k).reg a).toNat item.toNat ((s.m.strand k).reg 0) = .ok)) ∧
    (∃ (s : State) (k : Fin 256) (d : Fin 16) (a : Fin 16) (b : Fin 16) (item : BitVec 12) (i : Nat), (s.m.mayIssue k (kPTR 0xA3 d a b item.toNat)) ∧ ((s.m.strand k).freeTok = some i) ∧ (s.m.issueJudge k .blkr ((s.m.strand k).reg a).toNat item.toNat ((s.m.strand k).reg b) = .ok)) ∧
    (∃ (s : State) (k : Fin 256) (d : Fin 16) (a : Fin 16) (b : Fin 16) (item : BitVec 12) (i : Nat), (s.m.mayIssue k (kPTR 0xA4 d a b item.toNat)) ∧ ((s.m.strand k).freeTok = some i) ∧ (s.m.issueJudge k .blkw ((s.m.strand k).reg a).toNat item.toNat ((s.m.strand k).reg b) = .ok)) ∧
    (∃ (s : State) (k : Fin 256) (d : Fin 16) (a : Fin 16) (b : Fin 16) (item : BitVec 12) (i : Nat), (s.m.mayIssue k (kPTR 0xA5 d a b item.toNat)) ∧ ((s.m.strand k).freeTok = some i) ∧ (s.m.issueJudge k .setp ((s.m.strand k).reg a).toNat item.toNat ((s.m.strand k).reg b) = .ok)) ∧
    (∃ (s : State) (k : Fin 256) (code : BitVec 16), (s.m.mayIssue k (kIMM 0xB0 0 0 code.toNat)) ∧ (s.m.recLevel (s.m.strand k).owner + 31250 ≤ 2000000) ∧ (s.m.rcd.queue.length < 256)) ∧
    (∃ (s : State) (k : Fin 256) (code : BitVec 16), (s.m.mayIssue k (kIMM 0xB0 0 0 code.toNat)) ∧ (2000000 < s.m.recLevel (s.m.strand k).owner + 31250)) := by
  unfold Chip.mayIssue
  exact ⟨⟨{ m := up0 |> runsAt 0 (kPTR 0xA0 0 0 0 0x100) |> entry 0 0 0x01300000 |> en 0 (fun o => { o with st := .online }), pending := [] }, 0, 0, 0, 0x100, 0, by decide +kernel⟩,
    ⟨{ m := up0 |> runsAt 0 (kPTR 0xA1 0 0 0 0x100) |> entry 0 0 0x01300000 |> en 0 (fun o => { o with st := .online }), pending := [] }, 0, 0, 0, 0, 0x100, 0, by decide +kernel⟩,
    ⟨{ m := up0 |> runsAt 0 (kPTR 0xA2 0 0 0 0) |> entry 0 0 0x01300000 |> en 0 (fun o => { o with st := .online }), pending := [] }, 0, 0, 0, 0, 0, by decide +kernel⟩,
    ⟨{ m := up0 |> runsAt 0 (kPTR 0xA3 0 0 1 0x500) |> entry 0 0 0x01300000 |> en 0 (fun o => { o with st := .online }) |> str 0 (fun o => o.put 1 0x01010000), pending := [] }, 0, 0, 0, 1, 0x500, 0, by decide +kernel⟩,
    ⟨{ m := up0 |> runsAt 0 (kPTR 0xA4 0 0 1 0x500) |> entry 0 0 0x01300000 |> en 0 (fun o => { o with st := .online }) |> str 0 (fun o => o.put 1 0x01010000), pending := [] }, 0, 0, 0, 1, 0x500, 0, by decide +kernel⟩,
    ⟨{ m := up0 |> runsAt 0 (kPTR 0xA5 0 0 0 0x101) |> entry 0 0 0x01300000 |> en 0 (fun o => { o with st := .online }) |> entry 0 3 0x101, pending := [] }, 0, 0, 0, 0, 0x101, 0, by decide +kernel⟩,
    ⟨{ m := up0 |> runsAt 0 (kIMM 0xB0 0 0 0), pending := [] }, 0, 0, by decide +kernel⟩,
    ⟨{ m := up0 |> runsAt 0 (kIMM 0xB0 0 0 0) |> ly (fun o => { o with recUsed := [(0, 2000000)] }), pending := [] }, 0, 0, by decide +kernel⟩⟩

theorem wit_KnarinBudgetAndRegion :
    (∃ (s : State) (k : Fin 256) (d : Fin 16) (a : Fin 16) (b : Fin 16), (s.m.atWord k (kREG 0x10 d a b 0 0) = true)) ∧
    (∃ (s : State) (k : Fin 256) (d : Fin 16) (a : Fin 16) (b : Fin 16), (s.m.atWord k (kREG 0x11 d a b 0 0) = true)) ∧
    (∃ (s : State) (k : Fin 256) (d : Fin 16) (a : Fin 16) (b : Fin 16), (s.m.atWord k (kREG 0x12 d a b 0 0) = true)) ∧
    (∃ (s : State) (k : Fin 256) (d : Fin 16) (a : Fin 16) (b : Fin 16), (s.m.atWord k (kREG 0x13 d a b 0 0) = true)) ∧
    (∃ (s : State) (k : Fin 256) (d : Fin 16) (a : Fin 16) (b : Fin 16), (s.m.atWord k (kREG 0x14 d a b 0 0) = true)) ∧
    (∃ (s : State) (k : Fin 256) (d : Fin 16) (a : Fin 16) (b : Fin 16), (s.m.atWord k (kREG 0x15 d a b 0 0) = true)) ∧
    (∃ (s : State) (k : Fin 256) (d : Fin 16) (a : Fin 16) (b : Fin 16), (s.m.atWord k (kREG 0x16 d a b 0 0) = true)) ∧
    (∃ (s : State) (k : Fin 256) (d : Fin 16) (a : Fin 16) (b : Fin 16), (s.m.atWord k (kREG 0x17 d a b 0 0) = true)) ∧
    (∃ (s : State) (k : Fin 256) (d : Fin 16) (a : Fin 16) (b : Fin 16), (s.m.atWord k (kREG 0x18 d a b 0 0) = true)) ∧
    (∃ (s : State) (k : Fin 256) (d : Fin 16) (a : Fin 16) (b : Fin 16), (s.m.atWord k (kREG 0x19 d a b 0 0) = true)) ∧
    (∃ (s : State) (k : Fin 256) (d : Fin 16) (a : Fin 16) (b : Fin 16), (s.m.atWord k (kREG 0x1A d a b 0 0) = true)) ∧
    (∃ (s : State) (k : Fin 256) (d : Fin 16) (a : Fin 16) (b : Fin 16), (s.m.atWord k (kREG 0x1B d a b 0 0) = true)) ∧
    (∃ (s : State) (k : Fin 256) (d : Fin 16) (a : Fin 16) (b : Fin 16), (s.m.atWord k (kREG 0x1C d a b 0 0) = true)) ∧
    (∃ (s : State) (k : Fin 256) (d : Fin 16) (a : Fin 16) (b : Fin 16), (s.m.atWord k (kREG 0x24 d a b 0 0) = true)) ∧
    (∃ (s : State) (k : Fin 256) (d : Fin 16) (a : Fin 16) (b : Fin 16), (s.m.atWord k (kREG 0x25 d a b 0 0) = true)) ∧
    (∃ (s : State) (k : Fin 256) (d : Fin 16) (a : Fin 16) (b : Fin 16), (s.m.atWord k (kREG 0x27 d a b 0 0) = true)) ∧
    (∃ (s : State) (k : Fin 256) (d : Fin 16) (a : Fin 16) (b : Fin 16), (s.m.atWord k (kREG 0x28 d a b 0 0) = true)) ∧
    (∃ (s : State) (k : Fin 256) (d : Fin 16) (a : Fin 16) (b : Fin 16), (s.m.atWord k (kREG 0x29 d a b 0 0) = true)) ∧
    (∃ (s : State) (k : Fin 256) (d : Fin 16) (a : Fin 16) (b : Fin 16), (s.m.atWord k (kREG 0x2A d a b 0 0) = true)) ∧
    (∃ (s : State) (k : Fin 256) (d : Fin 16) (a : Fin 16) (b : Fin 16), (s.m.atWord k (kREG 0x2B d a b 0 0) = true)) ∧
    (∃ (s : State) (k : Fin 256) (d : Fin 16) (a : Fin 16) (b : Fin 16), (s.m.atWord k (kREG 0x51 d a b 0 0) = true)) ∧
    (∃ (s : State) (k : Fin 256) (d : Fin 16) (a : Fin 16) (b : Fin 16), (s.m.atWord k (kREG 0x52 d a b 0 0) = true)) ∧
    (∃ (s : State) (k : Fin 256) (d : Fin 16) (a : Fin 16), (s.m.atWord k (kREG 0x20 d a 0 0 0) = true)) ∧
    (∃ (s : State) (k : Fin 256) (d : Fin 16) (a : Fin 16), (s.m.atWord k (kREG 0x21 d a 0 0 0) = true)) ∧
    (∃ (s : State) (k : Fin 256) (d : Fin 16) (a : Fin 16), (s.m.atWord k (kREG 0x22 d a 0 0 0) = true)) ∧
    (∃ (s : State) (k : Fin 256) (d : Fin 16) (a : Fin 16), (s.m.atWord k (kREG 0x23 d a 0 0 0) = true)) ∧
    (∃ (s : State) (k : Fin 256) (d : Fin 16) (a : Fin 16), (s.m.atWord k (kREG 0x77 d a 0 0 0) = true)) ∧
    (∃ (s : State) (k : Fin 256) (d : Fin 16) (a : Fin 16) (imm : BitVec 16), (s.m.atWord k (kIMM 0x32 d a imm.toNat) = true)) ∧
    (∃ (s : State) (k : Fin 256) (d : Fin 16) (a : Fin 16) (imm : BitVec 16), (s.m.atWord k (kIMM 0x33 d a imm.toNat) = true)) ∧
    (∃ (s : State) (k : Fin 256) (d : Fin 16) (a : Fin 16) (imm : BitVec 16), (s.m.atWord k (kIMM 0x34 d a imm.toNat) = true)) ∧
    (∃ (s : State) (k : Fin 256) (d : Fin 16) (a : Fin 16) (imm : BitVec 16), (s.m.atWord k (kIMM 0x35 d a imm.toNat) = true)) ∧
    (∃ (s : State) (k : Fin 256) (d : Fin 16) (a : Fin 16) (imm : BitVec 16), (s.m.atWord k (kIMM 0x40 d a imm.toNat) = true)) ∧
    (∃ (s : State) (k : Fin 256) (d : Fin 16) (a : Fin 16) (imm : BitVec 16), (s.m.atWord k (kIMM 0x41 d a imm.toNat) = true)) ∧
    (∃ (s : State) (k : Fin 256) (d : Fin 16) (a : Fin 16) (imm : BitVec 16), (s.m.atWord k (kIMM 0x42 d a imm.toNat) = true)) ∧
    (∃ (s : State) (k : Fin 256) (d : Fin 16) (a : Fin 16) (imm : BitVec 16), (s.m.atWord k (kIMM 0x43 d a imm.toNat) = true)) ∧
    (∃ (s : State) (k : Fin 256) (d : Fin 16) (a : Fin 16) (imm : BitVec 16), (s.m.atWord k (kIMM 0x44 d a imm.toNat) = true)) ∧
    (∃ (s : State) (k : Fin 256) (d : Fin 16) (a : Fin 16) (imm : BitVec 16), (s.m.atWord k (kIMM 0x45 d a imm.toNat) = true)) ∧
    (∃ (s : State) (k : Fin 256) (d : Fin 16) (a : Fin 16) (imm : BitVec 16), (s.m.atWord k (kIMM 0x46 d a imm.toNat) = true)) ∧
    (∃ (s : State) (k : Fin 256) (d : Fin 16) (a : Fin 16) (imm : BitVec 16), (s.m.atWord k (kIMM 0x47 d a imm.toNat) = true)) ∧
    (∃ (s : State) (k : Fin 256) (d : Fin 16) (a : Fin 16) (imm : BitVec 16), (s.m.atWord k (kIMM 0x48 d a imm.toNat) = true)) ∧
    (∃ (s : State) (k : Fin 256) (d : Fin 16) (a : Fin 16) (imm : BitVec 16), (s.m.atWord k (kIMM 0x49 d a imm.toNat) = true)) ∧
    (∃ (s : State) (k : Fin 256) (d : Fin 16) (a : Fin 16) (imm : BitVec 16), (s.m.atWord k (kIMM 0x4A d a imm.toNat) = true)) ∧
    (∃ (s : State) (k : Fin 256) (d : Fin 16) (a : Fin 16) (imm : BitVec 16), (s.m.atWord k (kIMM 0x4B d a imm.toNat) = true)) ∧
    (∃ (s : State) (k : Fin 256) (d : Fin 16) (a : Fin 16) (imm : BitVec 16), (s.m.atWord k (kIMM 0x4C d a imm.toNat) = true)) ∧
    (∃ (s : State) (k : Fin 256) (d : Fin 16) (a : Fin 16) (imm : BitVec 16), (s.m.atWord k (kIMM 0x4D d a imm.toNat) = true)) ∧
    (∃ (s : State) (k : Fin 256), (s.m.atWord k (kREG 0 0 0 0 0 0) = true)) ∧
    (∃ (s : State) (k : Fin 256) (n : BitVec 20), (s.m.atWord k (kIMM20 0x72 0 n.toNat) = true)) ∧
    (∃ (s : State) (k : Fin 256) (n : BitVec 20), (s.m.atWord k (kIMM20 0x70 0 n.toNat) = true)) ∧
    (∃ (s : State) (k : Fin 256) (a : Fin 16), (s.m.atWord k (kREG 0x78 0 a 0 0 0) = true)) ∧
    (∃ (s : State) (k : Fin 256) (b : Fin 16) (ch : Fin 64), (s.m.atWord k (kREG 0x80 0 0 b 0 ch) = true)) ∧
    (∃ (s : State) (k : Fin 256) (d : Fin 16) (a : Fin 16) (b : Fin 16) (c : Fin 16), (s.m.atWord k (kREG 0x50 d a b c 0) = true)) ∧
    (∃ (s : State) (k : Fin 256) (code : BitVec 16), (s.m.atWord k (kIMM 0xB0 0 0 code.toNat) = true)) ∧
    (∃ (s : State) (k : Fin 256) (a : Fin 16), (s.m.atWord k (kREG 0x62 0 a 0 0 0) = true)) ∧
    (∃ (s : State) (k : Fin 256), (s.m.atWord k (kREG 0x63 0 0 0 0 0) = true)) ∧
    (∃ (s : State) (k : Fin 256) (d : Fin 16) (a : Fin 16) (item : BitVec 12), (s.m.atWord k (kPTR 0xA0 d a 0 item.toNat) = true)) ∧
    (∃ (s : State) (k : Fin 256) (d : Fin 16) (a : Fin 16) (b : Fin 16) (item : BitVec 12), (s.m.atWord k (kPTR 0xA1 d a b item.toNat) = true)) := by
  exact ⟨⟨{ m := up0 |> runsAt 0 (kREG 0x10 0 0 0 0 0), pending := [] }, 0, 0, 0, 0, by decide +kernel⟩,
    ⟨{ m := up0 |> runsAt 0 (kREG 0x11 0 0 0 0 0), pending := [] }, 0, 0, 0, 0, by decide +kernel⟩,
    ⟨{ m := up0 |> runsAt 0 (kREG 0x12 0 0 0 0 0), pending := [] }, 0, 0, 0, 0, by decide +kernel⟩,
    ⟨{ m := up0 |> runsAt 0 (kREG 0x13 0 0 0 0 0), pending := [] }, 0, 0, 0, 0, by decide +kernel⟩,
    ⟨{ m := up0 |> runsAt 0 (kREG 0x14 0 0 0 0 0), pending := [] }, 0, 0, 0, 0, by decide +kernel⟩,
    ⟨{ m := up0 |> runsAt 0 (kREG 0x15 0 0 0 0 0), pending := [] }, 0, 0, 0, 0, by decide +kernel⟩,
    ⟨{ m := up0 |> runsAt 0 (kREG 0x16 0 0 0 0 0), pending := [] }, 0, 0, 0, 0, by decide +kernel⟩,
    ⟨{ m := up0 |> runsAt 0 (kREG 0x17 0 0 0 0 0), pending := [] }, 0, 0, 0, 0, by decide +kernel⟩,
    ⟨{ m := up0 |> runsAt 0 (kREG 0x18 0 0 0 0 0), pending := [] }, 0, 0, 0, 0, by decide +kernel⟩,
    ⟨{ m := up0 |> runsAt 0 (kREG 0x19 0 0 0 0 0), pending := [] }, 0, 0, 0, 0, by decide +kernel⟩,
    ⟨{ m := up0 |> runsAt 0 (kREG 0x1A 0 0 0 0 0), pending := [] }, 0, 0, 0, 0, by decide +kernel⟩,
    ⟨{ m := up0 |> runsAt 0 (kREG 0x1B 0 0 0 0 0), pending := [] }, 0, 0, 0, 0, by decide +kernel⟩,
    ⟨{ m := up0 |> runsAt 0 (kREG 0x1C 0 0 0 0 0), pending := [] }, 0, 0, 0, 0, by decide +kernel⟩,
    ⟨{ m := up0 |> runsAt 0 (kREG 0x24 0 0 0 0 0), pending := [] }, 0, 0, 0, 0, by decide +kernel⟩,
    ⟨{ m := up0 |> runsAt 0 (kREG 0x25 0 0 0 0 0), pending := [] }, 0, 0, 0, 0, by decide +kernel⟩,
    ⟨{ m := up0 |> runsAt 0 (kREG 0x27 0 0 0 0 0), pending := [] }, 0, 0, 0, 0, by decide +kernel⟩,
    ⟨{ m := up0 |> runsAt 0 (kREG 0x28 0 0 0 0 0), pending := [] }, 0, 0, 0, 0, by decide +kernel⟩,
    ⟨{ m := up0 |> runsAt 0 (kREG 0x29 0 0 0 0 0), pending := [] }, 0, 0, 0, 0, by decide +kernel⟩,
    ⟨{ m := up0 |> runsAt 0 (kREG 0x2A 0 0 0 0 0), pending := [] }, 0, 0, 0, 0, by decide +kernel⟩,
    ⟨{ m := up0 |> runsAt 0 (kREG 0x2B 0 0 0 0 0), pending := [] }, 0, 0, 0, 0, by decide +kernel⟩,
    ⟨{ m := up0 |> runsAt 0 (kREG 0x51 0 0 0 0 0), pending := [] }, 0, 0, 0, 0, by decide +kernel⟩,
    ⟨{ m := up0 |> runsAt 0 (kREG 0x52 0 0 0 0 0), pending := [] }, 0, 0, 0, 0, by decide +kernel⟩,
    ⟨{ m := up0 |> runsAt 0 (kREG 0x20 0 0 0 0 0), pending := [] }, 0, 0, 0, by decide +kernel⟩,
    ⟨{ m := up0 |> runsAt 0 (kREG 0x21 0 0 0 0 0), pending := [] }, 0, 0, 0, by decide +kernel⟩,
    ⟨{ m := up0 |> runsAt 0 (kREG 0x22 0 0 0 0 0), pending := [] }, 0, 0, 0, by decide +kernel⟩,
    ⟨{ m := up0 |> runsAt 0 (kREG 0x23 0 0 0 0 0), pending := [] }, 0, 0, 0, by decide +kernel⟩,
    ⟨{ m := up0 |> runsAt 0 (kREG 0x77 0 0 0 0 0), pending := [] }, 0, 0, 0, by decide +kernel⟩,
    ⟨{ m := up0 |> runsAt 0 (kIMM 0x32 0 0 0), pending := [] }, 0, 0, 0, 0, by decide +kernel⟩,
    ⟨{ m := up0 |> runsAt 0 (kIMM 0x33 0 0 0), pending := [] }, 0, 0, 0, 0, by decide +kernel⟩,
    ⟨{ m := up0 |> runsAt 0 (kIMM 0x34 0 0 0), pending := [] }, 0, 0, 0, 0, by decide +kernel⟩,
    ⟨{ m := up0 |> runsAt 0 (kIMM 0x35 0 0 0), pending := [] }, 0, 0, 0, 0, by decide +kernel⟩,
    ⟨{ m := up0 |> runsAt 0 (kIMM 0x40 0 0 0), pending := [] }, 0, 0, 0, 0, by decide +kernel⟩,
    ⟨{ m := up0 |> runsAt 0 (kIMM 0x41 0 0 0), pending := [] }, 0, 0, 0, 0, by decide +kernel⟩,
    ⟨{ m := up0 |> runsAt 0 (kIMM 0x42 0 0 0), pending := [] }, 0, 0, 0, 0, by decide +kernel⟩,
    ⟨{ m := up0 |> runsAt 0 (kIMM 0x43 0 0 0), pending := [] }, 0, 0, 0, 0, by decide +kernel⟩,
    ⟨{ m := up0 |> runsAt 0 (kIMM 0x44 0 0 0), pending := [] }, 0, 0, 0, 0, by decide +kernel⟩,
    ⟨{ m := up0 |> runsAt 0 (kIMM 0x45 0 0 0), pending := [] }, 0, 0, 0, 0, by decide +kernel⟩,
    ⟨{ m := up0 |> runsAt 0 (kIMM 0x46 0 0 0), pending := [] }, 0, 0, 0, 0, by decide +kernel⟩,
    ⟨{ m := up0 |> runsAt 0 (kIMM 0x47 0 0 0), pending := [] }, 0, 0, 0, 0, by decide +kernel⟩,
    ⟨{ m := up0 |> runsAt 0 (kIMM 0x48 0 0 0), pending := [] }, 0, 0, 0, 0, by decide +kernel⟩,
    ⟨{ m := up0 |> runsAt 0 (kIMM 0x49 0 0 0), pending := [] }, 0, 0, 0, 0, by decide +kernel⟩,
    ⟨{ m := up0 |> runsAt 0 (kIMM 0x4A 0 0 0), pending := [] }, 0, 0, 0, 0, by decide +kernel⟩,
    ⟨{ m := up0 |> runsAt 0 (kIMM 0x4B 0 0 0), pending := [] }, 0, 0, 0, 0, by decide +kernel⟩,
    ⟨{ m := up0 |> runsAt 0 (kIMM 0x4C 0 0 0), pending := [] }, 0, 0, 0, 0, by decide +kernel⟩,
    ⟨{ m := up0 |> runsAt 0 (kIMM 0x4D 0 0 0), pending := [] }, 0, 0, 0, 0, by decide +kernel⟩,
    ⟨{ m := up0 |> runsAt 0 (kREG 0 0 0 0 0 0), pending := [] }, 0, by decide +kernel⟩,
    ⟨{ m := up0 |> runsAt 0 (kIMM20 0x72 0 0), pending := [] }, 0, 0, by decide +kernel⟩,
    ⟨{ m := up0 |> runsAt 0 (kIMM20 0x70 0 0), pending := [] }, 0, 0, by decide +kernel⟩,
    ⟨{ m := up0 |> runsAt 0 (kREG 0x78 0 0 0 0 0), pending := [] }, 0, 0, by decide +kernel⟩,
    ⟨{ m := up0 |> runsAt 0 (kREG 0x80 0 0 0 0 0), pending := [] }, 0, 0, 0, by decide +kernel⟩,
    ⟨{ m := up0 |> runsAt 0 (kREG 0x50 0 0 0 0 0), pending := [] }, 0, 0, 0, 0, 0, by decide +kernel⟩,
    ⟨{ m := up0 |> runsAt 0 (kIMM 0xB0 0 0 0), pending := [] }, 0, 0, by decide +kernel⟩,
    ⟨{ m := up0 |> runsAt 0 (kREG 0x62 0 0 0 0 0), pending := [] }, 0, 0, by decide +kernel⟩,
    ⟨{ m := up0 |> runsAt 0 (kREG 0x63 0 0 0 0 0), pending := [] }, 0, by decide +kernel⟩,
    ⟨{ m := up0 |> runsAt 0 (kPTR 0xA0 0 0 0 0), pending := [] }, 0, 0, 0, 0, by decide +kernel⟩,
    ⟨{ m := up0 |> runsAt 0 (kPTR 0xA1 0 0 0 0), pending := [] }, 0, 0, 0, 0, 0, by decide +kernel⟩⟩

theorem wit_Sequencer :
    (∃ (s : State) (ag : Agent), (s.m.grants ag (RName.addr .seqCmd 0) (1))) ∧
    (∃ (s : State) (ag : Agent), (s.m.grants ag (RName.addr .seqCmd 0) (2))) ∧
    (∃ (s : State) (ag : Agent) (n : Fin 64) (d : Word), (s.m.grants ag (RName.addr .seqStepCtl n) (d))) ∧
    (∃ (s : State) (ag : Agent) (n : Fin 64) (d : Word), (s.m.grants ag (RName.addr .seqStepTmo n) (d))) ∧
    (∃ (m : Chip), (m.seq.st = .off)) ∧
    (∃ (s : State) (rail : Fin 24) (level : Bool), (s.m.seq.wait ≠ .good) ∧ (has s.m.seq.pg rail ≠ level)) ∧
    (∃ (s : State), (s.m.seq.wait = .good) ∧ (s.m.pgActive s.m.seq.wrail = true) ∧ (s.m.seq.qualAt + s.m.stepQual s.m.seq.step ≤ s.m.seqDue)) ∧
    (∃ (s : State), (s.m.seq.wait = .delay)) ∧
    (∃ (s : State), (s.m.seq.wait = .disch) ∧ (s.m.railDischarged s.m.seq.wrail = true)) ∧
    (∃ (s : State), (s.m.seq.wait = .downDisch) ∧ (s.m.railDischarged s.m.seq.wrail = true)) ∧
    (∃ (s : State), (s.m.seq.wait = .restDisch) ∧ (s.m.railDischarged s.m.seq.wrail = true)) ∧
    (∃ (s : State), (s.m.seq.wait = .retryDisch) ∧ (s.m.railDischarged s.m.seq.wrail = true)) ∧
    (∃ (s : State), (s.m.seq.wait = .retryDelay) ∧ (s.m.stepType s.m.seq.step ≠ 6)) ∧
    (∃ (s : State) (n : Fin 4), (s.m.mayRelease n = true) ∧ (s.m.awaitsReset n = false)) ∧
    (∃ (s : State) (rail : Fin 24), (s.m.seq.st = .on) ∧ (s.m.seqOnRail rail = true) ∧ (s.m.pgActive rail = false) ∧ (s.m.pwr.base ≠ .shadow)) ∧
    (∃ (s : State), (s.m.seq.st = .up) ∧ (s.m.seq.wait = .good) ∧ (s.m.seqDue < s.m.seq.qualAt + s.m.stepQual s.m.seq.step) ∧ (s.m.fld .seqStepCtl s.m.seq.step 7 6 = 0) ∧ (s.m.sev 16 < 3)) ∧
    (∃ (s : State), (s.m.seq.st = .up) ∧ (s.m.seq.wait = .good) ∧ (s.m.chattered = true) ∧ (s.m.fld .seqStepCtl s.m.seq.step 7 6 = 0) ∧ (s.m.sev 15 < 3)) ∧
    (∃ (s : State), (s.m.seq.st = .down) ∧ (s.m.seq.wait = .downDisch) ∧ (s.m.railDischarged s.m.seq.wrail = false) ∧ (s.m.sev 17 < 3)) := by
  unfold Chip.grants Chip.open_
  exact ⟨⟨{ m := up0, pending := [] }, .fw, by decide +kernel⟩,
    ⟨{ m := up0, pending := [] }, .fw, by decide +kernel⟩,
    ⟨{ m := up0, pending := [] }, .fw, 0, 0, by decide +kernel⟩,
    ⟨{ m := up0, pending := [] }, .fw, 0, 0, by decide +kernel⟩,
    ⟨up0, by decide +kernel⟩,
    ⟨{ m := up0 |> sq (fun o => { o with pg := 0, wait := .none }), pending := [] }, 0, true, by decide +kernel⟩,
    ⟨{ m := up0 |> sq (fun o => { o with pg := 0xFFFFFF, wait := .good }), pending := [] }, by decide +kernel⟩,
    ⟨{ m := up0 |> sq (fun o => { o with wait := .delay }), pending := [] }, by decide +kernel⟩,
    ⟨{ m := up0 |> sq (fun o => { o with wait := .disch }), pending := [] }, by decide +kernel⟩,
    ⟨{ m := up0 |> sq (fun o => { o with wait := .downDisch }), pending := [] }, by decide +kernel⟩,
    ⟨{ m := up0 |> sq (fun o => { o with wait := .restDisch }), pending := [] }, by decide +kernel⟩,
    ⟨{ m := up0 |> sq (fun o => { o with wait := .retryDisch }), pending := [] }, by decide +kernel⟩,
    ⟨{ m := up0 |> sq (fun o => { o with wait := .retryDelay }), pending := [] }, by decide +kernel⟩,
    ⟨{ m := up0 |> sq (fun o => { o with released := 1, st := .on }), pending := [] }, 0, by decide +kernel⟩,
    ⟨{ m := up0 |> sq (fun o => { o with st := .on, enabled := 0xFFFFFF, pg := 0 }), pending := [] }, 0, by decide +kernel⟩,
    ⟨{ m := up0 |> sq (fun o => { o with st := .up, wait := .good, qualAt := 1000000000 }), pending := [] }, by decide +kernel⟩,
    ⟨{ m := up0 |> sq (fun o => { o with st := .up, wait := .good, edges := List.replicate 256 0 }), pending := [] }, by decide +kernel⟩,
    ⟨{ m := up0 |> sq (fun o => { o with st := .down, wait := .downDisch, pg := 0xFFFFFF }), pending := [] }, by decide +kernel⟩⟩

theorem wit_StrandsAndBundles :
    (∃ (s : State) (ag : Agent) (k : Fin 256), (s.m.grants ag (RName.addr .layCmd 0) (wd (1 + k * 256)))) ∧
    (∃ (s : State) (ag : Agent) (k : Fin 256), (s.m.grants ag (RName.addr .layCmd 0) (wd (2 + k * 256)))) ∧
    (∃ (s : State) (ag : Agent) (k : Fin 256), (s.m.grants ag (RName.addr .layCmd 0) (wd (3 + k * 256)))) ∧
    (∃ (s : State) (ag : Agent) (k : Fin 256), (s.m.grants ag (RName.addr .layCmd 0) (wd (4 + k * 256)))) ∧
    (∃ (s : State) (ag : Agent) (k : Fin 256), (s.m.grants ag (RName.addr .layCmd 0) (wd (5 + k * 256)))) ∧
    (∃ (s : State) (ag : Agent) (k : Fin 256), (s.m.grants ag (RName.addr .layCmd 0) (wd (6 + k * 256)))) ∧
    (∃ (s : State) (ag : Agent) (o : Owner), (s.m.grants ag (RName.addr .layCmd 0) (wd (7 + Owner.code o * 256)))) ∧
    (∃ (m : Chip) (k : Nat), ((m.strand k).onAccess = false) ∧ (((m.strand k).st = .ready ∨ (m.strand k).st = .running ∨ (m.strand k).st = .waiting))) ∧
    (∃ (s : State), (s.m.grants .host (RName.addr .layBldCtl 0) 1)) ∧
    (∃ (s : State), (s.m.grants .svc (RName.addr .layBldCtl 0) 1)) ∧
    (∃ (s : State) (ag : Agent) (d : Word) (l : Load), (s.m.grants ag (RName.addr .layBldData 0) d) ∧ (s.m.lay.load = some l) ∧ (4 * l.words.length < (regionOf l.port).2)) ∧
    (∃ (s : State) (ag : Agent) (l : Load), (s.m.grants ag (RName.addr .layBldCtl 0) 2) ∧ (s.m.lay.load = some l) ∧ (s.m.bundleStatus l.port l.words.reverse = .ok)) ∧
    (∃ (s : State) (ag : Agent) (l : Load) (st : Status), (s.m.grants ag (RName.addr .layBldCtl 0) 2) ∧ (s.m.lay.load = some l) ∧ (s.m.bundleStatus l.port l.words.reverse = st) ∧ (st ≠ .ok)) ∧
    (∃ (s : State) (ag : Agent), (s.m.grants ag (RName.addr .layBldCtl 0) (3))) := by
  unfold Chip.grants Chip.open_
  exact ⟨⟨{ m := up0 |> str 0 (fun o => { o with st := .free, alloc := true }), pending := [] }, .fw, 0, by decide +kernel⟩,
    ⟨{ m := up0 |> str 0 (fun o => { o with st := .ready, alloc := true }), pending := [] }, .fw, 0, by decide +kernel⟩,
    ⟨{ m := up0 |> str 0 (fun o => { o with st := .halted, alloc := true }), pending := [] }, .fw, 0, by decide +kernel⟩,
    ⟨{ m := up0 |> str 0 (fun o => { o with st := .halted, alloc := true }), pending := [] }, .fw, 0, by decide +kernel⟩,
    ⟨{ m := up0 |> str 0 (fun o => { o with st := .ready, alloc := true }), pending := [] }, .fw, 0, by decide +kernel⟩,
    ⟨{ m := up0 |> str 0 (fun o => { o with st := .fenced, alloc := true }), pending := [] }, .fw, 0, by decide +kernel⟩,
    ⟨{ m := up0, pending := [] }, .fw, .host, by decide +kernel⟩,
    ⟨(up0 |> str 0 (fun o => { o with st := .ready })), 0, by decide +kernel⟩,
    ⟨{ m := up0, pending := [] }, by decide +kernel⟩,
    ⟨{ m := up0 |> ud (fun o => { o with session := 2 }), pending := [] }, by decide +kernel⟩,
    ⟨{ m := up0 |> ly (fun o => { o with load := some { port := .host, words := [] } }), pending := [] }, .host, 0, { port := .host, words := [] }, by decide +kernel⟩,
    ⟨{ m := up0 |> ly (fun o => { o with load := some { port := .host, words := sampleBundle.reverse } }), pending := [] }, .host, { port := .host, words := sampleBundle.reverse }, by decide +kernel⟩,
    ⟨{ m := up0 |> ly (fun o => { o with load := some { port := .host, words := [] } }), pending := [] }, .host, { port := .host, words := [] }, .erange, by decide +kernel⟩,
    ⟨{ m := up0 |> ly (fun o => { o with load := some { port := .host, words := [] } }), pending := [] }, .host, by decide +kernel⟩⟩

theorem wit_LanesAndTimers :
    (∃ (m : Chip) (k : Nat), (m.nextReady = some k) ∧ (m.running.length < 4)) ∧
    (∃ (m : Chip), (m.nextReady = none)) ∧
    (∃ (s : State) (k : Fin 256), ((s.m.strand k).st = .running) ∧ (s.m.fld .layCfg 0 16 4 ≤ (s.m.strand k).slice) ∧ ((∃ j ∈ s.m.lay.queue, (s.m.strand j).prio = (s.m.strand k).runPrio))) ∧
    (∃ (s : State) (k : Fin 256), ((s.m.strand k).st = .running) ∧ (s.m.fld .layBudget k 20 0 ≤ (s.m.strand k).act)) ∧
    (∃ (s : State) (k : Fin 256) (w : WaitOn), ((s.m.strand k).st = .waiting) ∧ ((s.m.strand k).wait = some w) ∧ (w ≠ .delay) ∧ (s.m.waitMet k w = true)) ∧
    (∃ (s : State) (k : Fin 256), ((s.m.strand k).st = .waiting) ∧ ((s.m.strand k).wait = some .delay)) ∧
    (∃ (s : State) (k : Fin 256) (l : Nat) (n : Word) (d : Nat), ((s.m.strand k).st = .waiting) ∧ ((s.m.strand k).timeout ≠ 0) ∧ ((s.m.strand k).wait = some (.line l n d)) ∧ (s.m.get .layEvline l = n)) ∧
    (∃ (s : State) (k : Fin 256), ((s.m.strand k).st ≠ .free) ∧ ((s.m.strand k).period ≠ 0)) := by
  exact ⟨⟨(up0 |> str 0 (fun o => { o with st := .ready }) |> ly (fun o => { o with queue := [0] })), 0, by decide +kernel⟩,
    ⟨up0, by decide +kernel⟩,
    ⟨{ m := up0 |> str 0 (fun o => { o with st := .running, slice := 100000 }) |> str 1 (fun o => { o with st := .ready }) |> ly (fun o => { o with queue := [1] }), pending := [] }, 0, by decide +kernel⟩,
    ⟨{ m := up0 |> rg .layBudget 0 20 0 10 |> str 0 (fun o => { o with st := .running, act := 10 }), pending := [] }, 0, by decide +kernel⟩,
    ⟨{ m := up0 |> str 0 (fun o => { o with st := .waiting, wait := some (.tick 0), tick := true }), pending := [] }, 0, .tick 0, by decide +kernel⟩,
    ⟨{ m := up0 |> str 0 (fun o => { o with st := .waiting }) |> str 0 (fun o => { o with wait := some .delay }), pending := [] }, 0, by decide +kernel⟩,
    ⟨{ m := up0 |> str 0 (fun o => { o with st := .waiting, timeout := 5, wait := some (.line 0 0 0) }), pending := [] }, 0, 0, 0, 0, by decide +kernel⟩,
    ⟨{ m := up0 |> str 0 (fun o => { o with st := .ready, period := 100 }), pending := [] }, 0, by decide +kernel⟩⟩

theorem wit_AcquisitionResultsAndTrims :
    (∃ (s : State) (n : Fin 4) (c : Fin 95) (_raw : BitVec 16) (_sub : Fin 200), (s.m.chExists c = true) ∧ (s.m.converts n c = true)) ∧
    (∃ (s : State) (n : Fin 4) (c : Fin 95) (_raw : BitVec 16) (_sub : Fin 200), (s.m.converts n c = false)) ∧
    (∃ (s : State) (n : Fin 4), (s.m.cvRuns n = true) ∧ (s.m.ilvEn (n / 2) = false) ∧ ((s.m.convUse n).next = none)) ∧
    (∃ (s : State) (ag : Agent), (s.m.grantsRead ag (RName.addr .acqQpop1 0))) ∧
    (∃ (s : State) (ag : Agent) (c : Fin 95), (s.m.grantsRead ag (RName.addr .acqRes c))) ∧
    (∃ (s : State) (ag : Agent), (s.m.grants ag (RName.addr .acqCmd 0) (3))) ∧
    (∃ (s : State) (ag : Agent) (p : Fin 2), (s.m.grants ag (RName.addr .acqCmd 0) (wd (p.val + 1)))) ∧
    (∃ (s : State) (p : Nat) (offs : Int) (gain : Int), (s.m.acq.cal = some p) ∧ (-32768 ≤ offs ∧ offs ≤ 32767) ∧ (-32768 ≤ gain ∧ gain ≤ 32767)) ∧
    (∃ (s : State) (p : Nat) (offs : Int) (gain : Int), (s.m.acq.cal = some p) ∧ (¬(-32768 ≤ offs ∧ offs ≤ 32767 ∧ -32768 ≤ gain ∧ gain ≤ 32767))) ∧
    (∃ (s : State) (p : Fin 2), (s.m.ilvOn p = true) ∧ (s.m.flag .acqIlvCfg p 1 = true) ∧ (trackPairs ≤ (NTab.get (0, (0 : Int)) s.m.acq.pairs p).1) ∧ (0 < (NTab.get (0, (0 : Int)) s.m.acq.pairs p).2)) ∧
    (∃ (s : State) (p : Fin 2), (s.m.ilvOn p = true) ∧ (s.m.flag .acqIlvCfg p 1 = true) ∧ (trackPairs ≤ (NTab.get (0, (0 : Int)) s.m.acq.pairs p).1) ∧ ((NTab.get (0, (0 : Int)) s.m.acq.pairs p).2 < 0)) ∧
    (∃ (s : State) (p : Fin 2), (s.m.flag .acqIlvCfg p 1 = false)) := by
  unfold Chip.grants Chip.grantsRead Chip.open_
  exact ⟨⟨{ m := up0 |> rg .acqCvCfg 0 0 0 1 |> ac (fun o => { o with inUse := [(0, { mask := 1, div := 1, pos := 0, ending := false })] }), pending := [] }, 0, 0, 0, 0, by decide +kernel⟩,
    ⟨{ m := up0, pending := [] }, 0, 0, 0, 0, by decide +kernel⟩,
    ⟨{ m := up0 |> rg .acqCvCfg 0 0 0 1, pending := [] }, 0, by decide +kernel⟩,
    ⟨{ m := up0, pending := [] }, .fw, by decide +kernel⟩,
    ⟨{ m := up0, pending := [] }, .fw, 0, by decide +kernel⟩,
    ⟨{ m := up0, pending := [] }, .fw, by decide +kernel⟩,
    ⟨{ m := up0, pending := [] }, .fw, 0, by decide +kernel⟩,
    ⟨{ m := up0 |> ac (fun o => { o with cal := some 0 }), pending := [] }, 0, 0, 0, by decide +kernel⟩,
    ⟨{ m := up0 |> ac (fun o => { o with cal := some 0 }), pending := [] }, 0, 32768, 0, by decide +kernel⟩,
    ⟨{ m := up0 |> rg .acqIlvCfg 0 1 0 3 |> rg .acqCvCfg 0 0 0 1 |> ac (fun o => { o with pairs := [(0, (trackPairs, 1))] }), pending := [] }, 0, by decide +kernel⟩,
    ⟨{ m := up0 |> rg .acqIlvCfg 0 1 0 3 |> rg .acqCvCfg 0 0 0 1 |> ac (fun o => { o with pairs := [(0, (trackPairs, -1))] }), pending := [] }, 0, by decide +kernel⟩,
    ⟨{ m := up0 |> rg .acqIlvCfg 0 1 1 0, pending := [] }, 0, by decide +kernel⟩⟩

theorem wit_AcMonitorSagAndSwell :
    (∃ (s : State), (s.m.acmDetects = true) ∧ (s.m.acq.sag = .idle) ∧ (s.m.acq.lock = true) ∧ (s.m.acmQdev ≤ (s.m.acmDet false).dev)) ∧
    (∃ (s : State), (s.m.acmDetects = true) ∧ (s.m.acq.sag = .onset) ∧ (s.m.fld (detReg false) 0 23 16 ≤ (s.m.acmDet false).conf)) ∧
    (∃ (s : State), (s.m.acmDetects = true) ∧ (s.m.acq.sag = .idle) ∧ (s.m.fld (detReg false) 0 23 16 ≤ (s.m.acmDet false).conf)) ∧
    (∃ (s : State), (s.m.acq.sag = .onset) ∧ (s.m.acmQdev ≤ (s.m.acmDet false).clean) ∧ ((s.m.acmDet false).beyond = false)) ∧
    (∃ (s : State), (s.m.acq.sag ≠ .onset)) ∧
    (∃ (s : State) (t : Nat), (s.m.acq.sag = .confirmed) ∧ ((s.m.acmDet false).restored = some t) ∧ (s.m.acq.lock = true)) ∧
    (∃ (s : State) (t : Nat), (s.m.acq.sag = .confirmed) ∧ ((s.m.acmDet false).restored = some t) ∧ (s.m.acq.lock = false)) ∧
    (∃ (s : State), (s.m.acmDetects = true) ∧ (s.m.acq.swell = .idle) ∧ (s.m.acq.lock = true) ∧ (s.m.acmQdev ≤ (s.m.acmDet true).dev)) ∧
    (∃ (s : State), (s.m.acmDetects = true) ∧ (s.m.acq.swell = .onset) ∧ (s.m.fld (detReg true) 0 23 16 ≤ (s.m.acmDet true).conf)) ∧
    (∃ (s : State), (s.m.acmDetects = true) ∧ (s.m.acq.swell = .idle) ∧ (s.m.fld (detReg true) 0 23 16 ≤ (s.m.acmDet true).conf)) ∧
    (∃ (s : State), (s.m.acq.swell = .onset) ∧ (s.m.acmQdev ≤ (s.m.acmDet true).clean) ∧ ((s.m.acmDet true).beyond = false)) ∧
    (∃ (s : State), (s.m.acq.swell ≠ .onset)) ∧
    (∃ (s : State) (t : Nat), (s.m.acq.swell = .confirmed) ∧ ((s.m.acmDet true).restored = some t) ∧ (s.m.acq.lock = true)) ∧
    (∃ (s : State) (t : Nat), (s.m.acq.swell = .confirmed) ∧ ((s.m.acmDet true).restored = some t) ∧ (s.m.acq.lock = false)) ∧
    (∃ (s : State), (s.m.flag .acqAcmCfg 0 0 = true) ∧ (s.m.acq.lock = true) ∧ (s.m.acq.frozen = false)) ∧
    (∃ (s : State), (s.m.flag .acqAcmCfg 0 0 = true) ∧ (s.m.acq.lock = false) ∧ (s.m.acq.sagEnds = false) ∧ (s.m.acq.swellEnds = false)) := by
  exact ⟨⟨{ m := up0 |> rg .acqAcmCfg 0 0 0 1 |> ac (fun o => { o with sag := .idle, sagDet := { AcmDet.init with dev := 255 }, lock := true }), pending := [] }, by decide +kernel⟩,
    ⟨{ m := up0 |> rg .acqAcmCfg 0 0 0 1 |> ac (fun o => { o with sag := .onset, sagDet := { AcmDet.init with conf := 255 }, lock := true }), pending := [] }, by decide +kernel⟩,
    ⟨{ m := up0 |> rg .acqAcmCfg 0 0 0 1 |> ac (fun o => { o with sag := .idle, sagDet := { AcmDet.init with conf := 255 }, lock := true }), pending := [] }, by decide +kernel⟩,
    ⟨{ m := up0 |> rg .acqAcmCfg 0 0 0 1 |> ac (fun o => { o with sag := .onset, sagDet := { AcmDet.init with clean := 255 }, lock := true }), pending := [] }, by decide +kernel⟩,
    ⟨{ m := up0, pending := [] }, by decide +kernel⟩,
    ⟨{ m := up0 |> rg .acqAcmCfg 0 0 0 1 |> ac (fun o => { o with sag := .confirmed, sagDet := { AcmDet.init with restored := some 0 }, lock := true }), pending := [] }, 0, by decide +kernel⟩,
    ⟨{ m := up0 |> rg .acqAcmCfg 0 0 0 1 |> ac (fun o => { o with sag := .confirmed, sagDet := { AcmDet.init with restored := some 0 }, lock := false }), pending := [] }, 0, by decide +kernel⟩,
    ⟨{ m := up0 |> rg .acqAcmCfg 0 0 0 1 |> ac (fun o => { o with swell := .idle, swellDet := { AcmDet.init with dev := 255 }, lock := true }), pending := [] }, by decide +kernel⟩,
    ⟨{ m := up0 |> rg .acqAcmCfg 0 0 0 1 |> ac (fun o => { o with swell := .onset, swellDet := { AcmDet.init with conf := 255 }, lock := true }), pending := [] }, by decide +kernel⟩,
    ⟨{ m := up0 |> rg .acqAcmCfg 0 0 0 1 |> ac (fun o => { o with swell := .idle, swellDet := { AcmDet.init with conf := 255 }, lock := true }), pending := [] }, by decide +kernel⟩,
    ⟨{ m := up0 |> rg .acqAcmCfg 0 0 0 1 |> ac (fun o => { o with swell := .onset, swellDet := { AcmDet.init with clean := 255 }, lock := true }), pending := [] }, by decide +kernel⟩,
    ⟨{ m := up0, pending := [] }, by decide +kernel⟩,
    ⟨{ m := up0 |> rg .acqAcmCfg 0 0 0 1 |> ac (fun o => { o with swell := .confirmed, swellDet := { AcmDet.init with restored := some 0 }, lock := true }), pending := [] }, 0, by decide +kernel⟩,
    ⟨{ m := up0 |> rg .acqAcmCfg 0 0 0 1 |> ac (fun o => { o with swell := .confirmed, swellDet := { AcmDet.init with restored := some 0 }, lock := false }), pending := [] }, 0, by decide +kernel⟩,
    ⟨{ m := up0 |> rg .acqAcmCfg 0 0 0 1 |> ac (fun o => { o with lock := true }) |> ac (fun o => { o with frozen := false }), pending := [] }, by decide +kernel⟩,
    ⟨{ m := up0 |> rg .acqAcmCfg 0 0 0 1 |> ac (fun o => { o with lock := false }) |> ac (fun o => { o with sagEnds := false }) |> ac (fun o => { o with swellEnds := false }), pending := [] }, by decide +kernel⟩⟩

theorem wit_LoopSlots :
    (∃ (s : State) (ag : Agent) (i : Fin 64) (ctl : Word), (s.m.grants ag (loopAddr i 0) (setBit ctl 0 true)) ∧ ((s.m.lslot i).st = .stopped) ∧ (s.m.cleAdmit + s.m.runLoad i (setBit ctl 0 true &&& wd 0xF737) ≤ s.m.fld .cleCfg 0 14 8 * 100)) ∧
    (∃ (s : State) (ag : Agent) (i : Fin 64) (ctl : Word), (s.m.grants ag (loopAddr i 0) (setBit ctl 0 true)) ∧ ((s.m.lslot i).st = .stopped) ∧ (s.m.fld .cleCfg 0 14 8 * 100 < s.m.cleAdmit + s.m.runLoad i (setBit ctl 0 true &&& wd 0xF737))) ∧
    (∃ (s : State) (ag : Agent) (i : Fin 64) (ctl : Word), (s.m.grants ag (loopAddr i 0) (setBit ctl 0 false)) ∧ ((s.m.lslot i).st = .armed) ∧ ((s.m.lslot i).after = .none) ∧ ((s.m.lslot i).run = none)) ∧
    (∃ (s : State) (ag : Agent) (i : Fin 64) (ctl : Word), (s.m.grants ag (loopAddr i 0) (setBit ctl 0 false)) ∧ ((s.m.lslot i).st = .armed) ∧ ((s.m.lslot i).after = .none) ∧ ((s.m.lslot i).run ≠ none)) ∧
    (∃ (s : State) (ag : Agent) (i : Fin 64) (d : Word), (s.m.grants ag (loopAddr i 2) (d)) ∧ (s.m.lw i 2 ≠ d) ∧ ((s.m.lslot i).st = .armed)) ∧
    (∃ (s : State) (ag : Agent) (i : Fin 64) (d : Word), (s.m.grants ag (loopAddr i 2) (d)) ∧ (s.m.lw i 2 ≠ d) ∧ ((s.m.lslot i).st ≠ .armed)) ∧
    (∃ (s : State) (ag : Agent) (i : Fin 64) (d : Word), (s.m.grants ag (loopAddr i 2) (d)) ∧ (s.m.lw i 2 = d)) ∧
    (∃ (s : State) (ag : Agent) (i : Fin 64) (mask : BitVec 8), (s.m.grants ag (RName.addr .cleCommit 0) (wd (i.val + mask.toNat * 256)))) ∧
    (∃ (s : State) (ag : Agent) (i : Fin 64), (s.m.grants ag (RName.addr .cleKick 0) (wd i.val))) := by
  unfold Chip.grants Chip.open_
  exact ⟨⟨{ m := up0 |> rg .cleCfg 0 14 8 100 |> chain 0, pending := [] }, .fw, 0, 0x101, by decide +kernel⟩,
    ⟨{ m := up0 |> rg .cleCfg 0 14 8 0 |> chain 0, pending := [] }, .fw, 0, 0x101, by decide +kernel⟩,
    ⟨{ m := up0 |> ls 0 (fun o => { o with st := .armed }) |> ls 0 (fun o => { o with after := .none }) |> ls 0 (fun o => { o with run := none }), pending := [] }, .fw, 0, 0, by decide +kernel⟩,
    ⟨{ m := up0 |> chain 0 |> ls 0 (fun o => { o with st := .armed, run := some { trig := 0, latch := [], omode := 0, manout := 0, events := [] } }), pending := [] }, .fw, 0, 0x100, by decide +kernel⟩,
    ⟨{ m := up0 |> ls 0 (fun o => { o with st := .armed }), pending := [] }, .fw, 0, 1, by decide +kernel⟩,
    ⟨{ m := up0, pending := [] }, .fw, 0, 1, by decide +kernel⟩,
    ⟨{ m := up0, pending := [] }, .fw, 0, 0, by decide +kernel⟩,
    ⟨{ m := up0, pending := [] }, .fw, 0, 0, by decide +kernel⟩,
    ⟨{ m := up0 |> ls 0 (fun o => { o with st := .armed }), pending := [] }, .fw, 0, by decide +kernel⟩⟩

theorem wit_LoopSamples :
    (∃ (s : State) (i : Fin 64), ((s.m.trigOf i).1 ≠ 0) ∧ ((s.m.trigOf i).1 ≠ 2) ∧ ((s.m.trigOf i).1 ≠ 4) ∧ ((s.m.lslot i).st = .armed) ∧ ((s.m.lslot i).pend = none) ∧ ((s.m.lslot i).run = none)) ∧
    (∃ (s : State) (i : Fin 64), ((s.m.trigOf i).1 ≠ 0) ∧ ((s.m.trigOf i).1 ≠ 2) ∧ ((s.m.trigOf i).1 ≠ 4) ∧ ((s.m.lslot i).st = .armed) ∧ ((s.m.lslot i).pend.isSome = true)) ∧
    (∃ (s : State) (i : Fin 64), ((s.m.trigOf i).1 = 0 ∨ (s.m.trigOf i).1 = 4)) ∧
    (∃ (s : State) (_us : Nat) (i : Nat), (s.m.lanesUsed < 4) ∧ (s.m.nextSample = some i)) ∧
    (∃ (s : State) (_us : Nat), (s.m.nextSample = none)) ∧
    (∃ (s : State) (i : Fin 64) (sm : Sample), ((s.m.lslot i).run = some sm)) ∧
    (∃ (s : State) (i : Fin 64), ((s.m.lslot i).run = none)) ∧
    (∃ (s : State) (i : Fin 64), ((s.m.lslot i).after = .stop)) ∧
    (∃ (s : State) (i : Fin 64), ((s.m.lslot i).after ≠ .stop)) ∧
    (∃ (s : State) (i : Fin 64) (k : Nat), (s.m.predBlk i = some k) ∧ ((s.m.lslot i).bound = true) ∧ ((s.m.lslot i).pstate = .tentative)) ∧
    (∃ (s : State) (i : Fin 64), ((s.m.lslot i).pstate ≠ .tentative)) ∧
    (∃ (s : State) (i : Fin 64) (k : Nat), ((List.range (s.m.nblk i + 1)).find? (fun k => s.m.plausDue i k) = some k) ∧ ((s.m.lslot i).bound = true)) ∧
    (∃ (s : State) (i : Fin 64), ((∀ k ≤ s.m.nblk i, (s.m.plant i k).raised = true))) := by
  exact ⟨⟨{ m := up0 |> loopw 0 0 0x3000 |> ls 0 (fun o => { o with st := .armed }), pending := [] }, 0, by decide +kernel⟩,
    ⟨{ m := up0 |> loopw 0 0 0x3000 |> ls 0 (fun o => { o with st := .armed, pend := some 0 }), pending := [] }, 0, by decide +kernel⟩,
    ⟨{ m := up0, pending := [] }, 0, by decide +kernel⟩,
    ⟨{ m := up0 |> ls 0 (fun o => { o with st := .armed, pend := some 0 }), pending := [] }, 0, 0, by decide +kernel⟩,
    ⟨{ m := up0, pending := [] }, 0, by decide +kernel⟩,
    ⟨{ m := up0 |> ls 0 (fun o => { o with st := .armed, run := some { trig := 0, latch := [], omode := 0, manout := 0, events := [] } }), pending := [] }, 0, { trig := 0, latch := [], omode := 0, manout := 0, events := [] }, by decide +kernel⟩,
    ⟨{ m := up0 |> ls 0 (fun o => { o with run := none }), pending := [] }, 0, by decide +kernel⟩,
    ⟨{ m := up0 |> ls 0 (fun o => { o with after := .stop }), pending := [] }, 0, by decide +kernel⟩,
    ⟨{ m := up0, pending := [] }, 0, by decide +kernel⟩,
    ⟨{ m := up0 |> loopw 0 0 0x100 |> activew 0 60 8 |> ls 0 (fun o => { o with st := .armed, pstate := .tentative }), pending := [] }, 0, 1, by decide +kernel⟩,
    ⟨{ m := up0, pending := [] }, 0, by decide +kernel⟩,
    ⟨{ m := up0 |> loopw 0 0 0x100 |> activew 0 60 7 |> loopw 0 80 1 |> ls 0 (fun o => { o with st := .armed }), pending := [] }, 0, 1, by decide +kernel⟩,
    ⟨{ m := up0 |> ls 0 (fun o => { o with plants := [(0, { Plant.init with raised := true })] }), pending := [] }, 0, by decide +kernel⟩⟩

theorem wit_PolicyHandOver :
    (∃ (s : State) (t : Nat), (s.m.pol.srcSince = some t)) ∧
    (∃ (m : Chip) (t : Nat), (m.pol.srcSince = some t)) ∧
    (∃ (s : State), (s.m.pol.srcSince = none)) ∧
    (∃ (s : State) (ag : Agent), (s.m.grants ag (RName.addr .polCmd 0) (1))) ∧
    (∃ (s : State) (t : Nat), (s.m.pol.outHi = some t) ∧ (s.m.pol.ho = .onsrc ∨ s.m.pol.ho = .antic) ∧ (s.m.polFrozen = false) ∧ (s.m.srcCondition = false)) ∧
    (∃ (s : State), (s.m.pol.ho ≠ .onsrc) ∧ (s.m.pol.ho ≠ .antic)) ∧
    (∃ (s : State), (s.m.pol.ho = .handover) ∧ (s.m.polFrozen = false) ∧ (s.m.rectsDown = true)) ∧
    (∃ (s : State), (s.m.pol.ho = .handover) ∧ (s.m.polFrozen = false) ∧ (s.m.rectsDown = false)) ∧
    (∃ (s : State), (s.m.pol.ho ≠ .handover)) ∧
    (∃ (s : State) (t : Nat), (s.m.pol.ho = .onbatt) ∧ (s.m.polFrozen = false) ∧ (s.m.pol.srcSince = some t)) ∧
    (∃ (s : State), (s.m.pol.ho ≠ .onbatt)) ∧
    (∃ (s : State) (t : Nat), (s.m.pol.ho = .ret) ∧ (s.m.polFrozen = false) ∧ (s.m.pol.outLo = some t)) ∧
    (∃ (s : State), (s.m.pol.ho ≠ .ret)) ∧
    (∃ (m : Chip) (_st : HoSt) (_f : Chip → Chip), (m.vendorOk = true)) := by
  unfold Chip.grants Chip.open_
  exact ⟨⟨{ m := up0 |> po (fun o => { o with srcSince := some 0 }), pending := [] }, 0, by decide +kernel⟩,
    ⟨(up0 |> po (fun o => { o with srcSince := some 0 })), 0, by decide +kernel⟩,
    ⟨{ m := up0 |> po (fun o => { o with srcSince := none }), pending := [] }, by decide +kernel⟩,
    ⟨{ m := up0 |> po (fun o => { o with ho := .onsrc }), pending := [] }, .fw, by decide +kernel⟩,
    ⟨{ m := up0 |> po (fun o => { o with ho := .onsrc, outHi := some 0 }) |> rg .srcCfg 0 31 24 1, pending := [] }, 0, by decide +kernel⟩,
    ⟨{ m := up0, pending := [] }, by decide +kernel⟩,
    ⟨{ m := up0 |> po (fun o => { o with ho := .handover }), pending := [] }, by decide +kernel⟩,
    ⟨{ m := up0 |> po (fun o => { o with ho := .handover }) |> loopw 0 7 0x7FFFFFFF, pending := [] }, by decide +kernel⟩,
    ⟨{ m := up0, pending := [] }, by decide +kernel⟩,
    ⟨{ m := up0 |> po (fun o => { o with ho := .onbatt, srcSince := some 0 }), pending := [] }, 0, by decide +kernel⟩,
    ⟨{ m := up0, pending := [] }, by decide +kernel⟩,
    ⟨{ m := up0 |> po (fun o => { o with ho := .ret }) |> po (fun o => { o with outLo := some 0 }), pending := [] }, 0, by decide +kernel⟩,
    ⟨{ m := up0, pending := [] }, by decide +kernel⟩,
    ⟨(up0 |> ls 0 (fun o => { o with st := .armed }) |> ls 1 (fun o => { o with st := .armed }) |> activew 0 34 0x6000000 |> activew 1 34 0x1000000 |> rg .polSlot 0 13 0 0x100 |> rg .shareEntry 0 11 0 0), .onsrc, id, by decide +kernel⟩⟩

theorem wit_PolicySharingCappingShedding :
    (∃ (s : State), (s.m.up = true)) ∧
    (∃ (s : State), (s.m.up = true)) ∧
    (∃ (s : State), (s.m.up = true)) ∧
    (∃ (s : State) (e : BitVec 12) (t : Nat), (e.toNat ∈ s.m.members s.m.shareEntry) ∧ ((s.m.share e.toNat).raised = false) ∧ ((s.m.share e.toNat).devAt = some t) ∧ ((s.m.share e.toNat).satAt = none)) ∧
    (∃ (s : State) (e : BitVec 12), ((s.m.share e.toNat).devAt = none) ∧ ((s.m.share e.toNat).satAt = none)) ∧
    (∃ (s : State), (s.m.up = true)) ∧
    (∃ (m : Chip), (m.pol.cap = .floor)) ∧
    (∃ (s : State) (t : Nat), (s.m.pol.outHi = some t) ∧ (s.m.pol.cap = .off ∨ s.m.pol.cap = .armed) ∧ (s.m.pol.ho = .onsrc ∨ s.m.pol.ho = .antic) ∧ (s.m.polFrozen = false) ∧ (s.m.socLow = false) ∧ (s.m.srcCondition = true)) ∧
    (∃ (s : State), (s.m.pol.cap ≠ .off) ∧ (s.m.pol.cap ≠ .armed)) ∧
    (∃ (s : State) (t : Nat), (s.m.pol.outLo = some t) ∧ (s.m.pol.cap = .capped) ∧ (s.m.pol.ho = .onsrc ∨ s.m.pol.ho = .antic) ∧ (s.m.polFrozen = false)) ∧
    (∃ (s : State), (s.m.pol.cap ≠ .capped)) ∧
    (∃ (s : State) (n : Nat), (s.m.shedding = true) ∧ (s.m.pwr.base ≠ .shadow) ∧ (s.m.shedNext = some n)) ∧
    (∃ (s : State), (s.m.shedding = false)) ∧
    (∃ (s : State) (n : Nat) (t : Nat) (r : Nat), (s.m.up = true) ∧ (s.m.shedding = false) ∧ (s.m.pwr.base ≠ .shadow) ∧ (s.m.pol.calmAt = some t) ∧ (s.m.restoreNext = some n) ∧ (s.m.pol.restAt = some r)) ∧
    (∃ (s : State), (s.m.up = true) ∧ (s.m.pol.calmAt = none)) := by
  exact ⟨⟨{ m := up0, pending := [] }, by decide +kernel⟩,
    ⟨{ m := up0, pending := [] }, by decide +kernel⟩,
    ⟨{ m := up0, pending := [] }, by decide +kernel⟩,
    ⟨{ m := up0 |> entry 1 0 0x03100000 |> entry 1 2 0x80000000 |> en 1 (fun o => { o with st := .online }) |> po (fun o => { o with shares := [(1, { Share.init with devAt := some 0 })] }) |> rg .shareEntry 0 11 0 0, pending := [] }, 1, 0, by decide +kernel⟩,
    ⟨{ m := up0, pending := [] }, 0, by decide +kernel⟩,
    ⟨{ m := up0 |> po (fun o => { o with cap := .floor, ho := .onbatt }), pending := [] }, by decide +kernel⟩,
    ⟨(up0 |> po (fun o => { o with cap := .floor })), by decide +kernel⟩,
    ⟨{ m := up0 |> po (fun o => { o with ho := .onsrc, outHi := some 0 }) |> rg .srcCfg 0 31 0 0 |> rg .capSoc 0 7 0 10 |> bs 0 (fun o => { o with st := .closed }) |> es 0 (fun o => { o with soc := 100 * e32, learned := { o.learned with cap := 1 } }), pending := [] }, 0, by decide +kernel⟩,
    ⟨{ m := up0 |> po (fun o => { o with cap := .capped }), pending := [] }, by decide +kernel⟩,
    ⟨{ m := up0 |> po (fun o => { o with outLo := some 0 }) |> po (fun o => { o with cap := .capped }) |> po (fun o => { o with ho := .onsrc }), pending := [] }, 0, by decide +kernel⟩,
    ⟨{ m := up0, pending := [] }, by decide +kernel⟩,
    ⟨{ m := up0 |> po (fun o => { o with cap := .capped }) |> rg .polCfg 0 7 6 1 |> rg .hoRet 0 15 0 0 |> loopw 0 7 0x7FFFFFFF |> rg .shedMask 0 0 0 1 |> br 0 (fun o => { o with st := .on }), pending := [] }, 0, by decide +kernel⟩,
    ⟨{ m := up0, pending := [] }, by decide +kernel⟩,
    ⟨{ m := up0 |> br 0 (fun o => { o with shed := true }) |> po (fun o => { o with calmAt := some 0, restAt := some 0 }), pending := [] }, 0, 0, 0, by decide +kernel⟩,
    ⟨{ m := up0 |> po (fun o => { o with cap := .capped }) |> rg .polCfg 0 7 6 1 |> rg .hoRet 0 15 0 0 |> loopw 0 7 0x7FFFFFFF |> rg .shedMask 0 0 0 1 |> br 0 (fun o => { o with st := .on }), pending := [] }, by decide +kernel⟩⟩

theorem wit_ConverterCommands :
    (∃ (s : State) (ag : Agent) (x : Fin 2), (s.m.grants ag (RName.addr .cnvXCmd x) (1))) ∧
    (∃ (s : State) (ag : Agent) (x : Fin 2), (s.m.grants ag (RName.addr .cnvXCmd x) (2))) ∧
    (∃ (s : State) (ag : Agent) (x : Fin 2) (k : Fin 8), (s.m.grants ag (RName.addr .cnvXCmd x) (wd (3 + k.val * 256)))) ∧
    (∃ (s : State) (ag : Agent) (x : Fin 2), (s.m.grants ag (RName.addr .cnvXCmd x) (4))) ∧
    (∃ (m : Chip) (x : Nat), ((m.conv x).st = .stopped) ∧ (m.convValid x = true)) ∧
    (∃ (m : Chip) (x : Nat), ((m.conv x).st = .run)) ∧
    (∃ (s : State) (ag : Agent) (x : Fin 2) (d : Word), (s.m.grants ag (RName.addr .cnvXVcmd x) d) ∧ ((s.m.conv x).vdone.length < 8) ∧ (let base := s.m.fld .cnvXVref x 15 0; let sp := wdI (qSat (rdiv ((bits d 15 0 : Int) * q1) base)); let m := match (s.m.conv x).vtag with | some t => s.m.vdonePush x t .esuperseded | none => s.m; let m := m.putLw (s.m.vslot x) 3 (wdI (qSat (rdiv ((s.m.fld .cnvXVrate x 15 0 : Int) * q1) base))); let n := m.putConv x { m.conv x with vtag := some (bits d 23 16), vcSlot := s.m.vslot x }; m.lw (s.m.vslot x) 2 = sp)) ∧
    (∃ (s : State) (ag : Agent) (x : Fin 2) (d : Word), (s.m.grants ag (RName.addr .cnvXVcmd x) d) ∧ ((s.m.conv x).vdone.length < 8) ∧ (let base := s.m.fld .cnvXVref x 15 0; let sp := wdI (qSat (rdiv ((bits d 15 0 : Int) * q1) base)); let m := match (s.m.conv x).vtag with | some t => s.m.vdonePush x t .esuperseded | none => s.m; let m := m.putLw (s.m.vslot x) 3 (wdI (qSat (rdiv ((s.m.fld .cnvXVrate x 15 0 : Int) * q1) base))); let n := (m.spTarget (s.m.vslot x) sp).putConv x { (m.spTarget (s.m.vslot x) sp).conv x with vtag := some (bits d 23 16), vcSlot := s.m.vslot x }; m.lw (s.m.vslot x) 2 ≠ sp)) ∧
    (∃ (s : State) (ag : Agent) (x : Fin 2) (d : Word), (s.m.grants ag (RName.addr .cnvXVcmd x) d) ∧ (8 ≤ (s.m.conv x).vdone.length)) ∧
    (∃ (s : State) (ag : Agent) (x : Fin 2), (s.m.grantsRead ag (RName.addr .cnvXVdone x))) := by
  unfold Chip.grants Chip.grantsRead Chip.open_
  exact ⟨⟨{ m := up0 |> pw (fun o => { o with base := .source }) |> rg .cnvXScale 0 31 0 0x10001 |> rg .cnvXVfs 0 31 0 0x10001 |> rg .cnvXVtgt 0 15 0 1 |> rg .cnvXCfg 0 23 16 255, pending := [] }, .fw, 0, by decide +kernel⟩,
    ⟨{ m := up0 |> cv 0 (fun o => { o with st := .run }), pending := [] }, .fw, 0, by decide +kernel⟩,
    ⟨{ m := up0 |> (fun m : Chip => { m with flt := { m.flt with fences := [((Scope.phaseB.idx, 0), { src := 0, read := true })] } }) |> cv 0 (fun o => o.putPhase 0 { o.phase 0 with fenced := true }), pending := [] }, .fw, 0, 0, by decide +kernel⟩,
    ⟨{ m := up0 |> (fun m : Chip => { m with flt := { m.flt with fences := [((Scope.stage.idx, 0), { src := 0, read := true })] } }) |> cv 0 (fun o => { o with st := .fenced }), pending := [] }, .fw, 0, by decide +kernel⟩,
    ⟨(up0 |> pw (fun o => { o with base := .source }) |> rg .cnvXScale 0 31 0 0x10001 |> rg .cnvXVfs 0 31 0 0x10001 |> rg .cnvXVtgt 0 15 0 1 |> rg .cnvXCfg 0 23 16 255 |> bs 0 (fun o => { o with st := .closed })), 0, by decide +kernel⟩,
    ⟨(up0 |> cv 0 (fun o => { o with st := .run })), 0, by decide +kernel⟩,
    ⟨{ m := up0 |> pw (fun o => { o with base := .source }) |> rg .cnvXVref 0 15 0 1 |> ls 0 (fun o => { o with st := .armed }) |> rg .polSlot 0 24 0 0x10101, pending := [] }, .fw, 0, 0, by decide +kernel⟩,
    ⟨{ m := up0 |> pw (fun o => { o with base := .source }) |> rg .cnvXVref 0 15 0 1 |> ls 0 (fun o => { o with st := .armed }) |> rg .polSlot 0 24 0 0x10101, pending := [] }, .fw, 0, 1, by decide +kernel⟩,
    ⟨{ m := up0 |> pw (fun o => { o with base := .source }) |> rg .cnvXVref 0 15 0 1 |> ls 0 (fun o => { o with st := .armed }) |> rg .polSlot 0 24 0 0x10101 |> cv 0 (fun o => { o with vdone := List.replicate 8 0 }), pending := [] }, .fw, 0, 1, by decide +kernel⟩,
    ⟨{ m := up0, pending := [] }, .fw, 0, by decide +kernel⟩⟩

theorem wit_ConverterSwitching :
    (∃ (s : State) (x : Fin 2), ((s.m.conv x).st = .softstart) ∧ ((s.m.conv x).ckpt = 3) ∧ ((let m := s.m.elapse (s.m.conv x).since (4 * s.m.fld .cnvXSs x 11 0 * 100 / 4); (4 : Int) * (m.fld .cnvXSs x 19 12 : Int) * (m.fld .cnvXVtgt x 15 0 : Int) * q1 ≤ 400 * m.checkV x))) ∧
    (∃ (s : State) (x : Fin 2), ((s.m.conv x).st = .softstart) ∧ ((s.m.conv x).ckpt < 3) ∧ ((let m := s.m.elapse (s.m.conv x).since (((s.m.conv x).ckpt + 1) * s.m.fld .cnvXSs x 11 0 * 100 / 4); (((s.m.conv x).ckpt + 1 : Nat) : Int) * (m.fld .cnvXSs x 19 12 : Int) * (m.fld .cnvXVtgt x 15 0 : Int) * q1 ≤ 400 * m.checkV x))) ∧
    (∃ (s : State) (x : Fin 2), ((s.m.conv x).st ≠ .softstart)) ∧
    (∃ (s : State) (x : Fin 2), ((s.m.conv x).st = .hiccup)) ∧
    (∃ (s : State) (x : Fin 2), ((s.m.conv x).st = .stopping) ∧ ((s.m.conv x).pendStart = false)) ∧
    (∃ (s : State) (x : Fin 2), ((s.m.conv x).st = .stopping) ∧ ((s.m.conv x).pendStart = true)) ∧
    (∃ (s : State) (x : Fin 2), ((s.m.conv x).st ≠ .stopping)) ∧
    (∃ (s : State) (x : Fin 2), ((s.m.conv x).st = .run) ∧ (16 * s.m.fld .cnvXSs x 31 20 ≤ (s.m.conv x).shCnt) ∧ (s.m.checkLow x = true)) ∧
    (∃ (s : State) (k : Fin 8) (cs : Int), ((s.m.conv 1).switching = true) ∧ (has (s.m.conv 1).active k = true) ∧ (0 < cs) ∧ (s.m.fld .cnvXIlim 1 7 0 * 2048 ≤ 100 * cs.natAbs)) ∧
    (∃ (s : State) (k : Fin 8) (cs : Int), ((s.m.conv 0).switching = true) ∧ (has (s.m.conv 0).active k = true) ∧ ((s.m.conv 0).kindDuty = true ∨ (0 < (s.m.conv 0).eff ↔ 0 < cs)) ∧ (s.m.fld .cnvXIlim 0 7 0 * 2048 ≤ 100 * cs.natAbs)) ∧
    (∃ (s : State) (x : Fin 2) (k : Fin 8) (cs : Int), ((s.m.conv x).switching = true) ∧ (has (s.m.conv x).active k = true) ∧ (((s.m.conv x).phase k).fenced = false) ∧ (((s.m.conv x).phase k).scOff = 0) ∧ (s.m.fld .cnvXIlim x 15 8 * 2048 ≤ 100 * cs.natAbs)) ∧
    (∃ (s : State) (x : Fin 2) (k : Fin 8), (((s.m.conv x).phase k).scOff = 1) ∧ (((s.m.conv x).phase k).fenced = false)) ∧
    (∃ (s : State) (x : Fin 2) (k : Fin 8), (((s.m.conv x).phase k).scOff ≠ 1)) ∧
    (∃ (s : State) (x : Fin 2), ((s.m.conv x).switching = true) ∧ ((s.m.conv x).slowcl = true) ∧ ((s.m.conv x).overload = false)) ∧
    (∃ (s : State) (x : Fin 2) (k : Fin 8), ((s.m.conv x).switching = true) ∧ (has (s.m.conv x).active k = true) ∧ (s.m.fld .cnvXImb x 23 16 ≤ ((s.m.conv x).phase k).imb) ∧ (((s.m.conv x).phase k).imb ≠ 0)) ∧
    (∃ (s : State) (x : Fin 2) (k : Fin 8) (mv : BitVec 12) (frac : BitVec 16), ((s.m.conv x).switching = true) ∧ (has (s.m.conv x).active k = true) ∧ (s.m.zeroAbove x mv.toNat ≠ ((s.m.conv x).phase k).zc) ∧ ((x = 0 ∧ (s.m.conv x).syncHi x = false ↔ s.m.zeroAbove x mv.toNat = true)) ∧ (s.m.inSync x k frac.toNat = true)) ∧
    (∃ (s : State) (x : Fin 2) (k : Fin 8), ((s.m.conv x).switching = true) ∧ (has (s.m.conv x).active k = true) ∧ (s.m.flag .cnvXDe x 0 = true) ∧ (((s.m.conv x).phase k).de = false) ∧ (s.m.fld .cnvXDe x 7 4 ≤ ((s.m.conv x).phase k).deCnt)) ∧
    (∃ (s : State) (x : Fin 2) (k : Fin 8), ((s.m.conv x).switching = true) ∧ (has (s.m.conv x).active k = true) ∧ (((s.m.conv x).phase k).de = true) ∧ (s.m.flag .cnvXDe x 1 = false) ∧ (s.m.fld .cnvXDe x 7 4 ≤ ((s.m.conv x).phase k).deCnt)) ∧
    (∃ (s : State) (x : Fin 2) (_k : Fin 8) (_cs : Int) (_mv : BitVec 12) (_frac : BitVec 16), ((s.m.conv x).switching = false) ∧ ((s.m.conv x).quickAt = none)) ∧
    (∃ (s : State) (x : Fin 2), (s.m.fld .cnvXRot x 15 0 ≠ 0) ∧ ((s.m.conv x).rot ≠ 0) ∧ ((s.m.conv x).rot % s.m.fld .cnvXRot x 15 0 = 0) ∧ ((s.m.conv x).st = .run) ∧ ((s.m.conv x).limited = false) ∧ (∀ k < 8, has (s.m.conv x).active k = true → ((s.m.conv x).phase k).de = false)) := by
  exact ⟨⟨{ m := up0 |> cv 0 (fun o => { o with st := .softstart, ckpt := 3 }), pending := [] }, 0, by decide +kernel⟩,
    ⟨{ m := up0 |> cv 0 (fun o => { o with st := .softstart }), pending := [] }, 0, by decide +kernel⟩,
    ⟨{ m := up0, pending := [] }, 0, by decide +kernel⟩,
    ⟨{ m := up0 |> cv 0 (fun o => { o with st := .hiccup }), pending := [] }, 0, by decide +kernel⟩,
    ⟨{ m := up0 |> cv 0 (fun o => { o with st := .stopping }) |> cv 0 (fun o => { o with pendStart := false }), pending := [] }, 0, by decide +kernel⟩,
    ⟨{ m := up0 |> cv 0 (fun o => { o with st := .stopping }) |> cv 0 (fun o => { o with pendStart := true }), pending := [] }, 0, by decide +kernel⟩,
    ⟨{ m := up0, pending := [] }, 0, by decide +kernel⟩,
    ⟨{ m := up0 |> rg .cnvXSs 0 31 12 0x164 |> rg .cnvXVtgt 0 15 0 1 |> cv 0 (fun o => ({ o with st := .run, active := 255, shCnt := 100 })), pending := [] }, 0, by decide +kernel⟩,
    ⟨{ m := up0 |> cv 1 (fun o => ({ o with st := .run, active := 255 })), pending := [] }, 0, 1000000, by decide +kernel⟩,
    ⟨{ m := up0 |> cv 0 (fun o => ({ o with st := .run, active := 255, eff := 1 })), pending := [] }, 0, 1000000, by decide +kernel⟩,
    ⟨{ m := up0 |> cv 0 (fun o => ({ o with st := .run, active := 255 })), pending := [] }, 0, 0, 1000000, by decide +kernel⟩,
    ⟨{ m := up0 |> cv 0 (fun o => o.putPhase 0 { o.phase 0 with scOff := 1 }), pending := [] }, 0, 0, by decide +kernel⟩,
    ⟨{ m := up0, pending := [] }, 0, 0, by decide +kernel⟩,
    ⟨{ m := up0 |> cv 0 (fun o => ({ o with st := .run, active := 255, slowcl := true })), pending := [] }, 0, by decide +kernel⟩,
    ⟨{ m := up0 |> cv 0 (fun o => { o with st := .run, active := 255 }.putPhase 0 { o.phase 0 with imb := 255 }), pending := [] }, 0, 0, by decide +kernel⟩,
    ⟨{ m := up0 |> cv 0 (fun o => ({ o with st := .run, active := 255 })), pending := [] }, 0, 0, 0xFFF, 0, by decide +kernel⟩,
    ⟨{ m := up0 |> rg .cnvXDe 0 0 0 1 |> cv 0 (fun o => { o with st := .run, active := 255 }.putPhase 0 { o.phase 0 with deCnt := 15 }), pending := [] }, 0, 0, by decide +kernel⟩,
    ⟨{ m := up0 |> rg .cnvXDe 0 1 1 0 |> cv 0 (fun o => { o with st := .run, active := 255 }.putPhase 0 { o.phase 0 with deCnt := 15, de := true }), pending := [] }, 0, 0, by decide +kernel⟩,
    ⟨{ m := up0, pending := [] }, 0, 0, 0, 0, 0, by decide +kernel⟩,
    ⟨{ m := up0 |> cv 0 (fun o => { o with st := .run, active := 255, rot := 1 }) |> rg .cnvXRot 0 15 0 1, pending := [] }, 0, by decide +kernel⟩⟩

theorem wit_ConverterPeriodsAndSync :
    (∃ (s : State) (cur : List Int), ((s.m.conv 1).switching = true) ∧ ((((s.m.phaseStarts 1 true).boundaryTime 1).periodEnd 1 cur |>.conv 1).frozen = false) ∧ ((((s.m.phaseStarts 1 true).boundaryTime 1).periodEnd 1 cur |>.convCmd 1).2 = true)) ∧
    (∃ (s : State) (x : Fin 2) (_cur : List Int), ((s.m.conv x).switching = false)) ∧
    (∃ (s : State) (per : Nat), (s.m.up = true) ∧ (s.m.edgesSeen = true) ∧ (s.m.cnv.syncPer * 3 ≤ per * 4) ∧ (per * 4 ≤ s.m.cnv.syncPer * 5)) ∧
    (∃ (s : State) (per : Nat), (s.m.up = true) ∧ (s.m.edgesSeen = true) ∧ (s.m.cnv.syncPer ≠ 0) ∧ (per * 4 < s.m.cnv.syncPer * 3 ∨ (s.m.cnv.syncPer * 5 < per * 4 ∧ per * 4 < s.m.cnv.syncPer * 7) ∨ s.m.cnv.syncPer * 9 < per * 4)) ∧
    (∃ (s : State) (x : Fin 2), (s.m.syncing x = true) ∧ ((s.m.conv x).synclk = false) ∧ (16 ≤ (s.m.conv x).lockCnt)) ∧
    (∃ (s : State) (x : Fin 2), (s.m.flag .cnvXCfg x 3 = true) ∧ (s.m.flag .cnvSync 0 0 = true) ∧ ((s.m.conv x).track = true)) ∧
    (∃ (s : State) (x : Fin 2), (s.m.flag .cnvXCfg x 3 = false)) ∧
    (∃ (s : State) (t : Fin 8), ((s.m.tone t).w ≠ s.m.get .cnvPertTone t) ∧ (bits (s.m.tone t).w 23 16 = 0)) ∧
    (∃ (s : State) (t : Fin 8), ((s.m.tone t).w = s.m.get .cnvPertTone t)) ∧
    (∃ (s : State), ((s.m.conv 0).st = .run) ∧ ((s.m.conv 0).eff ≤ -2 * ((s.m.fld .cnvBcvRem 0 7 0 : Int) * q1 / 1000)) ∧ (((s.m.conv 0).meas.natAbs : Int) < (s.m.fld .cnvBcvRem 0 7 0 : Int) * q1 / 1000) ∧ ((s.m.conv 0).loHist ≠ []) ∧ ((1000 + (s.m.fld .cnvBcvRem 0 15 8 : Int)) * (s.m.conv 0).loMean < 1000 * s.m.loV 0)) ∧
    (∃ (s : State), ((s.m.conv 0).st = .stopped)) ∧
    (∃ (s : State) (x : Fin 2), ((s.m.conv x).st = .run)) ∧
    (∃ (s : State) (x : Fin 2), ((s.m.conv x).st ≠ .run)) := by
  exact ⟨⟨{ m := up0 |> cv 1 (fun o => { o with st := .run, active := 15 }) |> rg .cnvXCfg 1 2 2 1, pending := [] }, [], by decide +kernel⟩,
    ⟨{ m := up0, pending := [] }, 0, [], by decide +kernel⟩,
    ⟨{ m := up0 |> cn (fun o => { o with syncSeen := true, syncPer := 2000 }), pending := [] }, 2000, by decide +kernel⟩,
    ⟨{ m := up0 |> cn (fun o => { o with syncSeen := true, syncPer := 100 }), pending := [] }, 50, by decide +kernel⟩,
    ⟨{ m := up0 |> cn (fun o => { o with syncSeen := true, syncPer := 2000 }) |> rg .cnvXCfg 0 3 3 1 |> rg .cnvSync 0 0 0 1 |> rg .cnvXPer 0 15 0 2000 |> cv 0 (fun o => { o with lockCnt := 16, synclk := false }), pending := [] }, 0, by decide +kernel⟩,
    ⟨{ m := up0 |> rg .cnvXCfg 0 3 3 1 |> rg .cnvSync 0 0 0 1 |> cv 0 (fun o => { o with track := true }), pending := [] }, 0, by decide +kernel⟩,
    ⟨{ m := up0 |> rg .cnvXCfg 0 3 3 0, pending := [] }, 0, by decide +kernel⟩,
    ⟨{ m := up0 |> rg .cnvPertTone 0 0 0 1, pending := [] }, 0, by decide +kernel⟩,
    ⟨{ m := up0, pending := [] }, 0, by decide +kernel⟩,
    ⟨{ m := up0 |> cv 0 (fun o => { o with st := .run, eff := -1000000000, loHist := [(0, -1000)] }) |> rg .cnvBcvRem 0 7 0 1, pending := [] }, by decide +kernel⟩,
    ⟨{ m := up0 |> cv 0 (fun o => { o with st := .stopped }), pending := [] }, by decide +kernel⟩,
    ⟨{ m := up0 |> cv 0 (fun o => { o with st := .run }), pending := [] }, 0, by decide +kernel⟩,
    ⟨{ m := up0, pending := [] }, 0, by decide +kernel⟩⟩

theorem wit_BranchAndBatteryCommands :
    (∃ (s : State) (ag : Agent) (n : Fin 24), (s.m.grants ag (RName.addr .brnNCmd n) (1))) ∧
    (∃ (s : State) (ag : Agent) (n : Fin 24), (s.m.grants ag (RName.addr .brnNCmd n) (2))) ∧
    (∃ (s : State) (ag : Agent) (n : Fin 24), (s.m.grants ag (RName.addr .brnNCmd n) (3))) ∧
    (∃ (s : State) (ag : Agent) (n : Fin 24), (s.m.grants ag (RName.addr .brnNCmd n) (4))) ∧
    (∃ (m : Chip) (n : Nat) (_c : Nat), ((m.branch n).gen = true)) ∧
    (∃ (s : State) (ag : Agent) (n : Fin 24), (s.m.grantsRead ag (RName.addr .brnNElo n))) ∧
    (∃ (s : State) (ag : Agent) (n : Fin 4), (s.m.grants ag (RName.addr .batCmd 0) (wd (1 + n.val * 256)))) ∧
    (∃ (s : State) (ag : Agent) (n : Fin 4), (s.m.grants ag (RName.addr .batCmd 0) (wd (2 + n.val * 256)))) ∧
    (∃ (s : State) (ag : Agent) (n : Fin 4), (s.m.grants ag (RName.addr .batCmd 0) (wd (3 + n.val * 256)))) ∧
    (∃ (s : State) (ag : Agent), (s.m.grants ag (RName.addr .batCmd 0) (wd 4))) ∧
    (∃ (s : State) (ag : Agent), (s.m.grants ag (RName.addr .batCmd 0) (wd 5))) ∧
    (∃ (s : State) (ag : Agent), (s.m.grants ag (RName.addr .batCmd 0) (wd 6))) := by
  unfold Chip.grants Chip.grantsRead Chip.open_
  exact ⟨⟨{ m := up0 |> pw (fun o => { o with base := .source }) |> rg .brnNScale 0 31 0 0x10001, pending := [] }, .fw, 0, by decide +kernel⟩,
    ⟨{ m := up0, pending := [] }, .fw, 0, by decide +kernel⟩,
    ⟨{ m := up0 |> (fun m : Chip => { m with flt := { m.flt with fences := [((Scope.branch.idx, 0), { src := 0, read := true })] } }) |> br 0 (fun o => { o with st := .fenced }), pending := [] }, .fw, 0, by decide +kernel⟩,
    ⟨{ m := up0, pending := [] }, .fw, 0, by decide +kernel⟩,
    ⟨(up0 |> br 0 (fun o => { o with st := .on })), 0, 0, by decide +kernel⟩,
    ⟨{ m := up0, pending := [] }, .fw, 0, by decide +kernel⟩,
    ⟨{ m := up0 |> rg .batStrCfg 0 20 20 1 |> bs 0 (fun o => { o with st := .open_ }), pending := [] }, .fw, 0, by decide +kernel⟩,
    ⟨{ m := up0 |> rg .batStrCfg 0 20 20 1 |> bs 0 (fun o => { o with st := .open_ }), pending := [] }, .fw, 0, by decide +kernel⟩,
    ⟨{ m := up0 |> bs 0 (fun o => { o with st := .closed }), pending := [] }, .fw, 0, by decide +kernel⟩,
    ⟨{ m := up0, pending := [] }, .fw, by decide +kernel⟩,
    ⟨{ m := up0, pending := [] }, .fw, by decide +kernel⟩,
    ⟨{ m := up0 |> bs 0 (fun o => { o with st := .closed }) |> rg .batCfg 0 2 1 0 |> rg .batStrCfg 0 20 20 1, pending := [] }, .fw, by decide +kernel⟩⟩

theorem wit_BranchProtection :
    (∃ (s : State) (n : Fin 24) (_i : Int) (_v : BitVec 16) (_want : Int) (_gfb : Bool), (s.m.dom 8 = .on) ∧ (s.m.brnConfigured n = true)) ∧
    (∃ (s : State) (_n : Fin 24) (_i : Int) (_v : BitVec 16) (_want : Int) (_gfb : Bool), (s.m.dom 8 ≠ .on)) ∧
    (∃ (s : State) (n : Fin 24), (s.m.brnConfigured n = true) ∧ ((s.m.branch n).cnt ≠ 0)) ∧
    (∃ (s : State) (n : Fin 24) (cur : Int), (s.m.pwr.base ≠ .shadow) ∧ ((s.m.branch n).gen = true) ∧ (s.m.fld .brnNTrip n 9 0 * 32768 < 1000 * cur.natAbs)) ∧
    (∃ (s : State) (n : Fin 24) (_cur : Int), (s.m.pwr.base ≠ .shadow) ∧ ((s.m.branch n).gen = false) ∧ (s.m.brnJustExpired n = false)) ∧
    (∃ (s : State) (n : Fin 24) (cur : Int), (s.m.pwr.base ≠ .shadow) ∧ ((s.m.branch n).gen = false) ∧ (s.m.brnJustExpired n = true) ∧ (s.m.fld .brnNTrip n 9 0 * 32768 < 1000 * cur.natAbs)) ∧
    (∃ (s : State) (n : Fin 24), (s.m.pwr.base ≠ .shadow) ∧ ((s.m.branch n).st = .inrush) ∧ ((s.m.branch n).limit = false) ∧ (s.m.fld .brnNInr n 31 16 * 65536 ≤ s.m.brnVs n)) ∧
    (∃ (s : State) (n : Fin 24), ((s.m.branch n).st ≠ .inrush)) ∧
    (∃ (s : State) (n : Fin 24), (s.m.pwr.base ≠ .shadow) ∧ ((s.m.branch n).st = .inrush)) ∧
    (∃ (s : State) (n : Fin 24), (s.m.pwr.base ≠ .shadow) ∧ ((s.m.branch n).st ≠ .inrush)) ∧
    (∃ (s : State) (n : Fin 24), (s.m.pwr.base ≠ .shadow) ∧ ((s.m.branch n).st = .inrush) ∧ (s.m.fld .brnNInr n 31 16 ≠ 0) ∧ (s.m.now ≤ (s.m.branch n).since + s.m.fld .brnNTmr n 19 12 * 100) ∧ (10 * s.m.brnVs n < s.m.fld .brnNInr n 31 16 * 65536)) ∧
    (∃ (s : State) (n : Fin 24), (s.m.pwr.base ≠ .shadow) ∧ ((s.m.branch n).st ≠ .inrush)) ∧
    (∃ (s : State) (n : Fin 24), (s.m.pwr.base ≠ .shadow) ∧ ((s.m.branch n).st = .on) ∧ ((s.m.branch n).limit = true)) ∧
    (∃ (s : State) (n : Fin 24), (s.m.pwr.base ≠ .shadow) ∧ ((s.m.branch n).st ≠ .on)) ∧
    (∃ (s : State) (n : Fin 24) (k : Fin 3), (s.m.pwr.base ≠ .shadow) ∧ (k = 0) ∧ ((s.m.branch n).gen = true) ∧ (s.m.brnGfb n = false) ∧ ((s.m.branch n).gfbAt ≤ (s.m.branch n).genAt)) ∧
    (∃ (s : State) (n : Fin 24) (k : Fin 3), (s.m.pwr.base ≠ .shadow) ∧ (k = 1) ∧ ((s.m.branch n).gen = true) ∧ (s.m.brnGfb n = false) ∧ ((s.m.branch n).genAt < (s.m.branch n).gfbAt)) ∧
    (∃ (s : State) (n : Fin 24) (k : Fin 3), (s.m.pwr.base ≠ .shadow) ∧ (k = 2) ∧ ((s.m.branch n).gen = false) ∧ ((s.m.branch n).genAt ≠ 0) ∧ (s.m.brnGfb n = true) ∧ ((s.m.branch n).gfbAt ≤ (s.m.branch n).genAt) ∧ ((s.m.branch n).fallRaised = false)) ∧
    (∃ (s : State) (n : Fin 24), (s.m.pwr.base ≠ .shadow) ∧ ((s.m.branch n).st = .tripped) ∧ ((s.m.branch n).retry < s.m.brnF .brnNRetry n 3 0)) ∧
    (∃ (s : State) (n : Fin 24), (s.m.brnF .brnNRetry n 3 0 ≤ (s.m.branch n).retry)) ∧
    (∃ (s : State) (n : Fin 24), (s.m.pwr.base ≠ .shadow) ∧ ((s.m.branch n).st = .on)) ∧
    (∃ (s : State) (n : Fin 24) (t : Nat), (s.m.up = true) ∧ (s.m.pwr.base ≠ .shadow) ∧ ((s.m.branch n).leakAt = some t) ∧ ((s.m.branch n).st = .off) ∧ ((s.m.branch n).short = false)) ∧
    (∃ (s : State) (n : Fin 24), (s.m.up = true) ∧ (s.m.pwr.base ≠ .shadow) ∧ ((s.m.branch n).short = true)) ∧
    (∃ (s : State) (t : Nat), (s.m.brn.autoLeft = some t)) ∧
    (∃ (s : State), (s.m.brn.autoLeft = none)) ∧
    (∃ (s : State) (_n : Fin 24), (s.m.pwr.base = .shadow)) := by
  exact ⟨⟨{ m := up0 |> pw (fun o => { o with base := .source }) |> rg .brnNScale 0 31 0 0x10001, pending := [] }, 0, 0, 0, 0, false, by decide +kernel⟩,
    ⟨{ m := up0 |> pw (fun o => { o with base := .boot }), pending := [] }, 0, 0, 0, 0, false, by decide +kernel⟩,
    ⟨{ m := up0 |> rg .brnNScale 0 31 0 0x10001 |> br 0 (fun o => { o with cnt := 1 }), pending := [] }, 0, by decide +kernel⟩,
    ⟨{ m := up0 |> br 0 (fun o => { o with st := .on }), pending := [] }, 0, 1000000, by decide +kernel⟩,
    ⟨{ m := up0, pending := [] }, 0, 0, by decide +kernel⟩,
    ⟨{ m := up0 |> br 0 (fun o => { o with st := .tripped, cause := 3 }), pending := [] }, 0, 1000000, by decide +kernel⟩,
    ⟨{ m := up0 |> br 0 (fun o => { o with st := .inrush }) |> br 0 (fun o => { o with limit := false }), pending := [] }, 0, by decide +kernel⟩,
    ⟨{ m := up0, pending := [] }, 0, by decide +kernel⟩,
    ⟨{ m := up0 |> br 0 (fun o => { o with st := .inrush }), pending := [] }, 0, by decide +kernel⟩,
    ⟨{ m := up0, pending := [] }, 0, by decide +kernel⟩,
    ⟨{ m := up0 |> br 0 (fun o => { o with st := .inrush }) |> rg .brnNInr 0 31 16 1, pending := [] }, 0, by decide +kernel⟩,
    ⟨{ m := up0, pending := [] }, 0, by decide +kernel⟩,
    ⟨{ m := up0 |> br 0 (fun o => { o with st := .on }) |> br 0 (fun o => { o with limit := true }), pending := [] }, 0, by decide +kernel⟩,
    ⟨{ m := up0, pending := [] }, 0, by decide +kernel⟩,
    ⟨{ m := up0 |> br 0 (fun o => { o with st := .on }), pending := [] }, 0, 0, by decide +kernel⟩,
    ⟨{ m := up0 |> rg .brnNGate 0 0 0 0 |> br 0 (fun o => { o with st := .on, gfb := false, gfbAt := 1 }), pending := [] }, 0, 1, by decide +kernel⟩,
    ⟨{ m := up0 |> rg .brnNGate 0 0 0 0 |> br 0 (fun o => { o with st := .off, gfb := true, genAt := 1, fallRaised := false }), pending := [] }, 0, 2, by decide +kernel⟩,
    ⟨{ m := up0 |> br 0 (fun o => { o with st := .tripped }), pending := [] }, 0, by decide +kernel⟩,
    ⟨{ m := up0 |> rg .brnNRetry 0 3 0 0, pending := [] }, 0, by decide +kernel⟩,
    ⟨{ m := up0 |> br 0 (fun o => { o with st := .on }), pending := [] }, 0, by decide +kernel⟩,
    ⟨{ m := up0 |> br 0 (fun o => { o with leakAt := some 0 }), pending := [] }, 0, 0, by decide +kernel⟩,
    ⟨{ m := up0 |> br 0 (fun o => { o with short := true }), pending := [] }, 0, by decide +kernel⟩,
    ⟨{ m := up0 |> (fun m : Chip => { m with brn := { m.brn with autoLeft := some 0 } }), pending := [] }, 0, by decide +kernel⟩,
    ⟨{ m := up0, pending := [] }, by decide +kernel⟩,
    ⟨{ m := up0 |> pw (fun o => { o with base := .shadow }), pending := [] }, 0, by decide +kernel⟩⟩

theorem wit_BatteryStrings :
    (∃ (s : State) (n : Fin 4) (t : Nat), ((s.m.bstr n).inAt = some t) ∧ ((s.m.bstr n).st = .absent) ∧ (s.m.strOn n = true)) ∧
    (∃ (s : State) (n : Fin 4), ((s.m.bstr n).st ≠ .absent)) ∧
    (∃ (s : State) (n : Fin 4) (good : Bool) (w : Word), ((s.m.bstr n).idRes = some (good, w)) ∧ ((s.m.bstr n).reading = true)) ∧
    (∃ (s : State) (n : Fin 4), ((s.m.bstr n).reading = false)) ∧
    (∃ (s : State) (n : Fin 4) (t : Nat), ((s.m.bstr n).nearAt = some t) ∧ ((s.m.bstr n).st = .matching) ∧ (s.m.connPermits = true)) ∧
    (∃ (s : State) (n : Fin 4), ((s.m.bstr n).st ≠ .matching)) ∧
    (∃ (s : State) (n : Fin 4), ((s.m.bstr n).st = .matching)) ∧
    (∃ (s : State) (n : Fin 4) (never : Bool), ((s.m.bstr n).st = .closed) ∧ (never = true) ∧ (s.m.now ≤ (s.m.bstr n).since + s.m.fld .batSwcfg 0 7 0 * 1000)) ∧
    (∃ (s : State) (n : Fin 4) (never : Bool), ((s.m.bstr n).st = .closed) ∧ (never = false)) ∧
    (∃ (s : State) (n : Fin 4) (_never : Bool), ((s.m.bstr n).st ≠ .closed)) ∧
    (∃ (s : State) (n : Fin 4), ((s.m.bstr n).st = .open_) ∧ ((s.m.bstr n).ssw = false) ∧ ((s.m.bstr n).fellAt ≠ 0) ∧ (s.m.now ≤ (s.m.bstr n).fellAt + s.m.fld .batSwcfg 0 7 0 * 1000)) ∧
    (∃ (s : State) (n : Fin 4), ((s.m.bstr n).st = .stuck)) ∧
    (∃ (s : State) (n : Fin 4), ((s.m.bstr n).st ≠ .stuck)) ∧
    (∃ (s : State) (n : Fin 4) (t : Nat), ((s.m.bstr n).outAt = some t) ∧ ((s.m.bstr n).st = .open_ ∨ (s.m.bstr n).st = .matching)) ∧
    (∃ (s : State) (n : Fin 4), ((s.m.bstr n).st = .closed)) ∧
    (∃ (s : State) (t : Nat), (s.m.cnv.removed = some t) ∧ (s.m.now ≤ t + 1000) ∧ (s.m.strsGone ≠ [])) ∧
    (∃ (s : State), (s.m.cnv.removed = none) ∧ (s.m.strsGone = [])) ∧
    (∃ (s : State) (n : Fin 4) (t : Nat), ((s.m.bstr n).cutAt = some t) ∧ ((s.m.bstr n).st = .closed) ∧ ((s.m.bstr n).uvDone = false)) ∧
    (∃ (s : State) (n : Fin 4), ((s.m.bstr n).cutAt = none)) ∧
    (∃ (s : State) (n : Fin 4) (t : Nat), ((s.m.bstr n).ocAt = some t) ∧ ((s.m.bstr n).st = .closed) ∧ ((s.m.bstr n).ocDone = false)) ∧
    (∃ (s : State) (n : Fin 4), ((s.m.bstr n).ocAt = none)) ∧
    (∃ (s : State), (s.m.pwr.base = .ship) ∧ (s.m.flag .batShipCfg 0 0 = true) ∧ (s.m.pwr.supLow = false)) ∧
    (∃ (s : State), (s.m.pwr.base = .ship) ∧ (s.m.flag .batShipCfg 0 0 = true) ∧ (s.m.pwr.supLow = true) ∧ (s.m.pwr.wakeDue = 0)) ∧
    (∃ (s : State), (s.m.pwr.base ≠ .ship)) ∧
    (∃ (s : State) (present : Bool), (present = true) ∧ (s.m.pwr.base = .ship) ∧ (s.m.flag .batShipCfg 0 1 = true) ∧ (s.m.pwr.supLow = false)) ∧
    (∃ (s : State) (_present : Bool), (s.m.pwr.base ≠ .ship)) := by
  exact ⟨⟨{ m := up0 |> bs 0 (fun o => { o with inAt := some 0 }) |> rg .batStrCfg 0 20 20 1, pending := [] }, 0, 0, by decide +kernel⟩,
    ⟨{ m := up0 |> bs 0 (fun o => { o with st := .open_ }), pending := [] }, 0, by decide +kernel⟩,
    ⟨{ m := up0 |> bs 0 (fun o => { o with idRes := some (((false : Bool)), 0) }) |> bs 0 (fun o => { o with reading := true }), pending := [] }, 0, false, 0, by decide +kernel⟩,
    ⟨{ m := up0 |> bs 0 (fun o => { o with reading := false }), pending := [] }, 0, by decide +kernel⟩,
    ⟨{ m := up0 |> bs 0 (fun o => { o with nearAt := some 0 }) |> bs 0 (fun o => { o with st := .matching }), pending := [] }, 0, 0, by decide +kernel⟩,
    ⟨{ m := up0, pending := [] }, 0, by decide +kernel⟩,
    ⟨{ m := up0 |> bs 0 (fun o => { o with st := .matching }), pending := [] }, 0, by decide +kernel⟩,
    ⟨{ m := up0 |> bs 0 (fun o => { o with st := .closed }), pending := [] }, 0, true, by decide +kernel⟩,
    ⟨{ m := up0 |> bs 0 (fun o => { o with st := .closed }), pending := [] }, 0, false, by decide +kernel⟩,
    ⟨{ m := up0, pending := [] }, 0, false, by decide +kernel⟩,
    ⟨{ m := up0 |> bs 0 (fun o => { o with st := .open_, ssw := false, fellAt := 1 }), pending := [] }, 0, by decide +kernel⟩,
    ⟨{ m := up0 |> bs 0 (fun o => { o with st := .stuck }), pending := [] }, 0, by decide +kernel⟩,
    ⟨{ m := up0, pending := [] }, 0, by decide +kernel⟩,
    ⟨{ m := up0 |> bs 0 (fun o => { o with outAt := some 0 }) |> bs 0 (fun o => { o with st := .open_ }), pending := [] }, 0, 0, by decide +kernel⟩,
    ⟨{ m := up0 |> bs 0 (fun o => { o with st := .closed }), pending := [] }, 0, by decide +kernel⟩,
    ⟨{ m := up0 |> bs 0 (fun o => { o with st := .closed, outAt := some 0 }) |> cn (fun o => { o with removed := some 0 }), pending := [] }, 0, by decide +kernel⟩,
    ⟨{ m := up0 |> cn (fun o => { o with removed := none }), pending := [] }, by decide +kernel⟩,
    ⟨{ m := up0 |> bs 0 (fun o => { o with cutAt := some 0 }) |> bs 0 (fun o => { o with st := .closed }) |> bs 0 (fun o => { o with uvDone := false }), pending := [] }, 0, 0, by decide +kernel⟩,
    ⟨{ m := up0 |> bs 0 (fun o => { o with cutAt := none }), pending := [] }, 0, by decide +kernel⟩,
    ⟨{ m := up0 |> bs 0 (fun o => { o with st := .closed, ocAt := some 0, ocDone := false }), pending := [] }, 0, 0, by decide +kernel⟩,
    ⟨{ m := up0 |> bs 0 (fun o => { o with ocAt := none }), pending := [] }, 0, by decide +kernel⟩,
    ⟨{ m := up0 |> pw (fun o => { o with base := .ship }) |> rg .batShipCfg 0 0 0 1 |> pw (fun o => { o with supLow := false }), pending := [] }, by decide +kernel⟩,
    ⟨{ m := up0 |> pw (fun o => { o with base := .ship }) |> rg .batShipCfg 0 0 0 1 |> pw (fun o => { o with supLow := true }) |> pw (fun o => { o with wakeDue := 0 }), pending := [] }, by decide +kernel⟩,
    ⟨{ m := up0, pending := [] }, by decide +kernel⟩,
    ⟨{ m := up0 |> pw (fun o => { o with base := .ship }) |> rg .batShipCfg 0 1 1 1 |> pw (fun o => { o with supLow := false }), pending := [] }, true, by decide +kernel⟩,
    ⟨{ m := up0, pending := [] }, false, by decide +kernel⟩⟩

theorem wit_BatteryCharging :
    (∃ (s : State), (s.m.up = true)) ∧
    (∃ (s : State), ((s.m.batTick s.m.chgFrozen).bat.phase = .entry) ∧ ((s.m.batTick s.m.chgFrozen).chgFrozen = false)) ∧
    (∃ (s : State), ((s.m.batTick s.m.chgFrozen).bat.phase ≠ .entry)) ∧
    (∃ (s : State) (t : Nat), (s.m.bat.lowAt = some t) ∧ (s.m.bat.phase = .trickle) ∧ (s.m.chgFrozen = false)) ∧
    (∃ (s : State), (s.m.bat.phase ≠ .trickle)) ∧
    (∃ (s : State) (t : Nat), (s.m.bat.preAt = some t) ∧ (s.m.bat.phase = .prechg) ∧ (s.m.chgFrozen = false)) ∧
    (∃ (s : State), (s.m.bat.phase ≠ .prechg)) ∧
    (∃ (s : State), ((s.m.batTick s.m.chgFrozen).bat.phase = .trickle) ∧ ((s.m.batTick s.m.chgFrozen).chgFrozen = false)) ∧
    (∃ (s : State), ((s.m.batTick s.m.chgFrozen).bat.phase = .prechg) ∧ ((s.m.batTick s.m.chgFrozen).chgFrozen = false)) ∧
    (∃ (s : State), ((s.m.batTick s.m.chgFrozen).bat.phase = .bulk ∨ (s.m.batTick s.m.chgFrozen).bat.phase = .topoff) ∧ ((s.m.batTick s.m.chgFrozen).profile = 0) ∧ ((s.m.batTick s.m.chgFrozen).bat.rest = false) ∧ ((s.m.batTick s.m.chgFrozen).chgFrozen = false)) ∧
    (∃ (s : State), ((s.m.batTick s.m.chgFrozen).bat.rest = true) ∧ ((s.m.batTick s.m.chgFrozen).chgFrozen = false) ∧ ((s.m.batTick s.m.chgFrozen |>.chgWait (s.m.batTick s.m.chgFrozen).bat.ivUs ((s.m.batTick s.m.chgFrozen).fld .batChgPulse 0 15 8 * 100000)).bat.steady = false)) ∧
    (∃ (s : State), ((s.m.batTick s.m.chgFrozen).bat.rest = false)) ∧
    (∃ (s : State) (t : Nat), ((s.m.batTick s.m.chgFrozen).bat.phase = .topoff) ∧ ((s.m.batTick s.m.chgFrozen).chgFrozen = false) ∧ ((s.m.batTick s.m.chgFrozen).profile ≠ 0) ∧ ((s.m.batTick s.m.chgFrozen).bat.termAt = some t)) ∧
    (∃ (s : State), ((s.m.batTick s.m.chgFrozen).bat.phase ≠ .topoff)) ∧
    (∃ (s : State), ((s.m.batTick s.m.chgFrozen).bat.phase = .bulk ∨ (s.m.batTick s.m.chgFrozen).bat.phase = .topoff) ∧ ((s.m.batTick s.m.chgFrozen).chgFrozen = false)) ∧
    (∃ (s : State) (t : Nat), ((s.m.batTick s.m.chgFrozen).bat.phase = .float) ∧ ((s.m.batTick s.m.chgFrozen).chgFrozen = false) ∧ ((s.m.batTick s.m.chgFrozen).bat.rchAt = some t)) ∧
    (∃ (s : State), ((s.m.batTick s.m.chgFrozen).bat.phase = .bulk)) ∧
    (∃ (s : State) (t : Nat), (s.m.bat.ovAt = some t) ∧ (s.m.bat.phase ≠ .fault) ∧ (s.m.bat.phase ≠ .idle)) ∧
    (∃ (s : State), (s.m.bat.phase = .fault)) := by
  exact ⟨⟨{ m := up0, pending := [] }, by decide +kernel⟩,
    ⟨{ m := up0 |> pw (fun o => { o with base := .source }) |> cv 0 (fun o => { o with st := .run }) |> ba (fun o => { o with phase := .entry }), pending := [] }, by decide +kernel⟩,
    ⟨{ m := up0, pending := [] }, by decide +kernel⟩,
    ⟨{ m := up0 |> pw (fun o => { o with base := .source }) |> cv 0 (fun o => { o with st := .run }) |> ba (fun o => { o with phase := .trickle, lowAt := some 0 }), pending := [] }, 0, by decide +kernel⟩,
    ⟨{ m := up0, pending := [] }, by decide +kernel⟩,
    ⟨{ m := up0 |> pw (fun o => { o with base := .source }) |> cv 0 (fun o => { o with st := .run }) |> ba (fun o => { o with phase := .prechg, preAt := some 0 }), pending := [] }, 0, by decide +kernel⟩,
    ⟨{ m := up0, pending := [] }, by decide +kernel⟩,
    ⟨{ m := up0 |> pw (fun o => { o with base := .source }) |> cv 0 (fun o => { o with st := .run }) |> ba (fun o => { o with phase := .trickle }), pending := [] }, by decide +kernel⟩,
    ⟨{ m := up0 |> pw (fun o => { o with base := .source }) |> cv 0 (fun o => { o with st := .run }) |> ba (fun o => { o with phase := .prechg }), pending := [] }, by decide +kernel⟩,
    ⟨{ m := up0 |> pw (fun o => { o with base := .source }) |> cv 0 (fun o => { o with st := .run }) |> ba (fun o => { o with phase := .bulk }) |> rg .batCfg 0 2 1 0, pending := [] }, by decide +kernel⟩,
    ⟨{ m := up0 |> pw (fun o => { o with base := .source }) |> cv 0 (fun o => { o with st := .run }) |> ba (fun o => { o with phase := .bulk, rest := true, steady := false }), pending := [] }, by decide +kernel⟩,
    ⟨{ m := up0, pending := [] }, by decide +kernel⟩,
    ⟨{ m := up0 |> pw (fun o => { o with base := .source }) |> cv 0 (fun o => { o with st := .run }) |> rg .batCfg 0 2 1 1 |> ba (fun o => { o with phase := .topoff, termAt := some 0 }), pending := [] }, 0, by decide +kernel⟩,
    ⟨{ m := up0, pending := [] }, by decide +kernel⟩,
    ⟨{ m := up0 |> pw (fun o => { o with base := .source }) |> cv 0 (fun o => { o with st := .run }) |> ba (fun o => { o with phase := .bulk }), pending := [] }, by decide +kernel⟩,
    ⟨{ m := up0 |> pw (fun o => { o with base := .source }) |> cv 0 (fun o => { o with st := .run }) |> ba (fun o => { o with phase := .float, rchAt := some 0 }), pending := [] }, 0, by decide +kernel⟩,
    ⟨{ m := up0 |> pw (fun o => { o with base := .source }) |> cv 0 (fun o => { o with st := .run }) |> ba (fun o => { o with phase := .bulk }), pending := [] }, by decide +kernel⟩,
    ⟨{ m := up0 |> pw (fun o => { o with base := .source }) |> cv 0 (fun o => { o with st := .run }) |> ba (fun o => { o with phase := .bulk, ovAt := some 0 }), pending := [] }, 0, by decide +kernel⟩,
    ⟨{ m := up0 |> ba (fun o => { o with phase := .fault }), pending := [] }, by decide +kernel⟩⟩

theorem wit_BatteryEstimation :
    (∃ (s : State) (n : Nat) (ns : List Nat), (s.m.estRuns = true) ∧ ((List.range 4).filter (fun n => s.m.strOn n && (s.m.estr n).origin != 0) = n :: ns)) ∧
    (∃ (s : State), (s.m.estRuns = false)) ∧
    (∃ (s : State) (n : Fin 4) (t : Fin 8) (k : Corr), ((s.m.estr n).corr.find? (fun e => e.1 = t.val) = some (t.val, k)) ∧ (s.m.estOn n = true) ∧ ((s.m.elapse 0 (s.m.corrEnd k)).corrValid n k = false)) ∧
    (∃ (s : State) (n : Fin 4) (t : Fin 8) (k : Corr), ((s.m.estr n).corr.find? (fun e => e.1 = t.val) = some (t.val, k)) ∧ (s.m.estOn n = true) ∧ ((s.m.elapse 0 (s.m.corrEnd k)).corrValid n k = true)) ∧
    (∃ (s : State) (n : Fin 4) (t : Fin 8), ((s.m.estr n).corr.find? (fun e => e.1 = t.val) = none)) ∧
    (∃ (s : State) (n : Fin 4) (t : Fin 8) (k : Corr), ((s.m.estr n).corr.find? (fun e => e.1 = t.val) = some (t.val, k)) ∧ (s.m.estOn n = false)) ∧
    (∃ (m : Chip) (n : Nat), (m.strOn n = true) ∧ (m.estRateOk n = false) ∧ (has m.est.slow n = false)) ∧
    (∃ (s : State) (n : Fin 4) (di : Int) (dv : Int) (v0 : Int), (s.m.estOn n = true) ∧ (s.m.strClosed n = true) ∧ (s.m.estStepSeen n = some (di, dv, v0))) ∧
    (∃ (s : State) (n : Fin 4), (s.m.estStepSeen n = none)) ∧
    (∃ (s : State) (n : Fin 4) (st : EstStep), ((s.m.estr n).step = some st)) ∧
    (∃ (s : State) (n : Fin 4), ((s.m.estr n).step = none)) ∧
    (∃ (s : State) (n : Fin 4), (s.m.estOn n = true) ∧ (s.m.flag .batStrMon n 31 = true)) ∧
    (∃ (s : State) (n : Fin 4), (s.m.flag .batStrMon n 31 = false)) ∧
    (∃ (s : State), (s.m.up = true)) ∧
    (∃ (s : State) (b : Bool), (s.m.est.writing = some b)) ∧
    (∃ (s : State), (s.m.est.writing = none)) ∧
    (∃ (s : State) (b : Bool), (s.m.est.abandoned = some b) ∧ (s.m.pwr.ecdFired = false) ∧ (s.m.est.writing = none)) ∧
    (∃ (s : State), (s.m.est.abandoned = none) ∧ (s.m.est.due = false)) ∧
    (∃ (s : State), (s.m.est.abandoned = none) ∧ (s.m.est.due = true) ∧ (s.m.est.writing = none) ∧ (s.m.pwr.ecdFired = false)) ∧
    (∃ (s : State) (ag : Agent), (s.m.grants ag (RName.addr .estCmd 0) (1))) ∧
    (∃ (s : State) (ag : Agent) (n : Fin 4), (s.m.grants ag (RName.addr .estCmd 0) (wd (2 + n.val * 256)))) ∧
    (∃ (s : State) (ag : Agent) (k : Fin 16), (s.m.grants ag (RName.addr .estCmd 0) (wd (3 + k.val * 256)))) := by
  unfold Chip.grants Chip.open_
  exact ⟨⟨{ m := up0 |> rg .estCfg 0 1 1 1 |> rg .batStrCfg 0 20 20 1 |> es 0 (fun o => { o with origin := 1 }), pending := [] }, 0, [], by decide +kernel⟩,
    ⟨{ m := up0 |> rg .estCfg 0 1 1 0, pending := [] }, by decide +kernel⟩,
    ⟨{ m := up0 |> rg .estCfg 0 1 1 1 |> rg .batStrCfg 0 20 20 1 |> cn (fun o => { o with tones := [(0, { w := 0x10001, t0 := 0, half := 0, run := false })] }) |> rg .cnvPertCfg 0 0 0 1 |> es 0 (fun o => { o with origin := 1, corr := [(0, { t0 := 0, f := 1, turn := 0, is := 0, ic := 0, vs := 0, vc := 0, ni := 1, nv := 1, ok := true })] }) |> rg .acqCvCfg 0 0 0 1 |> ac (fun o => { o with inUse := [(0, { mask := 1, div := 1, pos := 0, ending := false })] }) |> rg .batStrScale 0 15 0 1, pending := [] }, 0, 0, { t0 := 0, f := 1, turn := 0, is := 0, ic := 0, vs := 0, vc := 0, ni := 1, nv := 1, ok := true }, by decide +kernel⟩,
    ⟨{ m := up0 |> rg .estCfg 0 1 1 1 |> rg .batStrCfg 0 20 20 1 |> cn (fun o => { o with tones := [(0, { w := 0x10001, t0 := 0, half := 0, run := false })] }) |> rg .cnvPertCfg 0 0 0 1 |> es 0 (fun o => { o with origin := 1, corr := [(0, { t0 := 0, f := 1, turn := 0, is := 10000000000000000000000, ic := 0, vs := 0, vc := 0, ni := 1, nv := 1, ok := true })] }) |> rg .acqCvCfg 0 0 0 1 |> ac (fun o => { o with inUse := [(0, { mask := 1, div := 1, pos := 0, ending := false })] }) |> rg .batStrScale 0 15 0 1, pending := [] }, 0, 0, { t0 := 0, f := 1, turn := 0, is := 10000000000000000000000, ic := 0, vs := 0, vc := 0, ni := 1, nv := 1, ok := true }, by decide +kernel⟩,
    ⟨{ m := up0, pending := [] }, 0, 0, by decide +kernel⟩,
    ⟨{ m := up0 |> rg .estCfg 0 1 1 1 |> rg .batStrCfg 0 20 20 1 |> cn (fun o => { o with tones := [(0, { w := 0x10001, t0 := 0, half := 0, run := false })] }) |> rg .cnvPertCfg 0 0 0 1 |> es 0 (fun o => { o with origin := 1, corr := [(0, { t0 := 0, f := 1, turn := 0, is := 0, ic := 0, vs := 0, vc := 0, ni := 1, nv := 1, ok := true })] }) |> rg .batStrScale 0 15 0 1 |> es 0 (fun o => { o with origin := 0 }), pending := [] }, 0, 0, { t0 := 0, f := 1, turn := 0, is := 0, ic := 0, vs := 0, vc := 0, ni := 1, nv := 1, ok := true }, by decide +kernel⟩,
    ⟨(up0 |> rg .batStrCfg 0 20 20 1), 0, by decide +kernel⟩,
    ⟨{ m := up0 |> rg .estCfg 0 1 1 1 |> rg .batStrCfg 0 20 20 1 |> es 0 (fun o => { o with origin := 1, iSeg := [(0, 1000000000)], vSeg := [(0, 0)] }) |> bs 0 (fun o => { o with st := .closed }) |> rg .batStrIchg 0 15 0 1 |> (fun m : Chip => { m with now := 200000 }), pending := [] }, 0, -1000000000, 0, 0, by decide +kernel⟩,
    ⟨{ m := up0, pending := [] }, 0, by decide +kernel⟩,
    ⟨{ m := up0 |> es 0 (fun o => { o with step := some { di := 1, dv := 0, stamp := 0, v0 := 0, iNew := 0, vs := [] } }), pending := [] }, 0, { di := 1, dv := 0, stamp := 0, v0 := 0, iNew := 0, vs := [] }, by decide +kernel⟩,
    ⟨{ m := up0 |> es 0 (fun o => { o with step := none }), pending := [] }, 0, by decide +kernel⟩,
    ⟨{ m := up0 |> rg .estCfg 0 1 1 1 |> rg .batStrCfg 0 20 20 1 |> es 0 (fun o => { o with origin := 1 }) |> rg .batStrMon 0 31 31 1, pending := [] }, 0, by decide +kernel⟩,
    ⟨{ m := up0 |> rg .batStrMon 0 31 31 0, pending := [] }, 0, by decide +kernel⟩,
    ⟨{ m := up0, pending := [] }, by decide +kernel⟩,
    ⟨{ m := up0 |> et (fun o => { o with writing := some ((false : Bool)) }), pending := [] }, false, by decide +kernel⟩,
    ⟨{ m := up0 |> et (fun o => { o with writing := none }), pending := [] }, by decide +kernel⟩,
    ⟨{ m := up0 |> et (fun o => { o with abandoned := some ((false : Bool)) }) |> pw (fun o => { o with ecdFired := false }) |> et (fun o => { o with writing := none }), pending := [] }, false, by decide +kernel⟩,
    ⟨{ m := up0 |> et (fun o => { o with abandoned := none }) |> et (fun o => { o with due := false }), pending := [] }, by decide +kernel⟩,
    ⟨{ m := up0 |> et (fun o => { o with abandoned := none }) |> et (fun o => { o with due := true }) |> et (fun o => { o with writing := none }) |> pw (fun o => { o with ecdFired := false }), pending := [] }, by decide +kernel⟩,
    ⟨{ m := up0, pending := [] }, .fw, by decide +kernel⟩,
    ⟨{ m := up0 |> es 0 (fun o => { o with origin := 1 }), pending := [] }, .fw, 0, by decide +kernel⟩,
    ⟨{ m := up0 |> et (fun o => { o with frozen := [{ ident := 0, string := 0, live := false, learned := Learned.init, soc := 0, sigma := 0, pcc := 0, opsec := 0 }] }), pending := [] }, .fw, 0, by decide +kernel⟩⟩

theorem wit_PartnerTransactions :
    (∃ (s : State) (ag : Agent) (e : BitVec 12) (w : Fin 8) (d : Word), (1 ≤ w.val) ∧ (w.val ≤ 3) ∧ (s.m.grants ag (0x400000 + 32 * e.toNat + 4 * w.val) d)) ∧
    (∃ (_s : State) (p : Fin 20) (_sel : Fin 6), (p.val < 16)) ∧
    (∃ (_s : State) (p : Fin 20) (_sel : Fin 6), (16 ≤ p.val)) ∧
    (∃ (s : State) (e : BitVec 12) (t : Txn) (t0 : Nat), (s.m.headTxn e.toNat = some t) ∧ (t.headAt = some t0)) ∧
    (∃ (s : State) (e : BitVec 12), (s.m.headTxn e.toNat = none)) ∧
    (∃ (s : State) (e : BitVec 12) (t : Txn), (((s.m.entTxns e.toNat).filter (fun t => t.early.isNone && !t.held)).foldl earlier none = some t)) ∧
    (∃ (s : State) (e : BitVec 12), (s.m.entTxns e.toNat = [])) ∧
    (∃ (s : State) (e : BitVec 12) (r : Nat) (n : Nat), (s.m.entDefined e.toNat = true) ∧ (bitOf (s.m.pw e.toNat 4) 31 = true) ∧ (s.m.pwr.base ≠ .shadow) ∧ ((∀ t ∈ s.m.entTxns e.toNat, t.kind ≠ .poll)) ∧ (s.m.pollsOut < s.m.fld .ptnCfg 0 23 16) ∧ (s.m.ringStalled = false) ∧ (s.m.entFenced e.toNat = false) ∧ (s.m.poolFull false = false) ∧ (itemOf (s.m.entClass e.toNat) (bits (s.m.pw e.toNat 4) 27 16) = some (r, n)) ∧ (1 ≤ n ∧ n ≤ 4)) ∧
    (∃ (s : State) (e : BitVec 12), (s.m.entDefined e.toNat = true) ∧ (bitOf (s.m.pw e.toNat 4) 31 = true) ∧ (s.m.pwr.base ≠ .shadow) ∧ ((s.m.entTxns e.toNat).any (fun t => t.kind = .poll) = true)) ∧
    (∃ (s : State) (e : BitVec 12), (bitOf (s.m.pw e.toNat 4) 31 = false)) ∧
    (∃ (s : State) (shelf : Bool), ((if shelf then s.m.ptn.holdShelf else s.m.ptn.holdRect) = true)) ∧
    (∃ (s : State) (e : BitVec 12) (c : Fin 4) (t0 : Nat), ((s.m.ent e.toNat).stall = some (c.val, t0, false))) ∧
    (∃ (s : State) (e : BitVec 12) (_c : Fin 4), ((s.m.ent e.toNat).stall = none)) ∧
    (∃ (s : State) (ag : Agent) (d : Word), (s.m.grants ag (RName.addr .ptnTelRd 0) (d))) ∧
    (∃ (s : State) (ag : Agent) (e : BitVec 12), (s.m.grants ag (RName.addr .ptnCmd 0) (wd (1 + e.toNat * 16)))) ∧
    (∃ (s : State) (ag : Agent) (d : Word), (s.m.grants ag (RName.addr .ptnCmd 0) (setBits d 3 0 2))) ∧
    (∃ (s : State) (ag : Agent), (s.m.grants ag (RName.addr .ptnCmd 0) (3))) ∧
    (∃ (s : State), (s.m.ptn.discRun = none)) ∧
    (∃ (s : State) (d : Word), (s.m.ptn.discRun = some d) ∧ (s.m.discOver d = false)) ∧
    (∃ (s : State) (d : Word), (s.m.ptn.discRun = some d) ∧ (s.m.discOver d = true) ∧ (s.m.ptn.idAt = none)) := by
  unfold Chip.grants Chip.open_
  exact ⟨⟨{ m := up0 |> pw (fun o => { o with base := .source }), pending := [] }, .fw, 0, 1, 0, by decide +kernel⟩,
    ⟨{ m := up0, pending := [] }, 0, 0, by decide +kernel⟩,
    ⟨{ m := up0, pending := [] }, 16, 0, by decide +kernel⟩,
    ⟨{ m := up0 |> pooled { txn with headAt := some 0 }, pending := [] }, 0, { txn with headAt := some 0 }, 0, by decide +kernel⟩,
    ⟨{ m := up0, pending := [] }, 0, by decide +kernel⟩,
    ⟨{ m := up0 |> pooled txn, pending := [] }, 0, txn, by decide +kernel⟩,
    ⟨{ m := up0, pending := [] }, 0, by decide +kernel⟩,
    ⟨{ m := up0 |> entry 0 0 0x01300000 |> entry 0 4 0x81000000 |> rg .ptnTelCfg 0 0 0 1 |> en 0 (fun o => { o with st := .online }), pending := [] }, 0, 0, 1, by decide +kernel⟩,
    ⟨{ m := up0 |> entry 0 0 0x01300000 |> entry 0 4 0x81000000 |> pooled { txn with kind := .poll }, pending := [] }, 0, by decide +kernel⟩,
    ⟨{ m := up0, pending := [] }, 0, by decide +kernel⟩,
    ⟨{ m := up0 |> pt (fun o => { o with holdRect := true }), pending := [] }, false, by decide +kernel⟩,
    ⟨{ m := up0 |> en 0 (fun o => { o with stall := some (1, 0, false) }), pending := [] }, 0, 1, 0, by decide +kernel⟩,
    ⟨{ m := up0 |> en 0 (fun o => { o with stall := none }), pending := [] }, 0, 0, by decide +kernel⟩,
    ⟨{ m := up0 |> pw (fun o => { o with base := .source }), pending := [] }, .host, 0, by decide +kernel⟩,
    ⟨{ m := up0 |> pw (fun o => { o with base := .source }) |> (fun m : Chip => { m with flt := { m.flt with fences := [((Scope.partner.idx, 0), { src := 0, read := true })] } }) |> en 0 (fun o => { o with st := .fenced }), pending := [] }, .fw, 0, by decide +kernel⟩,
    ⟨{ m := up0 |> pw (fun o => { o with base := .source }), pending := [] }, .fw, 0, by decide +kernel⟩,
    ⟨{ m := up0 |> pw (fun o => { o with base := .source }), pending := [] }, .fw, by decide +kernel⟩,
    ⟨{ m := up0 |> pt (fun o => { o with discRun := none }), pending := [] }, by decide +kernel⟩,
    ⟨{ m := up0 |> pt (fun o => { o with discRun := some 0 }) |> rg .twbNCfg 0 0 0 1 |> bu 0 (fun o => { o with probe := some 5 }), pending := [] }, 0, by decide +kernel⟩,
    ⟨{ m := up0 |> pt (fun o => { o with discRun := some 0 }) |> pt (fun o => { o with idAt := none }), pending := [] }, 0, by decide +kernel⟩⟩

theorem wit_TwoWireBuses :
    (∃ (s : State) (n : Fin 16) (out : Fin 3) (bytes : List Byte) (v : Nat) (t : Txn) (e : Nat), ((s.m.bus n).probe = none) ∧ (s.m.onBus n = some (t, e)) ∧ (out.val = 0) ∧ (t.kind ≠ .blkr) ∧ (s.m.readEnd t e (bytes.map BitVec.toNat) = some (.ok, v))) ∧
    (∃ (s : State) (n : Fin 16) (out : Fin 3) (_bytes : List Byte) (t : Txn) (e : Nat), ((s.m.bus n).probe = none) ∧ (s.m.onBus n = some (t, e)) ∧ (out.val = 1)) ∧
    (∃ (s : State) (n : Fin 16) (_out : Fin 3) (_bytes : List Byte), ((s.m.bus n).probe = none) ∧ (s.m.onBus n = none)) ∧
    (∃ (s : State) (n : Fin 16) (t : Txn) (e : Nat), (s.m.inHail n = false) ∧ ((s.m.bus n).probe = none) ∧ (s.m.onBus n = some (t, e))) ∧
    (∃ (s : State) (n : Fin 16), (s.m.inHail n = true)) ∧
    (∃ (s : State) (n : Fin 16) (t : Txn) (e : Nat), (s.m.inHail n = false) ∧ ((s.m.bus n).probe = none) ∧ (s.m.onBus n = some (t, e)) ∧ (s.m.entGroup t.entry = false) ∧ (s.m.fld .twbNTmo n 19 16 < t.arbs + 1)) ∧
    (∃ (s : State) (n : Fin 16), (s.m.inHail n = true)) ∧
    (∃ (s : State) (n : Fin 16) (t : Txn) (e : Nat), (s.m.flag .twbNCfg n 4 = false) ∧ (s.m.inHail n = false) ∧ ((s.m.bus n).probe = none) ∧ (s.m.onBus n = some (t, e))) ∧
    (∃ (s : State) (n : Fin 16), (s.m.flag .twbNCfg n 0 = true) ∧ (s.m.flag .twbNCfg n 3 = true) ∧ (s.m.flag .twbNCfg n 4 = false) ∧ (s.m.pwr.base ≠ .shadow) ∧ (s.m.busFenced n = false) ∧ ((s.m.bus n).st = .idle) ∧ ((s.m.bus n).onWire = none) ∧ ((s.m.bus n).other = false)) ∧
    (∃ (s : State) (n : Fin 16), (s.m.flag .twbNCfg n 3 = false)) ∧
    (∃ (s : State) (n : Fin 16), ((s.m.bus n).st = .hail) ∧ ((s.m.bus n).ara = false) ∧ ((s.m.bus n).other = false)) ∧
    (∃ (s : State) (n : Fin 16) (ack : Bool) (a : BitVec 7) (_b0 : Fin 2) (e : Nat), (s.m.inHail n = true) ∧ (ack = true) ∧ (s.m.hailEntry n a.toNat = some e) ∧ (s.m.fld .twbNTmo n 28 24 ≤ (s.m.bus n).aras + 1)) ∧
    (∃ (s : State) (n : Fin 16) (ack : Bool) (_a : BitVec 7) (_b0 : Fin 2), (s.m.inHail n = true) ∧ (ack = false)) ∧
    (∃ (s : State) (n : Fin 16) (_ack : Bool) (_a : BitVec 7) (_b0 : Fin 2), (s.m.inHail n = false)) ∧
    (∃ (s : State) (n : Fin 16), ((s.m.bus n).st = .hail) ∧ ((s.m.bus n).ara = false) ∧ ((s.m.bus n).aras = 0)) ∧
    (∃ (s : State) (n : Fin 16), ((s.m.bus n).st ≠ .hail)) ∧
    (∃ (s : State) (n : Fin 16), (s.m.busRuns n = true) ∧ ((s.m.bus n).st = .idle) ∧ ((s.m.bus n).probe = none) ∧ (s.m.onBus n = none)) ∧
    (∃ (s : State) (n : Fin 16) (t : Txn) (e : Nat), (s.m.busRuns n = true) ∧ ((s.m.bus n).st = .active) ∧ ((s.m.bus n).probe = none) ∧ (s.m.onBus n = some (t, e))) ∧
    (∃ (s : State) (n : Fin 16) (ls : Fin 3), ((s.m.bus n).st = .recover) ∧ (ls.val = 1)) ∧
    (∃ (s : State) (n : Fin 16) (ls : Fin 3), ((s.m.bus n).st = .recover) ∧ (ls.val = 0) ∧ ((s.m.bus n).wasFenced = false)) ∧
    (∃ (s : State) (n : Fin 16) (_ls : Fin 3), ((s.m.bus n).st ≠ .recover)) ∧
    (∃ (s : State) (n : Fin 16), (s.m.busRuns n = true) ∧ ((s.m.bus n).st = .idle) ∧ ((s.m.bus n).scl = false)) ∧
    (∃ (s : State) (n : Fin 16), (s.m.busBusy n = false) ∧ ((s.m.bus n).scl = true)) ∧
    (∃ (s : State) (ag : Agent) (n : Fin 16), (s.m.grants ag (RName.addr .twbNCmd n) 1)) ∧
    (∃ (s : State) (ag : Agent) (n : Fin 16), (s.m.grants ag (RName.addr .twbNCmd n) 2)) ∧
    (∃ (s : State) (c : Byte) (x : Nat), (s.m.tgtRuns = true) ∧ (c.toNat < 0x20) ∧ (x = 0)) ∧
    (∃ (s : State) (c : Byte) (x : Nat), (s.m.tgtRuns = true) ∧ (c.toNat < 0x20) ∧ (x ≠ 0)) ∧
    (∃ (s : State) (c : Byte) (_x : Nat), (s.m.tgtRuns = true) ∧ (0x20 ≤ c.toNat)) ∧
    (∃ (s : State) (_count : Nat), (s.m.tgtRuns = true) ∧ (s.m.flag .twbTgtCfg 0 7 = false)) ∧
    (∃ (s : State) (_c : Option Byte) (_count : Nat), (s.m.tgtRuns = false)) ∧
    (∃ (s : State) (_v : Nat) (_i : Int), (s.m.up = true) ∧ (s.m.expert .twb = false)) ∧
    (∃ (s : State) (_v : Nat) (_i : Int), (s.m.up = true) ∧ (s.m.expert .twb = true)) := by
  unfold Chip.grants Chip.open_
  exact ⟨⟨{ m := up0 |> pw (fun o => { o with base := .source }) |> entry 0 0 0x01300000 |> en 0 (fun o => { o with st := .online }) |> pooled txn |> bu 0 (fun o => { o with st := .active, onWire := some 0, wireEntry := 0 }), pending := [] }, 0, 0, [], 0, txn, 0, by decide +kernel⟩,
    ⟨{ m := up0 |> pw (fun o => { o with base := .source }) |> entry 0 0 0x01300000 |> en 0 (fun o => { o with st := .online }) |> pooled txn |> bu 0 (fun o => { o with st := .active, onWire := some 0, wireEntry := 0 }), pending := [] }, 0, 1, [], txn, 0, by decide +kernel⟩,
    ⟨{ m := up0 |> bu 0 (fun o => { o with probe := none }), pending := [] }, 0, 0, [], by decide +kernel⟩,
    ⟨{ m := up0 |> pw (fun o => { o with base := .source }) |> entry 0 0 0x01300000 |> en 0 (fun o => { o with st := .online }) |> pooled txn |> bu 0 (fun o => { o with st := .active, onWire := some 0, wireEntry := 0 }), pending := [] }, 0, txn, 0, by decide +kernel⟩,
    ⟨{ m := up0 |> bu 0 (fun o => { o with st := .hail, ara := true }), pending := [] }, 0, by decide +kernel⟩,
    ⟨{ m := up0 |> pw (fun o => { o with base := .source }) |> entry 0 0 0x01300000 |> en 0 (fun o => { o with st := .online }) |> pooled txn |> bu 0 (fun o => { o with st := .active, onWire := some 0, wireEntry := 0 }) |> rg .twbNTmo 0 19 16 0, pending := [] }, 0, txn, 0, by decide +kernel⟩,
    ⟨{ m := up0 |> bu 0 (fun o => { o with st := .hail, ara := true }), pending := [] }, 0, by decide +kernel⟩,
    ⟨{ m := up0 |> pw (fun o => { o with base := .source }) |> entry 0 0 0x01300000 |> en 0 (fun o => { o with st := .online }) |> pooled txn |> bu 0 (fun o => { o with st := .active, onWire := some 0, wireEntry := 0 }), pending := [] }, 0, txn, 0, by decide +kernel⟩,
    ⟨{ m := up0 |> rg .twbNCfg 0 0 0 1 |> rg .twbNCfg 0 3 3 1 |> rg .twbNCfg 0 4 4 0 |> bu 0 (fun o => { o with st := .idle }) |> bu 0 (fun o => { o with onWire := none }) |> bu 0 (fun o => { o with other := false }), pending := [] }, 0, by decide +kernel⟩,
    ⟨{ m := up0 |> rg .twbNCfg 0 3 3 0, pending := [] }, 0, by decide +kernel⟩,
    ⟨{ m := up0 |> bu 0 (fun o => { o with st := .hail }) |> bu 0 (fun o => { o with ara := false }) |> bu 0 (fun o => { o with other := false }), pending := [] }, 0, by decide +kernel⟩,
    ⟨{ m := up0 |> entry 0 0 0x01300000 |> en 0 (fun o => { o with st := .online }) |> bu 0 (fun o => { o with st := .hail, ara := true, aras := 40 }), pending := [] }, 0, true, 0, 0, 0, by decide +kernel⟩,
    ⟨{ m := up0 |> bu 0 (fun o => { o with st := .hail, ara := true }), pending := [] }, 0, false, 0, 0, by decide +kernel⟩,
    ⟨{ m := up0, pending := [] }, 0, false, 0, 0, by decide +kernel⟩,
    ⟨{ m := up0 |> bu 0 (fun o => { o with st := .hail }) |> bu 0 (fun o => { o with ara := false }) |> bu 0 (fun o => { o with aras := 0 }), pending := [] }, 0, by decide +kernel⟩,
    ⟨{ m := up0, pending := [] }, 0, by decide +kernel⟩,
    ⟨{ m := up0 |> pw (fun o => { o with base := .source }) |> rg .twbNCfg 0 4 0 1, pending := [] }, 0, by decide +kernel⟩,
    ⟨{ m := up0 |> pw (fun o => { o with base := .source }) |> entry 0 0 0x01300000 |> en 0 (fun o => { o with st := .online }) |> pooled txn |> bu 0 (fun o => { o with st := .active, onWire := some 0, wireEntry := 0 }) |> rg .twbNCfg 0 4 0 1, pending := [] }, 0, txn, 0, by decide +kernel⟩,
    ⟨{ m := up0 |> bu 0 (fun o => { o with st := .recover }), pending := [] }, 0, 1, by decide +kernel⟩,
    ⟨{ m := up0 |> bu 0 (fun o => { o with st := .recover }) |> bu 0 (fun o => { o with wasFenced := false }), pending := [] }, 0, 0, by decide +kernel⟩,
    ⟨{ m := up0, pending := [] }, 0, 0, by decide +kernel⟩,
    ⟨{ m := up0 |> pw (fun o => { o with base := .source }) |> rg .twbNCfg 0 4 0 1 |> bu 0 (fun o => { o with scl := false }), pending := [] }, 0, by decide +kernel⟩,
    ⟨{ m := up0 |> bu 0 (fun o => { o with scl := true }), pending := [] }, 0, by decide +kernel⟩,
    ⟨{ m := up0 |> pw (fun o => { o with base := .source }) |> rg .twbNCfg 0 4 0 1, pending := [] }, .fw, 0, by decide +kernel⟩,
    ⟨{ m := up0 |> (fun m : Chip => { m with flt := { m.flt with fences := [((Scope.bus.idx, 0), { src := 0, read := true })] } }) |> pw (fun o => { o with base := .source }) |> bu 0 (fun o => { o with st := .fenced }), pending := [] }, .fw, 0, by decide +kernel⟩,
    ⟨{ m := up0 |> pw (fun o => { o with base := .source }) |> rg .twbNCfg 15 4 0 17, pending := [] }, 0, 0, by decide +kernel⟩,
    ⟨{ m := up0 |> pw (fun o => { o with base := .source }) |> rg .twbNCfg 15 4 0 17, pending := [] }, 0, 1, by decide +kernel⟩,
    ⟨{ m := up0 |> pw (fun o => { o with base := .source }) |> rg .twbNCfg 15 4 0 17, pending := [] }, 0x20, 0, by decide +kernel⟩,
    ⟨{ m := up0 |> pw (fun o => { o with base := .source }) |> rg .twbNCfg 15 4 0 17 |> rg .twbTgtCfg 0 7 7 0, pending := [] }, 0, by decide +kernel⟩,
    ⟨{ m := up0, pending := [] }, none, 0, by decide +kernel⟩,
    ⟨{ m := up0 |> (fun m : Chip => { m with levels := [] }), pending := [] }, 0, 0, by decide +kernel⟩,
    ⟨{ m := up0, pending := [] }, 0, 0, by decide +kernel⟩⟩

theorem wit_HostPort :
    (∃ (s : State) (addr : BitVec 24) (d : Word), (s.m.alive = true) ∧ (s.m.hostOpen = false) ∧ (s.m.hostSilent.mustHold (hostHeld true addr.toNat d) = false)) ∧
    (∃ (s : State) (_addr : BitVec 24) (_d : Word), (s.m.alive = true) ∧ (s.m.hostOpen = false)) ∧
    (∃ (s : State) (addr : BitVec 24), (s.m.alive = true) ∧ (s.m.hostOpen = false) ∧ (s.m.hostSilent.mustHold (hostHeld false addr.toNat 0) = false)) ∧
    (∃ (s : State) (_addr : BitVec 24), (s.m.alive = true) ∧ (s.m.hostOpen = false)) ∧
    (∃ (s : State), (s.m.alive = true) ∧ (s.m.hostOpen = false) ∧ (s.m.hostSilent.mayClass .host 0 = true) ∧ (s.m.hostSilent.mode ≠ 0xB) ∧ (s.m.pwr.base ≠ .boot)) ∧
    (∃ (s : State), (s.m.alive = true) ∧ (s.m.hostOpen = false)) ∧
    (∃ (s : State) (st : Status) (a : Nat) (w : Word), (s.m.alive = true) ∧ (s.m.hostOpen = false) ∧ (s.m.hst.lastRead = some (st, a, w))) ∧
    (∃ (s : State), (s.m.alive = true) ∧ (s.m.hostOpen = false) ∧ (s.m.hst.lastRead = none)) ∧
    (∃ (s : State), (s.m.alive = true)) ∧
    (∃ (s : State), (s.m.alive = true) ∧ (s.m.hostOpen = false)) ∧
    (∃ (s : State), (s.m.alive = true) ∧ (s.m.hostOpen = false)) ∧
    (∃ (s : State) (_c : Bool) (_a : BitVec 24) (_d : Word), (s.m.alive = true) ∧ (s.m.hostOpen = true)) := by
  exact ⟨⟨{ m := up0, pending := [] }, 0, 0, by decide +kernel⟩,
    ⟨{ m := up0, pending := [] }, 0, 0, by decide +kernel⟩,
    ⟨{ m := up0, pending := [] }, 0, by decide +kernel⟩,
    ⟨{ m := up0, pending := [] }, 0, by decide +kernel⟩,
    ⟨{ m := up0, pending := [] }, by decide +kernel⟩,
    ⟨{ m := up0, pending := [] }, by decide +kernel⟩,
    ⟨{ m := up0 |> hs (fun o => { o with lastRead := some (((.erange : Status)), 0, 0) }), pending := [] }, .erange, 0, 0, by decide +kernel⟩,
    ⟨{ m := up0 |> hs (fun o => { o with lastRead := none }), pending := [] }, by decide +kernel⟩,
    ⟨{ m := up0, pending := [] }, by decide +kernel⟩,
    ⟨{ m := up0, pending := [] }, by decide +kernel⟩,
    ⟨{ m := up0, pending := [] }, by decide +kernel⟩,
    ⟨{ m := up0 |> pw (fun o => { o with held := [{ ag := .host, write := false, addr := 0, data := 0, dst := 1 }] }), pending := [] }, false, 0, 0, by decide +kernel⟩⟩

theorem wit_MailboxesAndServices :
    (∃ (s : State) (ag : Agent) (d : Word), (s.m.grants ag (RName.addr .hstAuthHost 0) d)) ∧
    (∃ (s : State) (ag : Agent) (d : Word), (s.m.grants ag (RName.addr .hstAuthSvc 0) d)) ∧
    (∃ (s : State) (ag : Agent) (d : Word), (s.m.grants ag (RName.addr .hstAuthPeer 0) d)) ∧
    (∃ (s : State) (ag : Agent) (c : Fin 64) (d : Word) (a : Bool), (s.m.grants ag (RName.addr .hstMbxTx c) d) ∧ ((s.m.endOf ag).bind (fun e => sideOf e c) = some a) ∧ ((s.m.mq c a).length < 16)) ∧
    (∃ (s : State) (ag : Agent) (c : Fin 64) (d : Word) (a : Bool), (s.m.grants ag (RName.addr .hstMbxTx c) d) ∧ ((s.m.endOf ag).bind (fun e => sideOf e c) = some a) ∧ (16 ≤ (s.m.mq c a).length)) ∧
    (∃ (s : State) (ag : Agent) (c : Fin 64) (a : Bool), (s.m.grantsRead ag (RName.addr .hstMbxRx c)) ∧ ((s.m.endOf ag).bind (fun e => sideOf e c) = some a)) ∧
    (∃ (s : State) (c : Fin 64) (a : Bool) (h : Word) (ws : List Word), (s.m.request c = some (a, h, ws)) ∧ (bits h 31 24 = 1) ∧ (ws.length = bits h 23 20) ∧ (ws.length ≤ 14)) ∧
    (∃ (s : State) (c : Fin 64) (a : Bool) (h : Word) (ws : List Word), (s.m.request c = some (a, h, ws)) ∧ (bits h 31 24 = 2) ∧ (bits h 23 20 = 0) ∧ (ws = [])) ∧
    (∃ (s : State) (c : Fin 64) (a : Bool) (h : Word) (ws : List Word), (s.m.request c = some (a, h, ws)) ∧ (bits h 31 24 = 3) ∧ (bits h 23 20 = 0) ∧ (ws = []) ∧ ((s.m.mq c (!a)).length < 16)) ∧
    (∃ (s : State) (c : Fin 64) (a : Bool) (h : Word) (ws : List Word), (s.m.request c = some (a, h, ws)) ∧ (bits h 31 24 = 3) ∧ (ws.length = bits h 23 20) ∧ (ws ≠ []) ∧ (ws.length ≤ 14) ∧ ((s.m.mq c (!a)).length + 1 + ws.length ≤ 16)) ∧
    (∃ (s : State) (c : Fin 64) (a : Bool) (h : Word) (ws : List Word), (s.m.request c = some (a, h, ws)) ∧ (ws.length < bits h 23 20)) ∧
    (∃ (s : State) (c : Fin 64) (a : Bool) (h : Word) (ws : List Word), (s.m.request c = some (a, h, ws)) ∧ (3 < bits h 31 24) ∧ (ws.length = bits h 23 20)) ∧
    (∃ (s : State) (c : Fin 64), (s.m.request c = none)) := by
  unfold Chip.grants Chip.grantsRead Chip.open_
  exact ⟨⟨{ m := up0, pending := [] }, .fw, 0, by decide +kernel⟩,
    ⟨{ m := up0, pending := [] }, .fw, 0, by decide +kernel⟩,
    ⟨{ m := up0, pending := [] }, .fw, 0, by decide +kernel⟩,
    ⟨{ m := up0, pending := [] }, .host, 0, 0, true, by decide +kernel⟩,
    ⟨{ m := up0 |> hs (fun o => { o with ab := [(0, List.replicate 16 0)] }), pending := [] }, .host, 0, 0, true, by decide +kernel⟩,
    ⟨{ m := up0, pending := [] }, .host, 0, true, by decide +kernel⟩,
    ⟨{ m := up0 |> hs (fun o => { o with ab := [(16, [0x01100000,5])] }), pending := [] }, 16, true, 0x01100000, [5], by decide +kernel⟩,
    ⟨{ m := up0 |> hs (fun o => { o with ab := [(16, [0x02000000])] }), pending := [] }, 16, true, 0x02000000, [], by decide +kernel⟩,
    ⟨{ m := up0 |> hs (fun o => { o with ab := [(16, [0x03000000])] }), pending := [] }, 16, true, 0x03000000, [], by decide +kernel⟩,
    ⟨{ m := up0 |> hs (fun o => { o with ab := [(16, [0x03100000,5])] }), pending := [] }, 16, true, 0x03100000, [5], by decide +kernel⟩,
    ⟨{ m := up0 |> hs (fun o => { o with ab := [(16, [0x01100000])] }), pending := [] }, 16, true, 0x01100000, [], by decide +kernel⟩,
    ⟨{ m := up0 |> hs (fun o => { o with ab := [(16, [0x04000000])] }), pending := [] }, 16, true, 0x04000000, [], by decide +kernel⟩,
    ⟨{ m := up0, pending := [] }, 0, by decide +kernel⟩⟩

theorem wit_PartnerLink :
    (∃ (s : State) (n : Fin 4) (_src : Byte) (tag : BitVec 16) (_st : Byte) (_cr : BitVec 16) (_bytes : List Byte), (s.m.segHears n = true) ∧ ((s.m.inFlight n).find? (fun t => t.tag = tag.toNat) = none)) ∧
    (∃ (s : State) (n : Fin 4) (_src : Byte) (tag : BitVec 16) (_st : Byte) (_cr : BitVec 16) (_bytes : List Byte) (t : Txn), (s.m.segHears n = true) ∧ ((s.m.inFlight n).find? (fun t => t.tag = tag.toNat) = some t) ∧ (t.kind ≠ .blkr) ∧ (t.retries = 0)) ∧
    (∃ (s : State) (n : Fin 4) (src : Byte) (cr : BitVec 16) (rs : List (BitVec 16 × Word)) (e : Nat), (s.m.segHears n = true) ∧ (rs ≠ []) ∧ (rs.length ≤ 16) ∧ ((s.m.partnerFrame n src.toNat cr.toNat).nodeEntry n src.toNat = some e)) ∧
    (∃ (s : State) (n : Fin 4) (_src : Byte) (_cr : BitVec 16), (s.m.segHears n = true)) ∧
    (∃ (s : State) (n : Fin 4) (src : Byte) (cr : BitVec 16), (s.m.segHears n = true) ∧ ((s.m.partnerFrame n src.toNat cr.toNat).ptn.discRun = none)) ∧
    (∃ (s : State) (n : Fin 4) (src : Byte) (cr : BitVec 16) (d : Word) (t : Nat), (s.m.segHears n = true) ∧ ((s.m.partnerFrame n src.toNat cr.toNat).ptn.discRun = some d) ∧ ((s.m.partnerFrame n src.toNat cr.toNat).ptn.idAt = some t) ∧ ((s.m.partnerFrame n src.toNat cr.toNat).now ≤ t + 10000) ∧ (bitOf d 16 = true) ∧ (bits d 20 17 = n.val) ∧ (1 ≤ src.toNat ∧ src.toNat ≤ 31)) ∧
    (∃ (s : State) (n : Fin 4) (k : Fin 3), (s.m.segHears n = true) ∧ (k.val = 0)) ∧
    (∃ (s : State) (n : Fin 4) (k : Fin 3), (s.m.segHears n = true) ∧ (k.val ≠ 0)) ∧
    (∃ (s : State) (n : Fin 4), (s.m.segSends n = true)) ∧
    (∃ (s : State) (n : Fin 4), (s.m.segSends n = false)) ∧
    (∃ (s : State) (n : Fin 4) (c : Fin 4), (s.m.segHears n = true) ∧ (c.val = 1) ∧ (s.m.fld .slkNErr n 7 0 < ((s.m.seg n).fcs.filter (fun t => s.m.now < t + 1000000)).length)) ∧
    (∃ (s : State) (ag : Agent) (n : Fin 4), (s.m.grants ag (RName.addr .slkNCmd n) (1))) ∧
    (∃ (s : State) (n : Fin 4) (_src : Byte) (_tag : BitVec 16) (_want : Byte), (s.m.segHears n = true)) ∧
    (∃ (s : State) (n : Fin 4) (src : Byte) (_tag : BitVec 16) (_g : BitVec 32) (_v : Word) (_tent : Bool), (s.m.segHears n = true) ∧ ((s.m.nbFrame n src.toNat).slk.offerCmp = false)) ∧
    (∃ (s : State) (n : Fin 4) (src : Byte) (_tag : BitVec 16) (g : BitVec 32) (_v : Word) (_tent : Bool), (s.m.segHears n = true) ∧ ((s.m.nbFrame n src.toNat).slk.offerCmp = true) ∧ (g.toNat < ((s.m.nbFrame n src.toNat).get .slkOffergen 0).toNat)) ∧
    (∃ (s : State) (n : Fin 4) (src : Byte) (_tag : BitVec 16) (_g : BitVec 32) (_v : Word) (_gf : BitVec 32), (s.m.segHears n = true) ∧ ((s.m.nbFrame n src.toNat).slk.offerCmp = false)) ∧
    (∃ (s : State) (n : Fin 4) (src : Byte) (_tag : BitVec 16) (g : BitVec 32) (_v : Word) (gf : BitVec 32), (s.m.segHears n = true) ∧ ((s.m.nbFrame n src.toNat).slk.offerCmp = true) ∧ (gf.toNat < ((s.m.nbFrame n src.toNat).get .slkOffergen 0).toNat) ∧ (((s.m.nbFrame n src.toNat).get .slkOffergen 0).toNat ≤ g.toNat)) ∧
    (∃ (s : State) (n : Fin 4) (src : Byte) (_tag : BitVec 16) (g : BitVec 32), (s.m.segHears n = true) ∧ ((s.m.nbFrame n src.toNat).slk.offerCmp = true) ∧ (((s.m.nbFrame n src.toNat).get .slkOffergen 0).toNat ≤ g.toNat)) ∧
    (∃ (s : State) (n : Fin 4) (_src : Byte) (_tag : BitVec 16) (_item : BitVec 16) (_c : Fin 4), (s.m.segHears n = true)) ∧
    (∃ (s : State), (s.m.slk.offerCmp = true)) ∧
    (∃ (s : State), (s.m.slk.offerCmp = false)) ∧
    (∃ (s : State) (n : Fin 4) (_c : Fin 4) (_src : Byte) (_st : Byte) (_tag : BitVec 16) (_cr : BitVec 16) (_item : BitVec 16), (s.m.segHears n = false)) := by
  unfold Chip.grants Chip.open_
  exact ⟨⟨{ m := up0 |> pw (fun o => { o with base := .source }) |> rg .slkNCfg 0 0 0 1, pending := [] }, 0, 0, 0, 0, 0, [], by decide +kernel⟩,
    ⟨{ m := up0 |> pw (fun o => { o with base := .source }) |> rg .slkNCfg 0 0 0 1 |> entry 0 0 0x01300000 |> en 0 (fun o => { o with st := .online }) |> entry 0 1 0x80000001 |> pooled txn, pending := [] }, 0, 0, 0, 0, 0, [], txn, by decide +kernel⟩,
    ⟨{ m := up0 |> pw (fun o => { o with base := .source }) |> rg .slkNCfg 0 0 0 1 |> entry 0 0 0x01300000 |> en 0 (fun o => { o with st := .online }) |> entry 0 1 0x80000001 |> pooled txn, pending := [] }, 0, 1, 0, [(0, 0)], 0, by decide +kernel⟩,
    ⟨{ m := up0 |> pw (fun o => { o with base := .source }) |> rg .slkNCfg 0 0 0 1, pending := [] }, 0, 0, 0, by decide +kernel⟩,
    ⟨{ m := up0 |> pw (fun o => { o with base := .source }) |> rg .slkNCfg 0 0 0 1, pending := [] }, 0, 0, 0, by decide +kernel⟩,
    ⟨{ m := up0 |> pw (fun o => { o with base := .source }) |> rg .slkNCfg 0 0 0 1 |> pt (fun o => { o with discRun := some 0x10000, idAt := some 0 }), pending := [] }, 0, 1, 0, 0x10000, 0, by decide +kernel⟩,
    ⟨{ m := up0 |> pw (fun o => { o with base := .source }) |> rg .slkNCfg 0 0 0 1, pending := [] }, 0, 0, by decide +kernel⟩,
    ⟨{ m := up0 |> pw (fun o => { o with base := .source }) |> rg .slkNCfg 0 0 0 1, pending := [] }, 0, 1, by decide +kernel⟩,
    ⟨{ m := up0 |> pw (fun o => { o with base := .source }) |> rg .slkNCfg 0 0 0 1, pending := [] }, 0, by decide +kernel⟩,
    ⟨{ m := up0, pending := [] }, 0, by decide +kernel⟩,
    ⟨{ m := up0 |> pw (fun o => { o with base := .source }) |> rg .slkNCfg 0 0 0 1 |> rg .slkNErr 0 7 0 0 |> (fun m : Chip => m.putSeg 0 { m.seg 0 with fcs := [0] }), pending := [] }, 0, 1, by decide +kernel⟩,
    ⟨{ m := up0 |> (fun m : Chip => { m with flt := { m.flt with fences := [((Scope.link.idx, 0), { src := 0, read := true })] } }) |> pw (fun o => { o with base := .source }) |> (fun m : Chip => m.putSeg 0 { m.seg 0 with fenced := true }), pending := [] }, .fw, 0, by decide +kernel⟩,
    ⟨{ m := up0 |> pw (fun o => { o with base := .source }) |> rg .slkNCfg 0 0 0 1, pending := [] }, 0, 0, 0, 0, by decide +kernel⟩,
    ⟨{ m := up0 |> pw (fun o => { o with base := .source }) |> rg .slkNCfg 0 0 0 1, pending := [] }, 0, 0, 0, 0, 0, false, by decide +kernel⟩,
    ⟨{ m := up0 |> pw (fun o => { o with base := .source }) |> rg .slkNCfg 0 0 0 1 |> rg .slkOffergen 0 31 0 5 |> sk (fun o => { o with offerCmp := true }), pending := [] }, 0, 0, 0, 0, 0, false, by decide +kernel⟩,
    ⟨{ m := up0 |> pw (fun o => { o with base := .source }) |> rg .slkNCfg 0 0 0 1, pending := [] }, 0, 0, 0, 0, 0, 0, by decide +kernel⟩,
    ⟨{ m := up0 |> pw (fun o => { o with base := .source }) |> rg .slkNCfg 0 0 0 1 |> rg .slkOffergen 0 31 0 5 |> sk (fun o => { o with offerCmp := true }), pending := [] }, 0, 0, 0, 6, 0, 4, by decide +kernel⟩,
    ⟨{ m := up0 |> pw (fun o => { o with base := .source }) |> rg .slkNCfg 0 0 0 1 |> rg .slkOffergen 0 31 0 5 |> sk (fun o => { o with offerCmp := true }), pending := [] }, 0, 0, 0, 6, by decide +kernel⟩,
    ⟨{ m := up0 |> pw (fun o => { o with base := .source }) |> rg .slkNCfg 0 0 0 1, pending := [] }, 0, 0, 0, 0, 0, by decide +kernel⟩,
    ⟨{ m := up0 |> sk (fun o => { o with offerCmp := true }), pending := [] }, by decide +kernel⟩,
    ⟨{ m := up0 |> sk (fun o => { o with offerCmp := false }), pending := [] }, by decide +kernel⟩,
    ⟨{ m := up0, pending := [] }, 0, 0, 0, 0, 0, 0, 0, by decide +kernel⟩⟩

theorem wit_ThermalFaultsAndEvents :
    (∃ (s : State) (src : Nat) (rest : List Deliv) (d : Deliv), (s.m.rcd.deliver = d :: rest) ∧ (d.err = false) ∧ (d.src = src)) ∧
    (∃ (s : State) (rest : List Deliv) (d : Deliv), (s.m.rcd.deliver = d :: rest) ∧ (d.err = true)) ∧
    (∃ (s : State), (s.m.rcd.deliver = [])) ∧
    (∃ (s : State) (ag : Agent) (n : Fin 192), (s.m.grantsRead ag (RName.addr .fltFlag n))) ∧
    (∃ (s : State) (ag : Agent) (n : Fin 192) (d : Word), (s.m.grants ag (RName.addr .fltSrc n) (d))) ∧
    (∃ (s : State) (ag : Agent) (code : Byte), (s.m.grants ag (RName.addr .fltSwraise 0) (wd code.toNat)) ∧ (s.m.portOf ag = .host)) ∧
    (∃ (s : State) (ag : Agent) (code : Byte), (s.m.grants ag (RName.addr .fltSwraise 0) (wd code.toNat)) ∧ (s.m.portOf ag = .svc)) ∧
    (∃ (s : State) (ag : Agent) (n : Fin 16), (s.m.grants ag (RName.addr .evtSwset 0) (wd n.val))) ∧
    (∃ (s : State) (ag : Agent) (d : Fin 8) (w : Fin 8) (mask : Word), (s.m.grants ag (RName.addr .evtPend (8 * d.val + w.val)) mask) ∧ (d.val < 2 ∨ 4 ≤ d.val)) ∧
    (∃ (s : State) (_b : Bool) (_n : Fin 256), (s.m.up = true)) ∧
    (∃ (s : State) (ag : Agent) (n : Fin 256) (d : Word), (ag ≠ .fw) ∧ (s.m.grants ag (RName.addr .evtRoute n) d)) ∧
    (∃ (s : State) (_k : Fin 22) (_t : Int) (_bad : Bool), (s.m.up = false)) ∧
    (∃ (s : State) (k : Fin 22) (_t : Int) (_bad : Bool), (k.val ≠ 0) ∧ (s.m.up = true)) ∧
    (∃ (s : State) (_t : Int) (_bad : Bool), (s.m.up = true)) ∧
    (∃ (s : State) (_fatal : Bool), (s.m.alive = true)) ∧
    (∃ (s : State), (s.m.alive = true)) := by
  unfold Chip.grants Chip.grantsRead Chip.open_
  exact ⟨⟨{ m := up0 |> rc (fun o => { o with deliver := [{ src := 0, err := false }] }), pending := [] }, 0, [], { src := 0, err := false }, by decide +kernel⟩,
    ⟨{ m := up0 |> rc (fun o => { o with deliver := [{ src := 0, err := true }] }), pending := [] }, [], { src := 0, err := true }, by decide +kernel⟩,
    ⟨{ m := up0 |> rc (fun o => { o with deliver := [] }), pending := [] }, by decide +kernel⟩,
    ⟨{ m := up0, pending := [] }, .fw, 0, by decide +kernel⟩,
    ⟨{ m := up0, pending := [] }, .fw, 100, 1, by decide +kernel⟩,
    ⟨{ m := up0, pending := [] }, .host, 0xF0, by decide +kernel⟩,
    ⟨{ m := up0 |> ud (fun o => { o with session := 2 }), pending := [] }, .svc, 0xF8, by decide +kernel⟩,
    ⟨{ m := up0, pending := [] }, .fw, 0, by decide +kernel⟩,
    ⟨{ m := up0, pending := [] }, .fw, 0, 0, 0, by decide +kernel⟩,
    ⟨{ m := up0, pending := [] }, false, 0, by decide +kernel⟩,
    ⟨{ m := up0, pending := [] }, .host, 0, 0, by decide +kernel⟩,
    ⟨{ m := up0 |> pw (fun o => { o with base := .off }), pending := [] }, 0, 0, false, by decide +kernel⟩,
    ⟨{ m := up0, pending := [] }, 1, 0, false, by decide +kernel⟩,
    ⟨{ m := up0, pending := [] }, 0, false, by decide +kernel⟩,
    ⟨{ m := up0, pending := [] }, false, by decide +kernel⟩,
    ⟨{ m := up0, pending := [] }, by decide +kernel⟩⟩

theorem wit_SecurityAlarmsAndKeys :
    (∃ (s : State) (k : Fin 4), (s.m.secOn = true) ∧ (s.m.flag .secTamperCfg 0 k = true) ∧ (has s.m.sec.now k = false)) ∧
    (∃ (s : State) (k : Fin 4), (s.m.flag .secTamperCfg 0 k = false)) ∧
    (∃ (s : State), (s.m.alive = true) ∧ (has s.m.sec.now 4 = false)) ∧
    (∃ (s : State), (s.m.alive = true) ∧ (has s.m.sec.now 5 = false)) ∧
    (∃ (_s : State) (k : Fin 9), (k = 4 ∨ k = 5 ∨ k = 7 ∨ k = 8)) ∧
    (∃ (_s : State) (k : Fin 9), (k < 4)) ∧
    (∃ (s : State) (ag : Agent) (d : Word), (s.m.grants ag (RName.addr .secAlarmCfg 0) (d))) ∧
    (∃ (s : State) (ag : Agent), (s.m.grantsRead ag (RName.addr .secAlarmFlg 0))) ∧
    (∃ (s : State) (ag : Agent) (i : Fin 4), (s.m.grants ag (RName.addr .secKeyCtl 0) (wd (i.val + 256)))) ∧
    (∃ (s : State) (ag : Agent) (d : Word) (i : Nat) (ws : List Word), (s.m.grants ag (RName.addr .secKeyData 0) d) ∧ (s.m.sec.prov = some (i, ws))) ∧
    (∃ (s : State) (ag : Agent) (i : Fin 4), (s.m.grants ag (RName.addr .secKeyCtl 0) (wd (i.val + 512)))) ∧
    (∃ (s : State) (ag : Agent) (i : Fin 4), (s.m.grants ag (RName.addr .secKeyCtl 0) (wd (i.val + 768)))) := by
  unfold Chip.grants Chip.grantsRead Chip.open_
  exact ⟨⟨{ m := up0 |> rg .secTamperCfg 0 0 0 1, pending := [] }, 0, by decide +kernel⟩,
    ⟨{ m := up0 |> rg .secTamperCfg 0 0 0 0, pending := [] }, 0, by decide +kernel⟩,
    ⟨{ m := up0, pending := [] }, by decide +kernel⟩,
    ⟨{ m := up0, pending := [] }, by decide +kernel⟩,
    ⟨{ m := up0, pending := [] }, 4, by decide +kernel⟩,
    ⟨{ m := up0, pending := [] }, 0, by decide +kernel⟩,
    ⟨{ m := up0, pending := [] }, .fw, 0, by decide +kernel⟩,
    ⟨{ m := up0, pending := [] }, .fw, by decide +kernel⟩,
    ⟨{ m := up0 |> ud (fun o => { o with session := 2, present := true }), pending := [] }, .svc, 0, by decide +kernel⟩,
    ⟨{ m := up0 |> ud (fun o => { o with session := 2, present := true }) |> se (fun o => { o with prov := some (0, []) }), pending := [] }, .svc, 0, 0, [], by decide +kernel⟩,
    ⟨{ m := up0 |> ud (fun o => { o with session := 2, present := true }) |> se (fun o => { o with prov := some (0, List.replicate 8 0) }), pending := [] }, .svc, 0, by decide +kernel⟩,
    ⟨{ m := up0 |> ud (fun o => { o with session := 2, present := true }), pending := [] }, .svc, 0, by decide +kernel⟩⟩

theorem wit_PairFrames :
    (∃ (s : State) (_h : Hello), (s.m.alive = true)) ∧
    (∃ (s : State) (h : Hello), (s.m.alive = true) ∧ (s.m.flag .hstAuthPeer 0 11 = true) ∧ (h.digest = (Chip.peerAck { s.m with spl := { s.m.spl with link := true, rxAt := s.m.now, twin := some h } } h.ack).upd.act.dig) ∧ (h.state ≠ 3)) ∧
    (∃ (s : State) (sq : BitVec 16) (_items : List JItem), (s.m.alive = true) ∧ (s.m.flag .hstAuthPeer 0 11 = true) ∧ (sq.toNat = (s.m.spl.rxSeq + 1) % 65536) ∧ (({ s.m with spl := { s.m.spl with link := true, rxAt := s.m.now, rxSeq := sq.toNat } } : Chip).follows = true) ∧ (s.m.spl.snap = true)) ∧
    (∃ (s : State) (sq : BitVec 16) (_items : List JItem), (s.m.alive = true) ∧ (s.m.flag .hstAuthPeer 0 11 = true) ∧ (sq.toNat ≠ (s.m.spl.rxSeq + 1) % 65536)) ∧
    (∃ (s : State) (_sq : BitVec 16) (_items : List JItem), (s.m.alive = true) ∧ (s.m.flag .hstAuthPeer 0 11 = true) ∧ (({ s.m with spl := { s.m.spl with link := true, rxAt := s.m.now } } : Chip).follows = true)) ∧
    (∃ (s : State) (sq : BitVec 16) (_cause : Byte), (s.m.alive = true) ∧ (s.m.flag .hstAuthPeer 0 11 = true) ∧ (sq.toNat = (s.m.spl.rxSeq + 1) % 65536)) ∧
    (∃ (s : State) (sq : BitVec 16), (s.m.alive = true) ∧ (s.m.flag .hstAuthPeer 0 11 = true) ∧ (sq.toNat = (s.m.spl.rxSeq + 1) % 65536) ∧ (s.m.spl.st = .active) ∧ (({ s.m with spl := { s.m.spl with link := true, rxAt := s.m.now, rxSeq := sq.toNat } } : Chip).quiet = true)) ∧
    (∃ (s : State) (sq : BitVec 16), (s.m.alive = true) ∧ (s.m.flag .hstAuthPeer 0 11 = true) ∧ (sq.toNat = (s.m.spl.rxSeq + 1) % 65536) ∧ (s.m.spl.st = .active) ∧ (({ s.m with spl := { s.m.spl with link := true, rxAt := s.m.now, rxSeq := sq.toNat } } : Chip).quiet = false)) ∧
    (∃ (s : State) (sq : BitVec 16), (s.m.alive = true) ∧ (s.m.flag .hstAuthPeer 0 11 = true) ∧ (sq.toNat = (s.m.spl.rxSeq + 1) % 65536) ∧ (s.m.spl.st = .ready) ∧ (s.m.spl.tbWait = true)) ∧
    (∃ (s : State) (sq : BitVec 16), (s.m.alive = true) ∧ (s.m.flag .hstAuthPeer 0 11 = true) ∧ (sq.toNat = (s.m.spl.rxSeq + 1) % 65536)) ∧
    (∃ (s : State) (_x : Fin 2) (_ticks : BitVec 32), (s.m.alive = true) ∧ (s.m.flag .hstAuthPeer 0 11 = true) ∧ (({ s.m with spl := { s.m.spl with link := true, rxAt := s.m.now } } : Chip).gateOpen = false)) ∧
    (∃ (s : State) (_x : Fin 2) (_ticks : BitVec 32), (s.m.alive = true) ∧ (s.m.flag .hstAuthPeer 0 11 = true) ∧ (({ s.m with spl := { s.m.spl with link := true, rxAt := s.m.now } } : Chip).gateOpen = true)) ∧
    (∃ (s : State) (_sq : BitVec 16) (_items : List JItem) (_c : Byte), (s.m.alive = true)) := by
  exact ⟨⟨{ m := up0, pending := [] }, { role := false, acting := false, state := 0, digest := 0, bundle := 0, safe := false, ack := 0 }, by decide +kernel⟩,
    ⟨{ m := up0 |> rg .hstAuthPeer 0 11 11 1 |> ud (fun o => { o with act := { o.act with dig := 0 } }), pending := [] }, hello0, by decide +kernel⟩,
    ⟨{ m := up0 |> rg .hstAuthPeer 0 11 11 1 |> sp (fun o => { o with st := .ready, snap := true }), pending := [] }, 1, [], by decide +kernel⟩,
    ⟨{ m := up0 |> rg .hstAuthPeer 0 11 11 1, pending := [] }, 0, [], by decide +kernel⟩,
    ⟨{ m := up0 |> rg .hstAuthPeer 0 11 11 1 |> sp (fun o => { o with st := .ready }), pending := [] }, 1, [], by decide +kernel⟩,
    ⟨{ m := up0 |> rg .hstAuthPeer 0 11 11 1, pending := [] }, 1, 0, by decide +kernel⟩,
    ⟨{ m := up0 |> rg .hstAuthPeer 0 11 11 1 |> sp (fun o => { o with st := .active }), pending := [] }, 1, by decide +kernel⟩,
    ⟨{ m := up0 |> rg .hstAuthPeer 0 11 11 1 |> sp (fun o => { o with st := .active }) |> sq (fun o => { o with st := .up }), pending := [] }, 1, by decide +kernel⟩,
    ⟨{ m := up0 |> rg .hstAuthPeer 0 11 11 1 |> sp (fun o => { o with st := .ready, tbWait := true }), pending := [] }, 1, by decide +kernel⟩,
    ⟨{ m := up0 |> rg .hstAuthPeer 0 11 11 1, pending := [] }, 1, by decide +kernel⟩,
    ⟨{ m := up0 |> rg .hstAuthPeer 0 11 11 1, pending := [] }, 0, 0, by decide +kernel⟩,
    ⟨{ m := up0 |> rg .hstAuthPeer 0 11 11 1 |> sp (fun o => { o with out := true }), pending := [] }, 0, 0, by decide +kernel⟩,
    ⟨{ m := up0, pending := [] }, 0, [], 0, by decide +kernel⟩⟩

theorem wit_PairInterlock :
    (∃ (s : State), (s.m.alive = true)) ∧
    (∃ (s : State), (s.m.alive = true) ∧ (s.m.spl.link = true) ∧ (s.m.spl.st ≠ .ready)) ∧
    (∃ (s : State), (s.m.alive = true) ∧ (s.m.spl.link = true) ∧ (s.m.spl.st = .ready)) ∧
    (∃ (s : State), (s.m.alive = true) ∧ (s.m.spl.link = false)) ∧
    (∃ (s : State), (s.m.spl.inp = true) ∧ (s.m.spl.st = .ready)) ∧
    (∃ (s : State), (s.m.spl.inp = false)) ∧
    (∃ (s : State), (s.m.spl.inp = false) ∧ (s.m.spl.st ≠ .leaving)) ∧
    (∃ (s : State), (s.m.spl.inp = false) ∧ (s.m.spl.st = .leaving) ∧ (s.m.spl.out = false) ∧ (s.m.now ≤ s.m.spl.fellAt + 100)) ∧
    (∃ (s : State), (s.m.spl.inp = true)) ∧
    (∃ (s : State), (s.m.spl.st = .leaving) ∧ (s.m.spl.inp = false) ∧ (s.m.spl.out = false)) ∧
    (∃ (s : State), (s.m.spl.st ≠ .leaving)) ∧
    (∃ (s : State) (twin : Bool) (_higher : Bool), (s.m.spl.out = true) ∧ (s.m.spl.twin = none) ∧ (s.m.pwr.role = twin)) ∧
    (∃ (s : State) (twin : Bool) (_higher : Bool), (s.m.spl.out = true) ∧ (s.m.spl.twin = none) ∧ (s.m.pwr.role ≠ twin)) ∧
    (∃ (s : State) (_twin : Bool) (_higher : Bool) (h : Hello), (s.m.spl.out = true) ∧ (s.m.spl.twin = some h) ∧ (s.m.pwr.role ≠ h.role)) ∧
    (∃ (s : State) (_twin : Bool) (_higher : Bool), (s.m.spl.out = false)) ∧
    (∃ (s : State), (s.m.spl.st = .sync) ∧ (s.m.spl.inp = false) ∧ (s.m.spl.link = false)) ∧
    (∃ (s : State), (s.m.spl.st ≠ .sync)) ∧
    (∃ (s : State), (s.m.spl.st = .leaving) ∧ (s.m.spl.out = true)) ∧
    (∃ (s : State), (s.m.spl.out = false)) ∧
    (∃ (s : State), (s.m.spl.st = .ready) ∧ (s.m.pwr.role = false) ∧ (s.m.flag .splCfg 0 1 = true) ∧ (s.m.spl.tbMine = false) ∧ (s.m.spl.tbWait = true)) ∧
    (∃ (s : State), (s.m.spl.st = .ready) ∧ (s.m.pwr.role = false) ∧ (s.m.flag .splCfg 0 1 = true) ∧ (s.m.spl.tbMine = false) ∧ (s.m.spl.tbWait = false)) ∧
    (∃ (s : State), (s.m.spl.st ≠ .ready)) ∧
    (∃ (s : State) (i : Fin 64) (t : Nat), (NTab.get none s.m.spl.divs i = some (t, false))) ∧
    (∃ (s : State) (i : Fin 64), (NTab.get none s.m.spl.divs i = none)) ∧
    (∃ (s : State) (ag : Agent), (s.m.grants ag (RName.addr .splCmd 0) (1))) ∧
    (∃ (s : State) (ag : Agent), (s.m.grants ag (RName.addr .splCmd 0) (2))) ∧
    (∃ (s : State) (ag : Agent), (s.m.grants ag (RName.addr .splCmd 0) (3))) := by
  unfold Chip.grants Chip.open_
  exact ⟨⟨{ m := up0, pending := [] }, by decide +kernel⟩,
    ⟨{ m := up0 |> sp (fun o => { o with link := true }), pending := [] }, by decide +kernel⟩,
    ⟨{ m := up0 |> sp (fun o => { o with link := true }) |> sp (fun o => { o with st := .ready }), pending := [] }, by decide +kernel⟩,
    ⟨{ m := up0 |> sp (fun o => { o with link := false }), pending := [] }, by decide +kernel⟩,
    ⟨{ m := up0 |> sp (fun o => { o with st := .ready, inp := true }), pending := [] }, by decide +kernel⟩,
    ⟨{ m := up0 |> sp (fun o => { o with inp := false }), pending := [] }, by decide +kernel⟩,
    ⟨{ m := up0 |> sp (fun o => { o with inp := false }), pending := [] }, by decide +kernel⟩,
    ⟨{ m := up0 |> sp (fun o => { o with inp := false }) |> sp (fun o => { o with st := .leaving }) |> sp (fun o => { o with out := false }), pending := [] }, by decide +kernel⟩,
    ⟨{ m := up0 |> sp (fun o => { o with inp := true }), pending := [] }, by decide +kernel⟩,
    ⟨{ m := up0 |> sp (fun o => { o with st := .leaving }) |> sp (fun o => { o with inp := false }) |> sp (fun o => { o with out := false }), pending := [] }, by decide +kernel⟩,
    ⟨{ m := up0, pending := [] }, by decide +kernel⟩,
    ⟨{ m := up0 |> sp (fun o => { o with out := true, twin := none }) |> pw (fun o => { o with role := false }), pending := [] }, false, false, by decide +kernel⟩,
    ⟨{ m := up0 |> sp (fun o => { o with out := true }), pending := [] }, true, false, by decide +kernel⟩,
    ⟨{ m := up0 |> sp (fun o => { o with out := true, twin := some { hello0 with role := true } }) |> pw (fun o => { o with role := false }), pending := [] }, false, false, { hello0 with role := true }, by decide +kernel⟩,
    ⟨{ m := up0 |> sp (fun o => { o with out := false }), pending := [] }, false, false, by decide +kernel⟩,
    ⟨{ m := up0 |> sp (fun o => { o with st := .sync }) |> sp (fun o => { o with inp := false }) |> sp (fun o => { o with link := false }), pending := [] }, by decide +kernel⟩,
    ⟨{ m := up0, pending := [] }, by decide +kernel⟩,
    ⟨{ m := up0 |> sp (fun o => { o with st := .leaving }) |> sp (fun o => { o with out := true }), pending := [] }, by decide +kernel⟩,
    ⟨{ m := up0 |> sp (fun o => { o with out := false }), pending := [] }, by decide +kernel⟩,
    ⟨{ m := up0 |> sp (fun o => { o with st := .ready }) |> pw (fun o => { o with role := false }) |> rg .splCfg 0 1 1 1 |> sp (fun o => { o with tbMine := false }) |> sp (fun o => { o with tbWait := true }), pending := [] }, by decide +kernel⟩,
    ⟨{ m := up0 |> sp (fun o => { o with st := .ready }) |> pw (fun o => { o with role := false }) |> rg .splCfg 0 1 1 1 |> sp (fun o => { o with tbMine := false }) |> sp (fun o => { o with tbWait := false }), pending := [] }, by decide +kernel⟩,
    ⟨{ m := up0, pending := [] }, by decide +kernel⟩,
    ⟨{ m := up0 |> sp (fun o => { o with divs := [(0, some (0, false))] }), pending := [] }, 0, 0, by decide +kernel⟩,
    ⟨{ m := up0, pending := [] }, 0, by decide +kernel⟩,
    ⟨{ m := up0 |> sp (fun o => { o with st := .active }), pending := [] }, .fw, by decide +kernel⟩,
    ⟨{ m := up0, pending := [] }, .fw, by decide +kernel⟩,
    ⟨{ m := up0 |> sp (fun o => { o with st := .ready }) |> pw (fun o => { o with role := false }), pending := [] }, .fw, by decide +kernel⟩⟩

theorem wit_RecorderWrites :
    (∃ (s : State) (q : QRec) (w : Chip), (s.m.rcd.writing = none) ∧ (s.m.rcd.clear = none) ∧ (s.m.rcd.scanned = true) ∧ (s.m.pwr.ecdFired = false) ∧ (s.m.nextRec = some (q, w))) ∧
    (∃ (s : State), (s.m.rcd.writing ≠ none)) ∧
    (∃ (s : State) (good : Bool) (k : Nat) (n : Nat) (q : QRec), (s.m.rcd.writing = some (k, n, q)) ∧ (good = true)) ∧
    (∃ (s : State) (good : Bool) (k : Nat) (n : Nat) (q : QRec), (s.m.rcd.writing = some (k, n, q)) ∧ (good = false)) ∧
    (∃ (s : State) (_good : Bool), (s.m.rcd.writing = none)) ∧
    (∃ (s : State) (ag : Agent), (s.m.grantsRead ag (RName.addr .rcdSeqchk 0))) ∧
    (∃ (s : State) (ag : Agent) (cap : Bool), (s.m.grants ag (RName.addr .rcdCmd 0) (wd (1 + b2n cap * 256)))) ∧
    (∃ (s : State) (lo : Nat) (hi : Nat) (cap : Bool), (s.m.rcd.clear = some (lo, hi, cap)) ∧ (s.m.pwr.ecdFired = false)) ∧
    (∃ (s : State), (s.m.rcd.clear = none)) ∧
    (∃ (s : State) (ag : Agent), (s.m.grants ag (RName.addr .rcdCmd 0) (3))) ∧
    (∃ (s : State) (key : List Word), (s.m.rcd.expRun = true) ∧ (s.m.nvm.key0 = some key)) ∧
    (∃ (s : State), (s.m.rcd.expRun = false)) := by
  unfold Chip.grants Chip.grantsRead Chip.open_
  exact ⟨⟨{ m := up0 |> rc (fun o => { o with queue := [record0], writing := none, clear := none, scanned := true, refused := 0, urgent := [] }), pending := [] }, record0, (up0 |> rc (fun o => { o with queue := [], writing := none, clear := none, scanned := true, refused := 0, urgent := [] })), ⟨rfl, rfl, rfl, rfl, rfl⟩⟩,
    ⟨{ m := up0 |> rc (fun o => { o with writing := some (0, 0, record0) }), pending := [] }, by decide +kernel⟩,
    ⟨{ m := up0 |> rc (fun o => { o with writing := some (0, 0, record0) }), pending := [] }, true, 0, 0, record0, by decide +kernel⟩,
    ⟨{ m := up0 |> rc (fun o => { o with writing := some (0, 0, record0) }), pending := [] }, false, 0, 0, record0, by decide +kernel⟩,
    ⟨{ m := up0 |> rc (fun o => { o with writing := none }), pending := [] }, false, by decide +kernel⟩,
    ⟨{ m := up0 |> pw (fun o => { o with awake := [(2, true)] }), pending := [] }, .host, by decide +kernel⟩,
    ⟨{ m := up0 |> ud (fun o => { o with session := 2, present := true }), pending := [] }, .svc, false, by decide +kernel⟩,
    ⟨{ m := up0 |> rc (fun o => { o with clear := some (0, 0, ((false : Bool))) }) |> pw (fun o => { o with ecdFired := false }), pending := [] }, 0, 0, false, by decide +kernel⟩,
    ⟨{ m := up0 |> rc (fun o => { o with clear := none }), pending := [] }, by decide +kernel⟩,
    ⟨{ m := up0 |> nv (fun o => { o with key0 := some [] }), pending := [] }, .host, by decide +kernel⟩,
    ⟨{ m := up0 |> rc (fun o => { o with expRun := true }) |> nv (fun o => { o with key0 := some (([] : List Word)) }), pending := [] }, [], by decide +kernel⟩,
    ⟨{ m := up0 |> rc (fun o => { o with expRun := false }), pending := [] }, by decide +kernel⟩⟩

theorem wit_CaptureUnits :
    (∃ (s : State) (ag : Agent) (u : Fin 8) (d : Word), (s.m.grants ag (RName.addr .rcdCapCfg u) d) ∧ (bitOf d 0 = true) ∧ (((s.m.store .rcdCapCfg u d).cap u).st = .idle)) ∧
    (∃ (s : State) (ag : Agent) (u : Fin 8), (s.m.grants ag (RName.addr .rcdCmd 0) (wd (2 + u.val * 16)))) ∧
    (∃ (s : State) (src : Nat) (t : Nat) (rest : List (Nat × Nat)), (s.m.rcd.trig = (src, t) :: rest)) ∧
    (∃ (s : State), (s.m.rcd.trig = [])) ∧
    (∃ (s : State) (u : Fin 8), ((s.m.cap u).st = .post) ∧ (4096 - (s.m.cap u).preValid ≤ (s.m.cap u).post.length)) ∧
    (∃ (s : State) (u : Fin 8), ((s.m.cap u).st ≠ .post)) ∧
    (∃ (s : State) (u : Fin 8), (s.m.committing = some u.val) ∧ (s.m.pwr.ecdFired = false) ∧ ((s.m.cap u).sent = false) ∧ (s.m.rcd.queue.length < queueMax)) ∧
    (∃ (m : Chip) (r : Rec), (r.kind = 5) ∧ ((m.cap r.code).st = .commit) ∧ ((m.cap r.code).sent = true) ∧ (m.flag .rcdCapCfg r.code 1 = false)) ∧
    (∃ (m : Chip) (r : Rec), (r.kind = 5) ∧ ((m.cap r.code).st = .commit) ∧ ((m.cap r.code).sent = true)) ∧
    (∃ (s : State) (u : Fin 8), (s.m.committing ≠ some u.val)) ∧
    (∃ (s : State) (ag : Agent), (s.m.grantsRead ag (RName.addr .rcdCapData 0))) := by
  unfold Chip.grants Chip.grantsRead Chip.open_
  exact ⟨⟨{ m := up0 |> rg .rcdCapSrc0 0 31 0 0xFFFFFF80 |> rg .rcdCapSrc1 0 31 0 0xFFFFFFFF, pending := [] }, .fw, 0, 1, by decide +kernel⟩,
    ⟨{ m := up0, pending := [] }, .fw, 0, by decide +kernel⟩,
    ⟨{ m := up0 |> rc (fun o => { o with trig := (0, 0) :: (([] : List (Nat × Nat))) }), pending := [] }, 0, 0, [], by decide +kernel⟩,
    ⟨{ m := up0 |> rc (fun o => { o with trig := [] }), pending := [] }, by decide +kernel⟩,
    ⟨{ m := up0 |> cp 0 (fun o => { o with st := .post, preValid := 4096 }), pending := [] }, 0, by decide +kernel⟩,
    ⟨{ m := up0, pending := [] }, 0, by decide +kernel⟩,
    ⟨{ m := up0 |> cp 0 (fun o => { o with st := .commit }), pending := [] }, 0, by decide +kernel⟩,
    ⟨(up0 |> cp 0 (fun o => { o with st := .commit, sent := true })), { record0.rcd with kind := 5 }, by decide +kernel⟩,
    ⟨(up0 |> cp 0 (fun o => { o with st := .commit, sent := true })), { record0.rcd with kind := 5 }, by decide +kernel⟩,
    ⟨{ m := up0, pending := [] }, 0, by decide +kernel⟩,
    ⟨{ m := up0 |> pw (fun o => { o with awake := [(2, true)] }), pending := [] }, .host, by decide +kernel⟩⟩

theorem wit_ServiceSessions :
    (∃ (s : State) (old : Nat) (at_ : Nat), (s.m.upd.fallback = some (old, at_))) ∧
    (∃ (s : State), (s.m.upd.fallback = none)) ∧
    (∃ (s : State) (t : Bool), (s.m.alive = true) ∧ (t = false)) ∧
    (∃ (s : State) (t : Bool), (s.m.alive = true) ∧ (t = true)) ∧
    (∃ (s : State) (_n : Nat), (s.m.alive = true)) ∧
    (∃ (s : State) (p : Bool), (s.m.alive = true) ∧ (s.m.upd.present ≠ p) ∧ (p = true ∨ s.m.upd.session ≠ 2)) ∧
    (∃ (s : State) (p : Bool), (s.m.alive = true) ∧ (s.m.upd.present = true) ∧ (p = false) ∧ (s.m.upd.session = 2)) ∧
    (∃ (s : State) (p : Bool), (s.m.upd.present = p)) ∧
    (∃ (s : State), (2 ≤ s.m.upd.session)) ∧
    (∃ (s : State), (s.m.upd.session < 2)) := by
  exact ⟨⟨{ m := up0 |> ud (fun o => { o with fallback := some (0, 0) }), pending := [] }, 0, 0, by decide +kernel⟩,
    ⟨{ m := up0 |> ud (fun o => { o with fallback := none }), pending := [] }, by decide +kernel⟩,
    ⟨{ m := up0, pending := [] }, false, by decide +kernel⟩,
    ⟨{ m := up0, pending := [] }, true, by decide +kernel⟩,
    ⟨{ m := up0, pending := [] }, 0, by decide +kernel⟩,
    ⟨{ m := up0, pending := [] }, true, by decide +kernel⟩,
    ⟨{ m := up0 |> ud (fun o => { o with present := true }) |> ud (fun o => { o with session := 2 }), pending := [] }, false, by decide +kernel⟩,
    ⟨{ m := up0 |> ud (fun o => { o with present := ((false : Bool)) }), pending := [] }, false, by decide +kernel⟩,
    ⟨{ m := up0 |> ud (fun o => { o with session := 2 }), pending := [] }, by decide +kernel⟩,
    ⟨{ m := up0, pending := [] }, by decide +kernel⟩⟩

theorem wit_ServiceImagesAndUpdate :
    (∃ (s : State) (ag : Agent), (s.m.grants ag (RName.addr .updCmd 0) (1))) ∧
    (∃ (s : State) (ag : Agent), (s.m.grants ag (RName.addr .updCmd 0) (2))) ∧
    (∃ (s : State), (s.m.fwRuns = true) ∧ (s.m.upd.trial = true) ∧ (s.m.flag .updCfg 0 16 = true) ∧ (s.m.pwr.ecdFired = false)) ∧
    (∃ (s : State), (s.m.fwRuns = true) ∧ (s.m.upd.trial = false)) ∧
    (∃ (s : State), (s.m.fwRuns = false)) ∧
    (∃ (s : State), (s.m.fwRuns = true)) ∧
    (∃ (s : State), (s.m.fwRuns = false)) ∧
    (∃ (s : State), (s.m.upd.trial = true) ∧ (s.m.up = true)) ∧
    (∃ (s : State), (s.m.upd.trial = false)) := by
  unfold Chip.grants Chip.open_
  exact ⟨⟨{ m := up0 |> ud (fun o => { o with selftest := true, trial := true, session := 2 }), pending := [] }, .svc, by decide +kernel⟩,
    ⟨{ m := up0 |> ud (fun o => { o with stg := .pending }), pending := [] }, .fw, by decide +kernel⟩,
    ⟨{ m := up0 |> ud (fun o => { o with trial := true }) |> rg .updCfg 0 16 16 1 |> pw (fun o => { o with ecdFired := false }), pending := [] }, by decide +kernel⟩,
    ⟨{ m := up0 |> ud (fun o => { o with trial := false }), pending := [] }, by decide +kernel⟩,
    ⟨{ m := up0 |> ud (fun o => { o with recovery := true }), pending := [] }, by decide +kernel⟩,
    ⟨{ m := up0, pending := [] }, by decide +kernel⟩,
    ⟨{ m := up0 |> ud (fun o => { o with recovery := true }), pending := [] }, by decide +kernel⟩,
    ⟨{ m := up0 |> ud (fun o => { o with trial := true }), pending := [] }, by decide +kernel⟩,
    ⟨{ m := up0 |> ud (fun o => { o with trial := false }), pending := [] }, by decide +kernel⟩⟩

theorem wit_SystemRegistersAndParameters :
    (∃ (s : State) (ag : Agent), (s.m.grantsRead ag (RName.addr .sysUseclo 0))) ∧
    (∃ (s : State) (ag : Agent) (d : Word), (s.m.grants ag (RName.addr .sysLock 0) (d))) ∧
    (∃ (s : State) (ag : Agent) (p : Nat), (s.m.grants ag (RName.addr .sysParamCtl 0) (1)) ∧ (portCode ag = some p)) ∧
    (∃ (s : State) (ag : Agent) (p : Nat) (d : Word), (s.m.grants ag (RName.addr .sysParamData 0) (d)) ∧ (portCode ag = some p) ∧ ((∀ l, s.m.sys.list = some (p, l) → l.length < 8192))) ∧
    (∃ (s : State) (ag : Agent) (p : Nat) (l : List (Nat × Word)), (s.m.grants ag (RName.addr .sysParamCtl 0) 2) ∧ (portCode ag = some p) ∧ (s.m.sys.list = some (p, l))) ∧
    (∃ (s : State) (ag : Agent) (p : Nat), (s.m.grants ag (RName.addr .sysParamCtl 0) (3)) ∧ (portCode ag = some p)) ∧
    (∃ (s : State) (ag : Agent) (p : Nat), (s.m.grants ag (RName.addr .sysParamCtl 0) (4)) ∧ (portCode ag = some p)) ∧
    (∃ (s : State) (ag : Agent) (addr : BitVec 24) (r : RName) (i : Nat), (s.m.grantsRead ag addr.toNat) ∧ (targetOf addr.toNat = .reg r i) ∧ (r.row.kind = .rc) ∧ (r ∉ [.fltFlag, .hstMbxRx, .acqQpop1, .acqRes, .cnvXVdone])) ∧
    (∃ (s : State) (b : Blk), (s.m.alive = true) ∧ (s.m.quiescent b = true)) ∧
    (∃ (s : State) (b : Blk), (s.m.quiescent b = false)) := by
  unfold Chip.grants Chip.grantsRead Chip.open_
  exact ⟨⟨{ m := up0, pending := [] }, .fw, by decide +kernel⟩,
    ⟨{ m := up0, pending := [] }, .host, 0x4C4B0000, by decide +kernel⟩,
    ⟨{ m := up0, pending := [] }, .host, 1, by decide +kernel⟩,
    ⟨{ m := up0 |> sy (fun o => { o with list := some (1, []) }), pending := [] }, .host, 1, 0, ⟨by decide +kernel, rfl, fun l h => by cases h; decide⟩⟩,
    ⟨{ m := up0 |> sy (fun o => { o with list := some (1, []) }), pending := [] }, .host, 1, [], by decide +kernel⟩,
    ⟨{ m := up0 |> sy (fun o => { o with list := some (1, []) }), pending := [] }, .host, 1, by decide +kernel⟩,
    ⟨{ m := up0, pending := [] }, .host, 1, by decide +kernel⟩,
    ⟨{ m := up0, pending := [] }, .host, BitVec.ofNat 24 (RName.addr .cleSatcnt 0), .cleSatcnt, 0, by decide +kernel⟩,
    ⟨{ m := up0, pending := [] }, .acq, by decide +kernel⟩,
    ⟨{ m := up0, pending := [] }, .thm, by decide +kernel⟩⟩

end Sys2Proof.Tests
end

section
/-!
PROOFS. The scope of the block: what every step does to the pins and the queue, how an access is judged, held or rejected, what a
stored word reads back as, and the SYS registers.
-/

namespace Sys2Proof.Machine

/-! ### What every command answers -/

/-- Every command answers a next state: some chip, settled, with the queue as it was. -/
theorem exec_eq_finish (i : Instr) (s : State) : ∃ m : Chip, exec i s = s.finish m := by
  cases i <;> exact ⟨_, rfl⟩

/-- What the pins are driven from does not include the pins. -/
theorem Chip.pinsOf_drive (m : Chip) : m.drive.pinsOf = m.pinsOf := rfl

/-- Settling ends by driving the pins, whatever it settled before. -/
theorem Chip.settle_pinsOk (m old : Chip) : (m.settle old).PinsOk := by
  rw [Chip.PinsOk, Chip.settle_eq, Chip.drive_pins, Chip.pinsOf_drive]

/-- Every command leaves the queue and drives the pins. -/
theorem exec_pinsOk (i : Instr) (s : State) :
    ∃ m : Chip, exec i s = .next { m := m, pending := s.pending } ∧ m.PinsOk := by
  obtain ⟨m, hm⟩ := exec_eq_finish i s
  exact ⟨m.settle s.m, by rw [hm, State.finish_eq], m.settle_pinsOk s.m⟩

/-- A step takes one command from the queue and drives the pins, with or without a command waiting. -/
theorem step_pinsOk (s : State) : ∃ s', step s = .next s' ∧ s'.m.PinsOk ∧ s'.pending = s.pending.tail := by
  obtain ⟨m, q⟩ := s
  cases q with
  | nil => exact ⟨_, rfl, Chip.settle_pinsOk _ _, rfl⟩
  | cons c rest =>
    obtain ⟨m', hx, hp⟩ := exec_pinsOk c { m := m, pending := rest }
    exact ⟨_, hx, hp, rfl⟩

/-! ### Pins -/

theorem testBit_setM (a n k : Nat) : (setM a n).testBit k = (a.testBit k || decide (n = k)) := by
  rw [setM, Nat.testBit_or, Nat.testBit_two_pow]

/-- The bits of a mask are the numbers below its size that its predicate holds of. -/
theorem testBit_maskOf (n k : Nat) (p : Nat → Bool) : (maskOf n p).testBit k = (decide (k < n) && p k) := by
  induction n with
  | zero => simp [maskOf]
  | succ n ih =>
    have hs : maskOf (n + 1) p = if p n then setM (maskOf n p) n else maskOf n p := by
      simp [maskOf, List.range_succ]
    by_cases hk : k = n
    · subst hk
      cases hp : p k <;> simp [hs, hp, testBit_setM, ih]
    · have hlt : k < n + 1 ↔ k < n := by omega
      cases hp : p n <;> simp [hs, hp, testBit_setM, ih, hlt, Ne.symm hk]

theorem Chip.pinsOf_outputsLow {m : Chip} (h : m.outputsLow = true) : m.pinsOf = Pins.init := by
  simp [Chip.pinsOf, h]

theorem Chip.pinsOf_gen {m : Chip} (h : m.outputsLow = false) : m.pinsOf.gen = m.genMask := by
  simp [Chip.pinsOf, h]

theorem Chip.outputsLow_iff (m : Chip) :
    m.outputsLow = true ↔ m.pwr.base = .off ∨ m.pwr.base = .ship ∨ m.pwr.base = .boot := by
  simp [Chip.outputsLow, or_assoc]

/-- Settles O3: every command is finished by `Chip.settle`, which ends in `Chip.drive`. -/
theorem pinsAndQueueAtEveryStep : Obligations.PinsAndQueueAtEveryStep := by
  refine ⟨fun s _ => step_pinsOk s, exec_pinsOk, fun m hp hb => ?_, fun m n hp h1 h2 h3 hn => ?_⟩
  · exact hp.trans (Chip.pinsOf_outputsLow (m.outputsLow_iff.2 hb))
  · have hlow : m.outputsLow = false := by
      rw [← Bool.not_eq_true, m.outputsLow_iff]
      simp [h1, h2, h3]
    rw [hp, Chip.pinsOf_gen hlow, has, Chip.genMask, testBit_maskOf]
    simp [hn]

/-! ### Accesses of ports -/

/-- No rejection is returned exactly when none applies. -/
theorem Verdict.first_eq_none_iff (v : Verdict) :
    v.first = none ↔ v.eauth = false ∧ v.erange = false ∧ v.estate = false ∧ v.ebasic = false ∧ v.ebusy = false := by
  obtain ⟨a, b, c, d, e⟩ := v
  cases a <;> cases b <;> cases c <;> cases d <;> cases e <;> decide

/-- In OFF and SHIP no port is answered (R49). -/
theorem Chip.access_shut {m : Chip} (h : Held) (hs : m.pwr.base = .off ∨ m.pwr.base = .ship) : m.access h = m := by
  have hp : m.portShut = true := by simpa [Chip.portShut] using hs
  simp [Chip.access, hp]

/-- An answered port's access waits where it must, and takes effect otherwise. -/
theorem Chip.access_open {m : Chip} {h : Held} (ho : m.open_ h.ag) :
    m.access h = if m.mustHold h then m.hold h else (m.perform h).1 := by
  obtain ⟨hshut, hsvc⟩ := ho
  have hs : (h.ag = .svc && m.pwr.base != .boot && m.upd.session < 2 : Bool) = false := by
    simp only [Bool.and_eq_false_imp, Bool.and_eq_true, decide_eq_true_eq, bne_iff_ne, decide_eq_false_iff_not, Nat.not_lt]
    exact fun ⟨ha, hb⟩ => (hsvc ha).resolve_left hb
  simp only [Chip.access, hshut, hs, Bool.false_eq_true, if_false]

/-- A write that a rule rejects never waits: the port is told the first rejection, with no word. -/
theorem Chip.portWrite_rejected {m : Chip} {ag : Agent} {addr : Nat} {d : Word} {st : Status} (ho : m.open_ ag)
    (hv : m.writeVerdict ag addr d = some st) :
    m.portWrite ag addr d = ((m.rejectWrite ag addr d st).noteHostWrite ag addr st m.pwr.base).respond ag st 0 := by
  rw [Chip.portWrite, Chip.access_open ho]
  simp [Chip.mustHold, hv, Chip.perform, Chip.busWrite_rejected hv]

/-- A write that no rule rejects waits while its domain sleeps (R35). -/
theorem Chip.portWrite_held {m : Chip} {ag : Agent} {addr : Nat} {d : Word} (ho : m.open_ ag)
    (hv : m.writeVerdict ag addr d = none) (hd : m.usableDom (domOf addr) = false) :
    m.portWrite ag addr d = m.hold { ag := ag, write := true, addr := addr, data := d, dst := 0 } := by
  rw [Chip.portWrite, Chip.access_open ho]
  simp [Chip.mustHold, hv, hd]

/-- HST_STAT is the only register that the note of a host write changes. -/
theorem Chip.get_noteHostWrite_ne (m : Chip) (ag : Agent) (addr : Nat) (st : Status) (was : Base) {q : RName} {j : Nat}
    (h : (q, j) ≠ (.hstStat, 0)) : (m.noteHostWrite ag addr st was).get q j = m.get q j := by
  unfold Chip.noteHostWrite
  split
  · exact Chip.get_put_ne m _ h
  · rfl

/-- The completion of a port's access changes no register. -/
theorem Chip.get_respond (m : Chip) (ag : Agent) (st : Status) (w : Word) (q : RName) (j : Nat) :
    (m.respond ag st w).get q j = m.get q j := rfl

/-- A write of a read-only or read-to-clear word has no effect (R9). -/
theorem Chip.writeAct_readOnly {m : Chip} {ag : Agent} {addr : Nat} {d : Word} {r : RName} {i : Nat}
    (ht : targetOf addr = .reg r i) (hk : r.row.kind = .ro ∨ r.row.kind = .rc) : m.writeAct ag addr d = actNone := by
  rcases hk with hk | hk <;> simp [Chip.writeAct, ht, Chip.regAct, hk]

/-- Settles O4: the verdict takes the first rejection of R12, and a write whose verdict is a rejection is performed at once. -/
theorem rejectionOrder : Obligations.RejectionOrder := by
  refine ⟨fun v h => ?_, fun v h1 h2 => ?_, fun v h1 h2 h3 => ?_, fun v h1 h2 h3 h4 => ?_,
    fun v h1 h2 h3 h4 h5 => ?_, fun s ag addr d st ho hv => ?_⟩
  · simp [Verdict.first, h]
  · simp [Verdict.first, h1, h2]
  · simp [Verdict.first, h1, h2, h3]
  · simp [Verdict.first, h1, h2, h3, h4]
  · simp [Verdict.first, h1, h2, h3, h4, h5]
  · refine ⟨((s.m.rejectWrite ag addr.toNat d st).noteHostWrite ag addr.toNat st s.m.pwr.base).respond ag st 0, ?_, rfl⟩
    rw [Completes, exec_registerWrite, Chip.portWrite_rejected ho hv]
    rfl

/-- Settles O5: a rejected write leaves what its block records, a read-only word has the empty action, and a shut port
performs no access. -/
theorem rejectedAndUnpoweredAccesses : Obligations.RejectedAndUnpoweredAccesses := by
  refine ⟨fun s ag addr d st ho hv hst => ?_, fun s ag addr d r i hg ht hk => ?_, fun s ag addr d hb => ⟨?_, ?_⟩⟩
  · rw [Completes, exec_registerWrite, Chip.portWrite_rejected ho hv, Chip.rejectWrite, if_neg hst]
    rfl
  · refine ⟨s.m.written s.m ag addr.toNat .ok, ?_, rfl, fun q j hq => ?_⟩
    · rw [Completes, exec_registerWrite, Chip.portWrite_granted hg, Chip.writeAct_readOnly ht hk]
      rfl
    · rw [Chip.written, Chip.get_respond, Chip.get_noteHostWrite_ne _ _ _ _ _ hq]
  · rw [Completes, exec_registerWrite, Chip.portWrite, Chip.access_shut _ hb]
    rfl
  · rw [Completes, exec_rcFieldRead, Chip.portRead, Chip.access_shut _ hb]
    rfl

/-! ### Memories -/

/-- Settles O6: registers, commons, local stores and strands are sparse tables. -/
theorem registersAndMemories : Obligations.RegistersAndMemories := by
  refine ⟨Chip.get_put_self, fun m r i q j w h => m.get_put_ne w h, Chip.common_putCommon_self,
    fun m i j w h => m.common_putCommon_ne w h, fun m i w r k => ⟨rfl, rfl⟩, Chip.strand_putStrand_self,
    fun m k j t h => m.strand_putStrand_ne t h, fun t i w => ?_, fun t i j w h => ?_, fun m r i w h => ?_, fun m i w h => ?_⟩
  · exact NTab.get_set_self _ _ _ _
  · exact NTab.get_set_ne _ _ _ h
  · exact Tab.wf_set ltReg_order _ _ _ _ h
  · exact NTab.wf_set _ _ _ _ h

/-! ### Domains and held accesses -/

/-- An idle domain that no held access waits for goes back to sleep (R53). -/
theorem Chip.domainSleep_idle {m : Chip} {d : Dom} (hb : m.domBusy d = false) (hh : ∀ h ∈ m.pwr.held, domOf h.addr ≠ d) :
    m.domainSleep d = { m with pwr := { m.pwr with awake := NTab.set false m.pwr.awake (domIdx d) false } } := by
  have ha : m.pwr.held.any (fun h => domOf h.addr = d) = false := by simpa using hh
  simp [Chip.domainSleep, hb, ha]

/-- The oldest access that is ready takes effect in its woken domain and is answered (R35). -/
theorem Chip.heldComplete_ready {m : Chip} {h : Held} (hf : m.pwr.held.find? m.heldReady = some h) :
    m.heldComplete =
      (let m' := (({ m with pwr := { m.pwr with held := m.pwr.held.erase h } } : Chip).wake (domOf h.addr)).performHeld h
       m'.1.heldAnswer h m.pwr.base m'.2.1 m'.2.2) := by
  rw [Chip.heldComplete, hf]
  rfl

/-- What happens only in a powered part happens in one. -/
theorem Chip.whenAlive_alive {m : Chip} (f : Chip → Chip) (h : m.alive = true) : m.whenAlive f = f m := by
  simp [Chip.whenAlive, Chip.when, h]

/-- Settles O23: a write takes effect or joins the held accesses; the wake, the sleep and the two sources follow their rows. -/
theorem domainsAndHeldAccesses : Obligations.DomainsAndHeldAccesses := by
  refine ⟨fun s ag addr d hg => ?_, fun s ag addr d ho hv hd => ?_, fun s h hf => ⟨_, ?_, rfl⟩, fun s d hb hh => ?_,
    fun s p ha => ?_, fun s ha => ?_⟩
  · rw [Completes, exec_registerWrite, Chip.portWrite_granted hg]
    rfl
  · rw [Completes, exec_registerWrite, Chip.portWrite_held ho hv hd]
    rfl
  · rw [Completes, exec_heldAccessComplete, Chip.heldComplete_ready hf]
    rfl
  · rw [Completes, exec_domainSleep, Chip.domainSleep_idle hb hh]
    rfl
  · rw [Completes, exec_lockstepMismatch, Chip.whenAlive_alive _ ha]
    cases p <;> rfl
  · rw [Completes, exec_policyHeartbeat, Chip.whenAlive_alive _ ha]
    rfl

/-! ### SYS -/

/-- A granted write of a register, by a command of its own, completes with the effect that the register's block gives it. -/
theorem completes_regWrite {i : Instr} {s : State} {ag : Agent} {r : RName} {n : Nat} {d : Word} {m' : Chip}
    (hx : exec i s = s.finish (s.m.regWrite ag r n d)) (ht : targetOf (r.addr n) = .reg r n)
    (hg : s.m.grants ag (r.addr n) d) (he : (s.m.regAct ag r n d).eff s.m = (m', .ok)) :
    Completes i s (s.m.written m' ag (r.addr n) .ok) := by
  rw [Completes, hx, Chip.regWrite, Chip.portWrite_granted hg]
  simp only [Chip.writeAct, ht, he]
  rfl

/-- A granted write meets no ESTATE of its block. -/
theorem Chip.grants.writeAct_estate {m : Chip} {ag : Agent} {addr : Nat} {d : Word} (h : m.grants ag addr d) :
    (m.writeAct ag addr d).v.estate = false := by
  obtain ⟨-, hv, -⟩ := h
  obtain ⟨-, -, hs, -⟩ := (Verdict.first_eq_none_iff _).1 hv
  exact (Bool.or_eq_false_iff.1 hs).2

/-- The effect of an accepted SYS_PARAM_CTL of a port. -/
theorem Chip.regAct_sysParamCtl {m : Chip} {ag : Agent} {p : Nat} (d : Word) (hp : portCode ag = some p) :
    (m.regAct ag .sysParamCtl 0 d).eff m = ((m.paramDo (bits d 3 0) p).paramStatus .ok, .ok) := by
  show (((m.paramDo (bits d 3 0) ((portCode ag).getD 0)).paramStatus .ok, Status.ok) : Chip × Status) = _
  rw [hp]
  rfl

/-- A granted SYS_PARAM_DATA comes from the port whose list is open. -/
theorem Chip.grants.list_open {m : Chip} {ag : Agent} {p : Nat} {d : Word} (hp : portCode ag = some p)
    (hg : m.grants ag (RName.addr .sysParamData 0) d) : ∃ l, m.sys.list = some (p, l) := by
  have hs := hg.writeAct_estate
  rw [Chip.writeAct, targetOf_sysParamData] at hs
  replace hs : (m.listPort != (portCode ag).getD 0) = false := hs
  have hl : m.listPort = p := by simpa [hp] using hs
  have hp0 : p ≠ 0 := by
    rintro rfl
    cases ag <;> simp [portCode] at hp
  cases h : m.sys.list with
  | none => exact absurd (by simpa [Chip.listPort, h] using hl.symm) hp0
  | some q =>
    obtain ⟨q, l⟩ := q
    have : q = p := by simpa [Chip.listPort, h] using hl
    exact ⟨l, by rw [this]⟩

/-- A pair joins the port's open list while it has room (R664). -/
theorem Chip.regAct_sysParamData {m : Chip} {p : Nat} {l : List (Nat × Word)} (ag : Agent) (d : Word)
    (hl : m.sys.list = some (p, l)) (hn : l.length < 8192) :
    (m.regAct ag .sysParamData 0 d).eff m = (m.setList (some (p, (m.fld .sysParamAddr 0 23 0, d) :: l)), .ok) := by
  show (paramDataAct ag d m).eff m = _
  simp [paramDataAct, hl, hn]

/-- COMMIT stores the open list in the order in which it was written (R664). -/
theorem Chip.paramDo_commit {m : Chip} {p q : Nat} {l : List (Nat × Word)} (hl : m.sys.list = some (q, l)) :
    m.paramDo 2 p = (m.storeParams p l.reverse).setList none := by
  simp [Chip.paramDo, hl]

/-- A read of a read-to-clear register returns it and leaves its reset value (R6). -/
theorem Chip.regRead_readToClear (m : Chip) (ag : Agent) {r : RName} (i : Nat) (hk : r.row.kind = .rc)
    (hr : r ∉ [.fltFlag, .hstMbxRx, .acqQpop1, .acqRes, .cnvXVdone]) :
    m.regRead ag r i = (m.put r i (resetWord (r, i)), m.get r i, .ok) := by
  simp only [List.mem_cons, List.not_mem_nil, or_false, not_or] at hr
  obtain ⟨h1, h2, h3, h4, h5⟩ := hr
  unfold Chip.regRead
  split
  · exact absurd rfl h1
  · exact absurd rfl h2
  · exact absurd rfl h3
  · exact absurd rfl h4
  · exact absurd rfl h5
  · rw [if_pos hk]

/-- Settles O59: each SYS command is a granted access whose block gives the effect. -/
theorem systemRegistersAndParameters : Obligations.SystemRegistersAndParameters := by
  refine ⟨?_, fun d => ?_, fun s ag p hg hp => ?_, fun s ag p d hg hp hn => ?_, fun s ag p l hg hp hl => ?_,
    fun s ag p hg hp => ?_, fun s ag p hg hp => ?_, fun s ag addr r i hg ht hk hr => ?_, fun s b ha hq => ?_, fun s b hq => ?_⟩
  · exact readRow_of (fun _ _ => rfl) targetOf_sysUseclo (fun _ _ => rfl) (fun _ _ h => nomatch h)
  · exact writeRow_of (fun _ _ => rfl) targetOf_sysLock (fun _ _ => rfl)
  · exact completes_regWrite rfl targetOf_sysParamCtl hg (Chip.regAct_sysParamCtl 1 hp)
  · obtain ⟨l, hl⟩ := hg.list_open hp
    rw [hl]
    exact completes_regWrite rfl targetOf_sysParamData hg (Chip.regAct_sysParamData ag d hl (hn l hl))
  · rw [← Chip.paramDo_commit hl]
    exact completes_regWrite rfl targetOf_sysParamCtl hg (Chip.regAct_sysParamCtl 2 hp)
  · exact completes_regWrite rfl targetOf_sysParamCtl hg (Chip.regAct_sysParamCtl 3 hp)
  · exact completes_regWrite rfl targetOf_sysParamCtl hg (Chip.regAct_sysParamCtl 4 hp)
  · rw [Completes, exec_rcFieldRead, Chip.portRead_granted hg, Chip.busRead, hg.2.1]
    simp only [Chip.readAt, ht, s.m.regRead_readToClear ag i hk hr]
    rfl
  · simp [Completes, Chip.levelApply, ha, hq]
  · simp [Completes, Chip.levelApply, hq]

/-! ### The step and the state after reset -/

/-- Settles O1: the two arms of `step`. -/
theorem stepRunsFrontOrIdles : Obligations.StepRunsFrontOrIdles :=
  ⟨fun _ _ _ => rfl, fun _ => rfl⟩

/-- Settles O2: every field of `Chip.init`, and pins that BOOT drives low. -/
theorem resetState : Obligations.ResetState := by
  have hpins : State.reset.m.PinsOk := (Chip.pinsOf_outputsLow (m := Chip.init) rfl).symm
  exact ⟨rfl, rfl, rfl, fun _ _ => rfl, fun _ => rfl, fun _ => rfl, rfl, rfl, rfl, rfl, rfl, rfl, rfl, rfl, rfl, rfl, hpins⟩

end Sys2Proof.Machine
end

section
/-!
PROOFS. The issue of a Knarin instruction: when it traps, and what its loads, stores and atomics of the two data stores do
(R100 to R105, R121, R122, R143, R153, R155).
-/

namespace Sys2Proof.Machine

/-! ### Completion -/

/-- A command completes with the chip that its row's operation leaves. -/
theorem completes_of {i : Instr} {s : State} {m m' : Chip} (hx : exec i s = s.finish m) (hm : m = m') : Completes i s m' :=
  hm ▸ hx

/-! ### Budget and region -/

/-- In the place of `m'`, a strand over its budget takes the BUDGET fault, and one whose next PC `next` lies outside its region
the ILLEGAL fault. -/
def Chip.trapsTo (m : Chip) (k next : Nat) (m' : Chip) : Prop :=
  (m.overBudget k = true → m' = m.strandFault k 0 []) ∧
    (m.overBudget k = false → inRegion (m.strand k).owner next = false → m' = m.strandFault k 1 [])

theorem Chip.issueTo_traps {m : Chip} {k : Nat} {w : Word} {next : Nat} {f : Chip → Chip} (h : m.atWord k w = true) :
    m.trapsTo k next (m.issueTo k w next f) :=
  ⟨Chip.issueTo_overBudget next f h, Chip.issueTo_leaves f h⟩

/-- A command whose operation traps. -/
theorem completes_traps {i : Instr} {s : State} {k next : Nat} {m : Chip} (hx : exec i s = s.finish m)
    (ht : s.m.trapsTo k next m) :
    (s.m.overBudget k = true → Completes i s (s.m.strandFault k 0 [])) ∧
      (s.m.overBudget k = false → inRegion (s.m.strand k).owner next = false → Completes i s (s.m.strandFault k 1 [])) :=
  ⟨fun hb => completes_of hx (ht.1 hb), fun hb hn => completes_of hx (ht.2 hb hn)⟩

section
variable {m : Chip} {k op n d a b imm : Nat} {w : Word}

theorem Chip.issueNext_traps {f : Chip → Chip} (h : m.atWord k w = true) :
    m.trapsTo k (m.pcAfter k) (m.issueNext k w f) := Chip.issueTo_traps h

theorem Chip.kOp_traps {f : Strand → Strand} (h : m.atWord k w = true) : m.trapsTo k (m.pcAfter k) (m.kOp k w f) :=
  Chip.issueNext_traps h

theorem Chip.kJump_traps {next : Nat} {f : Strand → Strand} (h : m.atWord k w = true) :
    m.trapsTo k next (m.kJump k w next f) := Chip.issueTo_traps h

theorem Chip.kAlu_traps {f : Strand → Word → Word → Strand} (h : m.atWord k (kREG op d a b 0 0) = true) :
    m.trapsTo k (m.pcAfter k) (m.kAlu op k d a b f) := Chip.kOp_traps h

theorem Chip.kAlu1_traps {f : Strand → Word → Strand} (h : m.atWord k (kREG op d a 0 0 0) = true) :
    m.trapsTo k (m.pcAfter k) (m.kAlu1 op k d a f) := Chip.kOp_traps h

theorem Chip.kImm_traps {f : Strand → Word → Strand} (h : m.atWord k (kIMM op d a imm) = true) :
    m.trapsTo k (m.pcAfter k) (m.kImm op k d a imm f) := Chip.kOp_traps h

theorem Chip.localLoad_traps (h : m.atWord k (kIMM op d a imm) = true) :
    m.trapsTo k (m.pcAfter k) (m.localLoad op n k d a imm) := Chip.issueNext_traps h

theorem Chip.localStore_traps (h : m.atWord k (kIMM op d a imm) = true) :
    m.trapsTo k (m.pcAfter k) (m.localStore op n k d a imm) := Chip.issueNext_traps h

theorem Chip.commonsLoad_traps (h : m.atWord k (kIMM op d a imm) = true) :
    m.trapsTo k (m.pcAfter k) (m.commonsLoad op n k d a imm) := Chip.issueNext_traps h

theorem Chip.commonsStore_traps (h : m.atWord k (kIMM op d a imm) = true) :
    m.trapsTo k (m.pcAfter k) (m.commonsStore op n k d a imm) := Chip.issueNext_traps h

theorem Chip.deviceAccess_traps {write : Bool} (h : m.atWord k (kIMM op d a imm) = true) :
    m.trapsTo k (m.pcAfter k) (m.deviceAccess op k d a imm write) := Chip.issueNext_traps h

theorem Chip.atomic_traps {new : Strand → Word → Option Word} {f : Strand → Word → Strand} {rej : Strand → Strand}
    (h : m.atWord k w = true) : m.trapsTo k (m.pcAfter k) (m.atomic w k d a new f rej) := Chip.issueNext_traps h

theorem Chip.partner_traps {item : Nat} {kind : TxKind} (h : m.atWord k w = true) :
    m.trapsTo k (m.pcAfter k) (m.partner w k d a b item kind) := Chip.issueNext_traps h

theorem Chip.delay_traps {us : Strand → Nat} (h : m.atWord k w = true) :
    m.trapsTo k (m.pcAfter k) (m.delay k w us) := Chip.issueNext_traps h

end

theorem Chip.kSend_traps {m : Chip} {k b : Nat} {ch : Fin 64} (h : m.atWord k (kREG 0x80 0 0 b 0 ch) = true) :
    m.trapsTo k (m.pcAfter k) (m.kSend k b ch) :=
  Chip.issueNext_traps (w := kREG 0x80 0 0 b 0 (ch % 64)) (by rwa [Nat.mod_eq_of_lt ch.isLt])

/-- Settles O28: each of these instructions is issued by `Chip.issueTo`, which judges budget and target first. -/
theorem knarinBudgetAndRegion : Obligations.KnarinBudgetAndRegion := by
  unfold Obligations.KnarinBudgetAndRegion
  exact ⟨fun s k d a b h => completes_traps (exec_add k d a b s) (Chip.kAlu_traps h),
    fun s k d a b h => completes_traps (exec_adc k d a b s) (Chip.kAlu_traps h),
    fun s k d a b h => completes_traps (exec_sub k d a b s) (Chip.kAlu_traps h),
    fun s k d a b h => completes_traps (exec_sbc k d a b s) (Chip.kAlu_traps h),
    fun s k d a b h => completes_traps (exec_andK k d a b s) (Chip.kAlu_traps h),
    fun s k d a b h => completes_traps (exec_orK k d a b s) (Chip.kAlu_traps h),
    fun s k d a b h => completes_traps (exec_xorK k d a b s) (Chip.kAlu_traps h),
    fun s k d a b h => completes_traps (exec_bic k d a b s) (Chip.kAlu_traps h),
    fun s k d a b h => completes_traps (exec_shl k d a b s) (Chip.kAlu_traps h),
    fun s k d a b h => completes_traps (exec_shr k d a b s) (Chip.kAlu_traps h),
    fun s k d a b h => completes_traps (exec_sar k d a b s) (Chip.kAlu_traps h),
    fun s k d a b h => completes_traps (exec_mul k d a b s) (Chip.kAlu_traps h),
    fun s k d a b h => completes_traps (exec_mulh k d a b s) (Chip.kAlu_traps h),
    fun s k d a b h => completes_traps (exec_minK k d a b s) (Chip.kAlu_traps h),
    fun s k d a b h => completes_traps (exec_maxK k d a b s) (Chip.kAlu_traps h),
    fun s k d a b h => completes_traps (exec_sadd k d a b s) (Chip.kAlu_traps h),
    fun s k d a b h => completes_traps (exec_ssub k d a b s) (Chip.kAlu_traps h),
    fun s k d a b h => completes_traps (exec_qmul k d a b s) (Chip.kAlu_traps h),
    fun s k d a b h => completes_traps (exec_divu k d a b s) (Chip.kAlu_traps h),
    fun s k d a b h => completes_traps (exec_divK k d a b s) (Chip.kAlu_traps h),
    fun s k d a b h => completes_traps (exec_fadd k d a b s) (Chip.atomic_traps h),
    fun s k d a b h => completes_traps (exec_xchg k d a b s) (Chip.atomic_traps h),
    fun s k d a h => completes_traps (exec_mov k d a s) (Chip.kAlu1_traps h),
    fun s k d a h => completes_traps (exec_notK k d a s) (Chip.kAlu1_traps h),
    fun s k d a h => completes_traps (exec_neg k d a s) (Chip.kAlu1_traps h),
    fun s k d a h => completes_traps (exec_clz k d a s) (Chip.kAlu1_traps h),
    fun s k d a h => completes_traps (exec_kpoll k d a s) (Chip.issueNext_traps h),
    fun s k d a imm h => completes_traps (exec_addi k d a imm s) (Chip.kImm_traps h),
    fun s k d a imm h => completes_traps (exec_andi k d a imm s) (Chip.kImm_traps h),
    fun s k d a imm h => completes_traps (exec_ori k d a imm s) (Chip.kImm_traps h),
    fun s k d a imm h => completes_traps (exec_xori k d a imm s) (Chip.kImm_traps h),
    fun s k d a imm h => completes_traps (exec_ldl k d a imm s) (Chip.localLoad_traps h),
    fun s k d a imm h => completes_traps (exec_ldlh k d a imm s) (Chip.localLoad_traps h),
    fun s k d a imm h => completes_traps (exec_ldlb k d a imm s) (Chip.localLoad_traps h),
    fun s k d a imm h => completes_traps (exec_stl k d a imm s) (Chip.localStore_traps h),
    fun s k d a imm h => completes_traps (exec_stlh k d a imm s) (Chip.localStore_traps h),
    fun s k d a imm h => completes_traps (exec_stlb k d a imm s) (Chip.localStore_traps h),
    fun s k d a imm h => completes_traps (exec_ldc k d a imm s) (Chip.commonsLoad_traps h),
    fun s k d a imm h => completes_traps (exec_ldch k d a imm s) (Chip.commonsLoad_traps h),
    fun s k d a imm h => completes_traps (exec_ldcb k d a imm s) (Chip.commonsLoad_traps h),
    fun s k d a imm h => completes_traps (exec_stc k d a imm s) (Chip.commonsStore_traps h),
    fun s k d a imm h => completes_traps (exec_stch k d a imm s) (Chip.commonsStore_traps h),
    fun s k d a imm h => completes_traps (exec_stcb k d a imm s) (Chip.commonsStore_traps h),
    fun s k d a imm h => completes_traps (exec_ldd k d a imm s) (Chip.deviceAccess_traps h),
    fun s k d a imm h => completes_traps (exec_std k d a imm s) (Chip.deviceAccess_traps h),
    fun s k h => completes_traps (exec_nop k s) (Chip.kOp_traps h),
    fun s k n h => completes_traps (exec_timer k n s) (Chip.kOp_traps h),
    fun s k n h => completes_traps (exec_delay k n s) (Chip.delay_traps h),
    fun s k a h => completes_traps (exec_kdrop k a s) (Chip.issueNext_traps h),
    fun s k b ch h => completes_traps (exec_send k b ch s) (Chip.kSend_traps h),
    fun s k d a b c h => completes_traps (exec_cas k d a b c s) (Chip.atomic_traps h),
    fun s k code h => completes_traps (exec_recNote k code s) (Chip.issueNext_traps h),
    fun s k a h => completes_traps (exec_jr k a s) (Chip.kJump_traps h),
    fun s k h => completes_traps (exec_ret k s) (Chip.kJump_traps h),
    fun s k d a item h => completes_traps (exec_pread k d a item s) (Chip.partner_traps h),
    fun s k d a b item h => completes_traps (exec_pwrite k d a b item s) (Chip.partner_traps h)⟩

/-! ### Effective addresses -/

/-- The two readings of a number as two's complement agree. -/
theorem sxN_toNat {n : Nat} (x : BitVec (n + 1)) : sxN x.toNat (n + 1) = x.toInt := by
  have hx := x.isLt
  have h2 : 2 ^ (n + 1) = 2 * 2 ^ n := by rw [Nat.pow_succ, Nat.mul_comm]
  rw [sxN, BitVec.toInt_eq_toNat_cond, Nat.mod_eq_of_lt hx, Nat.add_sub_cancel]
  by_cases h : x.toNat < 2 ^ n
  · rw [if_pos h, if_pos (by omega)]
  · rw [if_neg h, if_neg (by omega)]
    norm_cast

theorem sext16_toNat (x : BitVec 16) : sext16 x.toNat = x.signExtend 32 := by
  rw [sext16, sxN_toNat, wdI, BitVec.signExtend]

theorem Chip.ea_eq (m : Chip) (k a : Nat) (imm : BitVec 16) : m.ea k a imm.toNat = (m.strand k).effAddr a imm := by
  rw [Chip.ea, Strand.effAddr, sext16_toNat]

theorem inSpace_eq (a w size : Nat) : inSpace a w size = decide (a % w = 0 ∧ a + w ≤ size) := by
  simp [inSpace]

theorem inSpace_of {a w size : Nat} (h : accessOk a w size) : inSpace a w size = true := by
  rw [inSpace_eq]; exact decide_eq_true h

theorem inSpace_of_not {a w size : Nat} (h : ¬accessOk a w size) : inSpace a w size = false := by
  rw [inSpace_eq]; exact decide_eq_false h

theorem Chip.inSpace_ea_of_not {m : Chip} {k a n size : Nat} {imm : BitVec 16}
    (h : ¬accessOk ((m.strand k).effAddr a imm) n size) : inSpace (m.ea k a imm.toNat) n size = false := by
  rw [Chip.ea_eq, inSpace_of_not h]

theorem Chip.inSpace_ea {m : Chip} {k a n size : Nat} {imm : BitVec 16}
    (h : accessOk ((m.strand k).effAddr a imm) n size) : inSpace (m.ea k a imm.toNat) n size = true := by
  rw [Chip.ea_eq, inSpace_of h]

/-! ### Guarded accesses (R102) -/

/-- An access that its guard allows. -/
theorem Chip.issueNext_guarded {m : Chip} {k : Nat} {w : Word} {ok : Chip → Bool} {g : Chip → Chip → Chip}
    (h : m.mayIssue k w) (ho : ok m = true) :
    m.issueNext k w (fun m => m.guarded k (ok m) (g m)) = g m m := by
  rw [Chip.issueNext_mayIssue _ h, Chip.guarded, if_pos ho]

/-- An access that its guard refuses raises STRAND_ACCESS. -/
theorem Chip.issueNext_accessFault {m : Chip} {k : Nat} {w : Word} {ok : Chip → Bool} {g : Chip → Chip → Chip}
    (h : m.mayIssue k w) (ho : ok m = false) :
    m.issueNext k w (fun m => m.guarded k (ok m) (g m)) = m.strandFault k 2 [] := by
  rw [Chip.issueNext_mayIssue _ h, Chip.guarded, if_neg (by simp [ho])]

section
variable {m : Chip} {k d a op n : Nat} {imm : BitVec 16} (h : m.mayIssue k (kIMM op d a imm.toNat))
include h

theorem Chip.localLoad_accessFault (ho : ¬accessOk ((m.strand k).effAddr a imm) n 0x100) :
    m.localLoad op n k d a imm.toNat = m.strandFault k 2 [] :=
  Chip.issueNext_accessFault h (Chip.inSpace_ea_of_not ho)

theorem Chip.localStore_accessFault (ho : ¬accessOk ((m.strand k).effAddr a imm) n 0x100) :
    m.localStore op n k d a imm.toNat = m.strandFault k 2 [] :=
  Chip.issueNext_accessFault h (Chip.inSpace_ea_of_not ho)

theorem Chip.commonsLoad_accessFault (ho : ¬accessOk ((m.strand k).effAddr a imm) n 0x40000) :
    m.commonsLoad op n k d a imm.toNat = m.strandFault k 2 [] :=
  Chip.issueNext_accessFault h (Chip.inSpace_ea_of_not ho)

theorem Chip.commonsStore_accessFault (ho : ¬accessOk ((m.strand k).effAddr a imm) n 0x40000) :
    m.commonsStore op n k d a imm.toNat = m.strandFault k 2 [] :=
  Chip.issueNext_accessFault h (Chip.inSpace_ea_of_not ho)

theorem Chip.deviceAccess_accessFault (write : Bool) (ho : ¬accessOk ((m.strand k).effAddr a imm) 4 0x1000000) :
    m.deviceAccess op k d a imm.toNat write = m.strandFault k 2 [] :=
  Chip.issueNext_accessFault h (Chip.inSpace_ea_of_not ho)

end

theorem Chip.atomic_accessFault {m : Chip} {w : Word} {k a : Nat} (d : Nat) (new : Strand → Word → Option Word)
    (f : Strand → Word → Strand) (rej : Strand → Strand) (h : m.mayIssue k w)
    (ho : ¬accessOk ((m.strand k).reg a).toNat 4 0x40000) : m.atomic w k d a new f rej = m.strandFault k 2 [] :=
  Chip.issueNext_accessFault (ok := fun m => inSpace ((m.strand k).reg a).toNat 4 0x40000) h (inSpace_of_not ho)

/-- Settles O17: the guard of an access comes before its effect. -/
theorem knarinAccessFaults : Obligations.KnarinAccessFaults := by
  unfold Obligations.KnarinAccessFaults
  refine ⟨fun s k d a imm h ho => completes_of (exec_ldl k d a imm s) (Chip.localLoad_accessFault h ho),
    fun s k d a imm h ho => completes_of (exec_ldlh k d a imm s) (Chip.localLoad_accessFault h ho),
    fun s k d a imm h ho => completes_of (exec_ldlb k d a imm s) (Chip.localLoad_accessFault h ho),
    fun s k d a imm h ho => completes_of (exec_stl k d a imm s) (Chip.localStore_accessFault h ho),
    fun s k d a imm h ho => completes_of (exec_stlh k d a imm s) (Chip.localStore_accessFault h ho),
    fun s k d a imm h ho => completes_of (exec_stlb k d a imm s) (Chip.localStore_accessFault h ho),
    fun s k d a imm h ho => completes_of (exec_ldc k d a imm s) (Chip.commonsLoad_accessFault h ho),
    fun s k d a imm h ho => completes_of (exec_ldch k d a imm s) (Chip.commonsLoad_accessFault h ho),
    fun s k d a imm h ho => completes_of (exec_ldcb k d a imm s) (Chip.commonsLoad_accessFault h ho),
    fun s k d a imm h ho => completes_of (exec_stc k d a imm s) (Chip.commonsStore_accessFault h ho),
    fun s k d a imm h ho => completes_of (exec_stch k d a imm s) (Chip.commonsStore_accessFault h ho),
    fun s k d a imm h ho => completes_of (exec_stcb k d a imm s) (Chip.commonsStore_accessFault h ho),
    fun s k d a imm h ho => completes_of (exec_ldd k d a imm s) (Chip.deviceAccess_accessFault h _ ho),
    fun s k d a imm h ho => completes_of (exec_std k d a imm s) (Chip.deviceAccess_accessFault h _ ho),
    fun s k d a b c h ho => completes_of (exec_cas k d a b c s) (Chip.atomic_accessFault _ _ _ _ h ho),
    fun s k d a b h ho => completes_of (exec_fadd k d a b s) (Chip.atomic_accessFault _ _ _ _ h ho),
    fun s k d a b h ho => completes_of (exec_xchg k d a b s) (Chip.atomic_accessFault _ _ _ _ h ho)⟩

/-! ### Bytes and words (R3) -/

/-- The sizes of an access: 1, 2 and 4 bytes. -/
theorem dvd_four {w : Nat} (h : w ∣ 4) : w = 1 ∨ w = 2 ∨ w = 4 := by
  have := Nat.le_of_dvd (by decide) h
  interval_cases w <;> simp at h ⊢

theorem pow_256 (n : Nat) : 256 ^ n = 2 ^ (8 * n) := by rw [Nat.pow_mul]

/-- The byte at address `a` of a store of words. -/
def byteAt (g : Nat → Word) (a : Nat) : Nat := (g (a / 4)).toNat / 2 ^ (8 * (a % 4)) % 256

theorem Strand.localByte_eq (s : Strand) : s.localByte = byteAt s.loc := rfl

theorem Chip.commonByte_eq (m : Chip) : m.commonByte = byteAt m.common := rfl

/-- The bytes of an aligned access are bytes of one word. -/
theorem byteAt_aligned (g : Nat → Word) {a w i : Nat} (hw : w ∣ 4) (ha : a % w = 0) (hi : i < w) :
    byteAt g (a + i) = (g (a / 4)).toNat / 2 ^ (8 * (a % 4)) / 256 ^ i % 256 := by
  have hd : (a + i) / 4 = a / 4 := by rcases dvd_four hw with rfl | rfl | rfl <;> omega
  have hm : (a + i) % 4 = a % 4 + i := by rcases dvd_four hw with rfl | rfl | rfl <;> omega
  rw [byteAt, hd, hm, Nat.div_div_eq_div_mul, pow_256, ← Nat.pow_add, Nat.mul_add]

/-- The low `w` bytes of a number, added up in little-endian order. -/
theorem foldr_bytes (x w : Nat) :
    (List.range w).foldr (fun i n => x / 256 ^ i % 256 * 256 ^ i + n) 0 = x % 256 ^ w := by
  suffices h : ∀ c, (List.range w).foldr (fun i n => x / 256 ^ i % 256 * 256 ^ i + n) c = x % 256 ^ w + c by simpa using h 0
  induction w with
  | zero => simp [Nat.mod_one]
  | succ w ih =>
    intro c
    rw [List.range_succ, List.foldr_append, ih, List.foldr_cons, List.foldr_nil, Nat.mod_pow_succ]
    ring

/-- An aligned load takes the little-endian bytes at its address. -/
theorem laneGet_eq_bytesWord (g : Nat → Word) {a w : Nat} (hw : w ∣ 4) (ha : a % w = 0) :
    laneGet (g (a / 4)) a w = bytesWord (byteAt g) a w := by
  have hb : (List.range w).foldr (fun i n => byteAt g (a + i) * 256 ^ i + n) 0 =
      (List.range w).foldr (fun i n => (g (a / 4)).toNat / 2 ^ (8 * (a % 4)) / 256 ^ i % 256 * 256 ^ i + n) 0 :=
    List.foldr_ext _ _ _ fun i hi n => by rw [byteAt_aligned g hw ha (List.mem_range.1 hi)]
  rw [laneGet, bytesWord, hb, foldr_bytes, wd, pow_256]

/-! ### Loads (R153) -/

section
variable {m : Chip} {k d a op n : Nat} {imm : BitVec 16}

theorem Chip.localLoad_done (h : m.mayIssue k (kIMM op d a imm.toNat)) (hn : n ∣ 4)
    (ha : accessOk ((m.strand k).effAddr a imm) n 0x100) : m.localLoad op n k d a imm.toNat =
      m.putStrand k ((m.strand k).result d (bytesWord (m.strand k).localByte ((m.strand k).effAddr a imm) n)).moved := by
  rw [Chip.localLoad]
  refine (Chip.issueNext_guarded h (Chip.inSpace_ea ha)).trans ?_
  dsimp only
  rw [Chip.ea_eq, laneGet_eq_bytesWord _ hn ha.1, Strand.dst_result, ← Strand.localByte_eq]
  rfl

theorem Chip.commonsLoad_done (h : m.mayIssue k (kIMM op d a imm.toNat)) (hn : n ∣ 4)
    (ha : accessOk ((m.strand k).effAddr a imm) n 0x40000) : m.commonsLoad op n k d a imm.toNat =
      m.putStrand k ((m.strand k).result d (bytesWord m.commonByte ((m.strand k).effAddr a imm) n)).moved := by
  rw [Chip.commonsLoad]
  refine (Chip.issueNext_guarded h (Chip.inSpace_ea ha)).trans ?_
  dsimp only
  rw [Chip.ea_eq, laneGet_eq_bytesWord _ hn ha.1, Strand.dst_result, ← Chip.commonByte_eq]
  rfl

end

/-- Settles O13: an aligned load reads bytes of one word. -/
theorem knarinLoads : Obligations.KnarinLoads := by
  unfold Obligations.KnarinLoads
  exact ⟨fun s k d a imm h ha => completes_of (exec_ldl k d a imm s) (Chip.localLoad_done h (by decide) ha),
    fun s k d a imm h ha => completes_of (exec_ldlh k d a imm s) (Chip.localLoad_done h (by decide) ha),
    fun s k d a imm h ha => completes_of (exec_ldlb k d a imm s) (Chip.localLoad_done h (by decide) ha),
    fun s k d a imm h ha => completes_of (exec_ldc k d a imm s) (Chip.commonsLoad_done h (by decide) ha),
    fun s k d a imm h ha => completes_of (exec_ldch k d a imm s) (Chip.commonsLoad_done h (by decide) ha),
    fun s k d a imm h ha => completes_of (exec_ldcb k d a imm s) (Chip.commonsLoad_done h (by decide) ha)⟩

/-! ### Stores (R103, R153) -/

/-- A number with the `L` bits from bit `lo` on replaced, as the bits above, the new ones and those below. -/
theorem replaceBits_eq (x v lo L : Nat) :
    x - x / 2 ^ lo % 2 ^ L * 2 ^ lo + v % 2 ^ L * 2 ^ lo =
      2 ^ (lo + L) * (x / 2 ^ (lo + L)) + (2 ^ lo * (v % 2 ^ L) + x % 2 ^ lo) := by
  have hx := Nat.div_add_mod x (2 ^ lo)
  have hq := congrArg (2 ^ lo * ·) (Nat.div_add_mod (x / 2 ^ lo) (2 ^ L))
  simp only [Nat.div_div_eq_div_mul, ← Nat.pow_add, Nat.mul_add, ← Nat.mul_assoc] at hq
  rw [Nat.mul_comm _ (2 ^ lo), Nat.mul_comm _ (2 ^ lo)]
  omega

/-- The bits of a word with one field written. -/
theorem testBit_setBits (x : Word) {hi lo : Nat} (v j : Nat) (h : lo ≤ hi) (hh : hi < 32) :
    (setBits x hi lo v).toNat.testBit j =
      if lo ≤ j ∧ j ≤ hi then v.testBit (j - lo) else x.toNat.testBit j := by
  have hx : 32 ≤ j → x.toNat.testBit j = false := fun hj =>
    Nat.testBit_lt_two_pow (Nat.lt_of_lt_of_le x.isLt (Nat.pow_le_pow_right (by decide) hj))
  have hL : lo + (hi + 1 - lo) = hi + 1 := by omega
  have hlow : 2 ^ lo * (v % 2 ^ (hi + 1 - lo)) + x.toNat % 2 ^ lo < 2 ^ (hi + 1) := by
    have hv : v % 2 ^ (hi + 1 - lo) < 2 ^ (hi + 1 - lo) := Nat.mod_lt _ (Nat.two_pow_pos _)
    have ht : x.toNat % 2 ^ lo < 2 ^ lo := Nat.mod_lt _ (Nat.two_pow_pos _)
    have hm := Nat.mul_le_mul_left (2 ^ lo) (Nat.succ_le_of_lt hv)
    rw [Nat.mul_succ, ← Nat.pow_add, hL] at hm
    omega
  rw [setBits, bits, wd, BitVec.toNat_ofNat, replaceBits_eq, hL, Nat.testBit_mod_two_pow, Nat.testBit_two_pow_mul_add _ hlow,
    Nat.testBit_two_pow_mul_add _ (Nat.mod_lt _ (Nat.two_pow_pos _)), Nat.testBit_div_two_pow, Nat.testBit_mod_two_pow,
    Nat.testBit_mod_two_pow]
  by_cases h1 : j < lo
  · simp [h1, show j < 32 by omega, show j < hi + 1 by omega, show ¬lo ≤ j by omega]
  by_cases h2 : j ≤ hi
  · simp [h1, h2, show j < 32 by omega, show j < hi + 1 by omega, show lo ≤ j by omega, show j - lo < hi + 1 - lo by omega]
  · have hj : j - (hi + 1) + (hi + 1) = j := by omega
    by_cases h3 : j < 32
    · simp [h2, h3, hj, show ¬j < hi + 1 by omega]
    · simp [h2, h3, hx (by omega)]

/-- The field just written. -/
theorem bits_setBits (x : Word) {hi lo : Nat} (v : Nat) (h : lo ≤ hi) (hh : hi < 32) :
    bits (setBits x hi lo v) hi lo = v % 2 ^ (hi + 1 - lo) := by
  refine Nat.eq_of_testBit_eq fun j => ?_
  rw [bits, Nat.testBit_mod_two_pow, Nat.testBit_div_two_pow, testBit_setBits x v _ h hh, Nat.testBit_mod_two_pow]
  by_cases hj : j < hi + 1 - lo
  · simp [show j + lo ≤ hi by omega]
  · simp [hj]

/-- The number of a word's byte. -/
theorem testBit_wordByte (w : Word) (i b : Nat) : (wordByte w i).testBit b = (decide (b < 8) && w.toNat.testBit (b + 8 * i)) := by
  rw [wordByte, pow_256, show 256 = 2 ^ 8 from rfl, Nat.testBit_mod_two_pow, Nat.testBit_div_two_pow]

/-- A store writes the bytes at its address and leaves every other byte. -/
theorem byteAt_lanePut {g g' : Nat → Word} {a w : Nat} {y : Word} (hw : w ∣ 4) (ha : a % w = 0)
    (hs : g' (a / 4) = lanePut (g (a / 4)) a w y) (hne : ∀ i, i ≠ a / 4 → g' i = g i) (j : Nat) :
    byteAt g' j = if a ≤ j ∧ j < a + w then wordByte y (j - a) else byteAt g j := by
  have hfit : 0 < w ∧ a % 4 + w ≤ 4 := by rcases dvd_four hw with rfl | rfl | rfl <;> omega
  by_cases hj : j / 4 = a / 4
  · have hcast : ∀ x : Word, x.toNat / 2 ^ (8 * (j % 4)) % 256 = wordByte x (j % 4) := fun x => by rw [wordByte, pow_256]
    rw [byteAt, byteAt, hj, hs, hcast, hcast]
    refine Nat.eq_of_testBit_eq fun b => ?_
    by_cases hb : b < 8
    · rw [testBit_wordByte, lanePut, testBit_setBits _ _ _ (by omega) (by omega)]
      split <;> rename_i hin
      · have hi : b + 8 * (j % 4) - 8 * (a % 4) = b + 8 * (j - a) := by omega
        rw [if_pos (by omega), testBit_wordByte, Nat.testBit_mod_two_pow, hi]
        simp [hb, show b + 8 * (j - a) < 8 * w by omega]
      · rw [if_neg (by omega), testBit_wordByte]
    · split <;> simp [testBit_wordByte, hb]
  · rw [if_neg (by omega), byteAt, byteAt, hne _ hj]

/-- The local store after a store of the low `n` bytes of `y` at `a`. -/
def Strand.storedLocals (s : Strand) (a n : Nat) (y : Word) : NTab Word :=
  NTab.set 0 s.locals (a / 4) (lanePut (s.loc (a / 4)) a n y)

/-- The commons after a store of the low `n` bytes of `y` at `a`. -/
def Chip.storedCommons (m : Chip) (a n : Nat) (y : Word) : NTab Word :=
  NTab.set 0 m.lay.commons (a / 4) (lanePut (m.common (a / 4)) a n y)

theorem Strand.localByte_stored (s : Strand) {a n : Nat} (y : Word) (hn : n ∣ 4) (ha : a % n = 0) (j : Nat) :
    Strand.localByte { s with locals := s.storedLocals a n y } j =
      if a ≤ j ∧ j < a + n then wordByte y (j - a) else s.localByte j :=
  byteAt_lanePut hn ha (NTab.get_set_self ..) (fun _ hi => NTab.get_set_ne _ _ _ hi) j

theorem Chip.commonByte_stored (m : Chip) {a n : Nat} (y : Word) (hn : n ∣ 4) (ha : a % n = 0) (j : Nat) :
    Chip.commonByte { m with lay := { m.lay with commons := m.storedCommons a n y } } j =
      if a ≤ j ∧ j < a + n then wordByte y (j - a) else m.commonByte j :=
  byteAt_lanePut hn ha (NTab.get_set_self ..) (fun _ hi => NTab.get_set_ne _ _ _ hi) j

/-- A strand that goes on with a status other than EAUTH. -/
theorem Chip.stepStatus_eq (m : Chip) (k : Nat) (f : Strand → Strand) {st : Status} (hst : st ≠ .eauth)
    (hp : (f (m.strand k)).pc = (m.strand k).pc) :
    m.stepStatus k f st = m.putStrand k ((f (m.strand k)).told st 0).moved := by
  rw [Chip.stepStatus, Chip.countEauth, if_neg hst, Strand.moved, Strand.told, Strand.put_pc, hp]
  rfl

/-- A strand that goes on with EAUTH has it counted (R118). -/
theorem Chip.stepStatus_eauth (m : Chip) (k : Fin 256) (f : Strand → Strand)
    (hp : (f (m.strand k)).pc = (m.strand k).pc) :
    m.stepStatus k f .eauth = (m.putStrand k ((f (m.strand k)).told .eauth 0).moved).eauthNote (.strand k) := by
  rw [Chip.stepStatus, Chip.countEauth, if_pos rfl, Strand.moved, Strand.told, Strand.put_pc, hp, Fin.ofNat_val_eq_self]
  rfl

section
variable {m : Chip} {d a op n : Nat} {imm : BitVec 16}

theorem Chip.localStore_done {k : Nat} (h : m.mayIssue k (kIMM op d a imm.toNat))
    (ha : accessOk ((m.strand k).effAddr a imm) n 0x100) : m.localStore op n k d a imm.toNat =
      m.putStrand k { (m.strand k).moved with
        locals := (m.strand k).storedLocals ((m.strand k).effAddr a imm) n ((m.strand k).reg d) } := by
  rw [Chip.localStore]
  refine (Chip.issueNext_guarded h (Chip.inSpace_ea ha)).trans ?_
  dsimp only
  rw [Chip.ea_eq]
  rfl

theorem Chip.commonsStore_done {k : Nat} (h : m.mayIssue k (kIMM op d a imm.toNat))
    (ha : accessOk ((m.strand k).effAddr a imm) n 0x40000) (hv : m.vendorArea k ((m.strand k).effAddr a imm) = false) :
    m.commonsStore op n k d a imm.toNat =
      Chip.putStrand
        { m with lay := { m.lay with commons := m.storedCommons ((m.strand k).effAddr a imm) n ((m.strand k).reg d) } }
        k ((m.strand k).told .ok 0).moved := by
  rw [Chip.commonsStore]
  refine (Chip.issueNext_guarded h (Chip.inSpace_ea ha)).trans ?_
  rw [Chip.ea_eq, if_neg (by simp [hv]), Chip.stepStatus_eq _ _ _ (by decide) rfl]
  rfl

theorem Chip.commonsStore_vendorArea {k : Fin 256} (h : m.mayIssue k (kIMM op d a imm.toNat))
    (ha : accessOk ((m.strand k).effAddr a imm) n 0x40000) (hv : m.vendorArea k ((m.strand k).effAddr a imm) = true) :
    m.commonsStore op n k d a imm.toNat = (m.putStrand k ((m.strand k).told .eauth 0).moved).eauthNote (.strand k) := by
  rw [Chip.commonsStore]
  refine (Chip.issueNext_guarded h (Chip.inSpace_ea ha)).trans ?_
  rw [Chip.ea_eq, if_pos hv, Chip.stepStatus_eauth _ _ _ rfl]
  rfl

end

/-- Settles O14: an aligned store replaces bytes of one word. -/
theorem knarinStores : Obligations.KnarinStores := by
  unfold Obligations.KnarinStores
  exact ⟨fun s k d a imm h ha => ⟨_, completes_of (exec_stl k d a imm s) (Chip.localStore_done h ha),
      fun j _ => (s.m.strand k).localByte_stored _ (by decide) ha.1 j⟩,
    fun s k d a imm h ha => ⟨_, completes_of (exec_stlh k d a imm s) (Chip.localStore_done h ha),
      fun j _ => (s.m.strand k).localByte_stored _ (by decide) ha.1 j⟩,
    fun s k d a imm h ha => ⟨_, completes_of (exec_stlb k d a imm s) (Chip.localStore_done h ha),
      fun j _ => (s.m.strand k).localByte_stored _ (by decide) ha.1 j⟩,
    fun s k d a imm h ha hv => ⟨_, completes_of (exec_stc k d a imm s) (Chip.commonsStore_done h ha hv),
      fun j _ => s.m.commonByte_stored _ (by decide) ha.1 j⟩,
    fun s k d a imm h ha hv => ⟨_, completes_of (exec_stch k d a imm s) (Chip.commonsStore_done h ha hv),
      fun j _ => s.m.commonByte_stored _ (by decide) ha.1 j⟩,
    fun s k d a imm h ha hv => ⟨_, completes_of (exec_stcb k d a imm s) (Chip.commonsStore_done h ha hv),
      fun j _ => s.m.commonByte_stored _ (by decide) ha.1 j⟩⟩

/-! ### Atomics (R105, R155) -/

section
variable {m : Chip} {w : Word} {d a : Nat} {new : Strand → Word → Option Word} {f : Strand → Word → Strand}
  {rej : Strand → Strand}

/-- An atomic of a word that is shut to the strand: D receives 0. -/
theorem Chip.atomic_vendorArea {k : Fin 256} (h : m.mayIssue k w) (ha : accessOk ((m.strand k).reg a).toNat 4 0x40000)
    (hv : m.vendorArea k ((m.strand k).reg a).toNat = true) (hp : (rej (m.strand k)).pc = (m.strand k).pc) :
    m.atomic w k d a new f rej =
      (m.putStrand k (((rej (m.strand k)).result d 0).told .eauth 0).moved).eauthNote (.strand k) := by
  rw [Chip.atomic]
  refine (Chip.issueNext_guarded (ok := fun m => inSpace ((m.strand k).reg a).toNat 4 0x40000) h (inSpace_of ha)).trans ?_
  dsimp only
  rw [if_pos hv, Chip.stepStatus_eauth m k (fun s => (rej s).dst d 0) hp, Strand.dst_result]

/-- An atomic of a word that is open to the strand: D receives the old word, whatever becomes of it. -/
theorem Chip.atomic_done {k : Nat} (h : m.mayIssue k w) (ha : accessOk ((m.strand k).reg a).toNat 4 0x40000)
    (hv : m.vendorArea k ((m.strand k).reg a).toNat = false)
    (hp : ∀ old, (f (m.strand k) old).pc = (m.strand k).pc) :
    m.atomic w k d a new f rej =
      ((new (m.strand k) (m.common (((m.strand k).reg a).toNat / 4))).elim m
          (m.putCommon (((m.strand k).reg a).toNat / 4))).putStrand k
        (((f (m.strand k) (m.common (((m.strand k).reg a).toNat / 4))).result d
          (m.common (((m.strand k).reg a).toNat / 4))).told .ok 0).moved := by
  rw [Chip.atomic]
  refine (Chip.issueNext_guarded (ok := fun m => inSpace ((m.strand k).reg a).toNat 4 0x40000) h (inSpace_of ha)).trans ?_
  dsimp only
  rw [if_neg (by simp [hv])]
  cases new (m.strand k) (m.common (((m.strand k).reg a).toNat / 4)) with
  | none => exact (Chip.stepStatus_eq _ _ _ (by decide) (hp _)).trans (by rw [Strand.dst_result]; rfl)
  | some x => exact (Chip.stepStatus_eq _ _ _ (by decide) (hp _)).trans (by rw [Strand.dst_result]; rfl)

end

/-- Settles O15: the vendor area is shut before the word is read or written. -/
theorem knarinVendorArea : Obligations.KnarinVendorArea := by
  unfold Obligations.KnarinVendorArea
  exact ⟨fun s k d a imm h ha hv => completes_of (exec_stc k d a imm s) (Chip.commonsStore_vendorArea h ha hv),
    fun s k d a imm h ha hv => completes_of (exec_stch k d a imm s) (Chip.commonsStore_vendorArea h ha hv),
    fun s k d a imm h ha hv => completes_of (exec_stcb k d a imm s) (Chip.commonsStore_vendorArea h ha hv),
    fun s k d a b c h ha hv => completes_of (exec_cas k d a b c s) (Chip.atomic_vendorArea h ha hv rfl),
    fun s k d a b h ha hv => completes_of (exec_fadd k d a b s) (Chip.atomic_vendorArea h ha hv rfl),
    fun s k d a b h ha hv => completes_of (exec_xchg k d a b s) (Chip.atomic_vendorArea h ha hv rfl)⟩

/-- Settles O16: an atomic reads the word and then writes it, or leaves it. -/
theorem knarinAtomics : Obligations.KnarinAtomics := by
  unfold Obligations.KnarinAtomics
  refine ⟨fun s k d a b c h ha hv => completes_of (exec_cas k d a b c s) ((Chip.atomic_done h ha hv fun _ => rfl).trans ?_),
    fun s k d a b h ha hv => completes_of (exec_fadd k d a b s) (Chip.atomic_done h ha hv fun _ => rfl),
    fun s k d a b h ha hv => completes_of (exec_xchg k d a b s) (Chip.atomic_done h ha hv fun _ => rfl)⟩
  by_cases heq : s.m.common (((s.m.strand k).reg a).toNat / 4) = (s.m.strand k).reg b
  · simp only [heq, if_true, Option.elim]
  · simp only [heq, if_false, Option.elim]

end Sys2Proof.Machine
end

section
/-!
PROOFS. Control transfers, waits, the timer and tokens: what each leaves in the context of the strand that issues it (R94, R106 to
R113, R120, R142, R143, R156 to R158).
-/

namespace Sys2Proof.Machine

/-! ### Changes of one strand alone -/

theorem Chip.strandOnly_putStrand (m : Chip) (k : Nat) (t : Strand) : m.strandOnly (m.putStrand k t) k :=
  ⟨fun _ hj => m.strand_putStrand_ne t hj, rfl⟩

theorem Chip.strandOnly_queueBack (m : Chip) (k : Nat) : m.strandOnly (m.queueBack k) k := ⟨fun _ _ => rfl, rfl⟩

theorem Chip.strandOnly_queueDrop (m : Chip) (k : Nat) : m.strandOnly (m.queueDrop k) k := ⟨fun _ _ => rfl, rfl⟩

theorem Chip.strandOnly.trans {a b c : Chip} {k : Nat} (hab : a.strandOnly b k) (hbc : b.strandOnly c k) :
    a.strandOnly c k :=
  ⟨fun j hj => (hbc.1 j hj).trans (hab.1 j hj),
    (congrArg (fun x : Chip => { x with lay := { x.lay with strands := a.lay.strands, queue := a.lay.queue } }) hbc.2).trans
      hab.2⟩

/-- A command that leaves the context `t` and the queue `q`, and touches nothing else. -/
theorem strandBecomes_of {i : Instr} {s : State} {m : Chip} {k : Nat} {t : Strand} {q : List Nat}
    (hx : exec i s = s.finish m) (ht : m.strand k = t) (hq : m.lay.queue = q) (ho : s.m.strandOnly m k) :
    StrandBecomes i s k t q := ⟨m, completes_of hx rfl, ht, hq, ho⟩

/-- A command that writes the strand's context. -/
theorem strandBecomes_put {i : Instr} {s : State} {m : Chip} {k : Nat} {t : Strand} (hx : exec i s = s.finish m)
    (hm : m = s.m.putStrand k t) : StrandBecomes i s k t s.m.lay.queue := by
  subst hm
  exact strandBecomes_of hx (Chip.strand_putStrand_self ..) rfl (Chip.strandOnly_putStrand ..)

/-- A command that writes the strand's context and then moves the strand on. -/
theorem strandBecomes_moved {i : Instr} {s : State} {m : Chip} {k : Nat} {t : Strand} (hx : exec i s = s.finish m)
    (hm : m = (s.m.putStrand k t).putStrand k t.moved) : StrandBecomes i s k t.moved s.m.lay.queue := by
  subst hm
  exact strandBecomes_of hx (Chip.strand_putStrand_self ..) rfl
    ((Chip.strandOnly_putStrand ..).trans (Chip.strandOnly_putStrand ..))

/-! ### Control transfers (R143, R156) -/

theorem Chip.standsAt.pcIn {m : Chip} {k : Nat} {w : Word} (h : m.standsAt k w) :
    inRegion (m.strand k).owner (m.strand k).pc = true := by
  have hw := h.1
  simp only [Chip.atWord, Bool.and_eq_true] at hw
  exact hw.1.2

theorem Chip.mayIssue.standsAt {m : Chip} {k : Nat} {w : Word} (h : m.mayIssue k w) : m.standsAt k w := ⟨h.1, h.2.1⟩

/-- A strand that stands at a word with budget left issues it when its target lies in the region. -/
theorem Chip.issueTo_standsAt {m : Chip} {k : Nat} {w : Word} {next : Nat} (f : Chip → Chip) (h : m.standsAt k w)
    (hn : inRegion (m.strand k).owner next = true) : m.issueTo k w next f = f m := by
  have hb : m.overBudget k = false := by simp [Chip.overBudget, Nat.not_le.2 h.2]
  simp [Chip.issueTo, h.1, hb, hn]

theorem Chip.kJump_standsAt {m : Chip} {k : Nat} {w : Word} {next : Nat} (f : Strand → Strand) (h : m.standsAt k w)
    (hn : inRegion (m.strand k).owner next = true) :
    m.kJump k w next f = m.putStrand k ((f (m.strand k)).jumped next) := by
  rw [Chip.kJump, Chip.issueTo_standsAt _ h hn]
  rfl

theorem Chip.kHalt_standsAt {m : Chip} {k : Nat} (h : m.standsAt k (kREG 1 0 0 0 0 0)) :
    m.kHalt k = (m.putStrand k (m.strand k).moved).strandEnd k .halted 1 := Chip.issueTo_standsAt _ h h.pcIn

theorem Chip.kYield_standsAt {m : Chip} {k : Nat} (h : m.standsAt k (kREG 2 0 0 0 0 0)) :
    m.kYield k = (m.putStrand k (m.strand k).moved).strandReady k := Chip.issueTo_standsAt _ h h.pcIn

theorem Chip.strandOnly_strandEnd (m : Chip) (k : Nat) (st : StrSt) (why : Nat) : m.strandOnly (m.strandEnd k st why) k :=
  (Chip.strandOnly_putStrand ..).trans (Chip.strandOnly_queueDrop ..)

theorem Chip.strandOnly_strandReady (m : Chip) (k : Nat) : m.strandOnly (m.strandReady k) k :=
  (Chip.strandOnly_putStrand ..).trans (Chip.strandOnly_queueBack ..)

@[simp] theorem Chip.strand_queueBack (m : Chip) (k j : Nat) : (m.queueBack k).strand j = m.strand j := rfl
@[simp] theorem Chip.strand_queueDrop (m : Chip) (k j : Nat) : (m.queueDrop k).strand j = m.strand j := rfl

@[simp] theorem Chip.strand_strandEnd (m : Chip) (k : Nat) (st : StrSt) (why : Nat) :
    (m.strandEnd k st why).strand k = { m.strand k with st := st, why := why, wait := none, after := [], keep := false } := by
  rw [Chip.strandEnd, Chip.strand_queueDrop, Chip.strand_putStrand_self]

@[simp] theorem Chip.strand_strandReady (m : Chip) (k : Nat) :
    (m.strandReady k).strand k =
      { m.strand k with st := .ready, wait := none, act := 0, keep := false, slice := 0, after := [] } := by
  rw [Chip.strandReady, Chip.strand_queueBack, Chip.strand_putStrand_self]

/-- The conditions of R156 in the order of their codes. -/
theorem Strand.holds_eq (s : Strand) (cond : Fin 11) :
    [true, s.z, !s.z, s.n != s.v, s.n == s.v, !s.z && (s.n == s.v), s.z || (s.n != s.v), s.c, !s.c, s.n, !s.n][cond.val]? =
      some (s.holds cond) := by
  fin_cases cond <;> rfl

/-- The target of a branch that lies in a region is the PC and four times the offset. -/
theorem Chip.branchTo_eq {m : Chip} {k pc : Nat} {off : BitVec 20} {o : Owner}
    (hpc : (pc : Int) = (m.strand k).pc + 4 * off.toInt) (hn : inRegion o pc = true) : m.branchTo k off.toNat = pc := by
  have hlt : pc < 2 ^ 40 := by
    simp only [inRegion, Bool.and_eq_true, decide_eq_true_eq] at hn
    obtain ⟨-, hhi⟩ := hn
    cases o <;> simp only [regionOf] at hhi <;> omega
  rw [Chip.branchTo, sxN_toNat, ← hpc]
  omega

theorem Chip.kBcc_eq (m : Chip) (k : Nat) (cond : Fin 11) (off : Nat) : m.kBcc k cond off =
    m.kJump k (kIMM20 0x60 cond off) (if (m.strand k).holds cond then m.branchTo k off else m.pcAfter k) id := by
  rw [Chip.kBcc, if_neg (by omega)]

/-- Settles O18: a control transfer sets the PC, halt and yield also the strand's state. -/
theorem knarinControl : Obligations.KnarinControl := by
  unfold Obligations.KnarinControl
  refine ⟨fun k s h => completes_of (exec_nop k s) (Chip.kOp_mayIssue id h rfl), fun s k h => ?_, fun s k h => ?_,
    fun s k code h => ?_, fun s k cond off pc h hc hpc hn => ?_, fun s k cond off h hc => ?_, fun s k off pc h hpc hn => ?_,
    fun s k a h hn => completes_of (exec_jr k a s) (Chip.kJump_standsAt id h hn),
    fun s k h hn => completes_of (exec_ret k s) (Chip.kJump_standsAt id h hn), fun s k hr hb hw => ?_⟩
  · refine strandBecomes_of ((exec_halt k s).trans (by rw [Chip.kHalt_standsAt h])) ?_ rfl
      ((Chip.strandOnly_putStrand ..).trans (Chip.strandOnly_strandEnd ..))
    rw [Chip.strand_strandEnd, Chip.strand_putStrand_self]
  · refine strandBecomes_of ((exec_yieldK k s).trans (by rw [Chip.kYield_standsAt h])) ?_ rfl
      ((Chip.strandOnly_putStrand ..).trans (Chip.strandOnly_strandReady ..))
    rw [Chip.strand_strandReady, Chip.strand_putStrand_self]
  · have hcode : wd (code.toNat % 256) = code.zeroExtend 32 := by
      rw [Nat.mod_eq_of_lt code.isLt]
      exact BitVec.eq_of_toNat_eq (by simp [wd])
    exact completes_of (exec_faultK k code s) (hcode ▸ Chip.issueNext_mayIssue _ h)
  · rw [Strand.holds_eq, Option.some.injEq] at hc
    refine completes_of (exec_bcc k cond off s) ?_
    rw [Chip.kBcc_eq, if_pos hc, Chip.branchTo_eq hpc hn]
    exact Chip.kJump_standsAt id h hn
  · rw [Strand.holds_eq, Option.some.injEq] at hc
    refine completes_of (exec_bcc k cond off s) ?_
    rw [Chip.kBcc_eq, if_neg (by simp [hc])]
    exact Chip.kJump_standsAt id h.standsAt h.2.2
  · refine completes_of (exec_bl k off s) ?_
    rw [Chip.kBl, Chip.branchTo_eq hpc hn]
    exact Chip.kJump_standsAt _ h hn
  · refine completes_of (exec_undefinedEncoding k s) ?_
    have hill : (!s.m.pcIn k || !wordDefined (s.m.nextWord k)) = true := by simpa using hw
    rw [Chip.undefinedWord, if_neg (by simp [hr]), if_neg (by simp [hb]), if_pos hill]

/-! ### Waits (R106 to R110, R157, R158) -/

/-- A wait whose condition is not met leaves the strand WAITING at it. -/
theorem Chip.waitAt_waits {m : Chip} {k : Nat} {w : Word} {cond : Strand → WaitOn} {timeout : Strand → Nat}
    (h : m.mayIssue k w) (hc : m.waitMet k (cond (m.strand k)) = false) :
    m.waitAt k w cond timeout =
      m.putStrand k ((m.strand k).waits (cond (m.strand k)) (timeout (m.strand k)) m.now) := by
  rw [Chip.waitAt, Chip.issueNext_mayIssue _ h]
  exact if_neg (by simp [hc])

/-- A strand whose context has become `u` goes on to the next instruction. -/
theorem Chip.putStrand_goOn (m : Chip) (k : Nat) (u : Strand) :
    (m.putStrand k u).putStrand k { ((m.putStrand k u).strand k).counted with pc := (m.putStrand k u).pcAfter k } =
      (m.putStrand k u).putStrand k u.moved := by
  rw [Chip.pcAfter, Chip.strand_putStrand_self]
  rfl

/-- A wait whose condition is met takes its results and goes on. -/
theorem Chip.waitAt_met {m : Chip} {k : Nat} {w : Word} {cond : Strand → WaitOn} {timeout : Strand → Nat} {u : Strand}
    (h : m.mayIssue k w) (hc : m.waitMet k (cond (m.strand k)) = true)
    (ht : m.waitTake k (cond (m.strand k)) = m.putStrand k u) :
    m.waitAt k w cond timeout = (m.putStrand k u).putStrand k u.moved := by
  rw [Chip.waitAt, Chip.issueNext_mayIssue _ h, if_pos hc, ht]
  exact m.putStrand_goOn k u

theorem Chip.delay_zero {m : Chip} {k : Nat} {w : Word} {n : Strand → Nat} (h : m.mayIssue k w) (hn : n (m.strand k) = 0) :
    m.delay k w n = m.putStrand k ((m.strand k).told .ok 1).moved := by
  rw [Chip.delay, Chip.issueNext_mayIssue _ h]
  exact if_pos hn

theorem Chip.delay_waits {m : Chip} {k : Nat} {w : Word} {n : Strand → Nat} (h : m.mayIssue k w)
    (hn : n (m.strand k) ≠ 0) : m.delay k w n = m.putStrand k ((m.strand k).waits .delay (n (m.strand k)) m.now) := by
  rw [Chip.delay, Chip.issueNext_mayIssue _ h]
  exact if_neg hn

/-- Settles O24: a wait completes when its condition is met, and waits otherwise. -/
theorem knarinTimeWaits : Obligations.KnarinTimeWaits := by
  unfold Obligations.KnarinTimeWaits
  refine ⟨fun s k n h hn => ?_, fun s k n h hn => ?_, fun s k a h hn => ?_, fun s k a h hn => ?_, fun s k n h => ?_,
    fun s k a h => ?_, fun s k d c h ht => ?_, fun s k d c h ht => ?_, fun s k d line a c h hl => ?_,
    fun s k d line a c h hl => ?_⟩
  · exact strandBecomes_put (exec_delay k n s) (Chip.delay_zero h (by simp [hn]))
  · have hne : n.toNat ≠ 0 := fun h0 => hn (BitVec.eq_of_toNat_eq h0)
    refine strandBecomes_put (exec_delay k n s) ?_
    rw [Chip.kDelay, Nat.mod_eq_of_lt n.isLt]
    exact Chip.delay_waits h hne
  · exact strandBecomes_put (exec_delayv k a s) (Chip.delay_zero h (by simp [hn]))
  · exact strandBecomes_put (exec_delayv k a s) (Chip.delay_waits h fun h0 => hn (BitVec.eq_of_toNat_eq h0))
  · refine strandBecomes_put (exec_timer k n s) ?_
    rw [Chip.kTimer, Nat.mod_eq_of_lt n.isLt]
    exact Chip.kOp_mayIssue _ h rfl
  · exact strandBecomes_put (exec_timerv k a s) (Chip.kOp_mayIssue _ h rfl)
  · rw [← Strand.dst_result]
    refine strandBecomes_moved (exec_waitt k d c s) ?_
    rw [Chip.kWaitt]
    exact Chip.waitAt_met h ht rfl
  · refine strandBecomes_put (exec_waitt k d c s) ?_
    rw [Chip.kWaitt]
    exact (Chip.waitAt_waits h (by simpa [Chip.waitMet] using ht)).trans (by cases c <;> rfl)
  · rw [← Strand.dst_result]
    refine strandBecomes_moved (exec_waite k d line a c s) ?_
    rw [Chip.kWaite, Nat.mod_eq_of_lt line.isLt]
    exact Chip.waitAt_met h (by simpa [Chip.waitMet] using hl) rfl
  · refine strandBecomes_put (exec_waite k d line a c s) ?_
    rw [Chip.kWaite, Nat.mod_eq_of_lt line.isLt]
    exact (Chip.waitAt_waits h (by simpa [Chip.waitMet] using hl)).trans (by cases c <;> rfl)

/-! ### Tokens (R111 to R113, R157) -/

section
variable {m : Chip} {k e : Nat} {t w : Word} {d : Nat} {st : Status}

theorem Chip.waitMet_noEntry (h : (m.strand k).tokenEntry t = none) : m.waitMet k (.token t d) = true := by
  simp [Chip.waitMet, h]

theorem Chip.waitMet_completed (h : (m.strand k).tokenEntry t = some e) (hd : ((m.strand k).tok e).done = some (st, w)) :
    m.waitMet k (.token t d) = true := by
  simp [Chip.waitMet, h, hd]

theorem Chip.waitMet_outstanding (h : (m.strand k).tokenEntry t = some e) (hd : ((m.strand k).tok e).done = none) :
    m.waitMet k (.token t d) = false := by
  simp [Chip.waitMet, h, hd]

theorem Chip.waitTake_noEntry (h : (m.strand k).tokenEntry t = none) :
    m.waitTake k (.token t d) = m.putStrand k ((m.strand k).told .erange 0) := by
  simp only [Chip.waitTake, h]
  rfl

/-- A completed token is collected: its entry is free, D and S14 hold the result. -/
theorem Chip.waitTake_completed (h : (m.strand k).tokenEntry t = some e)
    (hd : ((m.strand k).tok e).done = some (st, w)) :
    m.waitTake k (.token t d) = m.putStrand k
      ((((m.strand k).putTok e { (m.strand k).tok e with used := false, done := none }).result d
        (if st = .ok then w else 0)).told st 4) := by
  simp only [Chip.waitTake, h, hd, Strand.dst_result]
  rfl

/-- kpoll collects what waitk would. -/
theorem Chip.kKpoll_met {a : Nat} {u : Strand} (h : m.mayIssue k (kREG 0x77 d a 0 0 0))
    (hc : m.waitMet k (.token ((m.strand k).reg a) d) = true)
    (ht : m.waitTake k (.token ((m.strand k).reg a) d) = m.putStrand k u) :
    m.kKpoll k d a = (m.putStrand k u).putStrand k u.moved := by
  rw [Chip.kKpoll, Chip.issueNext_mayIssue _ h, if_pos hc, ht]
  exact m.putStrand_goOn k u

theorem Chip.kKpoll_outstanding {a : Nat} (h : m.mayIssue k (kREG 0x77 d a 0 0 0))
    (hc : m.waitMet k (.token ((m.strand k).reg a) d) = false) :
    m.kKpoll k d a = m.putStrand k ((m.strand k).told .ebusy 0).moved := by
  rw [Chip.kKpoll, Chip.issueNext_mayIssue _ h, if_neg (by simp [hc]), Chip.stepStatus_eq _ _ _ (by decide) rfl]
  rfl

/-- No transaction completes for an entry that was dropped (R113). -/
theorem Chip.dropToken_pool {x : Txn} (hx : x ∈ (m.dropToken k e).ptn.pool) : x.by_ ≠ .strand k e := by
  obtain ⟨y, -, rfl⟩ := List.mem_map.1 hx
  split
  · exact nofun
  · assumption

theorem Chip.strand_dropToken : (m.dropToken k e).strand k =
    (m.strand k).putTok e { (m.strand k).tok e with used := false, done := none } :=
  m.strand_putStrand_self k _

end

/-- Settles O25: a token is stale, completed or outstanding, and each case is one of `Chip.waitMet` and `Chip.waitTake`. -/
theorem knarinTokens : Obligations.KnarinTokens := by
  unfold Obligations.KnarinTokens
  refine ⟨fun s k d a c h he => ?_, fun s k d a c e st w h he hd => ?_, fun s k d a c e h he hd => ?_,
    fun s k d a h he => ?_, fun s k d a e st w h he hd => ?_, fun s k d a e h he hd => ?_, fun s k a h he => ?_,
    fun s k a e h he => ?_⟩
  · refine strandBecomes_moved (exec_waitk k d a c s) ?_
    rw [Chip.kWaitk]
    exact Chip.waitAt_met h (Chip.waitMet_noEntry he) (Chip.waitTake_noEntry he)
  · refine strandBecomes_moved (exec_waitk k d a c s) ?_
    rw [Chip.kWaitk]
    exact Chip.waitAt_met h (Chip.waitMet_completed he hd) (Chip.waitTake_completed he hd)
  · refine strandBecomes_put (exec_waitk k d a c s) ?_
    rw [Chip.kWaitk]
    exact (Chip.waitAt_waits h (Chip.waitMet_outstanding he hd)).trans (by cases c <;> rfl)
  · exact strandBecomes_moved (exec_kpoll k d a s)
      (Chip.kKpoll_met h (Chip.waitMet_noEntry he) (Chip.waitTake_noEntry he))
  · exact strandBecomes_moved (exec_kpoll k d a s)
      (Chip.kKpoll_met h (Chip.waitMet_completed he hd) (Chip.waitTake_completed he hd))
  · exact strandBecomes_put (exec_kpoll k d a s) (Chip.kKpoll_outstanding h (Chip.waitMet_outstanding he hd))
  · refine strandBecomes_put (exec_kdrop k a s) ?_
    rw [Chip.kKdrop, Chip.issueNext_mayIssue _ h]
    simp only [he]
    exact Chip.stepStatus_eq _ _ _ (by decide) rfl
  · refine ⟨(s.m.dropToken k e).stepStatus k id .ok, completes_of (exec_kdrop k a s) ?_, ?_, ?_, ?_⟩
    · rw [Chip.kKdrop, Chip.issueNext_mayIssue _ h]
      simp only [he]
    all_goals rw [Chip.stepStatus_eq _ _ _ (by decide) rfl]
    · rw [Chip.strand_putStrand_self, Chip.strand_dropToken]
      rfl
    · exact fun x hx => Chip.dropToken_pool hx
    · exact ⟨rfl, rfl⟩

end Sys2Proof.Machine
end

section
/-!
PROOFS. Mailboxes, device and loop accesses, partner issues and records of a strand (R102, R111, R112, R125 to R127, R154,
R159, R161, R498 to R501).
-/

namespace Sys2Proof.Machine

/-! ### What an event leaves alone (R38, R501) -/

/-- What every step of a fold keeps, the fold keeps. -/
theorem foldl_keeps {α β : Type} (g : Chip → β) (f : Chip → α → Chip) (h : ∀ m a, g (f m a) = g m) (l : List α)
    (m : Chip) : g (l.foldl f m) = g m := by
  induction l generalizing m with
  | nil => rfl
  | cons a t ih => exact (ih (f m a)).trans (h m a)

/-- The lay engine and the mailboxes. -/
def Chip.layHst (m : Chip) : Lay × Hst := (m.lay, m.hst)

theorem Chip.layHst_deliverTo (m : Chip) (src d : Nat) : (m.deliverTo src d).layHst = m.layHst := by
  unfold Chip.deliverTo
  split
  · rfl
  · dsimp only
    split_ifs <;> rfl

theorem Chip.layHst_event (m : Chip) (src : Nat) : (m.event src).layHst = m.layHst := by
  have hd : (m.event src).layHst = (m.noteTrig src).layHst := by
    refine foldl_keeps Chip.layHst _ (fun m d => ?_) _ _
    split
    · exact m.layHst_deliverTo src d
    · rfl
  rw [hd, Chip.noteTrig]
  split <;> rfl

theorem Chip.layHst_enqueue (m : Chip) (r : Rec) (dv : Option Deliv) : (m.enqueue r dv).layHst = m.layHst := by
  unfold Chip.enqueue
  split <;> rfl

theorem Chip.layHst_eventRecord_event (m : Chip) (src i : Nat) (p : List Word) :
    ((m.eventRecord src i p).event src).layHst = m.layHst :=
  (Chip.layHst_event _ src).trans (m.layHst_enqueue _ none)

/-- A doorbell leaves the lay engine and the queues of the channels. -/
theorem Chip.ring_keeps (m : Chip) (e : MEnd) (c : Nat) :
    (m.ring e c).lay = m.lay ∧ (m.ring e c).hst.ab = m.hst.ab ∧ (m.ring e c).hst.ba = m.hst.ba := by
  have hev : ∀ src i p, ((m.eventRecord src i p).event src).lay = m.lay ∧
      ((m.eventRecord src i p).event src).hst = m.hst := fun src i p =>
    Prod.mk.inj (m.layHst_eventRecord_event src i p)
  cases e with
  | host => exact ⟨(hev 225 0 _).1, by rw [Chip.ring, (hev 225 0 _).2], by rw [Chip.ring, (hev 225 0 _).2]⟩
  | svc => exact ⟨(hev 226 0 _).1, by rw [Chip.ring, (hev 226 0 _).2], by rw [Chip.ring, (hev 226 0 _).2]⟩
  | pair p => cases p <;> exact ⟨rfl, rfl, rfl⟩
  | strands o g => exact ⟨rfl, rfl, rfl⟩

theorem Chip.mq_ring (m : Chip) (e : MEnd) (c j : Nat) (ab : Bool) : (m.ring e c).mq j ab = m.mq j ab := by
  obtain ⟨-, hab, hba⟩ := m.ring_keeps e c
  rw [Chip.mq, Chip.mq, hab, hba]

theorem Chip.strand_ring (m : Chip) (e : MEnd) (c k : Nat) : (m.ring e c).strand k = m.strand k := by
  rw [Chip.strand, (m.ring_keeps e c).1]
  rfl

/-! ### Mailboxes (R498 to R501) -/

@[simp] theorem Chip.mq_putMq_self (m : Chip) (c : Nat) (ab : Bool) (ws : List Word) : (m.putMq c ab ws).mq c ab = ws := by
  cases ab <;> simp [Chip.mq, Chip.putMq]

@[simp] theorem Chip.strand_putMq (m : Chip) (c : Nat) (ab : Bool) (ws : List Word) (k : Nat) :
    (m.putMq c ab ws).strand k = m.strand k := by
  cases ab <;> rfl

@[simp] theorem Chip.regs_putMq (m : Chip) (c : Nat) (ab : Bool) (ws : List Word) : (m.putMq c ab ws).regs = m.regs := by
  cases ab <;> rfl

/-- A send to a queue with room: the queue takes the word, and no strand changes. -/
theorem Chip.mbxSend_room {m : Chip} {c : Nat} {side : Bool} {w : Word} (hl : (m.mq c side).length < 16) :
    (m.mbxSend c side w).2 = .ok ∧ (m.mbxSend c side w).1.mq c side = m.mq c side ++ [w] ∧
      ∀ k, (m.mbxSend c side w).1.strand k = m.strand k := by
  rw [Chip.mbxSend, if_neg (by simpa [mqMax] using hl)]
  dsimp only
  split
  · exact ⟨rfl, by rw [Chip.mq_ring, Chip.mq_putMq_self], fun k => by rw [Chip.strand_ring, Chip.strand_putMq]⟩
  · exact ⟨rfl, Chip.mq_putMq_self .., fun k => Chip.strand_putMq ..⟩

theorem Chip.mbxSend_full {m : Chip} {c : Nat} {side : Bool} {w : Word} (hl : 16 ≤ (m.mq c side).length) :
    m.mbxSend c side w = (m, .efull) := by
  rw [Chip.mbxSend, if_pos (by simpa [mqMax] using hl)]

theorem Chip.mbxRecv_cons {m : Chip} {c : Nat} {side : Bool} {w : Word} {ws : List Word} (h : m.mq c (!side) = w :: ws) :
    m.mbxRecv c side = some (m.putMq c (!side) ws, w) := by
  rw [Chip.mbxRecv, h]

/-- A send on a channel whose end the strand's group is. -/
theorem Chip.kSend_open {m : Chip} {k b : Nat} {ch : Fin 64} {side : Bool} (h : m.mayIssue k (kREG 0x80 0 0 b 0 ch))
    (hm : m.mbxStatus k ch = .ok) (hs : sideOf (.strands (m.strand k).owner (m.strand k).group) ch = some side) :
    m.kSend k b ch = (m.mbxSend ch side ((m.strand k).reg b)).1.stepStatus k id (m.mbxSend ch side ((m.strand k).reg b)).2 := by
  rw [Chip.kSend, Nat.mod_eq_of_lt ch.isLt, Chip.issueNext_mayIssue _ h]
  simp only [hs, hm, if_true]

/-- A recv on such a channel is a wait for a word of it. -/
theorem Chip.kRecv_open {m : Chip} {k d : Nat} {ch : Fin 64} {c : Option Nat} (hm : m.mbxStatus k ch = .ok) :
    m.kRecv k d ch c = m.waitAt k (kREG 0x81 d 0 0 (timeoutFn c ch).1 (timeoutFn c ch).2) (fun _ => .mbox ch d)
      (fun s => s.timeoutOf c) := by
  simp only [Chip.kRecv, Nat.mod_eq_of_lt ch.isLt, hm, if_true]

/-- A word that waits for the strand's side is taken by the strand that has waited longest. -/
theorem Chip.waitAt_mbox {m : Chip} {k d ch : Nat} {w word : Word} {ws : List Word} {timeout : Strand → Nat} {side : Bool}
    (h : m.mayIssue k word) (hs : sideOf (.strands (m.strand k).owner (m.strand k).group) ch = some side)
    (hq : m.mq ch (!side) = w :: ws) (hb : m.waitsBefore k ch = false) :
    m.waitAt k word (fun _ => .mbox ch d) timeout =
      ((m.putMq ch (!side) ws).putStrand k (((m.strand k).result d w).told .ok 5)).putStrand k
        (((m.strand k).result d w).told .ok 5).moved := by
  have hmet : m.waitMet k (.mbox ch d) = true := by simp [Chip.waitMet, hs, hq, hb]
  have htake : m.waitTake k (.mbox ch d) = (m.putMq ch (!side) ws).putStrand k (((m.strand k).result d w).told .ok 5) := by
    simp only [Chip.waitTake, hs, Chip.mbxRecv_cons hq, Chip.strand_putMq, Strand.dst_result]
    rfl
  rw [Chip.waitAt, Chip.issueNext_mayIssue _ h, if_pos hmet, htake]
  exact Chip.putStrand_goOn ..

theorem Chip.waitMet_mbox_empty {m : Chip} {k d ch : Nat} {side : Bool}
    (hs : sideOf (.strands (m.strand k).owner (m.strand k).group) ch = some side) (hq : m.mq ch (!side) = []) :
    m.waitMet k (.mbox ch d) = false := by
  simp [Chip.waitMet, hs, hq]

/-! ### Device and loop accesses (R102, R125, R154, R159) -/

theorem Chip.busWrite_granted {m : Chip} {ag : Agent} {addr : Nat} {d : Word} (h : m.writeVerdict ag addr d = none) :
    m.busWrite ag addr d = (m.writeAct ag addr d).eff m := by
  simp [Chip.busWrite, h]

theorem strandAgent_val (k : Fin 256) : strandAgent k = .strand k := by
  rw [strandAgent, Fin.ofNat_val_eq_self]

/-- A write of a loop word, or of CLE_COMMIT, that no rule rejects. -/
theorem Chip.loopWrite_granted {m : Chip} {k : Fin 256} {word d : Word} {slot addr : Nat} (h : m.mayIssue k word)
    (hs : slot < 64) (hv : (m.putStrand k (m.strand k).moved).writeVerdict (.strand k) addr d = none) :
    m.loopWrite k word slot addr d =
      (((m.putStrand k (m.strand k).moved).writeAct (.strand k) addr d).eff (m.putStrand k (m.strand k).moved)).1.afterAccess
        k m.pwr.base id
        (((m.putStrand k (m.strand k).moved).writeAct (.strand k) addr d).eff (m.putStrand k (m.strand k).moved)).2 := by
  rw [Chip.loopWrite, Chip.issueNext_mayIssue _ h, if_neg (by omega), strandAgent_val, ← Chip.busWrite_granted hv]
  rfl

section
variable {m : Chip} {k : Fin 256} {d a op : Nat} {imm : BitVec 16} (h : m.mayIssue k (kIMM op d a imm.toNat))
  (ha : accessOk ((m.strand k).effAddr a imm) 4 0x1000000)
include h ha

/-- A device load that does not have to wait. -/
theorem Chip.deviceLoad_done (hh : m.mustHold
      { ag := .strand k, write := false, addr := (m.strand k).effAddr a imm, data := (m.strand k).reg d, dst := d } = false) :
    m.deviceAccess op k d a imm.toNat false =
      ((m.putStrand k (m.strand k).moved).busRead (.strand k) ((m.strand k).effAddr a imm)).1.afterAccess k m.pwr.base
        (fun t => t.dst d ((m.putStrand k (m.strand k).moved).busRead (.strand k) ((m.strand k).effAddr a imm)).2.1)
        ((m.putStrand k (m.strand k).moved).busRead (.strand k) ((m.strand k).effAddr a imm)).2.2 := by
  rw [Chip.deviceAccess]
  refine (Chip.issueNext_guarded h (Chip.inSpace_ea ha)).trans ?_
  rw [Chip.ea_eq, strandAgent_val, if_neg (by simp [hh])]
  rfl

/-- A device store that does not have to wait and that no rule rejects. -/
theorem Chip.deviceStore_done (hh : m.mustHold
      { ag := .strand k, write := true, addr := (m.strand k).effAddr a imm, data := (m.strand k).reg d, dst := d } = false)
    (hv : (m.putStrand k (m.strand k).moved).writeVerdict (.strand k) ((m.strand k).effAddr a imm) ((m.strand k).reg d) = none) :
    m.deviceAccess op k d a imm.toNat true =
      (((m.putStrand k (m.strand k).moved).writeAct (.strand k) ((m.strand k).effAddr a imm) ((m.strand k).reg d)).eff
        (m.putStrand k (m.strand k).moved)).1.afterAccess k m.pwr.base id
        (((m.putStrand k (m.strand k).moved).writeAct (.strand k) ((m.strand k).effAddr a imm) ((m.strand k).reg d)).eff
          (m.putStrand k (m.strand k).moved)).2 := by
  rw [Chip.deviceAccess]
  refine (Chip.issueNext_guarded h (Chip.inSpace_ea ha)).trans ?_
  rw [Chip.ea_eq, strandAgent_val, if_neg (by simp [hh]), ← Chip.busWrite_granted hv]
  rfl

end

/-- An access that does not end the strand and resets nothing leaves its status with the strand. -/
theorem Chip.afterAccess_stays {m : Chip} {k : Nat} {f : Strand → Strand} {st : Status} (hf : (m.strand k).st ≠ .free) :
    m.afterAccess k m.pwr.base f st = m.putStrand k ((f (m.strand k)).told st 0) := by
  rw [Chip.afterAccess, if_neg (by simp [hf])]
  rfl

theorem Chip.running_of_atWord {m : Chip} {k : Nat} {w : Word} (h : m.atWord k w = true) : (m.strand k).st = .running := by
  simp only [Chip.atWord, Bool.and_eq_true, decide_eq_true_eq] at h
  exact h.1.1

/-- A read of a loop word that no rule rejects leaves the chip. -/
theorem Chip.busRead_loop {m : Chip} {ag : Agent} {s : Nat} {w : BitVec 8} (hs : s < 64)
    (hg : m.gate false ag (loopAddr s w.toNat) 0 = {}) :
    m.busRead ag (loopAddr s w.toNat) = (m, m.loopRead s w.toNat, .ok) := by
  have ht : targetOf (loopAddr s w.toNat) = .loopMem s w.toNat := targetOf_loop ⟨s, hs⟩ ⟨w.toNat, w.isLt⟩
  have hf : (m.gate false ag (loopAddr s w.toNat) 0).first = none := by rw [hg]; rfl
  simp only [Chip.busRead, hf, Chip.readAt, ht]
  rfl

theorem Chip.kLrd_granted {m : Chip} {k : Fin 256} {d a : Nat} {w : BitVec 8} (h : m.mayIssue k (kREG 0x90 d a 0 0 w.toNat))
    (hs : ((m.strand k).reg a).toNat < 64)
    (hg : (m.putStrand k (m.strand k).moved).gate false (.strand k) (loopAddr ((m.strand k).reg a).toNat w.toNat) 0 = {}) :
    m.kLrd k d a w.toNat = (m.putStrand k (m.strand k).moved).putStrand k
      (((m.strand k).moved.result d
        ((m.putStrand k (m.strand k).moved).loopRead ((m.strand k).reg a).toNat w.toNat)).told .ok 0) := by
  have hr : ((m.putStrand k (m.strand k).moved).strand k).st ≠ .free := by
    rw [Chip.strand_putStrand_self, Strand.moved, Chip.running_of_atWord h.1]
    exact nofun
  rw [Chip.kLrd, Chip.issueNext_mayIssue _ h, if_neg (by omega), Nat.mod_eq_of_lt w.isLt, strandAgent_val]
  have hx := congrArg
    (fun x => x.1.afterAccess k (m.putStrand k (m.strand k).moved).pwr.base (fun s => s.dst d x.2.1) x.2.2)
    (Chip.busRead_loop hs hg)
  exact hx.trans ((Chip.afterAccess_stays hr).trans (by rw [Chip.strand_putStrand_self, Strand.dst_result]))

/-- Settles O26: the queue of a channel gains or loses a word, and a device or loop access is a bus access. -/
theorem knarinMailboxesAndDevices : Obligations.KnarinMailboxesAndDevices := by
  unfold Obligations.KnarinMailboxesAndDevices
  refine ⟨fun s k b ch side h hm hs hl => ?_, fun s k b ch side h hm hs hl => ?_,
    fun s k d ch c side w ws h hm hs hq hb => ?_, fun s k d ch c side h hm hs hq => ?_, fun s k d a w h hs hg => ?_,
    fun s k b a w h hs hv => ?_, fun s k b a h hs hv => ?_, fun s k a blk h hs hv => ?_,
    fun s k d a imm h ha hv hh => completes_of (exec_std k d a imm s) (Chip.deviceStore_done h ha hh hv),
    fun s k d a imm h ha hh => completes_of (exec_ldd k d a imm s) (Chip.deviceLoad_done h ha hh)⟩
  · obtain ⟨hst, hmq, hstr⟩ := Chip.mbxSend_room (w := (s.m.strand k).reg b) hl
    refine ⟨_, completes_of (exec_send k b ch s) (Chip.kSend_open h hm hs), ?_, ?_⟩
    all_goals rw [hst, Chip.stepStatus_eq _ _ _ (by decide) rfl]
    · exact hmq
    · rw [Chip.strand_putStrand_self, hstr]
      rfl
  · refine strandBecomes_put (exec_send k b ch s) ?_
    rw [Chip.kSend_open h hm hs, Chip.mbxSend_full hl]
    exact Chip.stepStatus_eq (st := .efull) _ _ _ (by decide) rfl
  · refine ⟨_, completes_of (exec_recv k d ch c s) ((Chip.kRecv_open hm).trans (Chip.waitAt_mbox h hs hq hb)), ?_, ?_, ?_⟩
    · exact Chip.mq_putMq_self ..
    · exact Chip.strand_putStrand_self ..
    · exact Chip.regs_putMq ..
  · refine strandBecomes_put (exec_recv k d ch c s) ?_
    rw [Chip.kRecv_open hm]
    exact (Chip.waitAt_waits h (Chip.waitMet_mbox_empty hs hq)).trans (by cases c <;> rfl)
  · exact ⟨_, completes_of (exec_lrd k d a w s) (Chip.kLrd_granted h hs hg), Chip.strand_putStrand_self ..,
      (Chip.strandOnly_putStrand ..).trans (Chip.strandOnly_putStrand ..)⟩
  · refine completes_of (exec_lwr k b a w s) ?_
    rw [Chip.kLwr, Nat.mod_eq_of_lt w.isLt]
    exact Chip.loopWrite_granted h hs hv
  · exact completes_of (exec_lsp k b a s) (Chip.loopWrite_granted h hs hv)
  · refine completes_of (exec_lcmt k a blk s) ?_
    rw [Chip.kLcmt, Nat.mod_eq_of_lt blk.isLt]
    exact Chip.loopWrite_granted h hs hv

/-! ### Partner issues (R111, R112, R161) -/

/-- The strand that has taken token entry `i` for a transaction: the next serial number, D the token, S14 OK. -/
def Strand.issued (s : Strand) (d i : Nat) : Strand :=
  ((((s.putTok i { used := true, dropped := false, serial := ((s.tok i).serial + 1) % 4096, done := none }).result d
    (BitVec.ofNat 32 (((s.tok i).serial + 1) % 4096 * 16 + i))).told .ok 0).moved)

/-- An issue that no rule rejects takes the lowest free entry and hands the transaction to the scheduler. -/
theorem Chip.partner_issues {m : Chip} {w : Word} {k d a b i : Nat} {item : BitVec 12} {kind : TxKind} (h : m.mayIssue k w)
    (hi : (m.strand k).freeTok = some i)
    (hj : m.issueJudge k kind ((m.strand k).reg a).toNat item.toNat ((m.strand k).reg b) = .ok) :
    m.partner w k d a b item.toNat kind = (m.putStrand k ((m.strand k).issued d i)).issue kind (.strand k i)
      ((m.strand k).reg a).toNat item.toNat ((m.strand k).reg b).toNat ((m.strand k).reg b) := by
  rw [Chip.partner, Chip.issueNext_mayIssue _ h, Nat.mod_eq_of_lt item.isLt]
  simp only [hi, hj, if_true]
  rw [Chip.stepStatus_eq _ _ _ (by decide) rfl, Strand.dst_result, tokenWord, Nat.mod_mod]
  rfl

/-! ### Records (R127, R603) -/

/-- A counter that saturates, one further. -/
theorem Chip.fld_bump (m : Chip) (r : RName) (i n : Nat) {hi lo : Nat} (h : lo ≤ hi) (hh : hi < 32) :
    (m.bump r i hi lo n).fld r i hi lo = min (2 ^ (hi + 1 - lo) - 1) (m.fld r i hi lo + n) := by
  have hlt : min (2 ^ (hi + 1 - lo) - 1) (m.fld r i hi lo + n) < 2 ^ (hi + 1 - lo) :=
    Nat.lt_of_le_of_lt (Nat.min_le_left _ _) (Nat.sub_lt (Nat.two_pow_pos _) Nat.one_pos)
  rw [Chip.fld, Chip.bump, Chip.putF, Chip.get_put_self, bits_setBits _ _ h hh, satTo, Nat.mod_eq_of_lt hlt]

/-- A record beyond the owner's allowance is dropped and counted. -/
theorem Chip.kRec_full {m : Chip} {k : Nat} {code : BitVec 16} (h : m.mayIssue k (kIMM 0xB0 0 0 code.toNat))
    (hu : 2000000 < m.recLevel (m.strand k).owner + 31250) :
    m.kRec k code.toNat = (m.bump .layRecdrop 0 15 0 1).putStrand k ((m.strand k).told .efull 0).moved := by
  rw [Chip.kRec, Chip.issueNext_mayIssue _ h]
  exact (if_pos hu).trans (Chip.stepStatus_eq _ _ _ (by decide) rfl)

/-- A strand whose record has a place in the recorder's queue goes on with OK, and the record joins the queue. -/
theorem Chip.enqueue_stepStatus {m : Chip} (k : Nat) {r : Rec} (hq : m.rcd.queue.length < 256) :
    ((m.enqueue r none).stepStatus k id .ok).strand k = ((m.strand k).told .ok 0).moved ∧
      ((m.enqueue r none).stepStatus k id .ok).regs = m.regs ∧
      ((m.enqueue r none).stepStatus k id .ok).rcd.queue = m.rcd.queue ++ [{ rcd := r, deliv := none }] := by
  rw [Chip.enqueue, if_pos (by simpa [queueMax] using hq), Chip.stepStatus_eq _ _ _ (by decide) rfl]
  exact ⟨Chip.strand_putStrand_self .., rfl, rfl⟩

/-- Settles O27: a partner instruction takes a token and issues; rec is judged by its owner's allowance. -/
theorem knarinPartnerIssuesAndRecords : Obligations.KnarinPartnerIssuesAndRecords := by
  unfold Obligations.KnarinPartnerIssuesAndRecords
  refine ⟨fun s k d a item i h hi hj => completes_of (exec_pread k d a item s) (Chip.partner_issues h hi hj),
    fun s k d a b item i h hi hj => completes_of (exec_pwrite k d a b item s) (Chip.partner_issues h hi hj),
    fun s k d a item i h hi hj => completes_of (exec_pcmd k d a item s) (Chip.partner_issues h hi hj),
    fun s k d a b item i h hi hj => completes_of (exec_pblkr k d a b item s) (Chip.partner_issues h hi hj),
    fun s k d a b item i h hi hj => completes_of (exec_pblkw k d a b item s) (Chip.partner_issues h hi hj),
    fun s k d a b item i h hi hj => completes_of (exec_psetp k d a b item s) (Chip.partner_issues h hi hj),
    fun s k code h hu hq => ⟨_, completes_of (exec_recNote k code s) rfl, ?_⟩,
    fun s k code h hu => ⟨_, completes_of (exec_recNote k code s) (Chip.kRec_full h hu), Chip.strand_putStrand_self .., rfl,
      s.m.fld_bump .layRecdrop 0 1 (by decide) (by decide)⟩⟩
  rw [Chip.kRec, Chip.issueNext_mayIssue _ h, Nat.mod_eq_of_lt code.isLt]
  dsimp only
  rw [if_neg (by omega)]
  exact Chip.enqueue_stepStatus k hq

end Sys2Proof.Machine
end

section
/-!
PROOFS. The strand commands and the bundle loader (R94, R119, R130 to R134, R138); the lanes, the ends of waits and the timer
(R95, R96, R106 to R110, R121, R158).
-/

namespace Sys2Proof.Machine

/-! ### Strand commands (R94, R138) -/

theorem bits_command_code {c : Nat} (k : Nat) (hc : c < 256) : bits (wd (c + k * 256)) 7 0 = c := by
  simp only [bits, wd, BitVec.toNat_ofNat]
  omega

theorem bits_command_strand {c k : Nat} (hc : c < 256) (hk : k < 256) : bits (wd (c + k * 256)) 15 8 = k := by
  simp only [bits, wd, BitVec.toNat_ofNat]
  omega

/-- What an accepted LAY_CMD of a code and a strand does. -/
theorem Chip.regAct_layCmd (m : Chip) (ag : Agent) {c k : Nat} (hc : c < 256) (hk : k < 256) :
    (m.regAct ag .layCmd 0 (wd (c + k * 256))).eff m = ((m.layDo c k).put .layCmdstat 0 (wd (c * 256)), .ok) := by
  have he : (m.regAct ag .layCmd 0 (wd (c + k * 256))).eff m =
      ((m.layDo (bits (wd (c + k * 256)) 7 0) (bits (wd (c + k * 256)) 15 8)).layStatus .ok
        (bits (wd (c + k * 256)) 7 0), .ok) := rfl
  rw [he, bits_command_code k hc, bits_command_strand hc hk, Chip.layStatus]
  simp [Status.code]

/-- A strand command is a write of LAY_CMD. -/
theorem writeRow_layCommand {i : Agent → Instr} {c k : Nat} {f : Agent → Chip → Chip}
    (hx : ∀ ag s, exec (i ag) s = s.finish (s.m.layCommand ag c k)) (hc : c < 256) (hk : k < 256)
    (hf : ∀ ag m, f ag m = (m.layDo c k).put .layCmdstat 0 (wd (c * 256))) :
    WriteRow i .layCmd 0 (wd (c + k * 256)) f :=
  writeRow_of hx targetOf_layCmd fun ag m => by rw [m.regAct_layCmd ag hc hk, hf]

theorem Owner.code_lt (o : Owner) : Owner.code o < 256 := by cases o <;> decide

/-- HALT_OWNER names the owner by its code. -/
theorem Chip.layDo_haltOwner (m : Chip) (o : Owner) : m.layDo 7 (Owner.code o) = m.haltOwner o := by
  cases o <;> rfl

/-- A fresh context that is made READY (R93, R94). -/
theorem Chip.strand_strandFresh (m : Chip) (k : Nat) : (m.strandFresh k).strand k =
    { m.strand k with
      regs := NTab.set 0 [] 0 (m.get .layArg k), z := false, n := false, c := false, v := false,
      pc := m.fld .layEntry k 18 0, locals := [], period := 0, tick := false, missed := 0 } := by
  rw [Chip.strandFresh, Chip.strand_putStrand_self]

/-- A live strand on no held access is halted at once. -/
theorem Chip.strandHalt_live {m : Chip} {k : Nat} (ha : (m.strand k).onAccess = false)
    (hl : (m.strand k).st = .ready ∨ (m.strand k).st = .running ∨ (m.strand k).st = .waiting) :
    m.strandHalt k = m.strandEnd k .halted 2 := by
  rw [Chip.strandHalt, if_neg (by simp [ha]), if_pos (by simpa [or_assoc] using hl)]

/-! ### Bundles (R130 to R134) -/

/-- A granted write of a register, by a command of its own, completes with the effect and the status that the register's block
gives it. -/
theorem completes_regWrite_status {i : Instr} {s : State} {ag : Agent} {r : RName} {n : Nat} {d : Word} {m' : Chip}
    {st : Status} (hx : exec i s = s.finish (s.m.regWrite ag r n d)) (ht : targetOf (r.addr n) = .reg r n)
    (hg : s.m.grants ag (r.addr n) d) (he : (s.m.regAct ag r n d).eff s.m = (m', st)) :
    Completes i s (s.m.written m' ag (r.addr n) st) := by
  rw [Completes, hx, Chip.regWrite, Chip.portWrite_granted hg]
  simp only [Chip.writeAct, ht, he]
  rfl

/-- A granted LAY_BLD_DATA comes from the port whose load is open. -/
theorem Chip.grants.loaderPort_eq {m : Chip} {ag : Agent} {d : Word} {l : Load}
    (hg : m.grants ag (RName.addr .layBldData 0) d) (hl : m.lay.load = some l) : loaderPort ag = some l.port := by
  have hs := hg.writeAct_estate
  rw [Chip.writeAct, targetOf_layBldData] at hs
  replace hs : (!m.loading (loaderPort ag)) = false := hs
  have hp : some l.port = loaderPort ag := by simpa [Chip.loading, hl] using hs
  exact hp.symm

/-- A word within the region's size joins the open load. -/
theorem Chip.bundleWord_room {m : Chip} {l : Load} (d : Word) (hl : m.lay.load = some l)
    (hn : 4 * l.words.length < (regionOf l.port).2) : m.bundleWord l.port d =
      ({ m with lay := { m.lay with load := some { l with words := d :: l.words }, bldCount := m.lay.bldCount + 1 } }, .ok) := by
  simp only [Chip.bundleWord, hl, if_neg (Nat.not_le.2 hn)]

theorem Chip.regAct_layBldData {m : Chip} {ag : Agent} {o : Owner} (d : Word) (hp : loaderPort ag = some o) :
    (m.regAct ag .layBldData 0 d).eff m = m.bundleWord o d := by
  show m.bundleWord ((loaderPort ag).getD .vendor) d = _
  rw [hp]
  rfl

/-- A COMMIT whose words pass every check places the bundle. -/
theorem Chip.bundleCommit_ok {m : Chip} {l : Load} (hl : m.lay.load = some l)
    (hs : m.bundleStatus l.port l.words.reverse = .ok) :
    m.bundleCommit = ((m.loadEnd.bldStatus .ok).placeBundle l.port l.words.reverse, .ok) := by
  simp only [Chip.bundleCommit, hl, hs, if_true]

/-- A COMMIT whose words fail a check places nothing. -/
theorem Chip.bundleCommit_fails {m : Chip} {l : Load} (hl : m.lay.load = some l)
    (hs : m.bundleStatus l.port l.words.reverse ≠ .ok) :
    m.bundleCommit =
      (m.loadEnd.bldStatus (m.bundleStatus l.port l.words.reverse), m.bundleStatus l.port l.words.reverse) := by
  simp only [Chip.bundleCommit, hl, if_neg hs]

/-- Settles O30: each strand command is a row of `Chip.layDo`, and each loader command one of `bldCtlAct` and `bldDataAct`. -/
theorem strandsAndBundles : Obligations.StrandsAndBundles := by
  refine ⟨fun k => writeRow_layCommand (fun _ _ => exec_strandStart ..) (by decide) k.isLt fun _ _ => rfl,
    fun k => writeRow_layCommand (fun _ _ => exec_strandHalt ..) (by decide) k.isLt fun _ _ => rfl,
    fun k => writeRow_layCommand (fun _ _ => exec_strandResume ..) (by decide) k.isLt fun _ _ => rfl,
    fun k => writeRow_layCommand (fun _ _ => exec_strandRestart ..) (by decide) k.isLt fun _ _ => rfl,
    fun k => writeRow_layCommand (fun _ _ => exec_strandFree ..) (by decide) k.isLt fun _ _ => rfl,
    fun k => writeRow_layCommand (fun _ _ => exec_strandUnfence ..) (by decide) k.isLt fun _ _ => rfl,
    fun o => writeRow_layCommand (fun _ _ => exec_haltOwner ..) (by decide) (Owner.code_lt o) fun _ m => ?_,
    fun m k => ?_, fun m k ha hl => ?_,
    fun s hg => completes_regWrite_status (exec_bundleBegin ..) targetOf_layBldCtl hg rfl,
    fun s hg => completes_regWrite_status (exec_bundleBegin ..) targetOf_layBldCtl hg rfl,
    fun s ag d l hg hl hn => ?_, fun s ag l hg hl hs => ?_, fun s ag l st hg hl hs hne => ?_,
    writeRow_of (fun _ _ => rfl) targetOf_layBldCtl (fun _ _ => rfl)⟩
  · rw [Chip.layDo_haltOwner]
  · rw [Chip.strand_strandReady, Chip.strand_strandFresh]
  · rw [Chip.strandHalt_live ha hl, Chip.strand_strandEnd]
    exact ⟨rfl, rfl⟩
  · refine completes_regWrite_status (exec_bundleData ..) targetOf_layBldData hg ?_
    rw [Chip.regAct_layBldData d (hg.loaderPort_eq hl), Chip.bundleWord_room d hl hn]
  · exact completes_regWrite_status (exec_bundleCommit ..) targetOf_layBldCtl hg (Chip.bundleCommit_ok hl hs)
  · subst hs
    exact completes_regWrite_status (exec_bundleCommit ..) targetOf_layBldCtl hg (Chip.bundleCommit_fails hl hne)

/-! ### Lanes (R95, R96, R121) -/

theorem Chip.assignLane_none {m : Chip} (h : m.nextReady = none) : m.assignLane = m := by
  rw [Chip.assignLane, h]

/-- A free lane goes to the READY strand that is next. -/
theorem Chip.assignLane_free {m : Chip} {k : Nat} (h : m.nextReady = some k) (hr : m.running.length < 4) :
    m.assignLane = m.takeLane k := by
  simp only [Chip.assignLane, h, if_pos hr]

/-- A strand that has used its slice makes room for one that waits at its priority. -/
theorem Chip.sliceEnd_used {m : Chip} {k : Nat} (hr : (m.strand k).st = .running)
    (hs : m.fld .layCfg 0 16 4 ≤ (m.strand k).slice) (hq : ∃ j ∈ m.lay.queue, (m.strand j).prio = (m.strand k).runPrio) :
    m.sliceEnd k = (m.putStrand k { m.strand k with st := .ready, keep := true }).queueBack k := by
  have ha : m.lay.queue.any (fun j => (m.strand j).prio = (m.strand k).runPrio) = true := by simpa using hq
  rw [Chip.sliceEnd, if_pos (by simp [hr, hs, ha])]
  rfl

theorem Chip.budgetFault_used {m : Chip} {k : Nat} (hr : (m.strand k).st = .running)
    (hb : m.fld .layBudget k 20 0 ≤ (m.strand k).act) : m.budgetFault k = m.strandFault k 0 [] := by
  rw [Chip.budgetFault, if_pos (by simp [hr, Chip.overBudget, hb])]

/-! ### Ends of waits (R106 to R110, R158) -/

/-- A met wait writes its results, and the strand is READY after it. -/
theorem Chip.waitWake_met {m : Chip} {k : Nat} {w : WaitOn} (hs : (m.strand k).st = .waiting)
    (hw : (m.strand k).wait = some w) (hd : w ≠ .delay) (hm : m.waitMet k w = true) :
    m.waitWake k = ((m.waitTake k w).pcNext k).strandReady k := by
  rw [Chip.waitWake, if_neg (by simp [hs]), hw]
  cases w with
  | delay => exact absurd rfl hd
  | tick | line | token | mbox | access => exact if_pos hm

/-- A delay ends when its time has passed. -/
theorem Chip.waitWake_delay {m : Chip} {k : Nat} (hs : (m.strand k).st = .waiting) (hw : (m.strand k).wait = some .delay) :
    m.waitWake k =
      (((m.elapse (m.strand k).waitAt (m.strand k).timeout).waitTake k .delay).pcNext k).strandReady k := by
  rw [Chip.waitWake, if_neg (by simp [hs]), hw]

/-- The wait for a line whose count has not moved on times out (R108). -/
theorem Chip.waitTimeout_line {m : Chip} {k l d : Nat} {n : Word} (hs : (m.strand k).st = .waiting)
    (ht : (m.strand k).timeout ≠ 0) (hw : (m.strand k).wait = some (.line l n d)) (hn : m.get .layEvline l = n) :
    m.waitTimeout k = (((m.elapse (m.strand k).waitAt (m.strand k).timeout).putStrand k
      ((m.strand k).told .etimeout 7)).pcNext k).strandReady k := by
  have hm : (m.elapse (m.strand k).waitAt (m.strand k).timeout).waitMet k (.line l n d) = false := by
    simp only [Chip.waitMet, bne_eq_false_iff_eq]
    exact hn
  rw [Chip.waitTimeout, if_neg (by simp [hs, ht]), hw]
  exact (if_neg Bool.false_ne_true).trans (if_neg (by simp [hm]))

theorem Chip.elapse_reaches (m : Chip) (t d : Nat) : t + d ≤ (m.elapse t d).now := by
  show t + d ≤ m.now + (t + d - m.now)
  omega

theorem Strand.reg_told (s : Strand) (st : Status) (wake : Nat) :
    (s.told st wake).reg 14 = BitVec.ofNat 32 (wake * 256 + st.code) := NTab.get_set_self ..

theorem Strand.reg_told_ne (s : Strand) (st : Status) (wake : Nat) {r : Nat} (h : r ≠ 14) :
    (s.told st wake).reg r = s.reg r := NTab.get_set_ne _ _ _ h

/-- A timed-out strand: ETIMEOUT with WAKE 0x7, the PC past the wait. -/
theorem Chip.strand_timedOut (m : Chip) (k : Nat) (t : Strand) :
    (((m.putStrand k t).pcNext k).strandReady k).strand k =
      { t with pc := t.pc + 4, st := .ready, wait := none, act := 0, keep := false, slice := 0, after := [] } := by
  rw [Chip.strand_strandReady, Chip.pcNext, Chip.strand_putStrand_self, Chip.strand_putStrand_self]

theorem Chip.strandOnly_timedOut (m : Chip) (k : Nat) (t : Strand) :
    m.strandOnly (((m.putStrand k t).pcNext k).strandReady k) k :=
  ((Chip.strandOnly_putStrand ..).trans (Chip.strandOnly_putStrand ..)).trans (Chip.strandOnly_strandReady ..)

/-- A timer tick is pending, or counted as missed when one already is (R110). -/
theorem Chip.timerTick_armed {m : Chip} {k : Nat} (hs : (m.strand k).st ≠ .free) (hp : (m.strand k).period ≠ 0) :
    m.timerTick k = (m.elapse (m.strand k).timerAt (m.strand k).period).putStrand k
      { m.strand k with
        timerAt := (m.strand k).timerAt + (m.strand k).period, tick := true,
        missed := if (m.strand k).tick then min (2 ^ 32 - 1) ((m.strand k).missed + 1) else (m.strand k).missed } := by
  rw [Chip.timerTick, if_neg (by simp [hs, hp])]
  rfl

/-- Settles O31: each row of a lane, a wait or a timer acts in the state it names. -/
theorem lanesAndTimers : Obligations.LanesAndTimers := by
  refine ⟨fun s => completes_of (exec_strandDispatch s) rfl, fun m k => Chip.assignLane_free, fun m => Chip.assignLane_none,
    fun s k hr hs hq => completes_of (exec_sliceEnd k s) (Chip.sliceEnd_used hr hs hq),
    fun s k hr hb => completes_of (exec_strandBudget k s) (Chip.budgetFault_used hr hb),
    fun s k w hs hw hd hm => completes_of (exec_waitWake k s) (Chip.waitWake_met hs hw hd hm),
    fun s k hs hw => completes_of (exec_waitWake k s) (Chip.waitWake_delay hs hw),
    fun s k l n d hs ht hw hn => ⟨_, completes_of (exec_waitTimeout k s) (Chip.waitTimeout_line hs ht hw hn), ?_⟩,
    fun s k hs hp => completes_of (exec_strandTimerTick k s) (Chip.timerTick_armed hs hp)⟩
  obtain ⟨hother, -⟩ := Chip.strandOnly_timedOut (s.m.elapse (s.m.strand k).waitAt (s.m.strand k).timeout) k
    ((s.m.strand k).told .etimeout 7)
  rw [Chip.strand_timedOut]
  exact ⟨rfl, (s.m.strand k).reg_told .etimeout 7, rfl, fun _ hr => (s.m.strand k).reg_told_ne .etimeout 7 hr,
    s.m.elapse_reaches _ _, hother, rfl⟩

end Sys2Proof.Machine
end

section
/-!
PROOFS. The Knarin instructions over registers, flags and system values: sums and differences, logic and moves, shifts, saturation
and division, bit fields, and sysr (R141, R145 to R147, R150 to R152).
-/

namespace Sys2Proof.Machine

/-! ### Operations on one strand -/

/-- An instruction over the strand's registers and flags is the row `g` that its operation `f` computes. -/
theorem strandRow_of {i : Instr} {k : Nat} {w : Word} {f g : Strand → Strand}
    (hx : ∀ s, exec i s = s.finish (s.m.kOp k w f)) (hf : ∀ t, f t = g t) (hp : ∀ t, (g t).pc = t.pc) :
    StrandRow i k w g := by
  obtain rfl : f = g := funext hf
  exact fun s h => completes_of (hx s) (Chip.kOp_mayIssue f h (hp _))

/-! ### Bits and flags (R146) -/

theorem bitOf_eq (w : Word) (k : Nat) : bitOf w k = w.getLsbD k := by
  rw [BitVec.getLsbD, Nat.testBit_eq_decide_div_mod_eq, bitOf, bits, Nat.add_sub_cancel_left]
  rfl

theorem bitOf_msb (w : Word) : bitOf w 31 = w.msb := by
  rw [bitOf_eq, BitVec.msb_eq_getLsbD_last]

theorem Strand.zn_eq (s : Strand) (r : Word) : s.zn r = s.flags (r == 0) r.msb s.c s.v := by
  rw [Strand.zn, bitOf_msb]
  rfl

theorem Strand.logic_eq (s : Strand) (d : Nat) (r : Word) : s.logic d r = s.zeroNeg d r := by
  rw [Strand.logic, Strand.zn_eq, Strand.dst_result, Strand.zeroNeg]

theorem Strand.withV_eq (s : Strand) (d : Nat) (r : Word) (v : Bool) : s.withV d r v = s.saturated d r v := by
  rw [Strand.withV, Strand.zn_eq, Strand.dst_result]
  rfl

/-- An integer overflows exactly when the word it is cut to reads otherwise. -/
theorem overflows_eq (t : Int) : overflows t = (t != (BitVec.ofInt 32 t).toInt) := by
  rw [Bool.eq_iff_iff, BitVec.toInt_ofInt, Int.bmod_def]
  simp only [overflows, Bool.or_eq_true, decide_eq_true_eq, bne_iff_ne]
  split <;> omega

/-! ### Sums and differences -/

theorem sumWord_eq (x y : Word) (c : Nat) : wd (x.toNat + y.toNat + c) = x + y + BitVec.ofNat 32 c := by
  simp [wd, BitVec.ofNat_add]

theorem sumWord_ofInt (x y : Word) (c : Nat) : x + y + BitVec.ofNat 32 c = BitVec.ofInt 32 (x.toInt + y.toInt + c) := by
  simp [BitVec.ofInt_add]

theorem diffWord_eq (x y : Word) (c : Nat) :
    wdI ((x.toNat : Int) - y.toNat - c) = x - y - BitVec.ofNat 32 c := by
  simp [wdI, Int.sub_eq_add_neg, BitVec.sub_eq_add_neg, BitVec.ofInt_add, BitVec.ofInt_neg]

theorem diffWord_ofInt (x y : Word) (c : Nat) : x - y - BitVec.ofNat 32 c = BitVec.ofInt 32 (x.toInt - y.toInt - c) := by
  simp [Int.sub_eq_add_neg, BitVec.sub_eq_add_neg, BitVec.ofInt_add, BitVec.ofInt_neg]

theorem Strand.addFlags_eq (s : Strand) (x y : Word) (c : Nat) :
    s.addFlags x y c = (x + y + BitVec.ofNat 32 c, s.sumFlags x y c) := by
  simp only [Strand.addFlags, Strand.sumFlags, sumWord_eq, Strand.zn_eq, overflows_eq, ← sumWord_ofInt]
  rfl

theorem Strand.subFlags_eq (s : Strand) (x y : Word) (c : Nat) :
    s.subFlags x y c = (x - y - BitVec.ofNat 32 c, s.diffFlags x y c) := by
  simp only [Strand.subFlags, Strand.diffFlags, diffWord_eq, Strand.zn_eq, overflows_eq, ← diffWord_ofInt]
  rfl

theorem Strand.take_addFlags (s : Strand) (d : Nat) (x y : Word) (c : Nat) :
    Strand.take d (s.addFlags x y c) = (s.sumFlags x y c).result d (x + y + BitVec.ofNat 32 c) := by
  rw [Strand.addFlags_eq, Strand.take, Strand.dst_result]

theorem Strand.take_subFlags (s : Strand) (d : Nat) (x y : Word) (c : Nat) :
    Strand.take d (s.subFlags x y c) = (s.diffFlags x y c).result d (x - y - BitVec.ofNat 32 c) := by
  rw [Strand.subFlags_eq, Strand.take, Strand.dst_result]

theorem Strand.take_addFlags_zero (s : Strand) (d : Nat) (x y : Word) :
    Strand.take d (s.addFlags x y 0) = (s.sumFlags x y 0).result d (x + y) := by
  rw [Strand.take_addFlags, BitVec.add_zero]

theorem Strand.take_subFlags_zero (s : Strand) (d : Nat) (x y : Word) :
    Strand.take d (s.subFlags x y 0) = (s.diffFlags x y 0).result d (x - y) := by
  rw [Strand.take_subFlags, BitVec.sub_zero]

theorem Strand.snd_subFlags (s : Strand) (x y : Word) (c : Nat) : (s.subFlags x y c).2 = s.diffFlags x y c := by
  rw [Strand.subFlags_eq]

/-- Settles O8: a sum or difference in the integers gives the word, the carry and the overflow. -/
theorem knarinSumsAndDifferences : Obligations.KnarinSumsAndDifferences := by
  unfold Obligations.KnarinSumsAndDifferences
  exact ⟨fun k d a b => strandRow_of (exec_add k d a b) (fun t => t.take_addFlags_zero ..) fun _ => rfl,
    fun k d a b => strandRow_of (exec_adc k d a b) (fun t => t.take_addFlags ..) fun _ => rfl,
    fun k d a imm => strandRow_of (exec_addi k d a imm)
      (fun t => (t.take_addFlags_zero ..).trans (by rw [sext16_toNat])) fun _ => rfl,
    fun k d a b => strandRow_of (exec_sub k d a b) (fun t => t.take_subFlags_zero ..) fun _ => rfl,
    fun k d a b => strandRow_of (exec_sbc k d a b) (fun t => t.take_subFlags ..) fun _ => rfl,
    fun k d a => strandRow_of (exec_neg k d a) (fun t => t.take_subFlags_zero ..) fun _ => rfl,
    fun k a b => strandRow_of (exec_cmp k a b) (fun t => t.snd_subFlags ..) fun _ => rfl,
    fun k a imm => strandRow_of (exec_cmpi k a imm)
      (fun t => (t.snd_subFlags ..).trans (by rw [sext16_toNat])) fun _ => rfl⟩

/-! ### Logic and moves -/

/-- The high half of a 64-bit image is the image of the quotient. -/
theorem extractLsb'_ofInt_high (t : Int) :
    (BitVec.ofInt 64 t).extractLsb' 32 32 = BitVec.ofInt 32 (t / 4294967296) := by
  apply BitVec.eq_of_toNat_eq
  simp only [BitVec.extractLsb'_toNat, BitVec.toNat_ofInt, Nat.shiftRight_eq_div_pow]
  omega

/-- The high word of the signed product (R146). -/
theorem mulhWord_eq (x y : Word) :
    wdI ((sw x * sw y).fdiv 4294967296) = (x.signExtend 64 * y.signExtend 64).extractLsb' 32 32 := by
  rw [BitVec.signExtend, BitVec.signExtend, ← BitVec.ofInt_mul, extractLsb'_ofInt_high, wdI,
    Int.fdiv_eq_ediv_of_nonneg _ (by decide)]
  rfl

theorem slt_iff_sw_lt (x y : Word) : x.slt y = true ↔ sw x < sw y := BitVec.slt_iff_toInt_lt

theorem minWord_eq (x y : Word) : (if sw x ≤ sw y then x else y) = if y.slt x then y else x := by
  simp only [slt_iff_sw_lt, ← Int.not_lt, ite_not]

/-- Of two words that read the same, either is the maximum. -/
theorem maxWord_eq (x y : Word) : (if sw x ≤ sw y then y else x) = if x.slt y then y else x := by
  simp only [slt_iff_sw_lt]
  rcases lt_trichotomy (sw x) (sw y) with h | h | h
  · rw [if_pos h.le, if_pos h]
  · rw [if_pos h.le, if_neg h.not_lt, BitVec.eq_of_toInt_eq h]
  · rw [if_neg h.not_ge, if_neg h.not_gt]

theorem zeroExtend_imm (imm : BitVec 16) : wd (imm.toNat % 65536) = imm.zeroExtend 32 := by
  rw [Nat.mod_eq_of_lt imm.isLt, wd, BitVec.ofNat_toNat]

theorem sext20_toNat (x : BitVec 20) : wdI (sxN x.toNat 20) = x.signExtend 32 := by
  rw [sxN_toNat, wdI, BitVec.signExtend]

/-- movhi keeps the low half (R141). -/
theorem movhiWord_eq (imm : BitVec 16) (x : Word) :
    wd (imm.toNat % 65536 * 65536 + bits x 15 0) = imm ++ x.extractLsb' 0 16 := by
  have hi := imm.isLt
  apply BitVec.eq_of_toNat_eq
  rw [BitVec.toNat_append, BitVec.extractLsb'_toNat, ← Nat.shiftLeft_add_eq_or_of_lt (Nat.mod_lt _ (by decide))]
  simp only [bits, wd, BitVec.toNat_ofNat, Nat.shiftLeft_eq, Nat.shiftRight_zero]
  omega

/-- Settles O9: each of these instructions computes a word of the two it reads. -/
theorem knarinLogicAndMoves : Obligations.KnarinLogicAndMoves := by
  unfold Obligations.KnarinLogicAndMoves
  exact ⟨fun k d a b => strandRow_of (exec_andK k d a b) (fun t => t.logic_eq ..) fun _ => rfl,
    fun k d a b => strandRow_of (exec_orK k d a b) (fun t => t.logic_eq ..) fun _ => rfl,
    fun k d a b => strandRow_of (exec_xorK k d a b) (fun t => t.logic_eq ..) fun _ => rfl,
    fun k d a b => strandRow_of (exec_bic k d a b) (fun t => t.logic_eq ..) fun _ => rfl,
    fun k d a => strandRow_of (exec_notK k d a) (fun t => t.logic_eq ..) fun _ => rfl,
    fun k d a imm => strandRow_of (exec_andi k d a imm)
      (fun t => (t.logic_eq ..).trans (by rw [zeroExtend_imm])) fun _ => rfl,
    fun k d a imm => strandRow_of (exec_ori k d a imm)
      (fun t => (t.logic_eq ..).trans (by rw [zeroExtend_imm])) fun _ => rfl,
    fun k d a imm => strandRow_of (exec_xori k d a imm)
      (fun t => (t.logic_eq ..).trans (by rw [zeroExtend_imm])) fun _ => rfl,
    fun k d a b => strandRow_of (exec_mul k d a b) (fun t => t.logic_eq ..) fun _ => rfl,
    fun k d a b => strandRow_of (exec_mulh k d a b)
      (fun t => (t.logic_eq ..).trans (by rw [mulhWord_eq])) fun _ => rfl,
    fun k d a b => strandRow_of (exec_minK k d a b)
      (fun t => (t.logic_eq ..).trans (by rw [minWord_eq])) fun _ => rfl,
    fun k d a b => strandRow_of (exec_maxK k d a b)
      (fun t => (t.logic_eq ..).trans (by rw [maxWord_eq])) fun _ => rfl,
    fun k a b => strandRow_of (exec_tst k a b) (fun t => t.zn_eq _) fun _ => rfl,
    fun k d a => strandRow_of (exec_mov k d a) (fun t => t.dst_result ..) fun _ => rfl,
    fun k d imm => strandRow_of (exec_movi k d imm)
      (fun t => (t.dst_result ..).trans (by rw [sext20_toNat])) fun _ => rfl,
    fun k d imm => strandRow_of (exec_movhi k d imm)
      (fun t => (t.dst_result ..).trans (by rw [movhiWord_eq])) fun _ => rfl⟩

/-! ### Shifts -/

theorem bits_amount (y : Word) : bits y 4 0 = y.toNat % 32 := by
  simp [bits]

/-- A shift of one of the three kinds. -/
theorem Strand.shift_eq (s : Strand) (q : ShiftKind) (d : Nat) (x : Word) (n : Nat) :
    s.shift q d x n = s.shifted d (shiftWord q x n) n (x.getLsbD (if q = .left then 32 - n else n - 1)) := by
  have hout : (if q = .left then bitOf x (32 - n) else bitOf x (n - 1)) =
      x.getLsbD (if q = .left then 32 - n else n - 1) := by
    split <;> exact bitOf_eq ..
  rw [Strand.shift, hout, Strand.zn_eq, Strand.dst_result]
  rfl

section
variable {i : Instr} {k d a b op : Nat} {q : ShiftKind}

/-- A shift by a register takes the low five bits of it. -/
theorem strandRow_shiftReg
    (hx : ∀ s, exec i s = s.finish (s.m.kAlu op k d a b (fun s x y => s.shift q d x (bits y 4 0)))) :
    StrandRow i k (kREG op d a b 0 0) (fun s => s.shifted d (shiftWord q (s.reg a) ((s.reg b).toNat % 32))
      ((s.reg b).toNat % 32) ((s.reg a).getLsbD (if q = .left then 32 - (s.reg b).toNat % 32 else (s.reg b).toNat % 32 - 1))) :=
  strandRow_of hx (fun t => (t.shift_eq ..).trans (by rw [bits_amount])) fun _ => rfl

/-- A shift by an immediate. -/
theorem strandRow_shiftImm {n : Fin 32}
    (hx : ∀ s, exec i s = s.finish (s.m.kImm op k d a (n % 32) (fun s x => s.shift q d x (n % 32)))) :
    StrandRow i k (kIMM op d a n) (fun s => s.shifted d (shiftWord q (s.reg a) n) n
      ((s.reg a).getLsbD (if q = .left then 32 - n else n - 1))) := by
  rw [Nat.mod_eq_of_lt n.isLt] at hx
  exact strandRow_of hx (fun t => t.shift_eq ..) fun _ => rfl

end

/-- Settles O10: the six shifts are three kinds, each by a register or by an immediate. -/
theorem knarinShifts : Obligations.KnarinShifts := by
  unfold Obligations.KnarinShifts
  exact ⟨fun k d a b => strandRow_shiftReg (q := .left) (exec_shl k d a b),
    fun k d a b => strandRow_shiftReg (q := .right) (exec_shr k d a b),
    fun k d a b => strandRow_shiftReg (q := .arith) (exec_sar k d a b),
    fun k d a n => strandRow_shiftImm (q := .left) (exec_shli k d a n),
    fun k d a n => strandRow_shiftImm (q := .right) (exec_shri k d a n),
    fun k d a n => strandRow_shiftImm (q := .arith) (exec_sari k d a n)⟩

/-! ### Saturation and division (R151) -/

theorem sat32_eq (t : Int) : sat32 t = (BitVec.ofInt 32 (clamp32 t), clamp32 t != t) := rfl

theorem qmulWord_eq (x y : Word) : qmulWord x y = sat32 ((x.toInt * y.toInt + 2 ^ 23) / 2 ^ 24) := by
  rw [qmulWord, Int.fdiv_eq_ediv_of_nonneg _ (by decide)]
  rfl

theorem divuWord_eq (x y : Word) : divuWord x y = if y = 0 then (0xFFFFFFFF, true) else (x / y, false) := by
  have hq : wd (x.toNat / y.toNat) = x / y := by
    rw [wd, ← BitVec.toNat_udiv, BitVec.ofNat_toNat, BitVec.setWidth_eq]
  simp only [divuWord, hq, beq_iff_eq]

theorem divWord_eq (x y : Word) :
    divWord x y =
      if y = 0 then (if x.msb then 0x80000000 else 0x7FFFFFFF, true)
      else if x = 0x80000000 ∧ y = 0xFFFFFFFF then (0x7FFFFFFF, true)
      else (BitVec.ofInt 32 (x.toInt.tdiv y.toInt), false) := by
  simp only [divWord, BitVec.msb_eq_toInt, decide_eq_true_eq, beq_iff_eq, Bool.and_eq_true]
  rfl

/-- Settles O11: the exact value is clamped, and a quotient that no word holds is substituted. -/
theorem knarinSaturatingAndDivide : Obligations.KnarinSaturatingAndDivide := by
  unfold Obligations.KnarinSaturatingAndDivide
  refine ⟨fun k d a b => strandRow_of (exec_sadd k d a b) (fun t => t.withV_eq ..) fun _ => rfl,
    fun k d a b => strandRow_of (exec_ssub k d a b) (fun t => t.withV_eq ..) fun _ => rfl,
    fun k d a b => strandRow_of (exec_qmul k d a b) (fun t => (t.withV_eq ..).trans (by rw [qmulWord_eq, sat32_eq])) fun _ => rfl,
    fun k d a b => strandRow_of (exec_divu k d a b) (fun t => (t.withV_eq ..).trans ?_) fun t => ?_,
    fun k d a b => strandRow_of (exec_divK k d a b) (fun t => (t.withV_eq ..).trans ?_) fun t => ?_⟩
  · rw [divuWord_eq]
    split <;> rfl
  · split <;> rfl
  · rw [divWord_eq]
    split
    · rfl
    · split <;> rfl
  · split
    · rfl
    · split <;> rfl

/-! ### Bit fields (R152) -/

theorem fieldOf_lt (x : Word) (pos wm1 : Fin 32) : fieldOf x pos wm1 < 2 ^ (wm1.val + 1) := by
  rw [fieldOf, Nat.mod_eq_of_lt wm1.isLt]
  exact Nat.mod_lt _ (Nat.two_pow_pos _)

theorem testBit_fieldOf (x : Word) (pos wm1 : Fin 32) (i : Nat) :
    (fieldOf x pos wm1).testBit i = (decide (i ≤ wm1.val) && x.getLsbD (pos + i)) := by
  rw [fieldOf, Nat.mod_eq_of_lt pos.isLt, Nat.mod_eq_of_lt wm1.isLt, Nat.testBit_mod_two_pow, Nat.testBit_div_two_pow,
    Nat.add_comm i, BitVec.testBit_toNat, decide_eq_decide.2 Nat.lt_succ_iff]

theorem getLsbD_wd (n i : Nat) (hi : i < 32) : (wd n).getLsbD i = n.testBit i := by
  rw [wd, BitVec.getLsbD_ofNat, decide_eq_true hi, Bool.true_and]

/-- The number whose bits from bit `L` to bit 31 are 1, and whose lower bits are those of `f`. -/
theorem testBit_signFill {f L : Nat} (hL : L ≤ 32) (hf : f < 2 ^ L) {i : Nat} (hi : i < 32) :
    (2 ^ 32 - 2 ^ L + f).testBit i = if i < L then f.testBit i else true := by
  have hs : 2 ^ 32 - 2 ^ L = 2 ^ L * (2 ^ (32 - L) - 1) := by
    rw [Nat.mul_sub_one, ← Nat.pow_add, Nat.add_sub_cancel' hL]
  rw [hs, Nat.testBit_two_pow_mul_add _ hf, Nat.testBit_two_pow_sub_one]
  split
  · rfl
  · exact decide_eq_true (by omega)

theorem getLsbD_fieldSigned (x : Word) (pos wm1 : Fin 32) {i : Nat} (hi : i < 32) :
    (fieldSigned x pos wm1).getLsbD i =
      if i ≤ wm1.val then x.getLsbD (pos + i) else x.getLsbD (min 31 (pos + wm1)) := by
  rw [fieldSigned, Nat.mod_eq_of_lt pos.isLt, Nat.mod_eq_of_lt wm1.isLt, bitOf_eq]
  cases hs : x.getLsbD (min 31 (pos + wm1))
  · rw [if_neg (by simp), getLsbD_wd _ _ hi, testBit_fieldOf]
    by_cases h : i ≤ wm1.val <;> simp [h]
  · rw [if_pos rfl, getLsbD_wd _ _ hi, testBit_signFill (by omega) (fieldOf_lt ..) hi, testBit_fieldOf]
    by_cases h : i ≤ wm1.val
    · simp [h, Nat.lt_succ_of_le h]
    · simp [h, show ¬i < wm1.val + 1 by omega]

/-- The bits of a mask of `l + 1` bits from bit `p` on. -/
theorem testBit_mask (l p i : Nat) : ((2 ^ (l + 1) - 1) * 2 ^ p).testBit i = decide (p ≤ i ∧ i ≤ p + l) := by
  rw [Nat.testBit_mul_two_pow, Nat.testBit_two_pow_sub_one, ← Bool.decide_and, decide_eq_decide]
  omega

theorem getLsbD_fieldInsert (y x : Word) (pos wm1 : Fin 32) {i : Nat} (hi : i < 32) :
    (fieldInsert y x pos wm1).getLsbD i =
      if pos.val ≤ i ∧ i ≤ pos + wm1 then x.getLsbD (i - pos) else y.getLsbD i := by
  rw [fieldInsert, Nat.mod_eq_of_lt pos.isLt, Nat.mod_eq_of_lt wm1.isLt, BitVec.getLsbD_or, BitVec.getLsbD_and,
    BitVec.getLsbD_and, BitVec.getLsbD_not, getLsbD_wd _ _ hi, getLsbD_wd _ _ hi, testBit_mask,
    Nat.testBit_mul_two_pow, Nat.testBit_mod_two_pow, BitVec.testBit_toNat]
  by_cases h : pos.val ≤ i ∧ i ≤ pos + wm1
  · simp [h, hi, show i - pos.val < wm1 + 1 by omega]
  · simp [h, hi]

/-- One more than the number of the highest bit below `k` of which `p` holds, or 0. -/
def topBit (p : Nat → Bool) (k : Nat) : Nat := (List.range k).foldl (fun a j => if p j then j + 1 else a) 0

theorem topBit_succ (p : Nat → Bool) (k : Nat) : topBit p (k + 1) = if p k then k + 1 else topBit p k := by
  rw [topBit, List.range_succ, List.foldl_append]
  rfl

/-- Bits of which `p` does not hold do not count. -/
theorem topBit_of_le {p : Nat → Bool} {j k : Nat} (hj : j ≤ k) (h : ∀ i, j ≤ i → i < k → p i = false) :
    topBit p k = topBit p j := by
  induction k, hj using Nat.le_induction with
  | base => rfl
  | succ k hk ih =>
    rw [topBit_succ, h k hk (Nat.lt_succ_self k), if_neg Bool.false_ne_true]
    exact ih fun i hi hik => h i hi (Nat.lt_succ_of_lt hik)

/-- A word of `n` leading zero bits: its `n` highest bits are 0 and the next one, if there is one, is 1. -/
theorem leadingZeros_eq {x : Word} {n : Nat} (hn : n ≤ 32) (hz : ∀ j < n, x.getLsbD (31 - j) = false)
    (ho : n < 32 → x.getLsbD (31 - n) = true) : leadingZeros x = n := by
  have htop : topBit (bitOf x) 32 = topBit (bitOf x) (32 - n) := topBit_of_le (by omega) fun i hi hi' => by
    have := hz (31 - i) (by omega)
    rwa [show 31 - (31 - i) = i by omega, ← bitOf_eq] at this
  have hlow : topBit (bitOf x) (32 - n) = 32 - n := by
    by_cases h : n < 32
    · rw [show 32 - n = 31 - n + 1 by omega, topBit_succ, bitOf_eq, ho h, if_pos rfl]
    · rw [show 32 - n = 0 by omega]
      rfl
  show 32 - topBit (bitOf x) 32 = n
  omega

/-- An instruction over the strand's registers and flags, in a state where the strand may issue it. -/
theorem completes_kOp {i : Instr} {s : State} {k : Nat} {w : Word} {f : Strand → Strand} {t : Strand}
    (hx : exec i s = s.finish (s.m.kOp k w f)) (h : s.m.mayIssue k w) (ht : f (s.m.strand k) = t)
    (hp : t.pc = (s.m.strand k).pc) : Completes i s (s.m.putStrand k t.moved) := by
  subst ht
  exact completes_of hx (Chip.kOp_mayIssue f h hp)

theorem fieldSpec_eq (pos wm1 : Fin 32) : fieldSpec pos wm1 = wm1 * 32 + pos := by
  rw [fieldSpec, Nat.mod_eq_of_lt pos.isLt, Nat.mod_eq_of_lt wm1.isLt]

/-- Settles O12: the word whose bits the statement gives is the word that the field operation computes. -/
theorem knarinBitFields : Obligations.KnarinBitFields := by
  unfold Obligations.KnarinBitFields
  refine ⟨fun s k d a pos wm1 r hr h => ?_, fun s k d a pos wm1 r hr h => ?_, fun s k d a pos wm1 r hr h => ?_,
    fun s k d a n hn hz ho h => ?_⟩
  · rw [← fieldSpec_eq] at h
    refine completes_kOp (exec_extu k d a pos wm1 s) h ?_ rfl
    have hw : wd (fieldOf ((s.m.strand k).reg a) pos wm1) = r := BitVec.eq_of_getLsbD_eq fun i hi => by
      rw [getLsbD_wd _ _ hi, testBit_fieldOf, hr i hi]
    exact (Strand.logic_eq ..).trans (by rw [hw])
  · rw [← fieldSpec_eq] at h
    refine completes_kOp (exec_exts k d a pos wm1 s) h ?_ rfl
    have hw : fieldSigned ((s.m.strand k).reg a) pos wm1 = r := BitVec.eq_of_getLsbD_eq fun i hi => by
      rw [getLsbD_fieldSigned _ _ _ hi, hr i hi]
    exact (Strand.logic_eq ..).trans (by rw [hw])
  · rw [← fieldSpec_eq] at h
    refine completes_kOp (exec_ins k d a pos wm1 s) h ?_ rfl
    have hw : fieldInsert ((s.m.strand k).reg d) ((s.m.strand k).reg a) pos wm1 = r := BitVec.eq_of_getLsbD_eq fun i hi => by
      rw [getLsbD_fieldInsert _ _ _ _ hi, hr i hi]
    exact (Strand.dst_result ..).trans (by rw [hw])
  · refine completes_kOp (exec_clz k d a s) h ?_ rfl
    exact (Strand.dst_result ..).trans (by rw [leadingZeros_eq hn hz ho]; rfl)

/-! ### System values (R150) -/

/-- sysr of a selector. -/
theorem Chip.kSysr_eq (m : Chip) (k d : Nat) (sel : Fin 9) : m.kSysr k d sel =
    m.kOp k (kREG 0x04 d 0 0 0 sel) (fun s =>
      if sel.val = 4 then { s.result d (m.sysValue k sel) with usecHi := m.now / 2 ^ 32 % 256 }
      else s.result d (m.sysValue k sel)) := by
  rw [Chip.kSysr, if_neg (by omega)]
  simp only [Strand.dst_result]

/-- What sysr leaves of the strand. -/
theorem completes_sysr {s : State} {k : Fin 256} {d : Fin 16} {sel : Fin 9} (h : s.m.mayIssue k (kREG 4 d 0 0 0 sel)) :
    Completes (.sysr k d sel) s (s.m.putStrand k (if sel.val = 4 then
        { (s.m.strand k).result d (s.m.sysValue k sel) with usecHi := s.m.now / 2 ^ 32 % 256 }
      else (s.m.strand k).result d (s.m.sysValue k sel)).moved) :=
  completes_kOp ((exec_sysr k d sel s).trans (by rw [Chip.kSysr_eq])) h rfl (by split <;> rfl)

/-- Settles O19: the value of each selector. -/
theorem knarinSystemValues : Obligations.KnarinSystemValues := by
  unfold Obligations.KnarinSystemValues
  exact ⟨fun s k d h => completes_sysr (sel := 0) h, fun s k d h => completes_sysr (sel := 1) h,
    fun s k d h => completes_sysr (sel := 2) h, fun s k d h => completes_sysr (sel := 3) h,
    fun s k d h => completes_sysr (sel := 4) h, fun s k d h => completes_sysr (sel := 5) h,
    fun s k d h => completes_sysr (sel := 6) h, fun s k d h => completes_sysr (sel := 7) h,
    fun s k d h => completes_sysr (sel := 8) h⟩

end Sys2Proof.Machine
end

section
/-!
PROOFS. The hand-over machine of the policy: each row in the state it names, and in any other (R256, R268, R274 to R280).
-/

namespace Sys2Proof.Machine

/-- A transition with its slots in order acts on them, stamps itself and writes RLIM (R256, R274). -/
theorem Chip.hoTo_vendorOk {m : Chip} (st : HoSt) (f : Chip → Chip) (h : m.vendorOk = true) :
    m.hoTo st f = Chip.rlimWrite { f m with pol := { (f m).pol with ho := st, hoAt := (f m).now } } := by
  rw [Chip.hoTo, if_pos h]

/-- The source is qualified once the dwell of its condition has passed (R268). -/
theorem Chip.srcQualified_elapse {m : Chip} {t : Nat} (h : m.pol.srcSince = some t) :
    (m.elapse t (m.fld .srcCfg 0 15 0 * 10000)).srcQualified = true := by
  have hs : (m.elapse t (m.fld .srcCfg 0 15 0 * 10000)).pol.srcSince = some t := h
  rw [Chip.srcQualified, hs]
  exact decide_eq_true (m.elapse_reaches t _)

theorem Chip.sourceQualified_since {m : Chip} {t : Nat} (h : m.pol.srcSince = some t) :
    m.sourceQualified = m.elapse t (m.fld .srcCfg 0 15 0 * 10000) := by
  rw [Chip.sourceQualified, h]

theorem Chip.sourceQualified_unmet {m : Chip} (h : m.pol.srcSince = none) : m.sourceQualified = m := by
  rw [Chip.sourceQualified, h]

theorem Chip.hoBackstop_lost {m : Chip} {t : Nat} (ht : m.pol.outHi = some t) (hh : m.pol.ho = .onsrc ∨ m.pol.ho = .antic)
    (hf : m.polFrozen = false) (hs : m.srcCondition = false) :
    m.hoBackstop = ((m.elapse t (m.fld .hoCfg 0 31 24 * 1000)).evalTick).handOver .handover 3 := by
  rw [Chip.hoBackstop, ht]
  exact if_pos (by simp [hh, hf, hs])

/-- In a state in which the machine waits for no backstop. -/
theorem Chip.hoBackstop_elsewhere {m : Chip} (h1 : m.pol.ho ≠ .onsrc) (h2 : m.pol.ho ≠ .antic) : m.hoBackstop = m := by
  unfold Chip.hoBackstop
  split
  · exact if_neg (by simp [h1, h2])
  · rfl

/-- HANDOVER ends in ONBATT after the wait that the rectifiers need (R274). -/
theorem Chip.hoDone_handover {m : Chip} {wait : Nat} (hh : m.pol.ho = .handover) (hf : m.polFrozen = false)
    (hw : (if m.rectsDown then if m.dslot.isSome then 0 else 2000 else m.fld .hoCfg 0 23 16 * 1000) = wait) :
    m.hoDone = ((m.elapse m.pol.hoAt wait).evalTick).hoTo .onbatt
      (fun m => ((m.rslotMode 2 0).eventRecord 207 0 []).event 207) := by
  rw [Chip.hoDone, if_pos (by simp [hh, hf]), ← hw]
  cases m.rectsDown <;> rfl

theorem Chip.hoDone_elsewhere {m : Chip} (h : m.pol.ho ≠ .handover) : m.hoDone = m :=
  if_neg (by simp [h])

theorem Chip.retStart_onbatt {m : Chip} {t : Nat} (hh : m.pol.ho = .onbatt) (hf : m.polFrozen = false)
    (ht : m.pol.srcSince = some t) :
    m.retStart =
      ((((m.elapse m.pol.hoAt (m.fld .hoCfg 0 15 0 * 1000)).elapse t
        (m.fld .srcCfg 0 15 0 * 10000)).evalTick).rampFrom0 false).hoTo .ret
          (fun m => ((m.gainsBack.rslotMode 0 0).eventRecord 208 0 []).event 208) := by
  rw [Chip.retStart, ht]
  exact if_pos (by simp [hh, hf])

theorem Chip.retStart_elsewhere {m : Chip} (h : m.pol.ho ≠ .onbatt) : m.retStart = m := by
  unfold Chip.retStart
  split
  · exact if_neg (by simp [h])
  · rfl

theorem Chip.retDone_ret {m : Chip} {t : Nat} (hh : m.pol.ho = .ret) (hf : m.polFrozen = false) (ht : m.pol.outLo = some t) :
    m.retDone = ((m.elapse (max t m.pol.hoAt) (m.fld .hoRet 0 31 16 * 1000)).evalTick).hoTo .onsrc
      (fun m => (((m.bslotSp m.backSp 0).eventRecord 209 0 []).event 209).openRecord 3) := by
  rw [Chip.retDone, ht]
  exact if_pos (by simp [hh, hf])

theorem Chip.retDone_elsewhere {m : Chip} (h : m.pol.ho ≠ .ret) : m.retDone = m := by
  unfold Chip.retDone
  split
  · exact if_neg (by simp [h])
  · rfl

/-- Settles O36: each row of the machine in the state it names, and in any other. -/
theorem policyHandOver : Obligations.PolicyHandOver := by
  refine ⟨fun s t ht => completes_of (exec_sourceQualified s) (Chip.sourceQualified_since ht),
    fun m t ht => Chip.srcQualified_elapse ht,
    fun s hn => completes_of (exec_sourceQualified s) (Chip.sourceQualified_unmet hn),
    writeRow_of (fun _ _ => rfl) targetOf_polCmd (fun _ _ => rfl),
    fun s t ht hh hf hs => completes_of (exec_hoBackstop s) (Chip.hoBackstop_lost ht hh hf hs),
    fun s h1 h2 => completes_of (exec_hoBackstop s) (Chip.hoBackstop_elsewhere h1 h2),
    fun s hh hf hr => completes_of (exec_hoDone s) (Chip.hoDone_handover hh hf (by simp only [hr, if_true])),
    fun s hh hf hr => completes_of (exec_hoDone s) (Chip.hoDone_handover hh hf (by simp only [hr, Bool.false_eq_true, if_false])),
    fun s h => completes_of (exec_hoDone s) (Chip.hoDone_elsewhere h),
    fun s t hh hf ht => completes_of (exec_retStart s) (Chip.retStart_onbatt hh hf ht),
    fun s h => completes_of (exec_retStart s) (Chip.retStart_elsewhere h),
    fun s t hh hf ht => completes_of (exec_retDone s) (Chip.retDone_ret hh hf ht),
    fun s h => completes_of (exec_retDone s) (Chip.retDone_elsewhere h),
    fun m st f h => Chip.hoTo_vendorOk st f h⟩

end Sys2Proof.Machine
end

section
/-!
PROOFS. Acquisition: a conversion result and the scan boundary, the reads that consume results, calibration and tracking (R167 to R185,
R404, R617).
-/

namespace Sys2Proof.Machine

/-- A number read as two's complement lies in the range of its width. -/
theorem sxN_bounds (n w : Nat) : -2 ^ w ≤ sxN n (w + 1) ∧ sxN n (w + 1) < 2 ^ w := by
  have hn : n % 2 ^ (w + 1) < 2 ^ (w + 1) := Nat.mod_lt _ (by positivity)
  have h2 : 2 ^ (w + 1) = 2 * 2 ^ w := by rw [Nat.pow_succ, Nat.mul_comm]
  have hc : ((2 ^ w : Nat) : Int) = 2 ^ w := by norm_cast
  rw [sxN, Nat.add_sub_cancel, pow_succ (2 : Int), ← hc]
  split <;> omega

/-! ### Results and scan boundaries (R166 to R170) -/

section
variable {m : Chip} {n c : Nat} (raw sub : Nat)

/-- A result of the channel that its converter converts goes on from the consumers in ACQ to the capture units and the estimator. -/
theorem Chip.conversionRow_converts (hx : m.chExists c = true) (hc : m.converts n c = true) :
    m.conversionRow n c raw sub = ((m.conversionResult n c raw sub).capPace c).estSample c := by
  simp [Chip.conversionRow, Chip.when, hx, hc]

theorem Chip.conversionRow_notConverts (hc : m.converts n c = false) : m.conversionRow n c raw sub = m := by
  simp [Chip.conversionRow, Chip.conversionResult, Chip.when, hc]

/-- Within ACQ the result is written and kept, moves its converter, and then meets the comparators, the AC monitor and the queue
(R169). -/
theorem Chip.conversionResult_converts (hx : m.chExists c = true) (hc : m.converts n c = true) :
    m.conversionResult n c raw sub = (let code := m.resultCode n c raw
      let m := m.put .acqRes c (wd (b2n (m.chDiff c) * 2 ^ 18 +
        b2n (bitOf (m.get .acqRes c) 16 || bitOf (m.get .acqRes c) 17) * 2 ^ 17 + 2 ^ 16 + code))
      let m : Chip := { m with acq := { m.acq with hist := NTab.set [] m.acq.hist c ((code :: NTab.get [] m.acq.hist c).take 8) } }
      let m := (m.convMoves n c).pairNote n (m.code c code)
      ((m.wcResults c (m.code c code)).acmScan c).enqResult n c (m.ilvEn (n / 2)) code sub) := by
  rw [Chip.conversionResult, if_neg (by simp [hx, hc])]

end

/-- What a converter takes does not touch the boundaries still to pass. -/
theorem Chip.toPass_putUse (m : Chip) (n : Nat) (u : ConvUse) : (m.putUse n u).acq.toPass = m.acq.toPass := rfl

/-- Past its highest channel a running converter that is in no pair takes what is written (R167). -/
theorem Chip.scanBoundary_passed {m : Chip} {n : Nat} (hr : m.cvRuns n = true) (hi : m.ilvEn (n / 2) = false)
    (hn : (m.convUse n).next = none) :
    m.scanBoundary n =
      (({ m.putUse n (m.writtenUse n) with
          acq := { (m.putUse n (m.writtenUse n)).acq with toPass := clrM m.acq.toPass n } } : Chip).acmCheck).loopSources m := by
  rw [← m.toPass_putUse n (m.writtenUse n), Chip.scanBoundary, if_neg (by simp [hr]), if_neg (by simp [hi]),
    if_neg (by simp [hn])]

/-! ### Calibration and tracking (R174, R175) -/

/-- The effect of an accepted CAL of a pair. -/
theorem Chip.regAct_acqCal (m : Chip) (ag : Agent) : ∀ p : Fin 2,
    (m.regAct ag .acqCmd 0 (wd (p.val + 1))).eff m =
      (({ m with acq := { m.acq with cal := some p.val } } : Chip).put .acqCmdstat 0 (wd ((p.val + 1) * 256 + 65536)), .ok)
  | 0 => rfl
  | 1 => rfl

/-- The effect of an accepted QFLUSH (R182). -/
theorem Chip.regAct_acqQflush (m : Chip) (ag : Agent) :
    (m.regAct ag .acqCmd 0 3).eff m = (m.qFlush.put .acqCmdstat 0 (wd (3 * 256 + b2n m.acq.cal.isSome * 65536)), .ok) := by
  have he : (m.regAct ag .acqCmd 0 3).eff m = (m.qFlush.acqStatus .ok 3 m.acq.cal.isSome, .ok) := rfl
  rw [he, Chip.acqStatus]
  simp [Status.code]

section
variable {m : Chip} {p : Nat} {offs gain : Int} (hc : m.acq.cal = some p)
include hc

/-- Trims that 16 bits hold are written. -/
theorem Chip.calDone_fits (ho : -32768 ≤ offs ∧ offs ≤ 32767) (hg : -32768 ≤ gain ∧ gain ≤ 32767) :
    m.calDone offs gain =
      (((({ m with acq := { m.acq with cal := none } } : Chip).put .acqIlvOffs p (wd (unI offs 16))).put .acqIlvGain p
        (wd (unI gain 16))).put .acqCmdstat 0 (wd ((p + 1) * 256))).event 239 := by
  obtain ⟨ho1, ho2⟩ := ho
  obtain ⟨hg1, hg2⟩ := hg
  simp [Chip.calDone, Chip.acqStatus, Status.code, b2n, hc, ho1, ho2, hg1, hg2]

/-- With a trim outside 16 bits the calibration fails. -/
theorem Chip.calDone_outside (h : ¬(-32768 ≤ offs ∧ offs ≤ 32767 ∧ -32768 ≤ gain ∧ gain ≤ 32767)) :
    m.calDone offs gain =
      ((({ m with acq := { m.acq with cal := none } } : Chip).put .acqCmdstat 0
        (wd (Status.erange.code + (p + 1) * 256))).raise 31 0 []).event 239 := by
  have hb : (decide (-32768 ≤ offs) && decide (offs ≤ 32767) && decide (-32768 ≤ gain) && decide (gain ≤ 32767)) = false := by
    simpa [and_assoc] using h
  simp [Chip.calDone, Chip.acqStatus, b2n, hc, hb]

end

section
variable {m : Chip} {p : Nat} (hi : m.ilvOn p = true) (ht : m.flag .acqIlvCfg p 1 = true)
  (hn : trackPairs ≤ (NTab.get (0, (0 : Int)) m.acq.pairs p).1)
include hi ht hn

/-- The comparison of an interleaved tracking pair is due: OFFS takes at most one step, clamped to 16 bits, and a new sum starts. -/
theorem Chip.trackUpdate_due {o : Int}
    (ho : clampI (-32768) 32767
      (if 0 < (NTab.get (0, (0 : Int)) m.acq.pairs p).2 then sbits (m.get .acqIlvOffs p) 15 0 + 1
       else if (NTab.get (0, (0 : Int)) m.acq.pairs p).2 < 0 then sbits (m.get .acqIlvOffs p) 15 0 - 1
       else sbits (m.get .acqIlvOffs p) 15 0) = o) :
    m.trackUpdate p =
      ({ m with acq := { m.acq with pairs := NTab.set (0, 0) m.acq.pairs p (0, 0) } } : Chip).put .acqIlvOffs p (wd (unI o 16)) := by
  rw [Chip.trackUpdate, if_pos (by simp [hi, ht, hn]), ← ho]

theorem Chip.trackUpdate_up (hs : 0 < (NTab.get (0, (0 : Int)) m.acq.pairs p).2) :
    m.trackUpdate p =
      ({ m with acq := { m.acq with pairs := NTab.set (0, 0) m.acq.pairs p (0, 0) } } : Chip).put .acqIlvOffs p
        (wd (unI (min 32767 (sbits (m.get .acqIlvOffs p) 15 0 + 1)) 16)) := by
  have hl : -32768 ≤ sbits (m.get .acqIlvOffs p) 15 0 := (sxN_bounds _ 15).1
  refine Chip.trackUpdate_due hi ht hn ?_
  rw [if_pos hs, clampI]
  omega

theorem Chip.trackUpdate_down (hs : (NTab.get (0, (0 : Int)) m.acq.pairs p).2 < 0) :
    m.trackUpdate p =
      ({ m with acq := { m.acq with pairs := NTab.set (0, 0) m.acq.pairs p (0, 0) } } : Chip).put .acqIlvOffs p
        (wd (unI (max (-32768) (sbits (m.get .acqIlvOffs p) 15 0 - 1)) 16)) := by
  have hu : sbits (m.get .acqIlvOffs p) 15 0 < 32768 := (sxN_bounds _ 15).2
  refine Chip.trackUpdate_due hi ht hn ?_
  rw [if_neg (by omega), if_pos hs, clampI]
  omega

end

theorem Chip.trackUpdate_off {m : Chip} {p : Nat} (ht : m.flag .acqIlvCfg p 1 = false) : m.trackUpdate p = m :=
  if_neg (by simp [ht])

/-- Settles O32: each row of a result, a boundary, a calibration and a comparison, and the reads and commands as granted accesses. -/
theorem acquisitionResultsAndTrims : Obligations.AcquisitionResultsAndTrims := by
  refine ⟨fun s n c raw sub hx hc => completes_of (exec_conversionResult n c raw sub s) ?_,
    fun s n c raw sub hc => completes_of (exec_conversionResult n c raw sub s) (Chip.conversionRow_notConverts _ _ hc),
    fun s n hr hi hn => completes_of (exec_acqScanBoundary n s) (Chip.scanBoundary_passed hr hi hn),
    readRow_of (fun _ _ => rfl) targetOf_acqQpop1 (fun _ _ => rfl) fun ag m => ?_,
    fun c => readRow_of (fun _ _ => rfl) (targetOf_acqRes c) (fun _ _ => rfl) (fun _ _ h => nomatch h),
    writeRow_of (fun _ _ => rfl) targetOf_acqCmd (fun ag m => m.regAct_acqQflush ag),
    fun p => writeRow_of (fun _ _ => rfl) targetOf_acqCmd (fun ag m => m.regAct_acqCal ag p),
    fun s p offs gain hc ho hg => completes_of (exec_acqCalDone offs gain s) (Chip.calDone_fits hc ho hg),
    fun s p offs gain hc h => completes_of (exec_acqCalDone offs gain s) (Chip.calDone_outside hc h),
    fun s p hi ht hn hs => completes_of (exec_acqTrackUpdate p () () s) (Chip.trackUpdate_up hi ht hn hs),
    fun s p hi ht hn hs => completes_of (exec_acqTrackUpdate p () () s) (Chip.trackUpdate_down hi ht hn hs),
    fun s p ht => completes_of (exec_acqTrackUpdate p () () s) (Chip.trackUpdate_off ht)⟩
  · rw [Chip.conversionRow_converts _ _ hx hc, Chip.conversionResult_converts _ _ hx hc]
  · by_cases h : m.qReader ag = true <;> simp [h]

end Sys2Proof.Machine
end

section
/-!
PROOFS. Sharing, RLIM, capping and shedding: the timers of the share strand, the ends of the capping machine and the branches that
shedding turns off and on (R256, R260 to R262, R281, R282, R285, R286).
-/

namespace Sys2Proof.Machine

/-- What happens only once boot has finished happens then. -/
theorem Chip.whenUp_up {m : Chip} (f : Chip → Chip) (h : m.up = true) : m.whenUp f = f m := if_pos h

theorem Chip.rlimTick_up {m : Chip} (h : m.up = true) : m.rlimTick = (m.elapse m.pol.rlimAt 10000).rlimWrite := if_pos h

/-! ### Imbalance (R262) -/

/-- SHARE_IMBALANCE is raised for a member, which is marked so that it is raised once. -/
def Chip.imbalanceRaise (m : Chip) (e : Nat) : Chip :=
  (m.putShare e { m.share e with raised := true }).raise 39 e []

/-- Time changes nothing that is kept of a member. Stated for any duration, so that no numeral is unfolded. -/
theorem Chip.imbalanceRaise_elapse (m : Chip) (t d e : Nat) : (m.elapse t d).imbalanceRaise e =
    ((m.elapse t d).putShare e { m.share e with raised := true }).raise 39 e [] := rfl

/-- A member not yet reported raises SHARE_IMBALANCE once its deviation has lasted SHDEVT. -/
theorem Chip.shareImbalance_deviates {m : Chip} {e t : Nat} (he : e ∈ m.members m.shareEntry)
    (hr : (m.share e).raised = false) (hd : (m.share e).devAt = some t) (hs : (m.share e).satAt = none) :
    m.shareImbalance e = (m.elapse t (m.fld .shareTrim 0 23 16 * 1000000)).imbalanceRaise e := by
  rw [Chip.shareImbalance, hd, hs]
  exact if_pos (by simp [he, hr])

theorem Chip.shareImbalance_balanced {m : Chip} {e : Nat} (hd : (m.share e).devAt = none) (hs : (m.share e).satAt = none) :
    m.shareImbalance e = m := by
  rw [Chip.shareImbalance, hd, hs]

/-! ### The capping machine (R281, R282) -/

theorem Chip.capVal_capSet_floor {m : Chip} (h : m.pol.cap = .floor) : m.capSet.pol.capVal = q1 := if_pos h

theorem Chip.capRuns_of {m : Chip} (hh : m.pol.ho = .onsrc ∨ m.pol.ho = .antic) (hf : m.polFrozen = false) :
    m.capRuns = true := by
  simp [Chip.capRuns, hh, hf]

/-- Capping begins once the loop output has been high for ENTRYT; what holds the rectifiers down is their capacity where the
capping value is at 1.0. -/
theorem Chip.capEnter_high {m : Chip} {t : Nat} (ht : m.pol.outHi = some t) (hc : m.pol.cap = .off ∨ m.pol.cap = .armed)
    (hr : m.capRuns = true) (hs : m.srcCondition = true) (hl : m.socLow = false) :
    m.capEnter = (m.elapse t (m.fld .capCfg 0 19 12 * 100000)).capTo .capped (fun m =>
      let m : Chip := { m with pol := { m.pol with capacity := !(m.pol.capVal < q1 : Bool) } }
      ((m.bslotSp q1 spCreep).eventRecord 210 0 [wd (b2n m.pol.capacity)]).event 210) := by
  rw [Chip.capEnter, ht]
  exact if_pos (by simp [hc, hr, hs, hl])

theorem Chip.capEnter_elsewhere {m : Chip} (h1 : m.pol.cap ≠ .off) (h2 : m.pol.cap ≠ .armed) : m.capEnter = m := by
  unfold Chip.capEnter
  split
  · exact if_neg (by simp [h1, h2])
  · rfl

/-- Capping ends in its rest state once the loop output has been low for EXITT. -/
theorem Chip.capExit_low {m : Chip} {t : Nat} (ht : m.pol.outLo = some t) (hc : m.pol.cap = .capped) (hr : m.capRuns = true) :
    m.capExit =
      let m := m.elapse t (m.fld .capCfg 0 31 24 * 1000000)
      m.capTo m.capRest (fun m =>
        let m := if m.pol.cap = .off then m.capFull else m
        ((m.bslotSp m.backSp spCreep).eventRecord 211 0 []).event 211) := by
  rw [Chip.capExit, ht]
  exact if_pos (by simp [hc, hr])

theorem Chip.capExit_elsewhere {m : Chip} (h : m.pol.cap ≠ .capped) : m.capExit = m := by
  unfold Chip.capExit
  split
  · exact if_neg (by simp [h])
  · rfl

/-! ### Shedding (R285, R286) -/

/-- A STEP after the last, shedding turns off the next branch, and what restores the branches starts over. -/
theorem Chip.branchShed_next {m : Chip} {n : Nat} (hs : m.shedding = true) (hb : m.pwr.base ≠ .shadow)
    (hn : m.shedNext = some n) :
    m.branchShed =
      let m := (m.elapse m.pol.shedAt (m.fld .shedCfg 0 7 0 * 10000)).brnOff n 1
      let m := m.putBranch n { m.branch n with shed := true }
      let m : Chip := { m with pol := { m.pol with shedAt := m.now, calmAt := none, restAt := none } }
      (m.eventRecord 212 n [wd n]).event 212 := by
  rw [Chip.branchShed, if_pos (by simp [hs, hb]), hn]

theorem Chip.branchShed_calm {m : Chip} (h : m.shedding = false) : m.branchShed = m := if_neg (by simp [h])

/-- A branch's ON as the policy commands it: taken, or rejected with its status. -/
def Chip.brnOnTry (m : Chip) (n : Nat) : Chip :=
  match (brnOnAct n m).v.first with
  | some st => (brnOnAct n m).rej st m
  | none => ((brnOnAct n m).eff m).1

/-- A STEP after the last restored branch, the next one's ON is tried. -/
theorem Chip.shedRestore_next {m : Chip} {n t r : Nat} (hs : m.shedding = false) (hb : m.pwr.base ≠ .shadow)
    (hc : m.pol.calmAt = some t) (hn : m.restoreNext = some n) (hr : m.pol.restAt = some r) :
    m.shedRestore =
      let m := m.elapse r (m.fld .shedCfg 0 7 0 * 10000)
      ({ m with pol := { m.pol with restAt := some m.now } } : Chip).brnOnTry n := by
  rw [Chip.shedRestore, hc, hn, hr]
  exact if_neg (by simp [hs, hb])

theorem Chip.shedRestore_notCalm {m : Chip} (h : m.pol.calmAt = none) : m.shedRestore = m := by
  rw [Chip.shedRestore, h]

/-- Settles O37: the timers come round once boot has finished, and the imbalance, the capping machine and shedding follow their rows
in the state each names and in the others. -/
theorem policySharingCappingShedding : Obligations.PolicySharingCappingShedding := by
  refine ⟨fun s hu => completes_of (exec_rlimWrite s) (Chip.rlimTick_up hu),
    fun s hu => completes_of (exec_shareKeepalive s) (Chip.whenUp_up _ hu),
    fun s hu => completes_of (exec_shareTrim () s) (Chip.whenUp_up _ hu),
    fun s e t he hr hd hs => completes_of (exec_shareImbalance e s)
      ((Chip.shareImbalance_deviates he hr hd hs).trans (Chip.imbalanceRaise_elapse ..)),
    fun s e hd hs => completes_of (exec_shareImbalance e s) (Chip.shareImbalance_balanced hd hs),
    fun s hu => completes_of (exec_capRecompute () s) (Chip.whenUp_up _ hu),
    fun m h => Chip.capVal_capSet_floor h,
    fun s t ht hc hh hf hl hs => completes_of (exec_capEnter s) (Chip.capEnter_high ht hc (Chip.capRuns_of hh hf) hs hl),
    fun s h1 h2 => completes_of (exec_capEnter s) (Chip.capEnter_elsewhere h1 h2),
    fun s t ht hc hh hf => completes_of (exec_capExit s) (Chip.capExit_low ht hc (Chip.capRuns_of hh hf)),
    fun s h => completes_of (exec_capExit s) (Chip.capExit_elsewhere h),
    fun s n hs hb hn => completes_of (exec_branchShed s) (Chip.branchShed_next hs hb hn),
    fun s h => completes_of (exec_branchShed s) (Chip.branchShed_calm h),
    fun s n t r hu hs hb hc hn hr => completes_of (exec_shedRestore s)
      ((Chip.whenUp_up _ hu).trans (Chip.shedRestore_next hs hb hc hn hr)),
    fun s hu hc => completes_of (exec_shedRestore s) ((Chip.whenUp_up _ hu).trans (Chip.shedRestore_notCalm hc))⟩

end Sys2Proof.Machine
end

section
/-!
PROOFS. The commands of the converter stages: START, STOP and the unfences of CNV_x_CMD, the voltage commands of CNV_x_VCMD and
their completions in CNV_x_VDONE (R315, R323, R324, R336).
-/

namespace Sys2Proof.Machine

/-! ### Stage commands (R315, R336) -/

/-- The scope of a stage's phase fences. -/
theorem phaseScope_fin (x : Fin 2) :
    (if (x : Nat) = 0 then Scope.phaseB else Scope.phaseA) = if x = 0 then Scope.phaseB else Scope.phaseA :=
  if_congr Fin.val_eq_zero_iff rfl rfl

/-- A phase unfence carries its code in bits 3:0. -/
theorem bits_phaseUnfence_code (k : Nat) : bits (wd (3 + k * 256)) 3 0 = 3 := by
  simp only [bits, wd, BitVec.toNat_ofNat]
  omega

/-- A phase unfence carries its phase in bits 11:8. -/
theorem bits_phaseUnfence_phase {k : Nat} (hk : k < 16) : bits (wd (3 + k * 256)) 11 8 = k := by
  simp only [bits, wd, BitVec.toNat_ofNat]
  omega

/-- The effect of an accepted phase unfence. -/
theorem Chip.regAct_phaseUnfence (m : Chip) (ag : Agent) (x : Fin 2) (k : Fin 8) :
    (m.regAct ag .cnvXCmd x (wd (3 + k.val * 256))).eff m =
      ((m.putConv x ((m.conv x).putPhase k { (m.conv x).phase k with fenced := false })).dropFence
        (if x = 0 then .phaseB else .phaseA) k, .ok) := by
  have hc := bits_phaseUnfence_code k
  have hk := bits_phaseUnfence_phase (k := k) (by omega)
  show (cnvCmdAct x (wd (3 + k.val * 256)) m).eff m = _
  simp only [cnvCmdAct, hc, hk, phaseScope_fin]

/-- START of a stopped stage whose fields are configured clears its retries and soft-starts it. -/
theorem Chip.convStart_stopped {m : Chip} {x : Nat} (hs : (m.conv x).st = .stopped) (hv : m.convValid x = true) :
    m.convStart x = (((m.putConv x { m.conv x with retry := 0 }).slewRest x).convSoft x).convMinPh x := by
  simp only [Chip.convStart, hs, hv, if_true]

/-- STOP of a running stage begins its ramp. -/
theorem Chip.convStop_run {m : Chip} {x : Nat} (hs : (m.conv x).st = .run) : m.convStop x = m.convRamp x := by
  simp only [Chip.convStop, hs]

/-! ### Voltage commands (R323, R324) -/

/-- A number over VREF of a stage, as a loop word. -/
def Chip.overVref (m : Chip) (x n : Nat) : Word := wdI (qSat (rdiv ((n : Int) * q1) (m.fld .cnvXVref x 15 0)))

/-- A voltage command that waits is superseded. -/
def Chip.supersede (m : Chip) (x : Nat) : Chip :=
  match (m.conv x).vtag with
  | some t => m.vdonePush x t .esuperseded
  | none => m

/-- What an accepted voltage command does before it moves the target: it supersedes, and writes SLEW of its slot. -/
def Chip.vcmdSlew (m : Chip) (x : Nat) : Chip := (m.supersede x).putLw (m.vslot x) 3 (m.overVref x (m.fld .cnvXVrate x 15 0))

/-- A voltage command waits at a slot under its tag. -/
def Chip.vcmdWait (m : Chip) (x tag s : Nat) : Chip := m.putConv x { m.conv x with vtag := some tag, vcSlot := s }

/-- Superseding writes no register: what the command reads of the stage's registers is the same before and after it. -/
theorem Chip.supersede_fld (m : Chip) (x : Nat) (r : RName) (i hi lo : Nat) : (m.supersede x).fld r i hi lo = m.fld r i hi lo := by
  unfold Chip.supersede
  split <;> rfl

/-- A command, its slot's SLEW written, moves SP to its target, waits, and is done at once if the slot is there. -/
def Chip.vcmdGo (m : Chip) (x tag s : Nat) (sp : Word) : Chip :=
  let n := (if m.lw s 2 = sp then m else m.spTarget s sp).vcmdWait x tag s
  if !decide (m.lw s 2 = sp) then n.spReached s else if n.lw s 6 = sp then n.vdonePush x tag .ok else n

/-- Waiting writes no loop word. -/
theorem Chip.vcmdWait_lw (m : Chip) (x tag s i w : Nat) : (m.vcmdWait x tag s).lw i w = m.lw i w := rfl

/-- A target that SP already holds is not moved. -/
theorem Chip.vcmdGo_held {m : Chip} {s : Nat} {sp : Word} (x tag : Nat) (h : m.lw s 2 = sp) :
    m.vcmdGo x tag s sp =
      if m.lw s 6 = sp then (m.vcmdWait x tag s).vdonePush x tag .ok else m.vcmdWait x tag s := by
  simp [Chip.vcmdGo, Chip.vcmdWait_lw, h]

/-- Any other target is a new one, which SPACT may have reached already. -/
theorem Chip.vcmdGo_moves {m : Chip} {s : Nat} {sp : Word} (x tag : Nat) (h : m.lw s 2 ≠ sp) :
    m.vcmdGo x tag s sp = ((m.spTarget s sp).vcmdWait x tag s).spReached s := by
  simp [Chip.vcmdGo, h]

/-- With room for its completion an accepted command supersedes, writes SLEW and goes to its target. -/
theorem vcmdAct_room {m : Chip} {x : Nat} (d : Word) (hn : (m.conv x).vdone.length < 8) :
    (vcmdAct x d m).eff m =
      ((m.vcmdSlew x).vcmdGo x (bits d 23 16) (m.vslot x) (m.overVref x (bits d 15 0)), .ok) := by
  rw [Chip.vcmdSlew, ← m.supersede_fld x .cnvXVrate]
  exact if_neg (Nat.not_le.2 hn)

/-- With eight completions unread it is answered EFULL. -/
theorem vcmdAct_full {m : Chip} {x : Nat} (d : Word) (hn : 8 ≤ (m.conv x).vdone.length) : (vcmdAct x d m).eff m = (m, .efull) :=
  if_pos hn

/-- A read of VDONE is answered with its oldest completion. -/
theorem Chip.regRead_cnvXVdone (m : Chip) (ag : Agent) (x : Nat) :
    m.regRead ag .cnvXVdone x = ((m.vdoneRead x).1, (m.vdoneRead x).2, .ok) := rfl

/-- Settles O38: each stage command and voltage command is a granted write and takes the effect of its code, its room and its
target; a read of VDONE takes the oldest completion. -/
theorem converterCommands : Obligations.ConverterCommands := by
  refine ⟨fun x => writeRow_of (fun _ _ => rfl) (targetOf_cnvXCmd x) (fun _ _ => rfl),
    fun x => writeRow_of (fun _ _ => rfl) (targetOf_cnvXCmd x) (fun _ _ => rfl),
    fun x k => writeRow_of (fun _ _ => rfl) (targetOf_cnvXCmd x) (fun ag m => m.regAct_phaseUnfence ag x k),
    fun x => writeRow_of (fun _ _ => rfl) (targetOf_cnvXCmd x) (fun _ _ => rfl),
    fun m x hs hv => Chip.convStart_stopped hs hv,
    fun m x hs => Chip.convStop_run hs,
    fun s ag x d hg hn hsp => completes_regWrite (exec_cnvVcmd ag x d s) (targetOf_cnvXVcmd x) hg
      ((vcmdAct_room d hn).trans (Prod.ext (Chip.vcmdGo_held x _ hsp) rfl)),
    fun s ag x d hg hn hsp => completes_regWrite (exec_cnvVcmd ag x d s) (targetOf_cnvXVcmd x) hg
      ((vcmdAct_room d hn).trans (Prod.ext (Chip.vcmdGo_moves x _ hsp) rfl)),
    fun s ag x d hg hn => completes_regWrite_status (exec_cnvVcmd ag x d s) (targetOf_cnvXVcmd x) hg (vcmdAct_full d hn),
    fun x => readRow_of (fun _ _ => rfl) (targetOf_cnvXVdone x) (fun ag m => ?_) (fun ag m => ?_)⟩
  · rw [Chip.regRead_cnvXVdone, Chip.vdoneRead]
    cases (m.conv x).vdone <;> rfl
  · cases (m.conv x).vdone <;> exact nofun

end Sys2Proof.Machine
end

section
/-!
PROOFS. The commands of the branches and of the battery path: BRN_n_CMD and the reads of ELO (R351, R352, R358, R369), and BAT_CMD
with its status (R374, R384, R385).
-/

namespace Sys2Proof.Machine

/-! ### Branches (R351, R358) -/

/-- Only a conducting or a tripped branch is taken to OFF by its cause, with retry count 0. -/
theorem Chip.brnOff_gen {m : Chip} {n : Nat} (c : Nat) (h : (m.branch n).gen = true) :
    m.brnOff n c = (m.brnTo n .off c).putBranch n { (m.brnTo n .off c).branch n with retry := 0 } := by
  simp [Chip.brnOff, h]

/-- A read of ELO latches the high word of the energy that it reads. -/
theorem Chip.regRead_brnNElo (m : Chip) (ag : Agent) (n : Nat) :
    m.regRead ag .brnNElo n =
      (m.putBranch n { m.branch n with ehi := m.brnEnergy n / 2 ^ 32 }, wd (m.brnEnergy n % 2 ^ 32), .ok) := rfl

/-! ### String commands (R374) -/

/-- A string command carries its code in bits 3:0. -/
theorem bits_stringCommand_code {c : Nat} (n : Nat) (hc : c < 16) : bits (wd (c + n * 256)) 3 0 = c := by
  simp only [bits, wd, BitVec.toNat_ofNat]
  omega

/-- A string command carries its string in bits 9:8. -/
theorem bits_stringCommand_string {c n : Nat} (hc : c < 256) (hn : n < 4) : bits (wd (c + n * 256)) 9 8 = n := by
  simp only [bits, wd, BitVec.toNat_ofNat]
  omega

/-- What the string commands do: CONNECT, CONNECTF, and DISCONNECT, which opens a closed string or ends its matching. -/
def Chip.strCommand (m : Chip) (c n : Nat) : Chip :=
  match c with
  | 1 => m.strConnect n
  | 2 => m.strClose n
  | _ => if (m.bstr n).st = .closed then m.strOpen n else m.putBstr n { m.bstr n with st := .open_, since := m.now }

/-- The effect of an accepted string command; BAT_CMDSTAT shows OK and its code. -/
theorem Chip.regAct_stringCommand (m : Chip) (ag : Agent) {c : Nat} (n : Fin 4) (hc : c = 1 ∨ c = 2 ∨ c = 3) :
    (m.regAct ag .batCmd 0 (wd (c + n.val * 256))).eff m = ((m.strCommand c n).batStatus .ok c, .ok) := by
  have hcode : bits (wd (c + n.val * 256)) 3 0 = c := bits_stringCommand_code n (by omega)
  have hstr : bits (wd (c + n.val * 256)) 9 8 = n := bits_stringCommand_string (by omega) n.isLt
  show (batCmdAct (wd (c + n.val * 256)) m).eff m = _
  obtain rfl | rfl | rfl := hc
  all_goals simp only [batCmdAct, hcode, hstr, Chip.strCommand]

/-- Settles O41: each command of a branch, of a string and of the charger is a granted write of its code, and ELO a granted read. -/
theorem branchAndBatteryCommands : Obligations.BranchAndBatteryCommands :=
  ⟨fun n => writeRow_of (fun _ _ => rfl) (targetOf_brnNCmd n) (fun _ _ => rfl),
    fun n => writeRow_of (fun _ _ => rfl) (targetOf_brnNCmd n) (fun _ _ => rfl),
    fun n => writeRow_of (fun _ _ => rfl) (targetOf_brnNCmd n) (fun _ _ => rfl),
    fun n => writeRow_of (fun _ _ => rfl) (targetOf_brnNCmd n) (fun _ _ => rfl),
    fun _ _ c h => Chip.brnOff_gen c h,
    fun n => readRow_of (fun _ _ => rfl) (targetOf_brnNElo n) (fun ag m => m.regRead_brnNElo ag n) (fun _ _ h => nomatch h),
    fun n => writeRow_of (fun _ _ => rfl) targetOf_batCmd (fun ag m => m.regAct_stringCommand ag n (.inl rfl)),
    fun n => writeRow_of (fun _ _ => rfl) targetOf_batCmd (fun ag m => m.regAct_stringCommand ag n (.inr (.inl rfl))),
    fun n => writeRow_of (fun _ _ => rfl) targetOf_batCmd (fun ag m => m.regAct_stringCommand ag n (.inr (.inr rfl))),
    writeRow_of (fun _ _ => rfl) targetOf_batCmd (fun _ _ => rfl),
    writeRow_of (fun _ _ => rfl) targetOf_batCmd (fun _ _ => rfl),
    writeRow_of (fun _ _ => rfl) targetOf_batCmd (fun _ _ => rfl)⟩

end Sys2Proof.Machine
end

section
/-!
PROOFS. The strings of the battery path: each row of a string's machine in the state it names, and in any other, and the wakes from
SHIP (R374, R376 to R378, R392, R393, R396).
-/

namespace Sys2Proof.Machine

/-! ### Presence and identity (R374, R378) -/

/-- A string in use whose voltage has been there for INSQ is inserted. -/
theorem Chip.strInserted_absent {m : Chip} {n t : Nat} (hi : (m.bstr n).inAt = some t) (hs : (m.bstr n).st = .absent)
    (hu : m.strOn n = true) :
    m.strInserted n =
      let w := (m.elapse t (m.fld .batPres 0 23 16 * 100000)).estFreeze n
      let w := w.putBstr n { m.bstr n with st := .open_, reading := true, idRes := none, ident := 0, since := w.now }
      let w := w.putEstr n { w.estr n with openMv := w.perCell (w.strV n) * 256 }
      ((w.eventRecord 217 n [wd n]).event 217).identIssue n := by
  simp only [Chip.strInserted, hi]
  exact if_pos (by simp [hs, hu])

theorem Chip.strInserted_present {m : Chip} {n : Nat} (hs : (m.bstr n).st ≠ .absent) : m.strInserted n = m := by
  simp only [Chip.strInserted]
  split
  · exact if_neg (by simp [hs])
  · rfl

/-- The answer to an identity read that is awaited is taken. -/
theorem Chip.strIdentity_reading {m : Chip} {n : Nat} {good : Bool} {w : Word} (hr : (m.bstr n).idRes = some (good, w))
    (hb : (m.bstr n).reading = true) :
    m.strIdentity n = ((m.putBstr n { m.bstr n with
      reading := false, idRes := none, ident := if good && m.flag .batStrMon n 31 then w else 0 }).estStart n).autoConn n := by
  simp only [Chip.strIdentity, hr]
  exact if_pos hb

theorem Chip.strIdentity_notReading {m : Chip} {n : Nat} (hb : (m.bstr n).reading = false) : m.strIdentity n = m := by
  simp only [Chip.strIdentity]
  split
  · exact if_neg (by simp [hb])
  · rfl

/-- An open or matching string whose voltage has left for 100 ms is absent. -/
theorem Chip.strAbsent_open {m : Chip} {n t : Nat} (ho : (m.bstr n).outAt = some t)
    (hs : (m.bstr n).st = .open_ ∨ (m.bstr n).st = .matching) :
    m.strAbsent n =
      let w := m.elapse t 100000
      (w.putBstr n { m.bstr n with st := .absent, reading := false, idRes := none, since := w.now }).eventRecord 217 n [wd n] := by
  simp only [Chip.strAbsent, ho]
  exact if_pos (by simp [hs])

theorem Chip.strAbsent_closed {m : Chip} {n : Nat} (hs : (m.bstr n).st = .closed) : m.strAbsent n = m := by
  simp only [Chip.strAbsent]
  split
  · exact if_neg (by simp [hs])
  · rfl

/-! ### Matching (R374) -/

theorem Chip.strMatched_near {m : Chip} {n t : Nat} (ht : (m.bstr n).nearAt = some t) (hs : (m.bstr n).st = .matching)
    (hp : m.connPermits = true) : m.strMatched n = (m.elapse t 1000000).strClose n := by
  rw [Chip.strMatched, ht]
  exact if_pos (by simp [hs, hp])

theorem Chip.strMatched_elsewhere {m : Chip} {n : Nat} (hs : (m.bstr n).st ≠ .matching) : m.strMatched n = m := by
  unfold Chip.strMatched
  split
  · exact if_neg (by simp [hs])
  · rfl

/-- A match that MATCHT has ended opens the string and raises its fault 5. -/
theorem Chip.strMatchTimeout_matching {m : Chip} {n : Nat} (hs : (m.bstr n).st = .matching) :
    m.strMatchTimeout n =
      let w := m.elapse (m.bstr n).since (m.fld .batSwcfg 0 31 16 * 60000000)
      (w.putBstr n { m.bstr n with st := .open_, since := w.now }).strFault n 5 :=
  if_pos hs

/-! ### Switches (R374) -/

/-- A closed string opens with fault 3 whose feedback has never come up, within SWT. -/
theorem Chip.strSwitchFail_never {m : Chip} {n : Nat} (hs : (m.bstr n).st = .closed)
    (ht : m.now ≤ (m.bstr n).since + m.fld .batSwcfg 0 7 0 * 1000) :
    m.strSwitchFail n true = ((m.elapse (m.bstr n).since (m.fld .batSwcfg 0 7 0 * 1000)).strOpen n).strFault n 3 :=
  if_pos (by simp [hs, ht])

/-- A closed string opens with fault 3 whose feedback has dropped for 10 µs. -/
theorem Chip.strSwitchFail_dropped {m : Chip} {n : Nat} (hs : (m.bstr n).st = .closed) :
    m.strSwitchFail n false = ((m.advance 10).strOpen n).strFault n 3 :=
  if_pos (by simp [hs])

theorem Chip.strSwitchFail_elsewhere {m : Chip} {n : Nat} (never : Bool) (hs : (m.bstr n).st ≠ .closed) :
    m.strSwitchFail n never = m :=
  if_neg (by simp [hs])

/-- An open string whose feedback has outlived its switch by SWT is stuck, with fault 4. -/
theorem Chip.strSwitchWeld_open {m : Chip} {n : Nat} (hs : (m.bstr n).st = .open_) (hw : (m.bstr n).ssw = false)
    (hf : (m.bstr n).fellAt ≠ 0) (ht : m.now ≤ (m.bstr n).fellAt + m.fld .batSwcfg 0 7 0 * 1000) :
    m.strSwitchWeld n =
      let w := m.elapse (m.bstr n).fellAt (m.fld .batSwcfg 0 7 0 * 1000)
      (w.putBstr n { m.bstr n with st := .stuck, fb := true, since := w.now }).strFault n 4 :=
  if_pos (by simp [hs, hw, hf, ht])

/-- A stuck string whose feedback goes is open. -/
theorem Chip.strUnstuck_stuck {m : Chip} {n : Nat} (hs : (m.bstr n).st = .stuck) :
    m.strUnstuck n = (m.putBstr n { m.bstr n with st := .open_, fb := false, since := m.now }).strLeft :=
  if_pos hs

theorem Chip.strUnstuck_elsewhere {m : Chip} {n : Nat} (hs : (m.bstr n).st ≠ .stuck) : m.strUnstuck n = m := if_neg hs

/-! ### Removal (R377) -/

/-- Within 1 ms of a removal that the converter saw, the closed strings whose voltage left are removed. -/
theorem Chip.batRemoved_detected {m : Chip} {t : Nat} (hr : m.cnv.removed = some t) (ht : m.now ≤ t + 1000)
    (hg : m.strsGone ≠ []) :
    m.batRemoved = m.strsGone.foldl Chip.strRemoved { m with cnv := { m.cnv with remFound := true } } := by
  simp only [Chip.batRemoved, hr]
  exact if_pos (by simp [ht, hg])

/-- With no closed string whose voltage has left, none is removed for its own voltage. -/
theorem Chip.ownRemoved_none {m : Chip} (hg : m.strsGone = []) : m.ownRemoved = m := by
  simp only [Chip.ownRemoved, hg, List.filterMap_nil]

theorem Chip.batRemoved_none {m : Chip} (hr : m.cnv.removed = none) (hg : m.strsGone = []) : m.batRemoved = m := by
  simp only [Chip.batRemoved, hr]
  exact Chip.ownRemoved_none hg

/-! ### Limits (R376, R396) -/

/-- One second below VCUT raises fault 6 of a closed string, and opens it where UVOPEN says so. -/
theorem Chip.strUndervolt_closed {m : Chip} {n t : Nat} (ht : (m.bstr n).cutAt = some t) (hs : (m.bstr n).st = .closed)
    (hd : (m.bstr n).uvDone = false) :
    m.strUndervolt n =
      let w := ((m.elapse t 1000000).putBstr n { m.bstr n with uvDone := true }).strFault n 6
      if w.flag .batStrCfg n 22 = true then w.strOpen n else w := by
  simp only [Chip.strUndervolt, ht]
  rw [if_pos (by simp [hs, hd])]
  exact if_congr (by simp [hs]) rfl rfl

theorem Chip.strUndervolt_notCut {m : Chip} {n : Nat} (ht : (m.bstr n).cutAt = none) : m.strUndervolt n = m := by
  simp only [Chip.strUndervolt, ht]

/-- Ten milliseconds above ISTRMAX raise fault 7 of a closed string, and open it where OCOPEN says so. -/
theorem Chip.strOvercurrent_closed {m : Chip} {n t : Nat} (ht : (m.bstr n).ocAt = some t) (hs : (m.bstr n).st = .closed)
    (hd : (m.bstr n).ocDone = false) :
    m.strOvercurrent n =
      let w := ((m.elapse t 10000).putBstr n { m.bstr n with ocDone := true }).strFault n 7
      if w.flag .batStrCfg n 23 = true then w.strOpen n else w := by
  simp only [Chip.strOvercurrent, ht]
  rw [if_pos (by simp [hs, hd])]
  exact if_congr (by simp [hs]) rfl rfl

theorem Chip.strOvercurrent_notOver {m : Chip} {n : Nat} (ht : (m.bstr n).ocAt = none) : m.strOvercurrent n = m := by
  simp only [Chip.strOvercurrent, ht]

/-! ### Wakes from SHIP (R392, R393) -/

/-- With its supplies up the part wakes at once. -/
theorem Chip.wakes_supplied {m : Chip} (c : Nat) (hl : m.pwr.supLow = false) : m.wakes c = m.shipWake c := if_pos (by simp [hl])

/-- The first wake with a supply low is held. -/
theorem Chip.wakes_held {m : Chip} (c : Nat) (hl : m.pwr.supLow = true) (hw : m.pwr.wakeDue = 0) :
    m.wakes c = { m with pwr := { m.pwr with wakeDue := c } } := by
  rw [Chip.wakes, if_neg (by simp [hl]), if_pos hw]

theorem Chip.wakeButton_enabled {m : Chip} (hb : m.pwr.base = .ship) (he : m.flag .batShipCfg 0 0 = true) :
    m.wakeButton = m.wakes 1 := if_pos (by simp [hb, he])

theorem Chip.wakeButton_notShip {m : Chip} (hb : m.pwr.base ≠ .ship) : m.wakeButton = m := if_neg (by simp [hb])

/-- The chip with what the comparator of SHIP_SRC says. -/
def Chip.noteSource (m : Chip) (present : Bool) : Chip := { m with bat := { m.bat with shipSrc := present } }

theorem Chip.wakeSource_enabled {m : Chip} (hb : m.pwr.base = .ship) (he : m.flag .batShipCfg 0 1 = true) :
    m.wakeSource true = (m.noteSource true).wakes 2 :=
  have hc : (true && decide (m.pwr.base = .ship) && m.flag .batShipCfg 0 1) = true := by simp [hb, he]
  if_pos hc

theorem Chip.wakeSource_notShip {m : Chip} (present : Bool) (hb : m.pwr.base ≠ .ship) :
    m.wakeSource present = m.noteSource present := if_neg (by simp [hb])

/-- Settles O43: each row of a string in the state it names and in the others, and the two wakes. -/
theorem batteryStrings : Obligations.BatteryStrings := by
  refine ⟨fun s n t hi hs hu => completes_of (exec_batInserted n s) (Chip.strInserted_absent hi hs hu),
    fun s n hs => completes_of (exec_batInserted n s) (Chip.strInserted_present hs),
    fun s n good w hr hb => completes_of (exec_stringIdentityRead n () () s) (Chip.strIdentity_reading hr hb),
    fun s n hb => completes_of (exec_stringIdentityRead n () () s) (Chip.strIdentity_notReading hb),
    fun s n t ht hs hp => completes_of (exec_stringMatched n s) (Chip.strMatched_near ht hs hp),
    fun s n hs => completes_of (exec_stringMatched n s) (Chip.strMatched_elsewhere hs),
    fun s n hs => completes_of (exec_strMatchTimeout n s) (Chip.strMatchTimeout_matching hs),
    fun s n never hs hn ht => completes_of (exec_strSwitchFail (n, never) s) (hn ▸ Chip.strSwitchFail_never hs ht),
    fun s n never hs hn => completes_of (exec_strSwitchFail (n, never) s) (hn ▸ Chip.strSwitchFail_dropped hs),
    fun s n never hs => completes_of (exec_strSwitchFail (n, never) s) (Chip.strSwitchFail_elsewhere never hs),
    fun s n hs hw hf ht => completes_of (exec_strSwitchWeld n s) (Chip.strSwitchWeld_open hs hw hf ht),
    fun s n hs => completes_of (exec_stringUnstuck n s) (Chip.strUnstuck_stuck hs),
    fun s n hs => completes_of (exec_stringUnstuck n s) (Chip.strUnstuck_elsewhere hs),
    fun s n t ho hs => completes_of (exec_stringAbsent n s) (Chip.strAbsent_open ho hs),
    fun s n hs => completes_of (exec_stringAbsent n s) (Chip.strAbsent_closed hs),
    fun s t hr ht hg => completes_of (exec_batRemoved () s) (Chip.batRemoved_detected hr ht hg),
    fun s hr hg => completes_of (exec_batRemoved () s) (Chip.batRemoved_none hr hg),
    fun s n t ht hs hd => completes_of (exec_strUndervolt n s) (Chip.strUndervolt_closed ht hs hd),
    fun s n ht => completes_of (exec_strUndervolt n s) (Chip.strUndervolt_notCut ht),
    fun s n t ht hs hd => completes_of (exec_strOvercurrent n s) (Chip.strOvercurrent_closed ht hs hd),
    fun s n ht => completes_of (exec_strOvercurrent n s) (Chip.strOvercurrent_notOver ht),
    fun s hb he hl => completes_of (exec_wakeButton s) ((Chip.wakeButton_enabled hb he).trans (Chip.wakes_supplied 1 hl)),
    fun s hb he hl hw => completes_of (exec_wakeButton s) ((Chip.wakeButton_enabled hb he).trans (Chip.wakes_held 1 hl hw)),
    fun s hb => completes_of (exec_wakeButton s) (Chip.wakeButton_notShip hb),
    fun s present hp hb he hl => completes_of (exec_wakeSource present s)
      (hp ▸ (Chip.wakeSource_enabled hb he).trans (Chip.wakes_supplied 2 hl)),
    fun s present hb => completes_of (exec_wakeSource present s) (Chip.wakeSource_notShip present hb)⟩

end Sys2Proof.Machine
end

section
/-!
PROOFS. The charge phases of the battery path: each row of the charger in the phase it names, and in the others (R381, R384 to R388,
R397).
-/

namespace Sys2Proof.Machine

/-! ### Entry (R385, R388) -/

/-- The phase that a charge enters by the voltage per cell at the end of its entry rest (R385). -/
def Chip.chgEnter (m : Chip) (v : Int) : Chip :=
  if m.profile = 1 ∧ v < (m.fld .batChgVphase 0 15 0 : Int) * q1 then m.chgTo .trickle true
  else if v < (m.fld .batChgVphase 0 31 16 : Int) * q1 then m.chgTo .prechg true
  else m.chgTo .bulk true

/-- The entry rest lasts TREST; the native profile reports it, and then the voltage decides. -/
theorem Chip.entryRestEnd_entry {m : Chip} (hp : (m.batTick m.chgFrozen).bat.phase = .entry)
    (hf : (m.batTick m.chgFrozen).chgFrozen = false) :
    m.entryRestEnd =
      let k := m.batTick m.chgFrozen
      let w := k.chgWait k.bat.phaseUs (k.fld .batChgPulse 0 15 8 * 100000)
      Chip.chgEnter (if w.profile = 0 then w.restReports w.restV else w) w.restV := by
  rw [Chip.entryRestEnd, if_pos (by simp [hp, hf])]
  simp only [Chip.when, Chip.chgEnter, Bool.and_eq_true, decide_eq_true_eq]

theorem Chip.entryRestEnd_elsewhere {m : Chip} (hp : (m.batTick m.chgFrozen).bat.phase ≠ .entry) :
    m.entryRestEnd = m.batTick m.chgFrozen :=
  if_neg (by simp [hp])

/-! ### Trickle and pre-charge (R385) -/

theorem Chip.trickleDone_trickle {m : Chip} {t : Nat} (ht : m.bat.lowAt = some t) (hp : m.bat.phase = .trickle)
    (hf : m.chgFrozen = false) : m.trickleDone = (m.elapse t 10000000).chgTo .prechg true := by
  rw [Chip.trickleDone, ht]
  exact if_pos (by simp [hp, hf])

theorem Chip.trickleDone_elsewhere {m : Chip} (hp : m.bat.phase ≠ .trickle) : m.trickleDone = m := by
  unfold Chip.trickleDone
  split
  · exact if_neg (by simp [hp])
  · rfl

theorem Chip.prechgDone_prechg {m : Chip} {t : Nat} (ht : m.bat.preAt = some t) (hp : m.bat.phase = .prechg)
    (hf : m.chgFrozen = false) : m.prechgDone = (m.elapse t 10000000).chgTo .bulk true := by
  rw [Chip.prechgDone, ht]
  exact if_pos (by simp [hp, hf])

theorem Chip.prechgDone_elsewhere {m : Chip} (hp : m.bat.phase ≠ .prechg) : m.prechgDone = m := by
  unfold Chip.prechgDone
  split
  · exact if_neg (by simp [hp])
  · rfl

/-- The charger ends in FAULT with a fault once a phase timer that reads `us` has reached `top`. -/
def Chip.chgExpire (m : Chip) (us top bit : Nat) : Chip := ((m.chgWait us top).chgTo .fault false).chgFault bit

/-- TRICKLE that lasts TTRK was not accepted. -/
theorem Chip.chgNoaccept_trickle {m : Chip} (hp : (m.batTick m.chgFrozen).bat.phase = .trickle)
    (hf : (m.batTick m.chgFrozen).chgFrozen = false) :
    m.chgNoaccept =
      let k := m.batTick m.chgFrozen
      k.chgExpire k.bat.phaseUs (k.fld .batChgTmr 0 7 0 * 60000000) 1 := by
  rw [Chip.chgNoaccept, if_pos (by simp [hp, hf]), if_pos hp]
  rfl

/-- PRECHG that lasts TPRE was not accepted. -/
theorem Chip.chgNoaccept_prechg {m : Chip} (hp : (m.batTick m.chgFrozen).bat.phase = .prechg)
    (hf : (m.batTick m.chgFrozen).chgFrozen = false) :
    m.chgNoaccept =
      let k := m.batTick m.chgFrozen
      k.chgExpire k.bat.phaseUs (k.fld .batChgTmr 0 15 8 * 60000000) 1 := by
  rw [Chip.chgNoaccept, if_pos (by simp [hp, hf]), if_neg (by simp [hp])]
  rfl

/-! ### Intervals and rests (R386, R388) -/

/-- A native ON interval lasts TON; a rest follows, and the mean of its last 10 s is kept. -/
theorem Chip.onIntervalEnd_native {m : Chip}
    (hp : (m.batTick m.chgFrozen).bat.phase = .bulk ∨ (m.batTick m.chgFrozen).bat.phase = .topoff)
    (hn : (m.batTick m.chgFrozen).profile = 0) (hr : (m.batTick m.chgFrozen).bat.rest = false)
    (hf : (m.batTick m.chgFrozen).chgFrozen = false) :
    m.onIntervalEnd =
      let k := m.batTick m.chgFrozen
      let w := k.chgWait k.bat.ivUs (k.fld .batChgPulse 0 7 0 * 1000000)
      Chip.chgCompute { w with bat := { w.bat with
        rest := true, ivUs := 0, steady := true,
        onMean := segMean w.bat.iSeg w.now (min 10000000 (k.fld .batChgPulse 0 7 0 * 1000000)) } } :=
  if_pos (by simp [hp, hn, hr, hf])

/-- A rest whose current has moved is not steady, whatever the currents are when it ends. -/
theorem Chip.restSteady_moved {m : Chip} (hs : m.bat.steady = false) : m.restSteady = false := by
  simp [Chip.restSteady, hs]

/-- A rest that was not steady is not reported. -/
theorem Chip.restReports_unsteady {m : Chip} (v : Int) (hs : m.restSteady = false) : m.restReports v = m := if_neg (by simp [hs])

/-- A rest that was not steady ends in an ON interval, and reports nothing. -/
theorem Chip.restEnd_unsteady {m : Chip} (hr : (m.batTick m.chgFrozen).bat.rest = true)
    (hf : (m.batTick m.chgFrozen).chgFrozen = false)
    (hs : ((m.batTick m.chgFrozen).chgWait (m.batTick m.chgFrozen).bat.ivUs
      ((m.batTick m.chgFrozen).fld .batChgPulse 0 15 8 * 100000)).bat.steady = false) :
    m.restEnd =
      let k := m.batTick m.chgFrozen
      let w := k.chgWait k.bat.ivUs (k.fld .batChgPulse 0 15 8 * 100000)
      Chip.chgCompute { w with bat := { w.bat with rest := false, ivUs := 0, restOk := false } } := by
  rw [Chip.restEnd, if_pos (by simp [hr, hf])]
  simp only [Chip.restSteady_moved hs, Bool.false_and, Bool.false_eq_true, if_false]
  exact congrArg Chip.chgCompute (Chip.restReports_unsteady _ (Chip.restSteady_moved hs))

theorem Chip.restEnd_elsewhere {m : Chip} (hr : (m.batTick m.chgFrozen).bat.rest = false) :
    m.restEnd = m.batTick m.chgFrozen :=
  if_neg (by simp [hr])

/-! ### Termination, time-out and recharge (R385 to R387) -/

/-- A continuous profile ends TOPOFF once the current has been low for TTERM. -/
theorem Chip.chgTerminate_continuous {m : Chip} {t : Nat} (hp : (m.batTick m.chgFrozen).bat.phase = .topoff)
    (hf : (m.batTick m.chgFrozen).chgFrozen = false) (hn : (m.batTick m.chgFrozen).profile ≠ 0)
    (ht : (m.batTick m.chgFrozen).bat.termAt = some t) :
    m.chgTerminate =
      ((m.batTick m.chgFrozen).elapse t ((m.batTick m.chgFrozen).fld .batChgPulse 0 23 16 * 1000000)).topoffEnd := by
  rw [Chip.chgTerminate, if_pos (by simp [hp, hf]), if_neg hn, ht]

theorem Chip.chgTerminate_elsewhere {m : Chip} (hp : (m.batTick m.chgFrozen).bat.phase ≠ .topoff) :
    m.chgTerminate = m.batTick m.chgFrozen :=
  if_neg (by simp [hp])

/-- BULK and TOPOFF together last TCHG at most. -/
theorem Chip.chgTimeout_bulk {m : Chip}
    (hp : (m.batTick m.chgFrozen).bat.phase = .bulk ∨ (m.batTick m.chgFrozen).bat.phase = .topoff)
    (hf : (m.batTick m.chgFrozen).chgFrozen = false) :
    m.chgTimeout =
      let k := m.batTick m.chgFrozen
      k.chgExpire k.bat.bulkUs (k.fld .batChgTmr 0 31 16 * 60000000) 0 :=
  if_pos (by simp [hp, hf])

/-- FLOAT is recharged once the voltage has been below VRCH for 10 s. -/
theorem Chip.chgRecharge_float {m : Chip} {t : Nat} (hp : (m.batTick m.chgFrozen).bat.phase = .float)
    (hf : (m.batTick m.chgFrozen).chgFrozen = false) (ht : (m.batTick m.chgFrozen).bat.rchAt = some t) :
    m.chgRecharge = ((m.batTick m.chgFrozen).elapse t 10000000).chgTo .bulk true := by
  rw [Chip.chgRecharge, if_neg (by simp [hf]), if_neg (by simp [hp]), ht]
  exact if_pos hp

/-- Only DONE and FLOAT are recharged. -/
theorem Chip.chgRecharge_elsewhere {m : Chip} (hd : (m.batTick m.chgFrozen).bat.phase ≠ .done)
    (hp : (m.batTick m.chgFrozen).bat.phase ≠ .float) : m.chgRecharge = m.batTick m.chgFrozen := by
  rw [Chip.chgRecharge, if_neg hd]
  simp only [hp, if_false]
  cases (m.batTick m.chgFrozen).bat.rchAt <;> exact ite_self _

/-! ### Overvoltage (R385, R397) -/

/-- In a phase that charges, 100 ms above VOVP end in FAULT with fault 2. -/
theorem Chip.chgOvervolt_charging {m : Chip} {t : Nat} (ht : m.bat.ovAt = some t) (hf : m.bat.phase ≠ .fault)
    (hi : m.bat.phase ≠ .idle) : m.chgOvervolt = ((m.elapse t 100000).chgTo .fault false).chgFault 2 := by
  rw [Chip.chgOvervolt, ht]
  exact if_neg (by simp [hf, hi])

theorem Chip.chgOvervolt_fault {m : Chip} (hf : m.bat.phase = .fault) : m.chgOvervolt = m := by
  unfold Chip.chgOvervolt
  split
  · exact if_pos (by simp [hf])
  · rfl

/-- Settles O44: each row of the charger in the phase it names, and in the others. -/
theorem batteryCharging : Obligations.BatteryCharging := by
  refine ⟨fun s hu => completes_of (exec_chargeRecompute s) (Chip.whenUp_up _ hu),
    fun s hp hf => completes_of (exec_chgEntryRestEnd () s) (Chip.entryRestEnd_entry hp hf),
    fun s hp => completes_of (exec_chgEntryRestEnd () s) (Chip.entryRestEnd_elsewhere hp),
    fun s t ht hp hf => completes_of (exec_chgTrickleDone s) (Chip.trickleDone_trickle ht hp hf),
    fun s hp => completes_of (exec_chgTrickleDone s) (Chip.trickleDone_elsewhere hp),
    fun s t ht hp hf => completes_of (exec_chgPrechgDone s) (Chip.prechgDone_prechg ht hp hf),
    fun s hp => completes_of (exec_chgPrechgDone s) (Chip.prechgDone_elsewhere hp),
    fun s hp hf => completes_of (exec_chgNoaccept s) (Chip.chgNoaccept_trickle hp hf),
    fun s hp hf => completes_of (exec_chgNoaccept s) (Chip.chgNoaccept_prechg hp hf),
    fun s hp hn hr hf => completes_of (exec_chgOnIntervalEnd s) (Chip.onIntervalEnd_native hp hn hr hf),
    fun s hr hf hs => completes_of (exec_chgRestEnd () () s) (Chip.restEnd_unsteady hr hf hs),
    fun s hr => completes_of (exec_chgRestEnd () () s) (Chip.restEnd_elsewhere hr),
    fun s t hp hf hn ht => completes_of (exec_chgTermination s) (Chip.chgTerminate_continuous hp hf hn ht),
    fun s hp => completes_of (exec_chgTermination s) (Chip.chgTerminate_elsewhere hp),
    fun s hp hf => completes_of (exec_chgTimeout s) (Chip.chgTimeout_bulk hp hf),
    fun s t hp hf ht => completes_of (exec_chgRecharge s) (Chip.chgRecharge_float hp hf ht),
    fun s hp => completes_of (exec_chgRecharge s) (Chip.chgRecharge_elsewhere (by simp [hp]) (by simp [hp])),
    fun s t ht hf hi => completes_of (exec_chgOvervolt s) (Chip.chgOvervolt_charging ht hf hi),
    fun s hf => completes_of (exec_chgOvervolt s) (Chip.chgOvervolt_fault hf)⟩

end Sys2Proof.Machine
end

section
/-!
PROOFS. The battery estimator: its update, its tone windows and current steps, the module reads, the store of its records and the
commands of EST_CMD (R401, R403 to R408, R415, R417, R420 to R424).
-/

namespace Sys2Proof.Machine

/-! ### A string's estimate after a write, and what time leaves alone -/

theorem Tab.erase_erase_self {κ α : Type} [DecidableEq κ] (t : Tab κ α) (k : κ) :
    Tab.erase (Tab.erase t k) k = Tab.erase t k := by
  induction t with
  | nil => rfl
  | cons e t ih => by_cases h : k = e.1 <;> simp [Tab.erase, h] <;> simpa [h] using ih

theorem Tab.erase_insert_self {κ α : Type} [DecidableEq κ] (lt : κ → κ → Bool) (t : Tab κ α) (k : κ) (v : α) :
    Tab.erase (Tab.insert lt t k v) k = Tab.erase t k := by
  induction t with
  | nil => simp [Tab.insert, Tab.erase]
  | cons e t ih => by_cases hl : lt k e.1 <;> simp [Tab.insert, Tab.erase, hl, ih]

/-- A second write of a key leaves nothing of the first. -/
theorem Tab.set_set_self {κ α : Type} [DecidableEq κ] [DecidableEq α] (lt : κ → κ → Bool) (f : κ → α) (t : Tab κ α) (k : κ)
    (v w : α) : Tab.set lt f (Tab.set lt f t k v) k w = Tab.set lt f t k w := by
  have he : Tab.erase (Tab.set lt f t k v) k = Tab.erase t k := by
    by_cases hv : v = f k
    · rw [Tab.set, if_pos hv, Tab.erase_erase_self]
    · rw [Tab.set, if_neg hv, Tab.erase_insert_self, Tab.erase_erase_self]
  rw [Tab.set, he, Tab.set]

@[simp] theorem Chip.estr_putEstr_self (m : Chip) (n : Nat) (x : EstStr) : (m.putEstr n x).estr n = x := NTab.get_set_self ..

theorem Chip.putEstr_putEstr_self (m : Chip) (n : Nat) (x y : EstStr) : (m.putEstr n x).putEstr n y = m.putEstr n y :=
  congrArg (fun t => { m with est := { m.est with str := t } }) (Tab.set_set_self ..)

@[simp] theorem Chip.estr_elapse (m : Chip) (t d n : Nat) : (m.elapse t d).estr n = m.estr n := rfl
@[simp] theorem Chip.fld_elapse (m : Chip) (t d : Nat) (r : RName) (i hi lo : Nat) :
    (m.elapse t d).fld r i hi lo = m.fld r i hi lo := rfl
@[simp] theorem Chip.strV_elapse (m : Chip) (t d n : Nat) : (m.elapse t d).strV n = m.strV n := rfl

/-! ### The update (R401, R408) -/

/-- The strings that the update advances: in use, and started. -/
theorem Chip.estUpdate_started {m : Chip} {n : Nat} {ns : List Nat} (hr : m.estRuns = true)
    (hn : (List.range 4).filter (fun n => m.strOn n && (m.estr n).origin != 0) = n :: ns) :
    m.estUpdate = (n :: ns).foldl Chip.estAdvance (m.elapse (m.estr n).updAt 100000) := by
  rw [Chip.estUpdate, if_neg (by simp [hr])]
  simp only [hn]

theorem Chip.estUpdate_off {m : Chip} (hr : m.estRuns = false) : m.estUpdate = m := if_pos (by simp [hr])

/-! ### Tone windows (R404, R405) -/

/-- The next window of tone t starts at string n while the tone is on. -/
def Chip.corrNext (m : Chip) (n t : Nat) : Chip :=
  m.putEstr n { m.estr n with corr := if m.corrOn n t then Tab.insert ltN (Tab.erase (m.estr n).corr t) t (m.corrNew t)
                                      else Tab.erase (m.estr n).corr t }

/-- A window that has ended is taken or counted as bad; either way the next one starts. -/
def Chip.corrClose (m : Chip) (n t : Nat) (k : Corr) : Chip :=
  (if m.corrValid n k then m.corrTake n t k
   else m.putEstr n { m.estr n with bad := satTo 65535 ((m.estr n).bad + 1) }).corrNext n t

theorem Chip.corrOn_putEstr (m : Chip) (j : Nat) (x : EstStr) (n t : Nat) : (m.putEstr j x).corrOn n t = m.corrOn n t := rfl
theorem Chip.corrNew_putEstr (m : Chip) (j : Nat) (x : EstStr) (t : Nat) : (m.putEstr j x).corrNew t = m.corrNew t := rfl

/-- The start of the next window and a write of the estimate before it are one write. -/
theorem Chip.corrNext_putEstr (m : Chip) (n t : Nat) (x : EstStr) :
    (m.putEstr n x).corrNext n t = m.putEstr n { x with
      corr := if m.corrOn n t then Tab.insert ltN (Tab.erase x.corr t) t (m.corrNew t) else Tab.erase x.corr t } := by
  rw [Chip.corrNext, Chip.estr_putEstr_self, Chip.putEstr_putEstr_self, Chip.corrOn_putEstr, Chip.corrNew_putEstr]

theorem Chip.windowEnd_runs {m : Chip} {n t t' : Nat} {k : Corr}
    (hk : (m.estr n).corr.find? (fun e => e.1 = t) = some (t', k)) (ho : m.estOn n = true) :
    m.windowEnd n t = (m.elapse 0 (m.corrEnd k)).corrClose n t k := by
  rw [Chip.windowEnd, hk]
  exact if_neg (by simp [ho])

theorem Chip.windowEnd_valid {m : Chip} {n t t' : Nat} {k : Corr}
    (hk : (m.estr n).corr.find? (fun e => e.1 = t) = some (t', k)) (ho : m.estOn n = true)
    (hv : (m.elapse 0 (m.corrEnd k)).corrValid n k = true) :
    m.windowEnd n t = ((m.elapse 0 (m.corrEnd k)).corrTake n t k).corrNext n t := by
  rw [Chip.windowEnd_runs hk ho, Chip.corrClose, if_pos hv]

/-- A window that is not valid counts in BAD, in the same write of the estimate that starts the next one. -/
theorem Chip.windowEnd_bad {m : Chip} {n t t' : Nat} {k : Corr}
    (hk : (m.estr n).corr.find? (fun e => e.1 = t) = some (t', k)) (ho : m.estOn n = true)
    (hv : (m.elapse 0 (m.corrEnd k)).corrValid n k = false) :
    m.windowEnd n t = (m.elapse 0 (m.corrEnd k)).putEstr n { m.estr n with
      bad := satTo 65535 ((m.estr n).bad + 1)
      corr := if (m.elapse 0 (m.corrEnd k)).corrOn n t then
          Tab.insert ltN (Tab.erase (m.estr n).corr t) t ((m.elapse 0 (m.corrEnd k)).corrNew t)
        else Tab.erase (m.estr n).corr t } := by
  rw [Chip.windowEnd_runs hk ho, Chip.corrClose, if_neg (by simp [hv]), Chip.corrNext_putEstr, Chip.estr_elapse]

theorem Chip.windowEnd_none {m : Chip} {n t : Nat} (hk : (m.estr n).corr.find? (fun e => e.1 = t) = none) :
    m.windowEnd n t = m := by
  rw [Chip.windowEnd, hk]

theorem Chip.windowEnd_off {m : Chip} {n : Nat} (t : Nat) (ho : m.estOn n = false) : m.windowEnd n t = m := by
  unfold Chip.windowEnd
  split
  · rfl
  · exact if_pos (by simp [ho])

/-! ### Rates and steps (R403, R407) -/

/-- A string in use whose channels have become too slow raises EST_CONFIG. -/
theorem Chip.estSlow_first {m : Chip} {n : Nat} (hu : m.strOn n = true) (hr : m.estRateOk n = false)
    (hs : has m.est.slow n = false) :
    m.estSlow n = Chip.raise { m with est := { m.est with slow := setM m.est.slow n } } 86 n [] := by
  simp [Chip.estSlow, hu, hr, hs]

/-- A qualifying step at a closed string: R0 is −dv ÷ di in the units of log entries 48 and 51, and TSTEP begins. -/
theorem Chip.estStep_seen {m : Chip} {n : Nat} {di dv v0 : Int} (ho : m.estOn n = true) (hc : m.strClosed n = true)
    (hs : m.estStepSeen n = some (di, dv, v0)) :
    m.estStep n = m.putEstr n { (m.estr n).setR0 (-dv * e32 / (10 * di)) (m.overRef n) with
      hiAt := m.now + 1, hiBy := 0, modStep := true
      step := some { di := di, dv := dv, stamp := m.now, v0 := v0, iNew := m.strI n, vs := [(m.now, m.strV n)] }
      corr := (m.estr n).corr.map (fun e => (e.1, { e.2 with ok := e.2.ok && !m.corrBegun e.2 })) } := by
  rw [Chip.estStep, if_neg (by simp [ho, hc]), hs]

theorem Chip.estStep_unseen {m : Chip} {n : Nat} (hs : m.estStepSeen n = none) : m.estStep n = m := by
  rw [Chip.estStep, hs]
  exact ite_self _

/-- The end of TSTEP writes one estimate: its RPOL is that of the rise since the step, and no step is left in it. -/
theorem Chip.estTstep_step {m : Chip} {n : Nat} {st : EstStep} (hs : (m.estr n).step = some st) :
    ∃ x : EstStr, m.estTstep n = (m.elapse st.stamp (m.fld .estStepcfg 0 15 8 * 100000)).putEstr n x ∧
      x.learned.rpol = -(m.strV n - st.v0 - st.dv) * e32 / (10 * st.di) ∧ x.step = none := by
  rw [Chip.estTstep, hs]
  exact ⟨_, rfl, congrArg (fun v => -(v - st.v0 - st.dv) * e32 / (10 * st.di)) (Chip.strV_elapse ..), rfl⟩

theorem Chip.estTstep_none {m : Chip} {n : Nat} (hs : (m.estr n).step = none) : m.estTstep n = m := by
  rw [Chip.estTstep, hs]

/-! ### Module reads (R415) -/

theorem Chip.moduleRead_configured {m : Chip} {n : Nat} (ho : m.estOn n = true) (hf : m.flag .batStrMon n 31 = true) :
    m.moduleRead n =
      let w := m.elapse (m.estr n).modAt 10000000
      (w.putEstr n { w.estr n with modAt := w.now }).vendorIssue .read (m.fld .batStrMon n 11 0) 0x011 0 := by
  rw [Chip.moduleRead, if_neg (by simp [ho, hf])]
  exact congrArg (Chip.vendorIssue _ .read · 0x011 0) (Chip.fld_elapse ..)

theorem Chip.moduleRead_noMonitor {m : Chip} {n : Nat} (hf : m.flag .batStrMon n 31 = false) : m.moduleRead n = m :=
  if_pos (by simp [hf])

/-! ### The store (R420 to R422) -/

/-- A write that ends commits its slot, reports event 219 and starts the write that fell due meanwhile. -/
theorem Chip.storeDone_writing {m : Chip} {b : Bool} (hw : m.est.writing = some b) :
    m.storeDone =
      let w := m.elapse m.est.writeAt 2100
      let w := w.putEstSlot b { w.estSlot b with commit := (w.estSlot b).seq }
      let w : Chip := { w with est := { w.est with writing := none, doneAt := w.now, everDone := true } }
      let w := (w.eventRecord 219 0 []).event 219
      if w.est.due then ({ w with est := { w.est with due := false } } : Chip).storeDue else w := by
  rw [Chip.storeDone, hw]

theorem Chip.storeDone_idle {m : Chip} (hw : m.est.writing = none) : m.storeDone = m := by
  rw [Chip.storeDone, hw]

/-- An abandoned write is begun again at the same slot. -/
theorem Chip.storeRetry_abandoned {m : Chip} {b : Bool} (ha : m.est.abandoned = some b) (he : m.pwr.ecdFired = false)
    (hw : m.est.writing = none) :
    m.storeRetry = { m with est := { m.est with writing := some b, writeAt := m.now, abandoned := none } } := by
  rw [Chip.storeRetry, ha]
  exact if_neg (by simp [he, hw])

theorem Chip.storeRetry_nothing {m : Chip} (ha : m.est.abandoned = none) (hd : m.est.due = false) : m.storeRetry = m := by
  rw [Chip.storeRetry, ha]
  exact if_neg (by simp [hd])

/-- With none abandoned, the write that fell due meanwhile starts. -/
theorem Chip.storeRetry_due {m : Chip} (ha : m.est.abandoned = none) (hd : m.est.due = true) (hw : m.est.writing = none)
    (he : m.pwr.ecdFired = false) : m.storeRetry = ({ m with est := { m.est with due := false } } : Chip).storeDue := by
  rw [Chip.storeRetry, ha]
  exact if_pos (by simp [hd, hw, he])

/-! ### Commands (R417, R421, R424) -/

/-- A command of EST_CMD carries its string or record in bits 11:8. -/
theorem bits_estCommand_operand {c k : Nat} (hc : c < 256) (hk : k < 16) : bits (wd (c + k * 256)) 11 8 = k := by
  simp only [bits, wd, BitVec.toNat_ofNat]
  omega

/-- The effect of an accepted RELEARN. -/
theorem Chip.regAct_estRelearn (m : Chip) (ag : Agent) (n : Fin 4) :
    (m.regAct ag .estCmd 0 (wd (2 + n.val * 256))).eff m = (((m.estUnknown n).estInsertion n).estStatus .ok 2, .ok) := by
  have hc : bits (wd (2 + n.val * 256)) 3 0 = 2 := bits_stringCommand_code n (by decide)
  have hn : bits (wd (2 + n.val * 256)) 11 8 = n := bits_estCommand_operand (by decide) (by omega)
  show (estCmdAct (wd (2 + n.val * 256)) m).eff m = _
  simp only [estCmdAct, hc, hn]

/-- The effect of an accepted FORGET: the record, counted after the live ones, leaves the frozen ones. -/
theorem Chip.regAct_estForget (m : Chip) (ag : Agent) (k : Fin 16) :
    (m.regAct ag .estCmd 0 (wd (3 + k.val * 256))).eff m =
      (({ m with est := { m.est with frozen := m.est.frozen.eraseIdx (k - m.liveRecords.length) } } : Chip).estStatus .ok 3,
        .ok) := by
  have hc : bits (wd (3 + k.val * 256)) 3 0 = 3 := bits_stringCommand_code k (by decide)
  have hk : bits (wd (3 + k.val * 256)) 11 8 = k := bits_estCommand_operand (by decide) k.isLt
  show (estCmdAct (wd (3 + k.val * 256)) m).eff m = _
  simp only [estCmdAct, hc, hk]

/-- Settles O45: each row of the estimator in the state it names, and in the states that leave it nothing to do; the commands of
EST_CMD are granted writes of their codes. -/
theorem batteryEstimation : Obligations.BatteryEstimation := by
  refine ⟨fun s n ns hr hn => completes_of (exec_estUpdate s) (Chip.estUpdate_started hr hn),
    fun s hr => completes_of (exec_estUpdate s) (Chip.estUpdate_off hr),
    fun s n t k hk ho hv => completes_of (exec_estWindowEnd n t () () () () () () s) (Chip.windowEnd_bad hk ho hv),
    fun s n t k hk ho hv => completes_of (exec_estWindowEnd n t () () () () () () s) (Chip.windowEnd_valid hk ho hv),
    fun s n t hk => completes_of (exec_estWindowEnd n t () () () () () () s) (Chip.windowEnd_none hk),
    fun s n t k _ ho => completes_of (exec_estWindowEnd n t () () () () () () s) (Chip.windowEnd_off t ho),
    fun m n hu hr hs => Chip.estSlow_first hu hr hs,
    fun s n di dv v0 ho hc hs => completes_of (exec_estStep n () () s) (Chip.estStep_seen ho hc hs),
    fun s n hs => completes_of (exec_estStep n () () s) (Chip.estStep_unseen hs),
    fun s n st hs => ?tstep,
    fun s n hs => completes_of (exec_estStepTstep n () () s) (Chip.estTstep_none hs),
    fun s n ho hf => completes_of (exec_estModuleRead n () s) (Chip.moduleRead_configured ho hf),
    fun s n hf => completes_of (exec_estModuleRead n () s) (Chip.moduleRead_noMonitor hf),
    fun s hu => completes_of (exec_estStorePeriodic s) (Chip.whenUp_up _ hu),
    fun s b hw => completes_of (exec_estStored s) (Chip.storeDone_writing hw),
    fun s hw => completes_of (exec_estStored s) (Chip.storeDone_idle hw),
    fun s b ha he hw => completes_of (exec_estStoreRetry s) (Chip.storeRetry_abandoned ha he hw),
    fun s ha hd => completes_of (exec_estStoreRetry s) (Chip.storeRetry_nothing ha hd),
    fun s ha hd hw he => completes_of (exec_estStoreRetry s) (Chip.storeRetry_due ha hd hw he),
    writeRow_of (fun _ _ => rfl) targetOf_estCmd (fun _ _ => rfl),
    fun n => writeRow_of (fun _ _ => rfl) targetOf_estCmd (fun ag m => m.regAct_estRelearn ag n),
    fun k => writeRow_of (fun _ _ => rfl) targetOf_estCmd (fun ag m => m.regAct_estForget ag k)⟩
  case tstep =>
    obtain ⟨x, hx, hrpol, hstep⟩ := Chip.estTstep_step hs
    refine ⟨_, completes_of (exec_estStepTstep n () () s) hx, ?_, ?_, ?_, ?_⟩
    · rw [Chip.estr_putEstr_self, hrpol]
    · rw [Chip.estr_putEstr_self, hstep]
    · rw [Chip.putEstr_now]
      exact Chip.elapse_reaches ..
    · rw [Chip.putEstr_regs, Chip.elapse, Chip.advance_regs]

end Sys2Proof.Machine
end

section
/-!
PROOFS. The partners: writes of the partner table, path starts, time-outs, polls, generation holds, credit stalls, and the commands
of PTN_CMD with the end of a discovery (R428, R434, R437, R446 to R448, R450, R452, R454, R456, R459).
-/

namespace Sys2Proof.Machine

/-! ### The partner table (R428) -/

/-- The effect of an accepted write of words 1 to 3: the writable bits are stored and the entry's state stays. -/
theorem tableAct_pathWords (m : Chip) (e : Nat) {w : Nat} (d : Word) (h1 : 1 ≤ w) (h3 : w ≤ 3) :
    (tableAct e w d m).eff m = (({ m with ptn := { m.ptn with
      table := NTab.set 0 m.ptn.table (8 * e + w) (d &&& wd (tabMask w)) } } : Chip), .ok) := by
  simp [tableAct, Chip.pwAfter, show ¬4 < w by omega, show w ≠ 4 by omega, show w ≠ 0 by omega]

theorem partnerTableWrite_granted {s : State} {ag : Agent} (e : BitVec 12) (w : Fin 8) {d : Word} (h1 : 1 ≤ w.val)
    (h3 : w.val ≤ 3) (hg : s.m.grants ag (0x400000 + 32 * e.toNat + 4 * w.val) d) :
    Completes (.partnerTableWrite ag e w d) s (s.m.written { s.m with ptn := { s.m.ptn with
      table := NTab.set 0 s.m.ptn.table (8 * e.toNat + w.val) (d &&& wd (tabMask w)) } } ag
        (0x400000 + 32 * e.toNat + 4 * w.val) .ok) := by
  refine completes_of (exec_partnerTableWrite ag e w d s) ?_
  have ha : s.m.writeAct ag (0x400000 + 32 * e.toNat + 4 * w.val) d = tableAct e.toNat w d s.m := by
    rw [Chip.writeAct, targetOf_table]
  rw [Chip.portWrite_granted hg, ha, tableAct_pathWords s.m e.toNat d h1 h3]

/-! ### Path starts and time-outs (R434, R437) -/

theorem Chip.pathStart_bus (m : Chip) {p : Nat} (sel : Nat) (h : p < 16) : m.pathStart p sel = m.busStart p sel := if_pos h

theorem Chip.pathStart_segment (m : Chip) {p : Nat} (sel : Nat) (h : 16 ≤ p) : m.pathStart p sel = m.segStart (p - 16) :=
  if_neg (Nat.not_lt.2 h)

theorem Chip.txnTimeout_head {m : Chip} {e t0 : Nat} {t : Txn} (ht : m.headTxn e = some t) (h0 : t.headAt = some t0) :
    m.txnTimeout e =
      (m.elapse t0 ((if bits (m.pw e 0) 15 8 = 0 then 50 else bits (m.pw e 0) 15 8) * 1000)).endTxn t .etimeout 0 := by
  simp only [Chip.txnTimeout, ht, h0]

theorem Chip.txnTimeout_none {m : Chip} {e : Nat} (ht : m.headTxn e = none) : m.txnTimeout e = m := by
  rw [Chip.txnTimeout, ht]

theorem Chip.qmaxExpiry_earliest {m : Chip} {e : Nat} {t : Txn}
    (ht : ((m.entTxns e).filter (fun t => t.early.isNone && !t.held)).foldl earlier none = some t) :
    m.qmaxExpiry e = (m.elapse t.issued (m.fld .ptnQmax 0 13 0 * 1000)).endTxn t .etimeout 0 := by
  rw [Chip.qmaxExpiry, ht]

theorem Chip.qmaxExpiry_idle {m : Chip} {e : Nat} (ht : m.entTxns e = []) : m.qmaxExpiry e = m := by
  rw [Chip.qmaxExpiry, ht]
  rfl

/-! ### Polls (R447, R448) -/

@[simp] theorem Chip.ent_putEnt_self (m : Chip) (e : Nat) (x : Ent) : (m.putEnt e x).ent e = x := NTab.get_set_self ..

/-- The time of the next poll of entry e, set when one is due. -/
def Chip.pollNext (m : Chip) (e : Nat) : Chip :=
  (m.elapse (m.ent e).pollAt 0).putEnt e { m.ent e with pollAt := (m.elapse (m.ent e).pollAt 0).now + m.pollPer e }

theorem Chip.pollsOut_pollNext (m : Chip) (e : Nat) : (m.pollNext e).pollsOut = m.pollsOut := rfl
theorem Chip.fld_pollNext (m : Chip) (e : Nat) (r : RName) (i hi lo : Nat) : (m.pollNext e).fld r i hi lo = m.fld r i hi lo := rfl
theorem Chip.entTxns_pollNext (m : Chip) (e : Nat) : (m.pollNext e).entTxns e = m.entTxns e := rfl
theorem Chip.ringStalled_pollNext (m : Chip) (e : Nat) : (m.pollNext e).ringStalled = m.ringStalled := rfl
theorem Chip.poolFull_pollNext (m : Chip) (e : Nat) (c : Bool) : (m.pollNext e).poolFull c = m.poolFull c := rfl

/-- The time of a poll fences nothing. -/
theorem Chip.entFenced_pollNext (m : Chip) (e : Nat) : (m.pollNext e).entFenced e = m.entFenced e := by
  have hp : (m.pollNext e).pathFenced e = m.pathFenced e := rfl
  rw [Chip.entFenced, hp, Chip.pollNext, Chip.ent_putEnt_self]
  rfl

/-- What keeps a due poll of entry e from being issued (R448). -/
def Chip.pollBlocked (m : Chip) (e : Nat) : Bool :=
  (m.entTxns e).any (fun t => t.kind = .poll) || m.fld .ptnCfg 0 23 16 ≤ m.pollsOut || m.ringStalled ||
    m.entFenced e || m.poolFull false

theorem Chip.pollBlocked_pollNext (m : Chip) (e : Nat) : (m.pollNext e).pollBlocked e = m.pollBlocked e := by
  rw [Chip.pollBlocked, Chip.entTxns_pollNext, Chip.fld_pollNext, Chip.pollsOut_pollNext, Chip.ringStalled_pollNext,
    Chip.entFenced_pollNext, Chip.poolFull_pollNext, Chip.pollBlocked]

section
variable {m : Chip} {e : Nat} (hd : m.entDefined e = true) (ht : bitOf (m.pw e 4) 31 = true) (hb : m.pwr.base ≠ .shadow)
include hd ht hb

/-- A due poll that something keeps back is lost. -/
theorem Chip.pollDue_blocked (hk : m.pollBlocked e = true) : m.pollDue e = (m.pollNext e).pollLost e := by
  rw [← Chip.pollBlocked_pollNext] at hk
  rw [Chip.pollDue, if_neg (by simp [hd, ht, hb])]
  exact if_pos hk

/-- A due poll of an item of 1 to 4 bytes that nothing keeps back is accepted. -/
theorem Chip.pollDue_accepted {r n : Nat} (hk : m.pollBlocked e = false)
    (hi : itemOf (m.entClass e) (bits (m.pw e 4) 27 16) = some (r, n)) (hn : 1 ≤ n ∧ n ≤ 4) :
    m.pollDue e = (m.pollNext e).accept e (bits (m.pw e 4) 27 16) .poll .lib 0 0 0 none false := by
  rw [← Chip.pollBlocked_pollNext] at hk
  rw [Chip.pollDue, if_neg (by simp [hd, ht, hb]), hi]
  exact (if_neg (Bool.eq_false_iff.1 hk)).trans (if_neg (by simp [hn]))

end

theorem Chip.pollDue_off {m : Chip} {e : Nat} (ht : bitOf (m.pw e 4) 31 = false) : m.pollDue e = m := if_pos (by simp [ht])

/-- An outstanding poll of the entry itself keeps its next one back. -/
theorem Chip.pollBlocked_outstanding {m : Chip} {e : Nat} (h : (m.entTxns e).any (fun t => t.kind = .poll) = true) :
    m.pollBlocked e = true := by
  simp only [Chip.pollBlocked, h, Bool.true_or]

theorem Chip.pollBlocked_free {m : Chip} {e : Nat} (hp : ∀ t ∈ m.entTxns e, t.kind ≠ .poll)
    (hm : m.pollsOut < m.fld .ptnCfg 0 23 16) (hr : m.ringStalled = false) (hf : m.entFenced e = false)
    (hl : m.poolFull false = false) : m.pollBlocked e = false := by
  have ha : (m.entTxns e).any (fun t => t.kind = .poll) = false := by simpa using hp
  simp only [Chip.pollBlocked, ha, hr, hf, hl, decide_eq_false (Nat.not_le.2 hm), Bool.or_self]

/-! ### Generation holds (R446) -/

/-- The end of a hold, for neighbours or for rectifiers and groups: its flag falls, and the transactions it held are issued now. -/
theorem Chip.holdEnd_held {m : Chip} {shelf : Bool} (h : (if shelf then m.ptn.holdShelf else m.ptn.holdRect) = true) :
    m.holdEnd shelf = let w := m.elapse m.ptn.holdAt (m.ghold shelf * 1000)
      { w with ptn := { m.ptn with
        holdShelf := !shelf && m.ptn.holdShelf
        holdRect := shelf && m.ptn.holdRect
        pool := m.ptn.pool.map (fun t =>
          if t.held && (m.entClass t.entry = 6) = shelf then { t with held := false, issued := w.now } else t) } } := by
  rw [Chip.holdEnd, if_neg (by simp [h])]
  cases shelf <;> rfl

/-! ### Credit stalls (R452) -/

theorem Chip.creditStall_waiting {m : Chip} {e c t0 : Nat} (h : (m.ent e).stall = some (c, t0, false)) :
    m.creditStall e c =
      let w := m.elapse t0 (m.fld .ptnCrto 0 7 0 * 1000)
      (w.putEnt e { w.ent e with stall := some (c, t0, true) }).raise 89 e [] := by
  rw [Chip.creditStall, h]
  exact if_neg (by simp)

theorem Chip.creditStall_none {m : Chip} {e : Nat} (c : Nat) (h : (m.ent e).stall = none) : m.creditStall e c = m := by
  rw [Chip.creditStall, h]

/-! ### Commands and discovery (R454, R456, R459) -/

theorem bits_unfence_code (e : Nat) : bits (wd (1 + e * 16)) 3 0 = 1 := by
  simp only [bits, wd, BitVec.toNat_ofNat]
  omega

theorem bits_unfence_entry (e : BitVec 12) : bits (wd (1 + e.toNat * 16)) 15 4 = e.toNat := by
  simp only [bits, wd, BitVec.toNat_ofNat]
  omega

/-- The effect of an accepted UNFENCE. -/
theorem Chip.regAct_partnerUnfence (m : Chip) (ag : Agent) (e : BitVec 12) :
    (m.regAct ag .ptnCmd 0 (wd (1 + e.toNat * 16))).eff m = ((m.entUnfence e.toNat).ptnStatus .ok 1, .ok) := by
  show (ptnCmdAct (wd (1 + e.toNat * 16)) m).eff m = _
  simp only [ptnCmdAct, bits_unfence_code, bits_unfence_entry]

/-- The effect of an accepted DISCOVER: the addresses are probed from 0x08, and a segment is asked for its identities. -/
theorem Chip.regAct_discover (m : Chip) (ag : Agent) (d : Word) :
    (m.regAct ag .ptnCmd 0 (setBits d 3 0 2)).eff m =
      (((Chip.wake { m with ptn := { m.ptn with
          discRun := some (setBits d 3 0 2), discAt := m.now, discNext := 8, discArbs := 0, idAt := none } } .lnk).idRequest
            (setBits d 3 0 2)).ptnStatus .ok 2, .ok) := by
  have hc : bits (setBits d 3 0 2) 3 0 = 2 := bits_setBits d 2 (by decide) (by decide)
  show (ptnCmdAct (setBits d 3 0 2) m).eff m = _
  simp only [ptnCmdAct, hc]

theorem Chip.discovered_none {m : Chip} (h : m.ptn.discRun = none) : m.discovered = m := by
  rw [Chip.discovered, h]

theorem Chip.discovered_running {m : Chip} {d : Word} (h : m.ptn.discRun = some d) (ho : m.discOver d = false) :
    m.discovered = m := by
  rw [Chip.discovered, h]
  exact if_pos (by simp [ho])

/-- A discovery that waits for no identity request ends with event 222 and the number of responders. -/
theorem Chip.discovered_over {m : Chip} {d : Word} (h : m.ptn.discRun = some d) (ho : m.discOver d = true)
    (hi : m.ptn.idAt = none) :
    m.discovered =
      (({ m with ptn := { m.ptn with discRun := none } } : Chip).eventRecord 222 0 [wd m.ptn.disc.length]).event 222 := by
  rw [Chip.discovered, h]
  exact (if_neg (by simp [ho])).trans (by simp only [hi])

/-- Settles O46: a table write is a granted write of words 1 to 3; each row of a transaction, a poll, a hold, a stall or a discovery
acts in the state it names and changes nothing where it has nothing to do; the commands are granted writes of their codes. -/
theorem partnerTransactions : Obligations.PartnerTransactions := by
  refine ⟨fun s ag e w d h1 h3 hg => partnerTableWrite_granted e w h1 h3 hg,
    fun s p sel hp => completes_of (exec_transactionStart p sel s) (s.m.pathStart_bus sel hp),
    fun s p sel hp => completes_of (exec_transactionStart p sel s) (s.m.pathStart_segment sel hp),
    fun s e t t0 ht h0 => completes_of (exec_transactionTimeout e s) (Chip.txnTimeout_head ht h0),
    fun s e ht => completes_of (exec_transactionTimeout e s) (Chip.txnTimeout_none ht),
    fun s e t ht => completes_of (exec_qmaxExpiry e s) (Chip.qmaxExpiry_earliest ht),
    fun s e ht => completes_of (exec_qmaxExpiry e s) (Chip.qmaxExpiry_idle ht),
    fun s e r n hd ht hb hp hm hr hf hl hi hn => completes_of (exec_telemetryPoll e s)
      (Chip.pollDue_accepted hd ht hb (Chip.pollBlocked_free hp hm hr hf hl) hi hn),
    fun s e hd ht hb hp => completes_of (exec_telemetryPoll e s)
      (Chip.pollDue_blocked hd ht hb (Chip.pollBlocked_outstanding hp)),
    fun s e ht => completes_of (exec_telemetryPoll e s) (Chip.pollDue_off ht),
    fun s shelf h => ⟨_, completes_of (exec_generationHoldEnd shelf s) (Chip.holdEnd_held h), ?holdOver, rfl,
      s.m.elapse_reaches .., rfl⟩,
    fun s e c t0 h => completes_of (exec_ptnCreditStall e c s) (Chip.creditStall_waiting h),
    fun s e c h => completes_of (exec_ptnCreditStall e c s) (Chip.creditStall_none c h),
    fun d => writeRow_of (fun _ _ => rfl) targetOf_ptnTelRd (fun _ _ => rfl),
    fun e => writeRow_of (fun _ _ => rfl) targetOf_ptnCmd (fun ag m => m.regAct_partnerUnfence ag e),
    fun d => writeRow_of (fun _ _ => rfl) targetOf_ptnCmd (fun ag m => m.regAct_discover ag d),
    writeRow_of (fun _ _ => rfl) targetOf_ptnCmd (fun _ _ => rfl),
    fun s h => completes_of (exec_ptnDiscovered () s) (Chip.discovered_none h),
    fun s d h ho => completes_of (exec_ptnDiscovered () s) (Chip.discovered_running h ho),
    fun s d h ho hi => completes_of (exec_ptnDiscovered () s) (Chip.discovered_over h ho hi)⟩
  case holdOver => cases shelf <;> rfl

end Sys2Proof.Machine
end

section
/-!
PROOFS. The host port: its frames, the count of an irregular one, and the frames that meet an open one (R487, R488, R491, R520).
-/

namespace Sys2Proof.Machine

/-! ### Frames (R488, R491) -/

/-- A frame that begins while another is held open is ignored. -/
theorem Chip.hostFrame_open {m : Chip} (f : Chip → Chip) (ho : m.hostOpen = true) : m.hostFrame f = m :=
  if_pos (by simp [ho])

/-- A write whose access is not held is performed, and its status driven. -/
theorem Chip.hostTake_write {m : Chip} {addr : Nat} {d : Word} (hh : m.mustHold (hostHeld true addr d) = false) :
    m.hostTake (hostHeld true addr d) =
      let x := m.perform (hostHeld true addr d)
      x.1.hostDrive m.pwr.base [x.2.1.code] :=
  if_neg (Bool.eq_false_iff.1 hh)

/-- A read whose access is not held is performed, kept for a REREAD, and answered with its status, address and word. -/
theorem Chip.hostTake_read {m : Chip} {addr : Nat} (hh : m.mustHold (hostHeld false addr 0) = false) :
    m.hostTake (hostHeld false addr 0) =
      let x := m.perform (hostHeld false addr 0)
      (x.1.keepRead x.2.1 addr x.2.2).hostDrive m.pwr.base (readBody x.2.1 addr x.2.2) :=
  if_neg (Bool.eq_false_iff.1 hh)

/-- SUMMARY is accepted from a host that may read, outside boot and LOCKDOWN. -/
theorem Chip.sumStatus_ok {m : Chip} (hc : m.mayClass .host 0 = true) (hl : m.mode ≠ 0xB) (hb : m.pwr.base ≠ .boot) :
    m.sumStatus = .ok := by
  simp [Chip.sumStatus, hc, hl, hb]

section
variable {m : Chip} (ha : m.alive = true) (ho : m.hostOpen = false)
include ha ho

/-- A frame reaches a powered chip with no host frame open, which drives nothing as yet. -/
theorem Chip.hostFrame_closed (f : Chip → Chip) : m.hostFrame f = f m.hostSilent := if_neg (by simp [ha, ho])

theorem Chip.hostWrite_good {addr : Nat} {d : Word} (hh : m.hostSilent.mustHold (hostHeld true addr d) = false) :
    m.hostWrite true addr d =
      let x := m.hostSilent.perform (hostHeld true addr d)
      x.1.hostDrive m.pwr.base [x.2.1.code] :=
  (Chip.hostFrame_closed ha ho _).trans (Chip.hostTake_write hh)

theorem Chip.hostWrite_badCrc (addr : Nat) (d : Word) :
    m.hostWrite false addr d = m.hostSilent.crcCount.hostDrive m.pwr.base [Status.eproto.code] :=
  Chip.hostFrame_closed ha ho _

theorem Chip.hostRead_good {addr : Nat} (hh : m.hostSilent.mustHold (hostHeld false addr 0) = false) :
    m.hostRead true addr =
      let x := m.hostSilent.perform (hostHeld false addr 0)
      (x.1.keepRead x.2.1 addr x.2.2).hostDrive m.pwr.base (readBody x.2.1 addr x.2.2) :=
  (Chip.hostFrame_closed ha ho _).trans (Chip.hostTake_read hh)

theorem Chip.hostRead_badCrc (addr : Nat) :
    m.hostRead false addr = m.hostSilent.crcCount.hostDrive m.pwr.base (readBody .eproto addr 0) :=
  Chip.hostFrame_closed ha ho _

theorem Chip.hostSummary_good (hs : m.hostSilent.sumStatus = .ok) :
    m.hostSummary true = m.hostSilent.hostDrive m.pwr.base [0, m.hostSilent.sumByte] := by
  rw [Chip.hostSummary, Chip.hostFrame_closed ha ho]
  simp only [if_true, hs]
  rfl

theorem Chip.hostSummary_badCrc :
    m.hostSummary false = m.hostSilent.crcCount.hostDrive m.pwr.base [Status.eproto.code, 0] :=
  Chip.hostFrame_closed ha ho _

/-- REREAD repeats the last READ response. -/
theorem Chip.hostReread_kept {st : Status} {a : Nat} {w : Word} (hr : m.hst.lastRead = some (st, a, w)) :
    m.hostReread true = m.hostSilent.hostDrive m.pwr.base (readBody st a w) := by
  have hs : m.hostSilent.hst.lastRead = some (st, a, w) := hr
  rw [Chip.hostReread, Chip.hostFrame_closed ha ho, hs]
  rfl

/-- REREAD before any READ is answered ESTATE. -/
theorem Chip.hostReread_none (hr : m.hst.lastRead = none) :
    m.hostReread true = m.hostSilent.hostDrive m.pwr.base (readBody .estate 0 0) := by
  have hs : m.hostSilent.hst.lastRead = none := hr
  rw [Chip.hostReread, Chip.hostFrame_closed ha ho, hs]
  rfl

end

/-- A frame of 0xFF takes the port to one bit; a held access completes without a response. -/
theorem Chip.widthReset_alive {m : Chip} (ha : m.alive = true) :
    m.widthReset = Chip.putF { m with
      hst := { m.hst with resp := [], quad := false }
      pwr := { m.pwr with held := m.pwr.held.map (fun h => if h.ag = .host ∧ h.dst = 1 then { h with dst := 2 } else h) } }
      .hstCfg 0 1 1 0 := by
  rw [Chip.widthReset, if_neg (by simp [ha])]
  simp only [Bool.and_eq_true, decide_eq_true_eq]
  rfl

/-- Settles O48: each frame reaches a chip that listens and takes the effect of its opcode, its CRC and its access; a chip whose
frame is held open ignores the rest. -/
theorem hostPort : Obligations.HostPort :=
  ⟨fun s addr d ha ho hh => completes_of (exec_hostWrite true addr d s) (Chip.hostWrite_good ha ho hh),
    fun s addr d ha ho => completes_of (exec_hostWrite false addr d s) (Chip.hostWrite_badCrc ha ho addr.toNat d),
    fun s addr ha ho hh => completes_of (exec_hostRead true addr s) (Chip.hostRead_good ha ho hh),
    fun s addr ha ho => completes_of (exec_hostRead false addr s) (Chip.hostRead_badCrc ha ho addr.toNat),
    fun s ha ho hc hl hb => completes_of (exec_hostSummary true s) (Chip.hostSummary_good ha ho (Chip.sumStatus_ok hc hl hb)),
    fun s ha ho => completes_of (exec_hostSummary false s) (Chip.hostSummary_badCrc ha ho),
    fun s _ _ _ ha ho hr => completes_of (exec_hostReread true s) (Chip.hostReread_kept ha ho hr),
    fun s ha ho hr => completes_of (exec_hostReread true s) (Chip.hostReread_none ha ho hr),
    fun s ha => completes_of (exec_widthReset s) (Chip.widthReset_alive ha),
    fun s ha ho => completes_of (exec_hostFrameAbort .request s) (Chip.hostFrame_closed ha ho _),
    fun s ha ho => completes_of (exec_unknownOpcode s) (Chip.hostFrame_closed ha ho _),
    fun s c a d _ ho => ⟨completes_of (exec_hostWrite c a d s) (Chip.hostFrame_open _ ho),
      completes_of (exec_hostRead c a s) (Chip.hostFrame_open _ ho),
      completes_of (exec_hostSummary c s) (Chip.hostFrame_open _ ho),
      completes_of (exec_hostReread c s) (Chip.hostFrame_open _ ho),
      completes_of (exec_unknownOpcode s) (Chip.hostFrame_open _ ho)⟩⟩

end Sys2Proof.Machine
end

section
/-!
PROOFS. The authority masks, the mailboxes and the services that the firmware answers through them (R495, R499, R501, R505).
-/

namespace Sys2Proof.Machine

/-! ### Accesses -/

/-- A granted read of a register, by a command of its own, completes with the chip, the word and the status that the register's
block gives it. -/
theorem completes_regRd {i : Instr} {s : State} {ag : Agent} {r : RName} {n : Nat} {m' : Chip} {w : Word} {st : Status}
    (hx : exec i s = s.finish (s.m.regRd ag r n)) (ht : targetOf (r.addr n) = .reg r n)
    (hg : s.m.grantsRead ag (r.addr n)) (he : s.m.regRead ag r n = (m', w, st)) (hs : st ≠ .eauth) :
    Completes i s (m'.respond ag st w) := by
  obtain ⟨-, hv, -, -⟩ := id hg
  rw [Completes, hx, Chip.regRd, Chip.portRead_granted hg]
  simp only [Chip.busRead, hv, Chip.readAt, ht, he, hs, if_false]
  rfl

/-! ### Mailboxes (R499, R501) -/

/-- A word joins a queue with room; the first of a queue rings its receiver. -/
theorem Chip.mbxSend_joins {m : Chip} {c : Nat} {a : Bool} {d : Word} (hl : (m.mq c a).length < 16) :
    m.mbxSend c a d = (if m.mq c a = [] then (m.putMq c a [d]).ring (receiver c a) c
      else m.putMq c a (m.mq c a ++ [d]), .ok) := by
  rw [Chip.mbxSend, if_neg (by simpa [mqMax] using hl)]
  by_cases h : m.mq c a = [] <;> simp [h]

/-- The effect of a write of MBX_TX by an end of the channel: its side sends the word. -/
theorem Chip.regAct_hstMbxTx {m : Chip} {ag : Agent} {c : Nat} {a : Bool} (d : Word)
    (he : (m.endOf ag).bind (fun e => sideOf e c) = some a) : (m.regAct ag .hstMbxTx c d).eff m = m.mbxSend c a d := by
  show (mbxTxAct ag c d m).eff m = _
  rw [mbxTxAct, he]

/-- A read of MBX_RX by an end of the channel takes the oldest word that its side receives. -/
theorem Chip.regRead_hstMbxRx {m : Chip} {ag : Agent} {c : Nat} {a : Bool} {w : Word} {ws : List Word}
    (he : (m.endOf ag).bind (fun e => sideOf e c) = some a) (hq : m.mq c (!a) = w :: ws) :
    m.regRead ag .hstMbxRx c = (m.putMq c (!a) ws, w, .ok) := by
  show m.mbxRx ag c = _
  simp only [Chip.mbxRx, he, Chip.mbxRecv_cons hq]

/-- With nothing to receive it is answered EBUSY. -/
theorem Chip.regRead_hstMbxRx_empty {m : Chip} {ag : Agent} {c : Nat} {a : Bool}
    (he : (m.endOf ag).bind (fun e => sideOf e c) = some a) (hq : m.mq c (!a) = []) :
    m.regRead ag .hstMbxRx c = (m, 0, .ebusy) := by
  show m.mbxRx ag c = _
  simp only [Chip.mbxRx, he, Chip.mbxRecv, hq]

/-! ### Services (R505) -/

section
variable {m : Chip} {c : Nat} {a : Bool} {h : Word} {ws : List Word} (hr : m.request c = some (a, h, ws))
include hr

/-- A request of a service, all of whose arguments have arrived, is taken and answered. -/
theorem Chip.serve_complete {code : Nat} (f : Word → List Word → Status × List Word) (hc : bits h 31 24 = code)
    (hn : ws.length = bits h 23 20) :
    m.serve c code f = m.reply c a (1 + ws.length) (replyHead h (f h ws).2.length (f h ws).1 :: (f h ws).2) := by
  rw [Chip.serve, hr]
  exact if_neg (by simp [hc, hn])

/-- ECHO returns the words sent. -/
theorem Chip.echo_complete (hc : bits h 31 24 = 1) (hn : ws.length = bits h 23 20) (hl : ws.length ≤ 14) :
    m.echo c = m.reply c a (1 + ws.length) (replyHead h ws.length .ok :: ws) := by
  rw [Chip.echo, Chip.serve_complete hr _ hc hn, if_pos hl]

/-- SNAPSHOT of nothing is out of range. -/
theorem Chip.fwSnapshot_none (hc : bits h 31 24 = 3) (hn : bits h 23 20 = 0) (hw : ws = [])
    (hq : (m.mq c (!a)).length < 16) : m.fwSnapshot c = m.reply c a 1 [replyHead h 0 .erange] := by
  subst hw
  rw [Chip.fwSnapshot, hr]
  simp [hc, hn, mqMax, Nat.not_lt.2 (Nat.succ_le_of_lt hq)]

/-- SNAPSHOT of up to 14 registers, with room for its reply, reads them as the requester. -/
theorem Chip.fwSnapshot_reads (hc : bits h 31 24 = 3) (hn : ws.length = bits h 23 20) (hw : ws ≠ []) (hl : ws.length ≤ 14)
    (hq : (m.mq c (!a)).length + 1 + ws.length ≤ 16) :
    m.fwSnapshot c =
      let x := m.snapRead (askerOf c a) ws
      x.1.reply c a (1 + ws.length) (replyHead h ws.length (worstOf x.2.2) :: x.2.1) := by
  rw [Chip.fwSnapshot, hr]
  dsimp only
  rw [if_neg (by simp [hc, hn]), if_neg (show ¬mqMax < _ from Nat.not_lt.2 hq), if_neg (by simp [hw, hl])]

/-- A request whose arguments are missing when its time is over is answered EPROTO. -/
theorem Chip.requestTimeout_missing (hn : ws.length < bits h 23 20) :
    m.requestTimeout c =
      (m.elapse ((m.mqTimes c a).headD 0) 10000).reply c a (1 + ws.length) [replyHead h 0 .eproto] := by
  rw [Chip.requestTimeout, hr]
  exact if_pos hn

/-- A code of no service is out of range. -/
theorem Chip.unknownService_complete (hc : 3 < bits h 31 24) (hn : ws.length = bits h 23 20) :
    m.unknownService c = m.reply c a (1 + ws.length) [replyHead h 0 .erange] := by
  rw [Chip.unknownService, hr]
  exact if_pos (by simp [hc, hn])

end

/-- VERSION returns the active image's words. -/
theorem Chip.version_complete {m : Chip} {c : Nat} {a : Bool} {h : Word} {ws : List Word}
    (hr : m.request c = some (a, h, ws)) (hc : bits h 31 24 = 2) (hn : bits h 23 20 = 0) (hw : ws = []) :
    m.version c =
      m.reply c a 1 [replyHead h 3 .ok, wd m.upd.act.ver, wd m.upd.act.bver, wd m.upd.act.dig] := by
  subst hw
  exact Chip.serve_complete hr _ hc hn.symm

section
variable {m : Chip} {c : Nat} (hr : m.request c = none)
include hr

theorem Chip.serve_noRequest (code : Nat) (f : Word → List Word → Status × List Word) : m.serve c code f = m := by
  rw [Chip.serve, hr]

theorem Chip.fwSnapshot_noRequest : m.fwSnapshot c = m := by
  rw [Chip.fwSnapshot, hr]

theorem Chip.requestTimeout_noRequest : m.requestTimeout c = m := by
  rw [Chip.requestTimeout, hr]

theorem Chip.unknownService_noRequest : m.unknownService c = m := by
  rw [Chip.unknownService, hr]

end

/-- Settles O49: a mask and a mailbox are granted accesses of their registers, and each service answers the request at the head of
its channel, if there is one. -/
theorem mailboxesAndServices : Obligations.MailboxesAndServices := by
  refine ⟨fun s ag d hg => completes_regWrite (exec_authMaskWrite ag 0 d s) targetOf_hstAuthHost hg rfl,
    fun s ag d hg => completes_regWrite (exec_authMaskWrite ag 1 d s) targetOf_hstAuthSvc hg rfl,
    fun s ag d hg => completes_regWrite (exec_authMaskWrite ag 2 d s) targetOf_hstAuthPeer hg rfl,
    fun s ag c d a hg he hl => completes_regWrite (exec_mbxTxWrite ag c d s) (targetOf_hstMbxTx c) hg
      ((Chip.regAct_hstMbxTx d he).trans (Chip.mbxSend_joins hl)),
    fun s ag c d a hg he hl => completes_regWrite_status (exec_mbxTxWrite ag c d s) (targetOf_hstMbxTx c) hg
      ((Chip.regAct_hstMbxTx d he).trans (Chip.mbxSend_full hl)),
    fun s ag c a hg he => ?receive,
    fun s c a h ws hr hc hn hl => completes_of (exec_echo c s) (Chip.echo_complete hr hc hn hl),
    fun s c a h ws hr hc hn hw => completes_of (exec_version c s) (Chip.version_complete hr hc hn hw),
    fun s c a h ws hr hc hn hw hq => completes_of (exec_fwSnapshot c s) (Chip.fwSnapshot_none hr hc hn hw hq),
    fun s c a h ws hr hc hn hw hl hq => completes_of (exec_fwSnapshot c s) (Chip.fwSnapshot_reads hr hc hn hw hl hq),
    fun s c a h ws hr hn => completes_of (exec_fwRequestTimeout c s) (Chip.requestTimeout_missing hr hn),
    fun s c a h ws hr hc hn => completes_of (exec_unknownServiceCode c s) (Chip.unknownService_complete hr hc hn),
    fun s c hr => ⟨completes_of (exec_echo c s) (Chip.serve_noRequest hr ..),
      completes_of (exec_version c s) (Chip.serve_noRequest hr ..),
      completes_of (exec_fwSnapshot c s) (Chip.fwSnapshot_noRequest hr),
      completes_of (exec_fwRequestTimeout c s) (Chip.requestTimeout_noRequest hr),
      completes_of (exec_unknownServiceCode c s) (Chip.unknownService_noRequest hr)⟩⟩
  case receive =>
    cases hq : s.m.mq c (!a) with
    | nil => exact completes_regRd (exec_mbxRxRead ag c s) (targetOf_hstMbxRx c) hg (Chip.regRead_hstMbxRx_empty he hq) nofun
    | cons w ws => exact completes_regRd (exec_mbxRxRead ag c s) (targetOf_hstMbxRx c) hg (Chip.regRead_hstMbxRx he hq) nofun

end Sys2Proof.Machine
end

section
/-!
PROOFS. Thermal readings, the delivery of faults, and the registers of faults and events (R529, R538, R541, R548 to R550, R555 to
R558).
-/

namespace Sys2Proof.Machine

/-! ### Faults (R541, R549, R558) -/

/-- The oldest committed fault's event is delivered, with its error line where it asks for one. -/
theorem Chip.faultDeliver_cons {m : Chip} {d : Deliv} {rest : List Deliv} (hq : m.rcd.deliver = d :: rest) :
    m.faultDeliver = Chip.deliver
      (if d.err then { m with
          rcd := { m.rcd with deliver := rest }
          flt := { m.flt with err := NTab.set false m.flt.err d.src true } }
        else { m with rcd := { m.rcd with deliver := rest } }) d.src := by
  rw [Chip.faultDeliver, hq]

theorem Chip.faultDeliver_nil {m : Chip} (hq : m.rcd.deliver = []) : m.faultDeliver = m := by
  rw [Chip.faultDeliver, hq]

/-- FLT_SWRAISE carries its code in bits 7:0. -/
theorem bits_swraise_code (code : Byte) : bits (wd code.toNat) 7 0 = code.toNat := by
  have := code.isLt
  simp only [bits, wd, BitVec.toNat_ofNat]
  omega

/-- FLT_SWRAISE of the host's ports raises SW_HOST. -/
theorem Chip.regAct_fltSwraise_host {m : Chip} {ag : Agent} (code : Byte) (hp : m.portOf ag = .host) :
    (m.regAct ag .fltSwraise 0 (wd code.toNat)).eff m = (m.raise 13 0 [wd code.toNat], .ok) := by
  show (swraiseAct ag (wd code.toNat) m).eff m = _
  simp only [swraiseAct, hp, bits_swraise_code, actDo]

/-- FLT_SWRAISE of the service's ports raises SW_SERVICE. -/
theorem Chip.regAct_fltSwraise_svc {m : Chip} {ag : Agent} (code : Byte) (hp : m.portOf ag = .svc) :
    (m.regAct ag .fltSwraise 0 (wd code.toNat)).eff m = (m.raise 14 0 [wd code.toNat], .ok) := by
  show (swraiseAct ag (wd code.toNat) m).eff m = _
  simp only [swraiseAct, hp, bits_swraise_code, actDo]

/-! ### Events (R555, R556, R558) -/

/-- EVT_SWSET carries its event in bits 3:0. -/
theorem bits_swset_event (n : Fin 16) : bits (wd n.val) 3 0 = n := by
  simp only [bits, wd, BitVec.toNat_ofNat]
  omega

/-- The effect of an accepted EVT_SWSET. -/
theorem Chip.regAct_evtSwset (m : Chip) (ag : Agent) (n : Fin 16) :
    (m.regAct ag .evtSwset 0 (wd n.val)).eff m = (m.event (240 + n.val), .ok) := by
  show ((m.event (240 + bits (wd n.val) 3 0), Status.ok) : Chip × Status) = _
  rw [bits_swset_event]

/-- The pending bits of every destination but the pairs' are acknowledged by who may write them. -/
theorem Chip.regAct_evtPend {m : Chip} (ag : Agent) {i : Nat} (d : Word) (hi : i < 16 ∨ 32 ≤ i) :
    (m.regAct ag .evtPend i d).eff m = (m.put .evtPend i (m.get .evtPend i &&& ~~~d), .ok) := by
  have hp : ¬(16 ≤ i && i < 32 && ag != .fw : Bool) = true := by
    simp only [Bool.and_eq_true, decide_eq_true_eq]
    omega
  show (evtPendAct ag i d).eff m = _
  rw [evtPendAct, if_neg hp]
  rfl

/-- A route keeps the pairs' bits from every writer but the firmware. -/
theorem Chip.regAct_evtRoute {m : Chip} {ag : Agent} (i : Nat) (d : Word) (ha : ag ≠ .fw) :
    (m.regAct ag .evtRoute i d).eff m =
      (m.put .evtRoute i (wd (bits d 7 4 * 16 + m.fld .evtRoute i 3 2 * 4 + bits d 1 0)), .ok) := by
  show (evtRouteAct ag i d).eff m = _
  simp only [evtRouteAct, actDo, if_neg ha]

/-! ### Thermal readings (R529, R538) -/

/-- THM does not run in OFF, SHIP and BOOT. -/
theorem Chip.thmSample_notUp {m : Chip} (k : Nat) (t : Int) (bad : Bool) (hu : m.up = false) : m.thmSample k t bad = m := by
  simp [Chip.thmSample, Chip.thmRow, Chip.when, hu]

/-- A reading is its row of the sensor, with what SEC makes of the on-die sensors. -/
theorem Chip.thmRow_up {m : Chip} (k : Nat) (t : Int) (bad : Bool) (hu : m.up = true) :
    m.thmRow k t bad = (m.thmReading k t bad).secCondition 6 (m.thmReading k t bad).dieBad := if_pos hu

/-- A reading of a sensor other than 0 is that alone. -/
theorem Chip.thmSample_other {m : Chip} {k : Nat} (t : Int) (bad : Bool) (hk : k ≠ 0) :
    m.thmSample k t bad = m.thmRow k t bad := if_neg (by simp [hk])

/-- A reading of sensor 0 is THM's quiescent point: a level that waits is applied. -/
theorem Chip.thmSample_zero {m : Chip} (t : Int) (bad : Bool) (hu : m.up = true) :
    m.thmSample 0 t bad = (m.thmRow 0 t bad).levelNow .thm := if_pos (by simp [hu])

/-- Settles O51: the deliveries and readings follow their rows, and each register of faults and events is a granted access. -/
theorem thermalFaultsAndEvents : Obligations.ThermalFaultsAndEvents := by
  refine ⟨fun s src rest d hq he hs => completes_of (exec_faultEventDelivery s) ?quiet,
    fun s rest d hq he => completes_of (exec_faultEventDelivery s) ((Chip.faultDeliver_cons hq).trans (by rw [if_pos he])),
    fun s hq => completes_of (exec_faultEventDelivery s) (Chip.faultDeliver_nil hq),
    fun n => readRow_of (fun _ _ => rfl) (targetOf_fltFlag n) (fun _ _ => rfl) (fun _ _ h => nomatch h),
    fun n d => writeRow_of (fun _ _ => rfl) (targetOf_fltSrc n) (fun _ _ => rfl),
    fun s ag code hg hp => completes_regWrite (exec_fltSwraise ag code s) targetOf_fltSwraise hg
      (Chip.regAct_fltSwraise_host code hp),
    fun s ag code hg hp => completes_regWrite (exec_fltSwraise ag code s) targetOf_fltSwraise hg
      (Chip.regAct_fltSwraise_svc code hp),
    fun n => writeRow_of (fun _ _ => rfl) targetOf_evtSwset (fun ag m => m.regAct_evtSwset ag n),
    fun s ag d w mask hg hd => completes_regWrite (exec_evtAck ag d w mask s)
      (targetOf_evtPend ⟨8 * d.val + w.val, by omega⟩) hg (Chip.regAct_evtPend ag mask (by omega)),
    fun s b n hu => completes_of (exec_pairEventAck b n s) (Chip.whenUp_up _ hu),
    fun s ag n d ha hg => completes_regWrite (exec_evtRouteWrite ag n d s) (targetOf_evtRoute n) hg
      (Chip.regAct_evtRoute n d ha),
    fun s k t bad hu => completes_of (exec_thmReading k t bad s) (Chip.thmSample_notUp k t bad hu),
    fun s k t bad hk hu => completes_of (exec_thmReading k t bad s)
      ((Chip.thmSample_other t bad hk).trans (Chip.thmRow_up k t bad hu)),
    fun s t bad hu => ⟨_, completes_of (exec_thmReading 0 t bad s)
      ((Chip.thmSample_zero t bad hu).trans (congrArg (Chip.levelNow · .thm) (Chip.thmRow_up 0 t bad hu))), rfl⟩,
    fun s fatal ha => completes_of (exec_nvmEccError fatal s) (Chip.whenAlive_alive _ ha),
    fun s ha => completes_of (exec_ramEcc s) (Chip.whenAlive_alive _ ha)⟩
  case quiet =>
    subst hs
    rw [Chip.faultDeliver_cons hq, if_neg (Bool.eq_false_iff.1 he)]

end Sys2Proof.Machine
end

section
/-!
PROOFS. The alarms of SEC, their flags, and the provisioning of keys (R566, R567, R571, R572).
-/

namespace Sys2Proof.Machine

/-! ### Alarm conditions (R566) -/

/-- A condition that was not present raises its alarm. -/
theorem Chip.secCondition_appears {m : Chip} {k : Nat} (hn : has m.sec.now k = false) :
    m.secCondition k true = Chip.secAlarm { m with sec := { m.sec with now := putM m.sec.now k true } } k :=
  if_pos (by simp [hn])

/-- A condition that ceases raises nothing. -/
theorem Chip.secCondition_ceases (m : Chip) (k : Nat) :
    m.secCondition k false = { m with sec := { m.sec with now := putM m.sec.now k false } } := rfl

/-- An enabled tamper pin that has stayed for DEBOUNCE sets its condition. -/
theorem Chip.tamper_stayed {m : Chip} {k : Nat} (ho : m.secOn = true) (he : m.flag .secTamperCfg 0 k = true)
    (hn : has m.sec.now k = false) :
    m.tamper k =
      let m := m.elapse (NTab.get 0 m.sec.quietAt k) (m.fld .secTamperCfg 0 15 8 * 1000)
      Chip.secAlarm { m with sec := { m.sec with now := putM m.sec.now k true } } k := by
  rw [Chip.tamper, if_neg (by simp [ho, he, hn])]
  exact Chip.secCondition_appears hn

theorem Chip.tamper_disabled {m : Chip} {k : Nat} (he : m.flag .secTamperCfg 0 k = false) : m.tamper k = m :=
  if_pos (by simp [he])

/-- A condition other than a tamper pin's and the die temperature's is taken away. -/
theorem Chip.alarmCeased_monitor {m : Chip} {k : Nat} (h4 : 4 ≤ k) (h6 : k ≠ 6) :
    m.alarmCeased k = { m with sec := { m.sec with now := putM m.sec.now k false } } := by
  rw [Chip.alarmCeased, if_neg h6, Chip.secCondition_ceases, Chip.when, if_neg (by simpa using h4)]

/-- A tamper pin's condition is taken away with the time it went quiet. -/
theorem Chip.alarmCeased_tamper {m : Chip} {k : Nat} (hk : k < 4) :
    m.alarmCeased k = { m with sec := { m.sec with
      now := putM m.sec.now k false, quietAt := NTab.set 0 m.sec.quietAt k m.now } } := by
  rw [Chip.alarmCeased, if_neg (by omega), Chip.secCondition_ceases, Chip.when, if_pos (by simpa using hk)]
  rfl

/-! ### Keys (R571) -/

/-- SEC_KEY_CTL carries its operation in bits 9:8. -/
theorem bits_keyCtl_op (i : Fin 4) {op : Nat} (ho : op < 4) : bits (wd (i.val + op * 256)) 9 8 = op := by
  simp only [bits, wd, BitVec.toNat_ofNat]
  omega

/-- SEC_KEY_CTL carries its slot in bits 1:0. -/
theorem bits_keyCtl_slot (i : Fin 4) (op : Nat) : bits (wd (i.val + op * 256)) 1 0 = i := by
  simp only [bits, wd, BitVec.toNat_ofNat]
  omega

/-- The effect of an accepted KEY BEGIN. -/
theorem Chip.regAct_keyBegin (m : Chip) (ag : Agent) (i : Fin 4) :
    (m.regAct ag .secKeyCtl 0 (wd (i.val + 256))).eff m =
      (Chip.put { m with sec := { m.sec with prov := some (i.val, []) } } .secCmdstat 0 (wd 256), .ok) := by
  have hop : bits (wd (i.val + 256)) 9 8 = 1 := bits_keyCtl_op i (op := 1) (by decide)
  have hslot : bits (wd (i.val + 256)) 1 0 = i := bits_keyCtl_slot i 1
  show (keyCtlAct (wd (i.val + 256)) m).eff m = _
  simp only [keyCtlAct, hop, hslot]
  rfl

/-- The effect of an accepted KEY COMMIT. -/
theorem Chip.regAct_keyCommit (m : Chip) (ag : Agent) (i : Fin 4) :
    (m.regAct ag .secKeyCtl 0 (wd (i.val + 512))).eff m =
      ((m.keyCommit i).1.put .secCmdstat 0 (wd ((m.keyCommit i).2.code + 512)), (m.keyCommit i).2) := by
  have hop : bits (wd (i.val + 512)) 9 8 = 2 := bits_keyCtl_op i (op := 2) (by decide)
  have hslot : bits (wd (i.val + 512)) 1 0 = i := bits_keyCtl_slot i 2
  show (keyCtlAct (wd (i.val + 512)) m).eff m = _
  simp only [keyCtlAct, hop, hslot]
  rfl

/-- The effect of an accepted KEY CANCEL. -/
theorem Chip.regAct_keyCancel (m : Chip) (ag : Agent) (i : Fin 4) :
    (m.regAct ag .secKeyCtl 0 (wd (i.val + 768))).eff m =
      (Chip.put { m with sec := { m.sec with prov := none } } .secCmdstat 0 (wd 768), .ok) := by
  have hop : bits (wd (i.val + 768)) 9 8 = 3 := bits_keyCtl_op i (op := 3) (by decide)
  show (keyCtlAct (wd (i.val + 768)) m).eff m = _
  simp only [keyCtlAct, hop]
  rfl

/-- A key word joins the words of the open slot, up to nine. -/
theorem Chip.regAct_keyData {m : Chip} (ag : Agent) (d : Word) {i : Nat} {ws : List Word} (hp : m.sec.prov = some (i, ws)) :
    (m.regAct ag .secKeyData 0 d).eff m =
      ({ m with sec := { m.sec with prov := some (i, if ws.length < 9 then ws ++ [d] else ws) } }, .ok) := by
  show (keyDataAct d m).eff m = _
  rw [keyDataAct, hp]
  rfl

/-- Settles O52: each row of an alarm condition in the state it names, and the registers of SEC as granted accesses. -/
theorem securityAlarmsAndKeys : Obligations.SecurityAlarmsAndKeys :=
  ⟨fun s k ho he hn => completes_of (exec_secTamper k s) (Chip.tamper_stayed ho he hn),
    fun s k he => completes_of (exec_secTamper k s) (Chip.tamper_disabled he),
    fun s ha hn => completes_of (exec_secGlitch s) ((Chip.whenAlive_alive _ ha).trans (Chip.secCondition_appears hn)),
    fun s ha hn => completes_of (exec_secClock s) ((Chip.whenAlive_alive _ ha).trans (Chip.secCondition_appears hn)),
    fun s k hk => completes_of (exec_alarmConditionCleared k s) (Chip.alarmCeased_monitor (by omega) (by omega)),
    fun s k hk => completes_of (exec_alarmConditionCleared k s) (Chip.alarmCeased_tamper hk),
    fun d => writeRow_of (fun _ _ => rfl) targetOf_secAlarmCfg (fun _ _ => rfl),
    readRow_of (fun _ _ => rfl) targetOf_secAlarmFlg (fun ag m => m.regRead_readToClear ag 0 rfl (by decide))
      (fun _ _ h => nomatch h),
    fun i => writeRow_of (fun _ _ => rfl) targetOf_secKeyCtl (fun ag m => m.regAct_keyBegin ag i),
    fun s ag d i ws hg hp => completes_regWrite (exec_keyData ag d s) targetOf_secKeyData hg (Chip.regAct_keyData ag d hp),
    fun s ag i hg => completes_regWrite_status (exec_keyCommit ag i s) targetOf_secKeyCtl hg (s.m.regAct_keyCommit ag i),
    fun i => writeRow_of (fun _ _ => rfl) targetOf_secKeyCtl (fun ag m => m.regAct_keyCancel ag i)⟩

end Sys2Proof.Machine
end

section
/-!
PROOFS. The capture units: enable, trigger, fill, commit and the reading of their data (R606, R618 to R621).
-/

namespace Sys2Proof.Machine

@[simp] theorem Chip.cap_putCap_self (m : Chip) (u : Nat) (c : Cap) : (m.putCap u c).cap u = c := NTab.get_set_self ..

/-! ### Enable and triggers (R618, R619) -/

/-- An enable of an idle unit fills it. -/
theorem Chip.regAct_rcdCapCfg_idle {m : Chip} (ag : Agent) {u : Nat} {d : Word} (he : bitOf d 0 = true)
    (hi : ((m.store .rcdCapCfg u d).cap u).st = .idle) :
    (m.regAct ag .rcdCapCfg u d).eff m = ((m.store .rcdCapCfg u d).capFill u, .ok) := by
  show (capCfgAct u d m).eff m = _
  simp [capCfgAct, he, hi]

/-- RCD_CMD TRIG carries its code in bits 3:0. -/
theorem bits_rcdTrig_code (u : Nat) : bits (wd (2 + u * 16)) 3 0 = 2 := by
  simp only [bits, wd, BitVec.toNat_ofNat]
  omega

/-- RCD_CMD TRIG carries its unit in bits 6:4. -/
theorem bits_rcdTrig_unit (u : Fin 8) : bits (wd (2 + u.val * 16)) 6 4 = u := by
  simp only [bits, wd, BitVec.toNat_ofNat]
  omega

/-- The effect of an accepted TRIG. -/
theorem Chip.regAct_rcdTrig (m : Chip) (ag : Agent) (u : Fin 8) :
    (m.regAct ag .rcdCmd 0 (wd (2 + u.val * 16))).eff m =
      ((m.capTrigger u m.now).put .rcdCmdstat 0 (wd (2 * 256)), .ok) := by
  show (rcdCmdAct _ (wd (2 + u.val * 16)) m).eff m = _
  simp only [rcdCmdAct, bits_rcdTrig_code, bits_rcdTrig_unit]
  rfl

/-- The oldest raise that waits reaches every unit set to trigger on it. -/
theorem Chip.capTriggers_cons {m : Chip} {src t : Nat} {rest : List (Nat × Nat)} (hq : m.rcd.trig = (src, t) :: rest) :
    m.capTriggers = (List.range 8).foldl (fun m u => if m.capOn src u then m.capTrigger u t else m)
      { m with rcd := { m.rcd with trig := rest } } := by
  rw [Chip.capTriggers, hq]

theorem Chip.capTriggers_nil {m : Chip} (hq : m.rcd.trig = []) : m.capTriggers = m := by
  rw [Chip.capTriggers, hq]

/-- A unit that has its samples commits. -/
theorem Chip.captureFull_held {m : Chip} {u : Nat} (hp : (m.cap u).st = .post)
    (hn : 4096 - (m.cap u).preValid ≤ (m.cap u).post.length) :
    m.captureFull u = m.putCap u { m.cap u with st := .commit } := if_pos (by simp [hp, hn])

theorem Chip.captureFull_elsewhere {m : Chip} {u : Nat} (hp : (m.cap u).st ≠ .post) : m.captureFull u = m :=
  if_neg (by simp [hp])

/-! ### Commit (R606, R620) -/

/-- A unit that does not commit writes nothing. -/
theorem Chip.capCommit_elsewhere {m : Chip} {u : Nat} (hc : m.committing ≠ some u) : m.capCommit u = m :=
  if_pos (by simp [hc])

/-- A record joins a queue with room, and nothing else of the chip changes. -/
theorem Chip.enqueue_room {m : Chip} (r : Rec) (dv : Option Deliv) (hq : m.rcd.queue.length < queueMax) :
    m.enqueue r dv = { m with rcd := { m.rcd with queue := m.rcd.queue ++ [{ rcd := r, deliv := dv }] } } := if_pos hq

/-- The unit being committed stores its samples, oldest first. -/
def Chip.capStored (m : Chip) (u : Nat) : Chip :=
  m.putCap u { m.cap u with valid := false, stored := (m.cap u).pre.reverse ++ (m.cap u).post.reverse, sent := true }

/-- With room in the queue, its record of kind 5 then waits there. -/
theorem Chip.capCommit_stores {m : Chip} {u : Nat} (hc : m.committing = some u) (he : m.pwr.ecdFired = false)
    (hs : (m.cap u).sent = false) (hq : m.rcd.queue.length < queueMax) :
    ∃ r : Rec, m.capCommit u = (m.capStored u).enqueue r none ∧ r.kind = 5 ∧ r.code = u := by
  rw [Chip.capCommit, if_neg (by simp [hc, he, hs])]
  simp only [hq, decide_true]
  exact ⟨_, rfl, rfl, rfl⟩

/-- The commit of a unit's record makes it DONE and valid, with its event. -/
theorem Chip.capRecord_good {m : Chip} {r : Rec} (hk : r.kind = 5) (hc : (m.cap r.code).st = .commit)
    (hs : (m.cap r.code).sent = true) (ha : m.flag .rcdCapCfg r.code 1 = false) :
    m.capRecord r true = (m.putCap r.code { m.cap r.code with
      st := .done, valid := true, sent := false, pre := [], post := [] }).event 233 := by
  rw [Chip.capRecord, if_neg (by simp [hk, hc, hs])]
  simp only [if_true, Chip.capDone, Chip.when, ha]
  rfl

/-- A record that went to a bad position is sent again. -/
theorem Chip.capRecord_bad {m : Chip} {r : Rec} (hk : r.kind = 5) (hc : (m.cap r.code).st = .commit)
    (hs : (m.cap r.code).sent = true) :
    m.capRecord r false = m.putCap r.code { m.cap r.code with sent := false } := by
  rw [Chip.capRecord, if_neg (by simp [hk, hc, hs])]
  rfl

/-! ### Data (R621) -/

/-- A read of a register of the recorder that no read clears is answered for its reader's bank. -/
theorem Chip.regRead_recorder (m : Chip) (ag : Agent) {r : RName} (i : Nat) (hb : r.region = 0x12) (hk : r.row.kind ≠ .rc)
    (hr : r ∉ [.fltFlag, .hstMbxRx, .acqQpop1, .acqRes, .cnvXVdone]) :
    m.regRead ag r i = m.rcdRead (Owner.bank (m.authOf ag)) r i := by
  simp only [List.mem_cons, List.not_mem_nil, or_false, not_or] at hr
  obtain ⟨h1, h2, h3, h4, h5⟩ := hr
  unfold Chip.regRead
  split
  · exact absurd rfl h1
  · exact absurd rfl h2
  · exact absurd rfl h3
  · exact absurd rfl h4
  · exact absurd rfl h5
  · simp only [if_neg hk, hb]

theorem Chip.regRead_rcdCapData (m : Chip) (ag : Agent) : m.regRead ag .rcdCapData 0 = m.capData :=
  m.regRead_recorder ag 0 rfl (by decide) (by decide)

/-- Settles O56: each row of a capture unit in the state it names and in the others, and its registers as granted accesses. -/
theorem captureUnits : Obligations.CaptureUnits := by
  refine ⟨fun s ag u d hg he hi => completes_regWrite (exec_captureEnable ag u d s) (targetOf_rcdCapCfg u) hg
      (Chip.regAct_rcdCapCfg_idle ag he hi),
    fun u => writeRow_of (fun _ _ => rfl) targetOf_rcdCmd (fun ag m => m.regAct_rcdTrig ag u),
    fun s src t rest hq => completes_of (exec_captureTrigger s) (Chip.capTriggers_cons hq),
    fun s hq => completes_of (exec_captureTrigger s) (Chip.capTriggers_nil hq),
    fun s u hp hn => completes_of (exec_capturePostFull u s) (Chip.captureFull_held hp hn),
    fun s u hp => completes_of (exec_capturePostFull u s) (Chip.captureFull_elsewhere hp),
    fun s u hc he hs hq => ?commit,
    fun m r hk hc hs ha => Chip.capRecord_good hk hc hs ha,
    fun m r hk hc hs => Chip.capRecord_bad hk hc hs,
    fun s u hc => completes_of (exec_rcdCapture u s) (Chip.capCommit_elsewhere hc),
    readRow_of (fun _ _ => rfl) targetOf_rcdCapData (fun ag m => m.regRead_rcdCapData ag) (fun ag m => ?status)⟩
  case commit =>
    obtain ⟨r, hr, hkind, hcode⟩ := Chip.capCommit_stores hc he hs hq
    have hroom := Chip.enqueue_room (m := s.m.capStored u) r none hq
    have hcap := s.m.cap_putCap_self u
    refine ⟨_, completes_of (exec_rcdCapture u s) (hr.trans hroom), ?_, ?_, ?_, ⟨_, rfl, hkind, hcode⟩, rfl⟩
    · exact congrArg Cap.valid (hcap _)
    · exact congrArg Cap.sent (hcap _)
    · exact congrArg Cap.stored (hcap _)
  case status =>
    dsimp only
    split <;> exact nofun

end Sys2Proof.Machine
end

section
/-!
PROOFS. The service port: the operations of a taken frame, and what ends a session, a rate or a frame (R627, R630 to R635).
-/

namespace Sys2Proof.Machine

/-! ### Operations of a taken frame (R630 to R633) -/

/-- A taken frame whose operation answers at once is answered with what the operation gives. -/
theorem Chip.svcFrame_answers {m n : Chip} {op seq : Nat} {tag : Option (List Nat)} {body data : List Nat} {st : Status}
    {f : Chip → Chip × Option (Status × List Nat)} (h : m.svcTakes op seq tag body)
    (hf : f (m.svcAccept seq) = (n, some (st, data))) : m.svcFrame op seq tag body f = m.svcAnswers n op seq st data := by
  rw [Chip.svcFrame_taken h, hf]

/-- A session begins with its nonces: presence mode opens it, key mode awaits AUTH. -/
def Chip.sessionStart (m : Chip) (mode : Nat) (nh : List Nat) : Chip :=
  { m with upd := { m.upd with
    session := mode, nh := nh, nd := nonceBytes m.upd.nonces, ks := [], nonces := m.upd.nonces + 1 } }

section
variable {m : Chip} {seq : Nat} {tag : Option (List Nat)}

/-- OPEN in presence mode, outside a session and with the line asserted, opens a session. -/
theorem Chip.svcOpen_presence {mode : Nat} {nh : List Nat} (h : m.svcTakes 2 seq tag (mode :: nh)) (hm : mode = 0)
    (hs : m.upd.session < 2) (hp : m.upd.present = true) :
    m.svcOpen seq tag mode nh = m.svcAnswers (((m.svcAccept seq).sessionStart 2 nh).sessionRecord true false 0)
      2 seq .ok (nonceBytes (m.svcAccept seq).upd.nonces) := by
  subst hm
  refine Chip.svcFrame_answers h ?_
  -- the mode, the session and the line, in the order in which OPEN judges them
  exact (if_neg (Nat.not_lt_zero 1)).trans ((if_neg (Nat.not_le.2 hs)).trans ((if_pos rfl).trans (if_pos hp)))

/-- OPEN in key mode, outside a session and with a key, awaits AUTH. -/
theorem Chip.svcOpen_key {mode : Nat} {nh : List Nat} (h : m.svcTakes 2 seq tag (mode :: nh)) (hm : mode = 1)
    (hs : m.upd.session < 2) (hk : m.nvm.key2.isSome = true) :
    m.svcOpen seq tag mode nh = m.svcAnswers ((m.svcAccept seq).sessionStart 1 nh)
      2 seq .ok (nonceBytes (m.svcAccept seq).upd.nonces) := by
  subst hm
  refine Chip.svcFrame_answers h ?_
  have hn : ¬m.nvm.key2.isNone = true := by simpa [Option.isSome_iff_ne_none] using hk
  -- the mode, the session, the mode again and the key
  exact (if_neg (Nat.lt_irrefl 1)).trans ((if_neg (Nat.not_le.2 hs)).trans ((if_neg Nat.one_ne_zero).trans (if_neg hn)))

theorem Chip.svcOpen_badMode {mode : Nat} {nh : List Nat} (h : m.svcTakes 2 seq tag (mode :: nh)) (hm : 1 < mode) :
    m.svcOpen seq tag mode nh = m.svcAnswers (m.svcAccept seq) 2 seq .erange [] :=
  Chip.svcFrame_answers h (if_pos hm)

/-- The proof that AUTH has to bring. -/
def Chip.authProof (m : Chip) : List Nat :=
  hmac256 ((m.nvm.key2.getD []).flatMap leBytes) (openWord ++ m.upd.nh ++ m.upd.nd)

section
variable {proof : List Nat} (h : m.svcTakes 3 seq tag proof) (hs : m.upd.session = 1)
include h hs

/-- AUTH with the right proof opens the key session under its key. -/
theorem Chip.svcAuth_right (hk : m.nvm.key2.isSome = true) (hp : proof = m.authProof) :
    m.svcAuth seq tag proof = m.svcAnswers (Chip.sessionRecord { (m.svcAccept seq) with
        upd := { (m.svcAccept seq).upd with
          session := 3, ks := hmac256 ((m.nvm.key2.getD []).flatMap leBytes) (m.upd.nh ++ m.upd.nd) } } true true 0)
      3 seq .ok [] := by
  refine Chip.svcFrame_answers h ?_
  have hawaits : ¬(m.upd.session != 1) = true := by simp [hs]
  have hright : (m.nvm.key2.isSome && decide (proof = m.authProof)) = true := by simp [hk, hp]
  exact (if_neg hawaits).trans (if_pos hright)

/-- AUTH with a wrong proof ends the handshake and counts as a rejection for authority. -/
theorem Chip.svcAuth_wrong (hp : proof ≠ m.authProof) :
    m.svcAuth seq tag proof = m.svcAnswers (Chip.eauthPort { (m.svcAccept seq) with
        upd := { (m.svcAccept seq).upd with session := 0, nh := [], nd := [], ks := [] } } 1) 3 seq .eauth [] := by
  refine Chip.svcFrame_answers h ?_
  have hawaits : ¬(m.upd.session != 1) = true := by simp [hs]
  have hwrong : ¬(m.nvm.key2.isSome && decide (proof = m.authProof)) = true := by simp [hp]
  exact (if_neg hawaits).trans (if_neg hwrong)

end

/-- BAUD takes a new rate and keeps the old one for the fallback. -/
theorem Chip.svcBaud_rate {index : Nat} (h : m.svcTakes 5 seq tag [index]) (hi : index < 9) :
    m.svcBaud seq tag index = m.svcAnswers { (m.svcAccept seq) with upd := { (m.svcAccept seq).upd with
      rate := index, fallback := some ((m.svcAccept seq).upd.rate, (m.svcAccept seq).now) } } 5 seq .ok [] :=
  Chip.svcFrame_answers h (if_neg (Nat.not_le.2 hi))

/-- An access that does not wait is performed; a read gives its word. -/
theorem Chip.svcAccess_performed {g : Held} (hh : m.mustHold g = false) :
    m.svcAccess g = ((m.perform g).1, some ((m.perform g).2.1, if g.write then [] else leBytes (m.perform g).2.2)) :=
  if_neg (Bool.eq_false_iff.1 hh)

end

/-! ### Irregular frames (R627) -/

theorem Chip.svcMalformed_framing {m : Chip} (ha : m.alive = true) :
    m.svcMalformed false = (m.bump .updSvcCnt0 0 15 0 1).frameNote := if_neg (by simp [ha])

/-- A frame whose TAG fails is counted apart as well. -/
theorem Chip.svcMalformed_tag {m : Chip} (ha : m.alive = true) :
    m.svcMalformed true = ((m.bump .updSvcCnt0 0 15 0 1).bump .updSvcCnt1 0 31 16 1).frameNote := if_neg (by simp [ha])

theorem Chip.svcNoise_alive {m : Chip} (n : Nat) (ha : m.alive = true) : m.svcNoise n = m.bump .updSvcCnt0 0 31 16 n :=
  if_pos ha

/-! ### The end of a rate, of presence and of a session (R632, R634, R635) -/

theorem Chip.baudFallback_due {m : Chip} {old at_ : Nat} (hf : m.upd.fallback = some (old, at_)) :
    m.baudFallback =
      let m := m.elapse at_ 1000000
      { m with upd := { m.upd with rate := old, fallback := none } } := by
  rw [Chip.baudFallback, hf]

theorem Chip.baudFallback_none {m : Chip} (hf : m.upd.fallback = none) : m.baudFallback = m := by
  rw [Chip.baudFallback, hf]

theorem Chip.svcPresence_same {m : Chip} {p : Bool} (hp : m.upd.present = p) : m.svcPresence p = m :=
  if_pos (by simp [hp])

/-- A change of presence that ends no presence session is noted after its 10 ms. -/
theorem Chip.svcPresence_noted {m : Chip} {p : Bool} (ha : m.alive = true) (hp : m.upd.present ≠ p)
    (hs : p = true ∨ m.upd.session ≠ 2) :
    m.svcPresence p = { m.elapse m.now 10000 with upd := { m.upd with present := p } } := by
  have hn : ¬(!p && decide (m.upd.session = 2)) = true := by
    rcases hs with hs | hs <;> simp [hs]
  rw [Chip.svcPresence, if_neg (by simp [ha, hp])]
  exact if_neg hn

/-- Presence that has fallen ends a presence session. -/
theorem Chip.svcPresence_fallen {m : Chip} (ha : m.alive = true) (hp : m.upd.present = true) (hs : m.upd.session = 2) :
    m.svcPresence false =
      Chip.sessionEnd { m.elapse m.now 10000 with upd := { m.upd with present := false } } 2 := by
  have hf : (!false && decide (m.upd.session = 2)) = true := by simp [hs]
  rw [Chip.svcPresence, if_neg (by simp [ha, hp])]
  exact if_pos hf

theorem Chip.svcIdle_session {m : Chip} (hs : 2 ≤ m.upd.session) :
    m.svcIdle = (m.elapse m.upd.validAt (m.fld .updSvcCfg 0 7 0 * 60000000)).sessionEnd 1 := if_pos hs

theorem Chip.svcIdle_none {m : Chip} (hs : m.upd.session < 2) : m.svcIdle = m := if_neg (Nat.not_le.2 hs)

/-- Settles O57: a taken frame takes the effect of its operation and is answered; the other rows of the service port act in the
state that each names. -/
theorem serviceSessions : Obligations.ServiceSessions :=
  ⟨fun s seq tag h => completes_of (exec_ident seq tag s) (Chip.svcFrame_answers h rfl),
    fun s seq tag mode nh h hm hs hp => completes_of (exec_openSession seq tag mode nh s)
      (Chip.svcOpen_presence h (congrArg BitVec.toNat hm) hs hp),
    fun s seq tag mode nh h hm hs hk => completes_of (exec_openSession seq tag mode nh s)
      (Chip.svcOpen_key h (congrArg BitVec.toNat hm) hs hk),
    fun s seq tag mode nh h hm => completes_of (exec_openSession seq tag mode nh s) (Chip.svcOpen_badMode h hm),
    fun s seq tag proof h hs hk hp => completes_of (exec_auth seq tag proof s) (Chip.svcAuth_right h hs hk hp),
    fun s seq tag proof h hs hp => completes_of (exec_auth seq tag proof s) (Chip.svcAuth_wrong h hs hp),
    fun s seq tag h => completes_of (exec_closeSession seq tag s) (Chip.svcFrame_answers h rfl),
    fun s seq tag index h hi => completes_of (exec_baud seq tag index s) (Chip.svcBaud_rate h hi),
    fun s seq tag addr h hh => completes_of (exec_svcRead seq tag addr s)
      (Chip.svcFrame_answers h (Chip.svcAccess_performed hh)),
    fun s seq tag addr d h hh => completes_of (exec_svcWrite seq tag addr d s)
      (Chip.svcFrame_answers h (Chip.svcAccess_performed hh)),
    fun s _ _ hf => completes_of (exec_baudFallback s) (Chip.baudFallback_due hf),
    fun s hf => completes_of (exec_baudFallback s) (Chip.baudFallback_none hf),
    fun s t ha ht => completes_of (exec_svcMalformedFrame t s) (ht ▸ Chip.svcMalformed_framing ha),
    fun s t ha ht => completes_of (exec_svcMalformedFrame t s) (ht ▸ Chip.svcMalformed_tag ha),
    fun s n ha => completes_of (exec_svcNoise n s) (Chip.svcNoise_alive n ha),
    fun s p ha hp hs => completes_of (exec_svcPresence p s) (Chip.svcPresence_noted ha hp hs),
    fun s p ha hp hf hs => completes_of (exec_svcPresence p s) (hf ▸ Chip.svcPresence_fallen ha hp hs),
    fun s p hp => completes_of (exec_svcPresence p s) (Chip.svcPresence_same hp),
    fun s hs => completes_of (exec_svcIdleTimeout s) (Chip.svcIdle_session hs),
    fun s hs => completes_of (exec_svcIdleTimeout s) (Chip.svcIdle_none hs)⟩

end Sys2Proof.Machine
end

section
/-!
PROOFS. The images of the service port and the trial of a new one (R638 to R645).
-/

namespace Sys2Proof.Machine

/-! ### Image commands (R638, R639) -/

/-- An image operation that its class admits: its effect, UPD_CMDSTAT with its status, and its answer. -/
theorem Chip.svcFrame_image {m n : Chip} {op seq : Nat} {tag : Option (List Nat)} {body data : List Nat} {st : Status}
    {g : Chip → Chip × Status × List Nat} (h : m.svcTakes op seq tag body) (hc : (m.svcAccept seq).mayClass .svc 9 = true)
    (hg : g (m.svcAccept seq) = (n, st, data)) :
    m.svcFrame op seq tag body (fun m => m.svcImage op g) = m.svcAnswers (n.updStatus st op) op seq st data := by
  refine Chip.svcFrame_answers h ?_
  rw [Chip.svcImage, if_neg (by simp [hc]), hg]

/-- IMG_BEGIN with the staging area empty, in an open service condition and outside a trial, begins a load. -/
theorem Chip.imgBegin_open {m : Chip} (he : m.upd.stg = .empty) (hs : m.pwr.condSvc = true) (hl : m.nvm.lock = false)
    (ht : m.upd.trial = false) (hf : m.pwr.ecdFired = false) :
    m.imgBegin = ({ m with upd := { m.upd with stg := .loading, bytes := [] } }, .ok) := by
  simp [Chip.imgBegin, he, hs, hl, ht, hf]

/-! ### The trial (R643 to R645) -/

/-- A passed self-test confirms a trial where AUTOCONF is set. -/
theorem Chip.selftestPass_autoconf {m : Chip} (hr : m.fwRuns = true) (ht : m.upd.trial = true)
    (ha : m.flag .updCfg 0 16 = true) (hf : m.pwr.ecdFired = false) :
    m.selftestPass = Chip.confirm { m with upd := { m.upd with selftest := true } } := by
  have hc : (m.upd.trial && m.flag .updCfg 0 16 && !m.pwr.ecdFired) = true := by simp [ht, ha, hf]
  rw [Chip.selftestPass, if_neg (by simp [hr])]
  exact if_pos hc

/-- Outside a trial a passed self-test is noted, no more. -/
theorem Chip.selftestPass_settled {m : Chip} (hr : m.fwRuns = true) (ht : m.upd.trial = false) :
    m.selftestPass = { m with upd := { m.upd with selftest := true } } := by
  rw [Chip.selftestPass, if_neg (by simp [hr])]
  exact if_neg (by simp [ht])

theorem Chip.selftestPass_boot {m : Chip} (hr : m.fwRuns = false) : m.selftestPass = m := if_pos (by simp [hr])

theorem Chip.selftestFail_runs {m : Chip} (hr : m.fwRuns = true) :
    m.selftestFail = Chip.warmReset { m with upd := { m.upd with failed := m.upd.trial && !m.pwr.ecdFired } } 3 :=
  if_neg (by simp [hr])

theorem Chip.selftestFail_boot {m : Chip} (hr : m.fwRuns = false) : m.selftestFail = m := if_pos (by simp [hr])

/-- The confirm window of a trial ends in a warm reset with cause 2. -/
theorem Chip.updWatchdog_trial {m : Chip} (ht : m.upd.trial = true) (hu : m.up = true) :
    m.updWatchdog = (m.elapse m.upd.trialAt (m.fld .updCfg 0 10 0 * 60000000)).warmReset 2 := if_pos (by simp [ht, hu])

theorem Chip.updWatchdog_settled {m : Chip} (ht : m.upd.trial = false) : m.updWatchdog = m := if_neg (by simp [ht])

/-- Settles O58: an image command answers with what its operation gives, CONFIRM and UNSTAGE are granted writes, and the trial's rows
act in the state that each names. -/
theorem serviceImagesAndUpdate : Obligations.ServiceImagesAndUpdate :=
  ⟨fun s seq tag h hc he hs hl ht hf => completes_of (exec_imgBegin seq tag s)
      (Chip.svcFrame_image h hc (by rw [Chip.imgBegin_open (m := s.m.svcAccept seq.toNat) he hs hl ht hf])),
    fun s seq tag off bs h hc => completes_of (exec_imgData seq tag off bs s) (Chip.svcFrame_image h hc rfl),
    fun s seq tag h hc => completes_of (exec_imgFinish seq tag s) (Chip.svcFrame_image h hc rfl),
    fun s seq tag h hc => completes_of (exec_imgCancel seq tag s) (Chip.svcFrame_image h hc rfl),
    writeRow_of (fun _ _ => rfl) targetOf_updCmd (fun _ _ => rfl),
    writeRow_of (fun _ _ => rfl) targetOf_updCmd (fun _ _ => rfl),
    fun s hr ht ha hf => completes_of (exec_updSelftestPass s) (Chip.selftestPass_autoconf hr ht ha hf),
    fun s hr ht => completes_of (exec_updSelftestPass s) (Chip.selftestPass_settled hr ht),
    fun s hr => completes_of (exec_updSelftestPass s) (Chip.selftestPass_boot hr),
    fun s hr => completes_of (exec_updSelftestFail s) (Chip.selftestFail_runs hr),
    fun s hr => completes_of (exec_updSelftestFail s) (Chip.selftestFail_boot hr),
    fun s ht hu => completes_of (exec_updWatchdogExpiry s) (Chip.updWatchdog_trial ht hu),
    fun s ht => completes_of (exec_updWatchdogExpiry s) (Chip.updWatchdog_settled ht)⟩

end Sys2Proof.Machine
end

section
/-!
PROOFS. The early collapse detector and the clocks (R58, R63, R64, R70, R422, R700).
-/

namespace Sys2Proof.Machine

/-! ### Operations that leave the supplies and the MRAM alone -/

/-- Two chips agree in the supplies and in what MRAM keeps beside the records. -/
structure Chip.PowerAs (a b : Chip) : Prop where
  pwr : a.pwr = b.pwr
  nvm : a.nvm = b.nvm

theorem Chip.PowerAs.refl (m : Chip) : m.PowerAs m := ⟨rfl, rfl⟩

theorem Chip.PowerAs.trans {a b c : Chip} (h : a.PowerAs b) (g : b.PowerAs c) : a.PowerAs c :=
  ⟨h.pwr.trans g.pwr, h.nvm.trans g.nvm⟩

theorem Chip.capDone_powerAs (m : Chip) (u : Nat) (c : Cap) : (m.capDone u c).PowerAs m := by
  rw [Chip.capDone]
  cases m.flag .rcdCapCfg u 1 <;> exact ⟨rfl, rfl⟩

theorem Chip.capTorn_powerAs (m : Chip) : m.capTorn.PowerAs m := by
  refine List.foldlRecOn (motive := fun a : Chip => a.PowerAs m) _ _ (.refl m) fun a ha u _ => ?_
  split
  · have hlost : (a.capLost u).PowerAs a := ⟨rfl, rfl⟩
    exact ((Chip.capDone_powerAs _ u _).trans hlost).trans ha
  · exact ha

theorem Chip.storeDue_powerAs (m : Chip) : m.storeDue.PowerAs m := by
  unfold Chip.storeDue
  split
  · exact ⟨rfl, rfl⟩
  · unfold Chip.storeWrite Chip.putEstSlot
    dsimp only
    split <;> exact ⟨rfl, rfl⟩

theorem Chip.storeRetry_powerAs (m : Chip) : m.storeRetry.PowerAs m := by
  unfold Chip.storeRetry
  split
  · split <;> exact ⟨rfl, rfl⟩
  · split
    · exact (Chip.storeDue_powerAs _).trans ⟨rfl, rfl⟩
    · exact .refl m

/-! ### The detector (R58, R422, R700) -/

/-- The detector fires while it is enabled: uncommitted writes are abandoned. -/
theorem Chip.ecdFire_enabled {m : Chip} (ha : m.alive = true) (he : m.flag .pwrmEcd 0 12 = true) (hf : m.pwr.ecdFired = false) :
    m.ecdFire = ((({ m with pwr := { m.pwr with ecdFired := true } } : Chip).recordAbandon).capAbandon
      (m.rcd.writing.map (fun w => w.2.2.rcd))).storeAbandon := by
  rw [Chip.ecdFire, if_pos ha]
  exact if_pos (by simp [he, hf])

/-- The chip with the detector armed again. -/
def Chip.armed (m : Chip) : Chip := { m with pwr := { m.pwr with ecdFired := false } }

/-- The armed chip with the GAP record of a record write that was abandoned (R700). -/
def Chip.armedGap (m : Chip) : Chip :=
  match m.armed.abandoned with
  | some n => { m.armed with rcd := { m.armed.rcd with
      urgent := { rcd := gapRec m.armed.now 1 n n 0 0, deliv := none } :: m.armed.rcd.urgent } }
  | none => m.armed

theorem Chip.armedGap_powerAs (m : Chip) : m.armedGap.PowerAs m.armed := by
  unfold Chip.armedGap
  split <;> exact ⟨rfl, rfl⟩

theorem Chip.armedGap_sec (m : Chip) : m.armedGap.sec = m.sec := by
  unfold Chip.armedGap
  split <;> rfl

theorem Chip.ecdRearm_fired {m : Chip} (hf : m.pwr.ecdFired = true) :
    m.ecdRearm = m.armedGap.capTorn.storeRetry.when (m.armedGap.nvm.erasing || m.armedGap.sec.eraseDue) Chip.eraseKeys := by
  rw [Chip.ecdRearm, if_neg (by simp [hf])]
  rfl

/-- With no erase of the keys due, re-arming marks what was abandoned and repeats the store's write. -/
theorem Chip.ecdRearm_noErase {m : Chip} (hf : m.pwr.ecdFired = true) (he : m.nvm.erasing = false) (hd : m.sec.eraseDue = false) :
    m.ecdRearm = m.armedGap.capTorn.storeRetry := by
  have hn : m.armedGap.nvm.erasing = false := (congrArg Nvm.erasing m.armedGap_powerAs.nvm).trans he
  rw [Chip.ecdRearm_fired hf, hn, m.armedGap_sec, hd]
  exact if_neg (by simp)

theorem Chip.ecdRearm_powerAs {m : Chip} (hf : m.pwr.ecdFired = true) (he : m.nvm.erasing = false) (hd : m.sec.eraseDue = false) :
    m.ecdRearm.PowerAs m.armed := by
  rw [Chip.ecdRearm_noErase hf he hd]
  exact ((Chip.storeRetry_powerAs _).trans (Chip.capTorn_powerAs _)).trans m.armedGap_powerAs

/-- With no capture torn, re-arming leaves the capture units. -/
theorem Chip.capTorn_none {m : Chip} (h : ∀ u, (m.cap u).torn = false) : m.capTorn = m := by
  have hstep : ∀ u ∈ List.range 8, (if (m.cap u).torn then (m.capLost u).capDone u ((m.capLost u).cap u) else m) = m :=
    fun u _ => if_neg (by simp [h u])
  exact List.foldlRecOn (motive := fun a : Chip => a = m) _ _ rfl fun a ha u hu => by subst ha; exact hstep u hu

/-- With nothing abandoned and no write due, re-arming arms the detector, no more. -/
theorem Chip.ecdRearm_clean {m : Chip} (hf : m.pwr.ecdFired = true) (he : m.nvm.erasing = false) (hd : m.sec.eraseDue = false)
    (hr : m.abandoned = none) (hc : ∀ u, (m.cap u).torn = false) (hs : m.est.abandoned = none) (hw : m.est.due = false) :
    m.ecdRearm = m.armed := by
  have hgap : m.armedGap = m.armed := by
    have ha : m.armed.abandoned = none := hr
    rw [Chip.armedGap, ha]
  have htorn : m.armed.capTorn = m.armed := Chip.capTorn_none hc
  rw [Chip.ecdRearm_noErase hf he hd, hgap, htorn]
  exact Chip.storeRetry_nothing hs hw

/-! ### The clocks (R63, R64, R70) -/

theorem Chip.base_ne_off {m : Chip} (ha : m.alive = true) : m.pwr.base ≠ .off := by
  intro hb
  simp [Chip.alive, hb] at ha

theorem Chip.xtLoss_running {m : Chip} (ha : m.alive = true) (hl : m.pwr.lfrc = false) :
    m.xtLoss = Chip.raise { m with pwr := { m.pwr with xtGood := false, lfrc := true } } 3 0 [] := by
  rw [Chip.xtLoss, if_neg (by simp [Chip.base_ne_off ha, hl])]
  exact if_pos ha

theorem Chip.xtReturn_lfrc {m : Chip} (hb : m.pwr.base ≠ .off) (hl : m.pwr.lfrc = true) :
    m.xtReturn = { m with pwr := { m.pwr with xtGood := true, lfrc := false } } := if_pos (by simp [hb, hl])

theorem Chip.refLoss_running {m : Chip} (ha : m.alive = true) (hr : m.pwr.refrc = false) :
    m.refLoss = Chip.raise { m with pwr := { m.pwr with refGood := false, refrc := true } } 4 0 [] := if_pos (by simp [ha, hr])

theorem Chip.refReturn_refrc {m : Chip} (ha : m.alive = true) (hr : m.pwr.refrc = true) :
    m.refReturn = { m with pwr := { m.pwr with refGood := true, refrc := false } } := if_pos (by simp [ha, hr])

theorem Chip.opsecCommit_armed {m : Chip} (ha : m.alive = true) (hf : m.pwr.ecdFired = false) :
    m.opsecCommit =
      let w := m.elapse m.pwr.opsecAt 600000000
      { w with nvm := { w.nvm with opsec := w.opsec }, pwr := { w.pwr with opsecAt := w.now } } := if_pos (by simp [ha, hf])

/-- Settles O22: the detector and each clock act in the state that each row names. -/
theorem collapseDetectorAndClocks : Obligations.CollapseDetectorAndClocks :=
  ⟨fun s ha he hf => completes_of (exec_ecdFire s) (Chip.ecdFire_enabled ha he hf),
    fun s hf he hd =>
      have hp := Chip.ecdRearm_powerAs hf he hd
      ⟨_, completes_of (exec_ecdRearm s) rfl, congrArg Pwr.ecdFired hp.pwr, hp.nvm⟩,
    fun s hf he hd hr hc hs hw => completes_of (exec_ecdRearm s) (Chip.ecdRearm_clean hf he hd hr hc hs hw),
    fun s ha hl => completes_of (exec_xt32Loss s) (Chip.xtLoss_running ha hl),
    fun s hb hl => completes_of (exec_xt32Return s) (Chip.xtReturn_lfrc hb hl),
    fun s ha hr => completes_of (exec_refLoss s) (Chip.refLoss_running ha hr),
    fun s ha hr => completes_of (exec_refReturn s) (Chip.refReturn_refrc ha hr),
    fun s ha hf => completes_of (exec_opsecCommit s) (Chip.opsecCommit_armed ha hf)⟩

end Sys2Proof.Machine
end

section
/-!
PROOFS. What settling leaves alone: one lemma for each watching machine with nothing to act on, and their composition (R42, R274, R381,
R444, R588, R591).
-/

namespace Sys2Proof.Machine

/-! ### Folds and conditions that change nothing -/

/-- A fold whose every step leaves the chip leaves it. -/
theorem Chip.foldl_fixed {α : Type} {f : Chip → α → Chip} {l : List α} {m : Chip} (h : ∀ a ∈ l, f m a = m) : l.foldl f m = m :=
  List.foldlRecOn (motive := fun c : Chip => c = m) l f rfl fun _ hc a ha => hc ▸ h a ha

theorem Chip.when_fixed {m : Chip} {b : Bool} {f : Chip → Chip} (h : b = true → f m = m) : m.when b f = m := by
  cases b
  · exact if_neg (by simp)
  · exact (if_pos rfl).trans (h rfl)

/-! ### Machines that watch in every mode -/

section
variable {m old : Chip}

theorem Chip.linkAwake_fixed (h : m.dom 9 ≠ .on ∨ old.dom 9 = .on) : m.linkAwake old = m := if_pos (by simpa using h)

theorem Chip.settleLegs_fixed (h : m.ptn.pool = []) : m.settleLegs = m := by
  rw [Chip.settleLegs, h, List.foldl_nil]

theorem Chip.unblockedNotes_fixed (h : m.cle.slots = []) : m.unblockedNotes = m := by
  rw [Chip.unblockedNotes, h, List.map_nil, List.foldl_nil]

theorem Chip.polBaseSet_fixed (h : m.pol.ho = .idle) : m.polBaseSet = m := if_neg (by simp [h])

theorem Chip.chgSettle_fixed (h : m.up = true → m.chgHold = old.chgHold ∧ m.chgTFrozen = old.chgTFrozen) :
    m.chgSettle old = m := by
  refine if_neg fun hc => ?_
  simp only [Bool.and_eq_true, Bool.or_eq_true, bne_iff_ne] at hc
  obtain ⟨hu, hd⟩ := hc
  obtain ⟨hh, ht⟩ := h hu
  exact hd.elim (· hh) (· ht)

/-- A pair machine that does not run, or that runs alone with no twin ready. -/
def Chip.splRests (m : Chip) : Prop := m.spl.st = .init ∨ (m.spl.st = .solo ∧ m.twinReady = false)

theorem Chip.splEval_fixed (h : m.splRests) : m.splEval = m := by
  obtain h | ⟨h, ht⟩ := h
  · rw [Chip.splEval, h]
  · rw [Chip.splEval, h]
    exact if_neg (by simp [ht])

theorem Chip.divWatch_fixed (h : m.splRests) (hd : m.spl.divs = []) : m.divWatch = m := by
  have hs : m.spl.st ≠ .ready := by
    obtain h | ⟨h, -⟩ := h <;> simp [h]
  rw [Chip.divWatch, if_neg hs, if_pos (by simp [hd])]

theorem Chip.modeSettle_fixed (h : m.mode = old.mode) : m.modeSettle old = m := if_pos h

theorem Chip.journal_fixed (hj : m.journalling = false) (hd : m.ptn.done = []) (ho : m.spl.outDue = 0) : m.journal old = m := by
  rw [Chip.journal, if_neg (by simp [hj])]
  exact if_pos (by simp [hd, ho])

theorem Chip.leaveEval_fixed (h : m.splRests) : m.leaveEval = m := by
  have hs : m.spl.st ≠ .leaving := by
    obtain h | ⟨h, -⟩ := h <;> simp [h]
  have hf : m.intlkFall = m := if_neg (by simp [hs])
  rw [Chip.leaveEval, hf, ite_self]

/-! ### Machines that watch in the modes in which the part runs -/

/-- Outside those modes the policy has nothing to watch. -/
theorem Chip.polReact_notUp (hu : m.up = false) (hi : m.pol.ho = .idle) : m.polReact old = m := by
  have hl : m.polLeave = m := if_neg (by simp [hi])
  have hs : m.polSpells = m := if_pos (by simp [hu])
  have he : m.hoEvents old = m := by
    unfold Chip.hoEvents
    simp only [hi, ite_self]
  rw [Chip.polReact, hl, hs, he]
  exact if_neg (by simp [hu])

theorem Chip.capDerive_fixed (h : m.vend.pol.cap = none) : m.capDerive old = m := by
  unfold Chip.capDerive
  rw [h]
  exact ite_self m

theorem Chip.clampEval_fixed (h : ∀ x hi, m.clampOn x hi = old.clampOn x hi) : m.clampEval old = m :=
  Chip.foldl_fixed fun x _ => if_neg (by simp [h x])

theorem Chip.phaseStarts_fixed {x : Nat} (all : Bool) (h : (m.conv x).switching = false) : m.phaseStarts x all = m :=
  if_neg (by simp [h])

theorem Chip.cnvSettle_fixed (hc : ∀ x hi, m.clampOn x hi = old.clampOn x hi) (hs : ∀ x, (m.conv x).switching = false) :
    m.cnvSettle old = m := by
  rw [Chip.cnvSettle, Chip.clampEval_fixed hc, Chip.phaseStarts_fixed _ (hs 0), Chip.phaseStarts_fixed _ (hs 1)]

theorem Chip.standbyConn_fixed (h : m.pwr.base ≠ .standby ∨ old.pwr.base = .standby) : m.standbyConn old = m :=
  Chip.when_fixed fun hc => by
    simp only [Bool.and_eq_true, decide_eq_true_eq, bne_iff_ne] at hc
    exact h.elim (absurd hc.1) fun ho => absurd ho hc.2

theorem Chip.estWatch_fixed (h : m.estRuns = false) : m.estWatch = m := if_pos (by simp [h])

theorem Chip.ptnWatch_fixed (hp : m.ptn.pool = []) (hw : m.ptn.wait = []) (he : m.ptn.ents = []) : m.ptnWatch = m := by
  have ht : m.takeIn = m := by rw [Chip.takeIn, hw, List.foldl_nil]
  have hh : m.headMarks = m := by
    unfold Chip.headMarks
    rw [hp, List.map_nil, ← hp]
  simp only [Chip.ptnWatch, ht, hh, he, List.map_nil, List.foldl_nil]

/-! ### All of them -/

/-- Where each watching machine leaves the chip, settling drives the pins and changes nothing else. -/
theorem Chip.settle_fixed (hl : m.linkAwake old = m) (hg : m.settleLegs = m) (hn : m.unblockedNotes = m) (hp : m.polReact old = m)
    (hc : m.up = true → m.capDerive old = m ∧ m.cnvSettle old = m) (hb : m.polBaseSet = m)
    (hw : m.up = true → ((m.standbyConn old).batWatch old).estWatch.ptnWatch = m) (ht : m.chgSettle old = m)
    (hs : m.splEval = m) (hd : m.divWatch = m) (hm : m.modeSettle old = m) (hj : m.journal old = m) (he : m.leaveEval = m) :
    m.settle old = { m with pins := m.pinsOf } := by
  have hcap : m.when m.up (fun m => m.capDerive old) = m := Chip.when_fixed fun hu => (hc hu).1
  have hcnv : m.when m.up (fun m => m.cnvSettle old) = m := Chip.when_fixed fun hu => (hc hu).2
  have hup : m.when m.up (fun m => ((m.standbyConn old).batWatch old).estWatch.ptnWatch) = m := Chip.when_fixed hw
  have hr : m.react old = m := by
    rw [Chip.react, hl, hg, hn, hp, hcap, hcnv, hb, hup, ht, hs, hd, hm, hj, he]
  rw [Chip.settle_eq, hr]
  rfl

end

/-- Settles O7: each watching machine leaves a chip that gives it nothing to act on. -/
theorem settlingWhenNothingWatches : Obligations.SettlingWhenNothingWatches := by
  refine ⟨fun m old hp hd hsl hho hdom hs hdv hod hj hm hu => ?_,
    fun m old hp hd hw hsl hho hdom hs hdv hod hj hm hu hv hen hcl hsw hpol hst hbat hch hct hest => ?_⟩
  · have hoff : m.up ≠ true := by simp [hu]
    exact Chip.settle_fixed (Chip.linkAwake_fixed hdom) (Chip.settleLegs_fixed hp) (Chip.unblockedNotes_fixed hsl)
      (Chip.polReact_notUp hu hho) (absurd · hoff) (Chip.polBaseSet_fixed hho) (absurd · hoff)
      (Chip.chgSettle_fixed (absurd · hoff)) (Chip.splEval_fixed hs) (Chip.divWatch_fixed hs hdv) (Chip.modeSettle_fixed hm)
      (Chip.journal_fixed hj hd hod) (Chip.leaveEval_fixed hs)
  · have hwatch : ((m.standbyConn old).batWatch old).estWatch.ptnWatch = m := by
      rw [Chip.standbyConn_fixed hst, hbat, Chip.estWatch_fixed hest, Chip.ptnWatch_fixed hp hw hen]
    exact Chip.settle_fixed (Chip.linkAwake_fixed hdom) (Chip.settleLegs_fixed hp) (Chip.unblockedNotes_fixed hsl) hpol
      (fun _ => ⟨Chip.capDerive_fixed hv, Chip.cnvSettle_fixed hcl hsw⟩) (Chip.polBaseSet_fixed hho) (fun _ => hwatch)
      (Chip.chgSettle_fixed fun _ => ⟨hch, hct⟩) (Chip.splEval_fixed hs) (Chip.divWatch_fixed hs hdv) (Chip.modeSettle_fixed hm)
      (Chip.journal_fixed hj hd hod) (Chip.leaveEval_fixed hs)

end Sys2Proof.Machine
end

section
/-!
PROOFS. The loop slots: writes of CTL and SP, CLE_COMMIT and CLE_KICK (R218, R219, R223, R227, R230 to R232).
-/

namespace Sys2Proof.Machine

/-! ### Writes of a slot's words -/

/-- A granted write of a word of a loop slot takes the effect that the slot gives it. -/
theorem completes_loopWordWrite {i : Instr} {s : State} {ag : Agent} {n : Fin 64} {w : Nat} {d : Word} {m' : Chip} {st : Status}
    (hx : exec i s = s.finish (s.m.loopWordWrite ag n w d)) (hw : w < 256) (hg : s.m.grants ag (loopAddr n w) d)
    (he : (loopAct n w d s.m).eff s.m = (m', st)) : Completes i s (s.m.written m' ag (loopAddr n w) st) := by
  have ht : targetOf (loopAddr n w) = .loopMem n w := targetOf_loop n ⟨w, hw⟩
  refine completes_of hx ?_
  rw [Chip.loopWordWrite, Chip.portWrite_granted hg]
  simp only [Chip.writeAct, ht, he]

/-! ### CTL (R218, R219, R230) -/

/-- RUN is among the bits of CTL that a write stores. -/
theorem bitOf_ctl_run (ctl : Word) (b : Bool) : bitOf (setBit ctl 0 b &&& wd 0xF737) 0 = b := by
  have hm : (wd 0xF737).getLsbD 0 = true := by decide
  have hb : (setBit ctl 0 b).toNat.testBit 0 = b := by
    rw [setBit, testBit_setBits _ _ _ (Nat.le_refl 0) (by decide)]
    cases b <;> simp
  rw [bitOf_eq, BitVec.getLsbD_and, hm, Bool.and_true]
  exact hb

section
variable {m : Chip} {n : Nat}

/-- RUN in a stopped slot arms it or is refused for want of load. -/
theorem loopAct_run (ctl : Word) (hs : (m.lslot n).st = .stopped) :
    (loopAct n 0 (setBit ctl 0 true) m).eff m = m.slotRun n (setBit ctl 0 true &&& wd 0xF737) := by
  have hc : (bitOf (setBit ctl 0 true &&& wd 0xF737) 0 && decide ((m.lslot n).st = .stopped)) = true := by
    rw [bitOf_ctl_run]
    simp [hs]
  exact if_pos hc

theorem Chip.slotRun_admitted {ctl : Word} (h : m.cleAdmit + m.runLoad n ctl ≤ m.fld .cleCfg 0 14 8 * 100) :
    m.slotRun n ctl = (m.slotArm n ctl, .ok) := if_neg (Nat.not_lt.2 h)

theorem Chip.slotRun_full {ctl : Word} (h : m.fld .cleCfg 0 14 8 * 100 < m.cleAdmit + m.runLoad n ctl) :
    m.slotRun n ctl = (m, .efull) := if_pos h

/-- A write without RUN stops an armed slot that does not stop already. -/
theorem loopAct_stop (ctl : Word) (hs : (m.lslot n).st = .armed) (ha : (m.lslot n).after = .none) :
    (loopAct n 0 (setBit ctl 0 false) m).eff m = ((m.putLw n 0 (setBit ctl 0 false &&& wd 0xF737)).slotStop n, .ok) := by
  have hr := bitOf_ctl_run ctl false
  have hstarts : ¬(bitOf (setBit ctl 0 false &&& wd 0xF737) 0 && decide ((m.lslot n).st = .stopped)) = true := by simp [hr]
  have hafter : ¬(m.lslot n).after = .stop := by simp [ha]
  have hstop : (!bitOf (setBit ctl 0 false &&& wd 0xF737) 0 && decide ((m.lslot n).st = .armed)) = true := by simp [hr, hs]
  exact (if_neg hstarts).trans ((if_neg hafter).trans (if_pos hstop))

theorem Chip.slotStop_resting (h : (m.lslot n).run = none) : m.slotStop n = m.loopStop n := if_neg (by simp [h])

/-- A running sample finishes before its slot stops. -/
theorem Chip.slotStop_running (h : (m.lslot n).run ≠ none) :
    m.slotStop n = m.putLslot n { m.lslot n with after := .stop, pend := none } :=
  if_pos (Option.isSome_iff_ne_none.2 h)

/-! ### SP (R227) -/

theorem Chip.setSp_same {d : Word} (h : m.lw n 2 = d) : m.setSp n d = m := if_pos h

theorem Chip.setSp_armed {d : Word} (h : m.lw n 2 ≠ d) (hs : (m.lslot n).st = .armed) :
    m.setSp n d = (m.spTarget n d).spReached n := by
  rw [Chip.setSp, if_neg h]
  exact if_pos (by simp [hs])

theorem Chip.setSp_notArmed {d : Word} (h : m.lw n 2 ≠ d) (hs : (m.lslot n).st ≠ .armed) : m.setSp n d = m.spTarget n d := by
  rw [Chip.setSp, if_neg h]
  exact if_neg (by simp [hs])

end

/-! ### CLE_COMMIT and CLE_KICK (R223, R231, R232) -/

theorem bits_cleCommit_slot (n : Fin 64) (mask : BitVec 8) : bits (wd (n.val + mask.toNat * 256)) 5 0 = n := by
  simp only [bits, wd, BitVec.toNat_ofNat]
  omega

theorem bits_cleCommit_mask (n : Fin 64) (mask : BitVec 8) : bits (wd (n.val + mask.toNat * 256)) 15 8 = mask.toNat := by
  simp only [bits, wd, BitVec.toNat_ofNat]
  omega

theorem bits_cleKick_slot (n : Fin 64) : bits (wd n.val) 5 0 = n := by
  simp only [bits, wd, BitVec.toNat_ofNat]
  omega

/-- CLE_CMDSTAT of an accepted command holds the slot and the mask, and the status OK is 0. -/
theorem Chip.cleStatus_ok (m : Chip) (n mask : Nat) : m.cleStatus n mask .ok = m.put .cleCmdstat 0 (wd (n * 256 + mask * 65536)) := by
  simp [Chip.cleStatus, Status.code]

theorem Chip.regAct_cleCommit (m : Chip) (ag : Agent) (n : Fin 64) (mask : BitVec 8) :
    (m.regAct ag .cleCommit 0 (wd (n.val + mask.toNat * 256))).eff m =
      ((m.commit n mask.toNat).put .cleCmdstat 0 (wd (n.val * 256 + mask.toNat * 65536)), .ok) := by
  show (commitAct (bits (wd (n.val + mask.toNat * 256)) 5 0) (bits (wd (n.val + mask.toNat * 256)) 15 8) m).eff m = _
  rw [bits_cleCommit_slot, bits_cleCommit_mask, ← Chip.cleStatus_ok]
  rfl

theorem Chip.regAct_cleKick (m : Chip) (ag : Agent) (n : Fin 64) :
    (m.regAct ag .cleKick 0 (wd n.val)).eff m = ((m.slotTrigger n).put .cleCmdstat 0 (wd (n.val * 256)), .ok) := by
  show ((m.slotTrigger (bits (wd n.val) 5 0)).cleStatus (bits (wd n.val) 5 0) 0 .ok, Status.ok) = _
  rw [bits_cleKick_slot, Chip.cleStatus_ok, Nat.zero_mul, Nat.add_zero]

/-- Settles O34: each write of a slot's word takes the effect of CTL or of SP in the slot's state, and the two commands are granted
writes of their registers. -/
theorem loopSlots : Obligations.LoopSlots :=
  ⟨fun s ag n ctl hg hs hl => completes_loopWordWrite (exec_slotRun ag n ctl s) (by decide) hg
      ((loopAct_run ctl hs).trans (Chip.slotRun_admitted hl)),
    fun s ag n ctl hg hs hl => completes_loopWordWrite (exec_slotRun ag n ctl s) (by decide) hg
      ((loopAct_run ctl hs).trans (Chip.slotRun_full hl)),
    fun s ag n ctl hg hs ha hr => completes_loopWordWrite (exec_slotStop ag n ctl s) (by decide) hg
      ((loopAct_stop ctl hs ha).trans (congrArg (·, Status.ok) (Chip.slotStop_resting hr))),
    fun s ag n ctl hg hs ha hr => completes_loopWordWrite (exec_slotStop ag n ctl s) (by decide) hg
      ((loopAct_stop ctl hs ha).trans (congrArg (·, Status.ok) (Chip.slotStop_running hr))),
    fun s ag n d hg hd hs => completes_loopWordWrite (exec_loopSpWrite ag n d s) (by decide) hg
      (congrArg (·, Status.ok) (Chip.setSp_armed hd hs)),
    fun s ag n d hg hd hs => completes_loopWordWrite (exec_loopSpWrite ag n d s) (by decide) hg
      (congrArg (·, Status.ok) (Chip.setSp_notArmed hd hs)),
    fun s ag n d hg hd => completes_loopWordWrite (exec_loopSpWrite ag n d s) (by decide) hg
      (congrArg (·, Status.ok) (Chip.setSp_same hd)),
    fun n mask => writeRow_of (fun _ _ => rfl) targetOf_cleCommit (fun ag m => m.regAct_cleCommit ag n mask),
    fun n => writeRow_of (fun _ _ => rfl) targetOf_cleKick (fun ag m => m.regAct_cleKick ag n)⟩

end Sys2Proof.Machine
end

section
/-!
PROOFS. The samples of the loop slots: triggers, the start and the end of a sample, the confirm window of PREDICT and the count of PLANT
(R218, R222 to R228, R238, R242, R246, R250).
-/

namespace Sys2Proof.Machine

section
variable {m : Chip} {n : Nat}

/-! ### Triggers (R222, R223) -/

theorem Chip.loopTrigger_ownTime (h : (m.trigOf n).1 = 0 ∨ (m.trigOf n).1 = 4) : m.loopTrigger n = m := if_pos (by simp [h])

theorem Chip.loopTrigger_triggers (h0 : (m.trigOf n).1 ≠ 0) (h2 : (m.trigOf n).1 ≠ 2) (h4 : (m.trigOf n).1 ≠ 4) :
    m.loopTrigger n = m.slotTrigger n := if_neg (by simp [h0, h2, h4])

/-- A trigger with nothing outstanding makes a sample pending. -/
theorem Chip.slotTrigger_free (hs : (m.lslot n).st = .armed) (hp : (m.lslot n).pend = none) (hr : (m.lslot n).run = none) :
    m.slotTrigger n =
      let w := m.putLw n 15 (wd (m.now % 2 ^ 32))
      (w.putLslot n { m.lslot n with pend := some w.now }).wake .cle := by
  rw [Chip.slotTrigger, if_neg (by simp [hs])]
  exact if_neg (by simp [hp, hr])

/-- A trigger that finds a sample pending is an overrun. -/
theorem Chip.slotTrigger_overrun (hs : (m.lslot n).st = .armed) (hp : (m.lslot n).pend.isSome = true) :
    m.slotTrigger n =
      let w := m.putLw n 15 (wd (m.now % 2 ^ 32))
      ((w.putLw n 12 (wd (satTo (2 ^ 32 - 1) ((w.lw n 12).toNat + 1)))).bump .cleOvrcnt 0 15 0 1).raise 35 n [] := by
  rw [Chip.slotTrigger, if_neg (by simp [hs])]
  exact if_pos (by simp [hp])

/-! ### Samples (R218, R224, R226) -/

theorem Chip.sampleStart_none (us : Nat) (h : m.nextSample = none) : m.sampleStart us = m := by
  rw [Chip.sampleStart, h]
  exact ite_self m

theorem Chip.sampleDone_none (h : (m.lslot n).run = none) : m.sampleDone n = m := by
  simp only [Chip.sampleDone, h]

theorem Chip.slotStopComplete_stopping (h : (m.lslot n).after = .stop) : m.slotStopComplete n = m.sampleDone n := if_pos h

theorem Chip.slotStopComplete_elsewhere (h : (m.lslot n).after ≠ .stop) : m.slotStopComplete n = m := if_neg h

/-! ### PREDICT and PLANT (R238, R242) -/

/-- A tentative output whose confirm window has ended is retracted. -/
theorem Chip.confElapsed_tentative {k : Nat} (hk : m.predBlk n = some k) (hb : (m.lslot n).bound = true)
    (hp : (m.lslot n).pstate = .tentative) :
    m.confElapsed n = (m.elapse (m.lslot n).onsetAt (m.confWin n k)).predRetract n 1 := by
  simp only [Chip.confElapsed, hk]
  exact if_pos (by simp [hb, hp])

theorem Chip.confElapsed_elsewhere (hp : (m.lslot n).pstate ≠ .tentative) : m.confElapsed n = m := by
  simp only [Chip.confElapsed]
  split
  · rfl
  · exact if_neg (by simp [hp])

/-- The first PLANT block whose count is due raises its source once. -/
theorem Chip.plausibility_due {k : Nat} (hk : (List.range (m.nblk n + 1)).find? (fun k => m.plausDue n k) = some k)
    (hb : (m.lslot n).bound = true) :
    m.plausibility n =
      ((m.putPlant n k { m.plant n k with raised := true }).holdFence .mark (8 * n + k) 38).raise 38 n
        [wd n, m.stw n k 1, m.stw n k 0] := by
  rw [Chip.plausibility, hk]
  exact if_pos hb

theorem Chip.plausibility_raised (h : ∀ k ≤ m.nblk n, (m.plant n k).raised = true) : m.plausibility n = m := by
  have hnone : (List.range (m.nblk n + 1)).find? (fun k => m.plausDue n k) = none := by
    rw [List.find?_eq_none]
    intro k hk
    simp [Chip.plausDue, h k (Nat.lt_succ_iff.1 (List.mem_range.1 hk))]
  rw [Chip.plausibility, hnone]

end

/-- Settles O35: each row of a trigger, a sample and a window in the state it names, and in the states that give it nothing to do. -/
theorem loopSamples : Obligations.LoopSamples := by
  refine ⟨fun s n h0 h2 h4 hs hp hr => completes_of (exec_loopTrigger n s)
      ((Chip.loopTrigger_triggers h0 h2 h4).trans (Chip.slotTrigger_free hs hp hr)),
    fun s n h0 h2 h4 hs hp => completes_of (exec_loopTrigger n s)
      ((Chip.loopTrigger_triggers h0 h2 h4).trans (Chip.slotTrigger_overrun hs hp)),
    fun s n h => completes_of (exec_loopTrigger n s) (Chip.loopTrigger_ownTime h),
    fun s us n hl hn => completes_of (exec_loopSampleStart us s) ?_,
    fun s us hn => completes_of (exec_loopSampleStart us s) (Chip.sampleStart_none us hn),
    fun s n sm hr => completes_of (exec_loopSampleDone n s) ?_,
    fun s n hr => completes_of (exec_loopSampleDone n s) (Chip.sampleDone_none hr),
    fun s n ha => completes_of (exec_slotStopComplete n s) (Chip.slotStopComplete_stopping ha),
    fun s n ha => completes_of (exec_slotStopComplete n s) (Chip.slotStopComplete_elsewhere ha),
    fun s n k hk hb hp => completes_of (exec_predictConfwElapsed n s) (Chip.confElapsed_tentative hk hb hp),
    fun s n hp => completes_of (exec_predictConfwElapsed n s) (Chip.confElapsed_elsewhere hp),
    fun s n k hk hb => completes_of (exec_plausibility n s) (Chip.plausibility_due hk hb),
    fun s n h => completes_of (exec_plausibility n s) (Chip.plausibility_raised h)⟩
  · -- a lane is free, and slot n is the one whose sample is due first
    rw [Chip.sampleStart, if_neg (Nat.not_le.2 hl), hn] <;> rfl
  · -- the sample that runs is the one that ends; its chain costs more where a PREDICT output is not final
    have hpred : (if (decide ((s.m.lslot n).pstate = .tentative) || decide ((s.m.lslot n).pstate = .retracting)) = true
        then 12 else 6) = if (s.m.lslot n).pstate = .tentative ∨ (s.m.lslot n).pstate = .retracting then 12 else 6 :=
      if_congr (by simp) rfl rfl
    rw [Chip.sampleDone, hr, hpred] <;> rfl

end Sys2Proof.Machine
end

section
/-!
PROOFS. The protection of the branches: meters, trips, the ends of INRUSH, gate failures, retries, pass shorts and the AUTOON stagger
(R349, R353, R357, R358, R360 to R362, R365, R590).
-/

namespace Sys2Proof.Machine

section
variable {m : Chip} {n : Nat}

/-! ### Outside SHADOW and in it (R590) -/

/-- A branch fault takes its whole effect outside SHADOW. -/
theorem Chip.brnLocal_live (f : Chip → Chip) (hb : m.pwr.base ≠ .shadow) : m.brnLocal n f = f m := if_pos (by simp [hb])

theorem Chip.brnLive_live (f : Chip → Chip) (hb : m.pwr.base ≠ .shadow) : m.brnLive f = f m := if_pos (by simp [hb])

theorem Chip.brnLive_shadow (f : Chip → Chip) (hb : m.pwr.base = .shadow) : m.brnLive f = m := if_neg (by simp [hb])

/-- What the chip that drives leaves alone stays so in SHADOW. -/
theorem Chip.brnLive_fixed {f : Chip → Chip} (h : f m = m) : m.brnLive f = m := Chip.when_fixed fun _ => h

/-! ### Meters (R349, R353) -/

/-- A meter result of a branch whose domain sleeps shows the level of GFBn, no more. -/
theorem Chip.meterRow_asleep (i : Int) (v : Nat) (want : Int) (gfb : Bool) (hd : m.dom 8 ≠ .on) :
    m.meterRow n i v want gfb = m.brnSeeGfb n gfb := if_neg (by simp [hd])

/-- The end of an averaging window with samples in it. -/
theorem Chip.branchAvg_samples (hc : m.brnConfigured n = true) (hn : (m.branch n).cnt ≠ 0) :
    m.branchAvg n =
      let b := m.branch n
      let w := m.elapse b.avgAt (m.brnShared .brnCfg 15 8 * 10000)
      ((w.putBranch n { b with cnt := 0, sumI := 0, sumV := 0, sumP := 0, avgAt := w.now }).put .brnNIavg n
        (wd (unI (rdiv b.sumI b.cnt) 16 + (2 * b.sumV + b.cnt) / (2 * b.cnt) * 65536))).put .brnNP n
        (wdI (rdiv b.sumP (10 * 2 ^ 31 * b.cnt))) := by
  rw [Chip.branchAvg, if_neg (by simp [hc])]
  exact if_neg hn

/-! ### Trips (R357, R358, R365) -/

theorem Chip.branchTrip_conducting {i : Int} (hg : (m.branch n).gen = true)
    (hi : m.fld .brnNTrip n 9 0 * 32768 < 1000 * i.natAbs) : m.branchTrip n i = m.brnTrip n 2 63 := by
  rw [Chip.branchTrip, if_neg (by simp [hi]), if_pos hg]

theorem Chip.branchTrip_resting (i : Int) (hg : (m.branch n).gen = false) (hx : m.brnJustExpired n = false) :
    m.branchTrip n i = m := by
  have hg' : ¬(m.branch n).gen = true := by simp [hg]
  have hx' : ¬m.brnJustExpired n = true := by simp [hx]
  rw [Chip.branchTrip, if_neg hg', if_neg hx', ite_self]

/-- A trip that comes with an expiry gives it its cause. -/
theorem Chip.branchTrip_expired {i : Int} (hg : (m.branch n).gen = false) (hx : m.brnJustExpired n = true)
    (hi : m.fld .brnNTrip n 9 0 * 32768 < 1000 * i.natAbs) :
    m.branchTrip n i = (m.putBranch n { m.branch n with cause := 2 }).raise 63 n (m.brnPayload n) := by
  have hg' : ¬(m.branch n).gen = true := by simp [hg]
  rw [Chip.branchTrip, if_neg (by simp [hi]), if_neg hg', if_pos hx]

theorem Chip.branchOverload_limit (hs : (m.branch n).st = .on) (hl : (m.branch n).limit = true) :
    m.branchOverload n = (m.elapse (m.branch n).limAt (m.fld .brnNTmr n 31 20 * 1000)).brnTrip n 3 64 := if_pos (by simp [hs, hl])

theorem Chip.branchOverload_notOn (hs : (m.branch n).st ≠ .on) : m.branchOverload n = m := if_neg (by simp [hs])

/-! ### The ends of INRUSH (R358) -/

theorem Chip.branchOn_inrush (hs : (m.branch n).st = .inrush) (hl : (m.branch n).limit = false)
    (hv : m.fld .brnNInr n 31 16 * 65536 ≤ m.brnVs n) :
    m.branchOn n =
      ((((m.elapse (m.branch n).limAt (m.brnF .brnNRetry n 23 16 * 100)).brnTo n .on 0).eventRecord 213 n []).event 213) :=
  if_pos (by simp [hs, hl, hv])

theorem Chip.branchOn_notInrush (hs : (m.branch n).st ≠ .inrush) : m.branchOn n = m := if_neg (by simp [hs])

theorem Chip.branchInrushTimeout_inrush (hs : (m.branch n).st = .inrush) :
    m.branchInrushTimeout n = (m.elapse (m.branch n).since (m.fld .brnNTmr n 11 0 * 1000)).brnTrip n 4 65 := if_pos hs

theorem Chip.branchInrushTimeout_notInrush (hs : (m.branch n).st ≠ .inrush) : m.branchInrushTimeout n = m := if_neg hs

/-- At INSHT a branch whose voltage is still below a tenth of VPG is shorted. -/
theorem Chip.branchInrushShort_inrush (hs : (m.branch n).st = .inrush) (hg : m.fld .brnNInr n 31 16 ≠ 0)
    (ht : m.now ≤ (m.branch n).since + m.fld .brnNTmr n 19 12 * 100)
    (hv : 10 * m.brnVs n < m.fld .brnNInr n 31 16 * 65536) :
    m.branchInrushShort n = (m.elapse (m.branch n).since (m.fld .brnNTmr n 19 12 * 100)).brnTrip n 5 66 :=
  if_pos (by simp [hs, hg, ht, hv])

theorem Chip.branchInrushShort_notInrush (hs : (m.branch n).st ≠ .inrush) : m.branchInrushShort n = m := if_neg (by simp [hs])

/-! ### Gates (R360) -/

/-- A gate failure while GENn is high latches the branch with source 67. -/
def Chip.gateLatch (m : Chip) (n : Nat) : Chip :=
  let w := ((m.brnTo n .latched 6).bump .brnNCnt n 15 0 1).holdFence .branch n 67
  w.raise 67 n (w.brnPayload n)

/-- The gate has not risen. -/
theorem Chip.gateFail_notRisen (hg : (m.branch n).gen = true) (hf : m.brnGfb n = false)
    (ht : (m.branch n).gfbAt ≤ (m.branch n).genAt) :
    m.gateFail n 0 = (m.elapse (m.branch n).genAt (m.brnF .brnNGate n 15 8 * 10)).gateLatch n := by
  rw [Chip.gateFail, if_pos rfl]
  exact if_pos (by simp [hg, hf, ht])

/-- The gate has dropped. -/
theorem Chip.gateFail_dropped (hg : (m.branch n).gen = true) (hf : m.brnGfb n = false)
    (ht : (m.branch n).genAt < (m.branch n).gfbAt) :
    m.gateFail n 1 = (m.elapse (m.branch n).gfbAt 10).gateLatch n := by
  rw [Chip.gateFail, if_neg Nat.one_ne_zero, if_pos rfl]
  exact if_pos (by simp [hg, hf, ht])

/-- The gate has not fallen: that is raised once for each fall. -/
theorem Chip.gateFail_notFallen (hg : (m.branch n).gen = false) (h0 : (m.branch n).genAt ≠ 0) (hf : m.brnGfb n = true)
    (ht : (m.branch n).gfbAt ≤ (m.branch n).genAt) (hr : (m.branch n).fallRaised = false) :
    m.gateFail n 2 =
      let w := (m.elapse (m.branch n).genAt (m.brnF .brnNGate n 23 16)).putBranch n { m.branch n with fallRaised := true }
      w.raise 67 n (w.brnPayload n) := by
  rw [Chip.gateFail, if_neg (by decide), if_neg (by decide)]
  exact if_pos (by simp [hg, h0, hf, ht, hr])

/-! ### Retries (R358) -/

theorem Chip.branchRetry_tripped (hs : (m.branch n).st = .tripped) (hr : (m.branch n).retry < m.brnF .brnNRetry n 3 0) :
    m.branchRetry n =
      (m.elapse (m.branch n).since (m.brnF .brnNRetry n 15 8 * 100000)).brnInrush n ((m.branch n).retry + 1) :=
  if_pos (by simp [hs, hr])

theorem Chip.branchRetry_usedUp (hr : m.brnF .brnNRetry n 3 0 ≤ (m.branch n).retry) : m.branchRetry n = m :=
  if_neg (by simp [hr])

theorem Chip.branchRetryReset_on (hs : (m.branch n).st = .on) :
    m.branchRetryReset n =
      let w := m.elapse (m.branch n).since 10000000
      w.putBranch n { w.branch n with retry := 0 } := if_pos hs

/-! ### Pass shorts (R361) -/

/-- Current through a branch at rest latches it. -/
theorem Chip.branchPassShort_off {t : Nat} (ht : (m.branch n).leakAt = some t) (hs : (m.branch n).st = .off)
    (hd : (m.branch n).short = false) :
    m.branchPassShort n =
      let w := m.elapse t 10000
      let w := ((w.putBranch n { m.branch n with st := .latched, since := w.now, cause := 7, short := true }).bump
        .brnNCnt n 15 0 1).holdFence .branch n 68
      w.raise 68 n (w.brnPayload n) := by
  have hl : ((m.branch n).st != .latched) = true := by simp [hs]
  simp only [Chip.branchPassShort, ht, hl]
  exact if_pos (by simp [hs, hd])

theorem Chip.branchPassShort_raised (hd : (m.branch n).short = true) : m.branchPassShort n = m := by
  simp only [Chip.branchPassShort]
  split
  · exact if_neg (by simp [hd])
  · rfl

/-! ### The AUTOON walk (R362) -/

theorem Chip.brnAutoNext_left {t : Nat} (h : m.brn.autoLeft = some t) :
    m.brnAutoNext = (m.elapse t (m.brnShared .brnStagger 9 0 * 1000)).brnWalk m.brn.auto := by
  rw [Chip.brnAutoNext, h]

theorem Chip.brnAutoNext_none (h : m.brn.autoLeft = none) : m.brnAutoNext = m := by
  rw [Chip.brnAutoNext, h]

end

/-- Settles O42: each row of a branch in the state it names, and in the states that leave it nothing to do. -/
theorem branchProtection : Obligations.BranchProtection := by
  refine ⟨fun s n i v want gfb hd hc => completes_of (exec_branchMeterSample n i v want gfb s) ?_,
    fun s n i v want gfb hd => completes_of (exec_branchMeterSample n i v want gfb s) (Chip.meterRow_asleep i v.toNat want gfb hd),
    fun s n hc hn => completes_of (exec_branchAvgWindow n s) (Chip.branchAvg_samples hc hn),
    fun s n cur hb hg hi => completes_of (exec_branchTrip (n, cur) s)
      ((Chip.brnLocal_live _ hb).trans (Chip.branchTrip_conducting hg hi)),
    fun s n cur hb hg hx => completes_of (exec_branchTrip (n, cur) s)
      ((Chip.brnLocal_live _ hb).trans (Chip.branchTrip_resting cur hg hx)),
    fun s n cur hb hg hx hi => completes_of (exec_branchTrip (n, cur) s)
      ((Chip.brnLocal_live _ hb).trans (Chip.branchTrip_expired hg hx hi)),
    fun s n hb hs hl hv => completes_of (exec_branchOn n s) ((Chip.brnLive_live _ hb).trans (Chip.branchOn_inrush hs hl hv)),
    fun s n hs => completes_of (exec_branchOn n s) (Chip.brnLive_fixed (Chip.branchOn_notInrush hs)),
    fun s n hb hs => completes_of (exec_branchInrushTimeout n s)
      ((Chip.brnLocal_live _ hb).trans (Chip.branchInrushTimeout_inrush hs)),
    fun s n hb hs => completes_of (exec_branchInrushTimeout n s)
      ((Chip.brnLocal_live _ hb).trans (Chip.branchInrushTimeout_notInrush hs)),
    fun s n hb hs hg ht hv => completes_of (exec_branchInrushShort n s)
      ((Chip.brnLocal_live _ hb).trans (Chip.branchInrushShort_inrush hs hg ht hv)),
    fun s n hb hs => completes_of (exec_branchInrushShort n s)
      ((Chip.brnLocal_live _ hb).trans (Chip.branchInrushShort_notInrush hs)),
    fun s n hb hs hl => completes_of (exec_branchOverload n s)
      ((Chip.brnLocal_live _ hb).trans (Chip.branchOverload_limit hs hl)),
    fun s n hb hs => completes_of (exec_branchOverload n s) ((Chip.brnLocal_live _ hb).trans (Chip.branchOverload_notOn hs)),
    fun s n k hb hk hg hf ht => completes_of (exec_gateFail n k s)
      (hk ▸ (Chip.brnLocal_live _ hb).trans (Chip.gateFail_notRisen hg hf ht)),
    fun s n k hb hk hg hf ht => completes_of (exec_gateFail n k s)
      (hk ▸ (Chip.brnLocal_live _ hb).trans (Chip.gateFail_dropped hg hf ht)),
    fun s n k hb hk hg h0 hf ht hr => completes_of (exec_gateFail n k s)
      (hk ▸ (Chip.brnLocal_live _ hb).trans (Chip.gateFail_notFallen hg h0 hf ht hr)),
    fun s n hb hs hr => completes_of (exec_branchRetry n s) ((Chip.brnLive_live _ hb).trans (Chip.branchRetry_tripped hs hr)),
    fun s n hr => completes_of (exec_branchRetry n s) (Chip.brnLive_fixed (Chip.branchRetry_usedUp hr)),
    fun s n hb hs => completes_of (exec_branchRetryCountReset n s)
      ((Chip.brnLive_live _ hb).trans (Chip.branchRetryReset_on hs)),
    fun s n t hu hb ht hs hd => completes_of (exec_branchPassShort n s)
      ((Chip.whenUp_up _ hu).trans ((Chip.brnLocal_live _ hb).trans (Chip.branchPassShort_off ht hs hd))),
    fun s n hu hb hd => completes_of (exec_branchPassShort n s)
      ((Chip.whenUp_up _ hu).trans ((Chip.brnLocal_live _ hb).trans (Chip.branchPassShort_raised hd))),
    fun s t h => completes_of (exec_branchAutoonStagger s) (Chip.brnAutoNext_left h),
    fun s h => completes_of (exec_branchAutoonStagger s) (Chip.brnAutoNext_none h),
    fun s n hb => ⟨completes_of (exec_branchOn n s) (Chip.brnLive_shadow _ hb),
      completes_of (exec_branchRetry n s) (Chip.brnLive_shadow _ hb),
      completes_of (exec_branchRetryCountReset n s) (Chip.brnLive_shadow _ hb)⟩⟩
  -- the meter's domain is up and the branch is configured; a voltage code has 16 bits
  have hv : v.toNat % 65536 = v.toNat := Nat.mod_eq_of_lt v.isLt
  rw [Chip.meterRow, if_pos hd, Chip.branchMeter, if_neg (by simp [hc]), hv]
  rfl

end Sys2Proof.Machine
end

section
/-!
PROOFS. What a record, an event and a fault without isolation leave alone (R545 to R552, R606).
-/

namespace Sys2Proof.Machine

/-! ### Records, events and reactions up to DEGRADE -/

/-- The registers that a record refused and an event delivered write. -/
def notedRegs : List RName := [.rcdLost, .evtPend, .layEvline]

/-- The chip `a` has the sequencer of `b` and its registers, but for those that records and events write. -/
structure Chip.NotedFrom (a b : Chip) : Prop where
  seq : a.seq = b.seq
  get : ∀ r i, r ∉ notedRegs → a.get r i = b.get r i

theorem Chip.NotedFrom.of_regs {a b : Chip} (hs : a.seq = b.seq) (hr : a.regs = b.regs) : a.NotedFrom b :=
  ⟨hs, fun _ _ _ => by rw [Chip.get, Chip.get, hr]⟩

theorem Chip.NotedFrom.refl (m : Chip) : m.NotedFrom m := .of_regs rfl rfl

theorem Chip.NotedFrom.trans {a b c : Chip} (h : a.NotedFrom b) (g : b.NotedFrom c) : a.NotedFrom c :=
  ⟨h.seq.trans g.seq, fun r i hr => (h.get r i hr).trans (g.get r i hr)⟩

theorem Chip.when_notedFrom {m : Chip} (c : Bool) {f : Chip → Chip} (h : (f m).NotedFrom m) : (m.when c f).NotedFrom m := by
  cases c
  · exact .refl m
  · exact h

theorem Chip.put_notedFrom (m : Chip) {r : RName} (i : Nat) (w : Word) (hr : r ∈ notedRegs) : (m.put r i w).NotedFrom m :=
  ⟨rfl, fun _ _ hq => m.get_put_ne w fun he => hq ((Prod.mk.inj he).1.symm ▸ hr)⟩

theorem Chip.wake_notedFrom (m : Chip) (d : Dom) : (m.wake d).NotedFrom m := .of_regs rfl rfl

theorem Chip.noteTrig_notedFrom (m : Chip) (s : Nat) : (m.noteTrig s).NotedFrom m := by
  unfold Chip.noteTrig
  split <;> exact .of_regs rfl rfl

theorem Chip.enqueue_notedFrom (m : Chip) (r : Rec) (dv : Option Deliv) : (m.enqueue r dv).NotedFrom m := by
  unfold Chip.enqueue
  split
  · exact .of_regs rfl rfl
  · have hb : (m.bump .rcdLost 0 15 0 1).NotedFrom m := m.put_notedFrom _ _ (by decide)
    exact ⟨hb.seq, hb.get⟩

theorem Chip.deliverTo_notedFrom (m : Chip) (s d : Nat) : (m.deliverTo s d).NotedFrom m := by
  have hp : ∀ i hi lo v, (m.putF .evtPend i hi lo v).NotedFrom m := fun i _ _ _ => m.put_notedFrom i _ (by decide)
  unfold Chip.deliverTo
  split
  · exact .refl m
  · dsimp only
    split_ifs
    · exact (Chip.wake_notedFrom _ _).trans (hp _ _ _ _)
    · exact (Chip.wake_notedFrom _ _).trans (hp _ _ _ _)
    · exact ((Chip.wake_notedFrom _ _).trans (Chip.put_notedFrom _ _ _ (by decide))).trans (hp _ _ _ _)
    · exact hp _ _ _ _

theorem Chip.event_notedFrom (m : Chip) (s : Nat) : (m.event s).NotedFrom m := by
  refine .trans ?_ (m.noteTrig_notedFrom s)
  refine List.foldlRecOn (motive := fun a : Chip => a.NotedFrom (m.noteTrig s)) _ _ (.refl _) fun a ha d _ => ?_
  split
  · exact (a.deliverTo_notedFrom s d).trans ha
  · exact ha

theorem Chip.degrade_notedFrom (m : Chip) : m.degrade.NotedFrom m := by
  unfold Chip.degrade
  split
  · have hr := Chip.enqueue_notedFrom { m with pwr := { m.pwr with condDegr := true } }
    exact ⟨(hr _ _).seq, (hr _ _).get⟩
  · exact .refl m

theorem Chip.splFault_notedFrom (m : Chip) (s : Nat) : (m.splFault s).NotedFrom m := by
  unfold Chip.splFault
  split
  · unfold Chip.splTrigger
    split
    · exact .of_regs rfl rfl
    · exact m.enqueue_notedFrom _ _
    · exact .refl m
  · exact .refl m

/-! ### Faults below FENCE -/

/-- An occurrence latches its flag. -/
theorem bitOf_flagAfter (f : Word) (sev inst : Nat) : bitOf (flagAfter f sev inst) 31 = true := by
  rw [flagAfter, bitOf, bits_setBits _ _ (Nat.le_refl 31) (by decide)]
  rfl

theorem Chip.noteTrig_regs (m : Chip) (s : Nat) : (m.noteTrig s).regs = m.regs := by
  unfold Chip.noteTrig
  split <;> rfl

/-- An occurrence sets its flag and writes a record. -/
theorem Chip.latch_notedFrom (m : Chip) (s i : Nat) (p : List Word) :
    ∃ w, bitOf w 31 = true ∧ (m.latch s i p).NotedFrom (m.put .fltFlag s w) := by
  refine ⟨_, bitOf_flagAfter (m.get .fltFlag s) (m.sev s) i, ?_⟩
  unfold Chip.latch
  dsimp only
  generalize flagAfter (m.get .fltFlag s) (m.sev s) i = w
  split
  · exact (Chip.enqueue_notedFrom _ _ _).trans (.of_regs rfl rfl)
  · exact .refl _

section
variable {m : Chip} {s : Nat} (i : Nat) (p : List Word) (h : m.sev s < 3)
include h

/-- A fault of a severity below FENCE latches its flag; beside that it writes records and events. -/
theorem Chip.raise_notedFrom : ∃ w, bitOf w 31 = true ∧ (m.raise s i p).NotedFrom (m.put .fltFlag s w) := by
  obtain ⟨w, hw, hl⟩ := (m.noteTrig s).latch_notedFrom s i p
  have ht : ((m.noteTrig s).put .fltFlag s w).NotedFrom (m.put .fltFlag s w) :=
    .of_regs (m.noteTrig_notedFrom s).seq (by simp only [Chip.put, m.noteTrig_regs s])
  have hsafe : ¬4 ≤ m.sev s := by omega
  have hfence : ¬3 ≤ m.sev s := by omega
  have hr : m.raise s i p = (((m.noteTrig s).latch s i p).when (2 ≤ m.sev s) Chip.degrade).splFault s := by
    simp only [Chip.raise, Chip.raiseOnly, hsafe, hfence, decide_false, Chip.when, Bool.false_eq_true, if_false]
  rw [hr]
  exact ⟨w, hw, (((Chip.splFault_notedFrom _ s).trans (Chip.when_notedFrom _ (Chip.degrade_notedFrom _))).trans hl).trans ht⟩

theorem Chip.raise_seq : (m.raise s i p).seq = m.seq :=
  have ⟨_, _, hn⟩ := Chip.raise_notedFrom i p h
  hn.seq

theorem Chip.raise_latches : (m.raise s i p).flag .fltFlag s 31 = true := by
  obtain ⟨w, hw, hn⟩ := Chip.raise_notedFrom i p h
  rw [Chip.flag, hn.get _ _ (by decide), Chip.get_put_self, hw]

theorem Chip.get_raise {r : RName} (j : Nat) (hf : r ≠ .fltFlag) (hr : r ∉ notedRegs) : (m.raise s i p).get r j = m.get r j := by
  obtain ⟨w, -, hn⟩ := Chip.raise_notedFrom i p h
  rw [hn.get _ _ hr]
  exact m.get_put_ne _ fun he => hf (Prod.mk.inj he).1

end

end Sys2Proof.Machine
end

section
/-!
PROOFS. The shelf rail sequencer: its commands, the steps that wait and end, and the steps that fail (R71 to R83, R703).
-/

namespace Sys2Proof.Machine

/-! ### The on request (R80) -/

theorem Chip.seqSummary_notedFrom (m : Chip) (k n : Nat) : (m.seqSummary k n).NotedFrom m :=
  (Chip.event_notedFrom _ 230).trans (m.enqueue_notedFrom _ none)

theorem Chip.seqSummary_seq (m : Chip) (k n : Nat) : (m.seqSummary k n).seq = m.seq := (m.seqSummary_notedFrom k n).seq

theorem Chip.seqUpEnd_req (m : Chip) (n : Nat) : (m.seqUpEnd n).seq.req = m.seq.req := by
  rw [Chip.seqUpEnd, Chip.seqSummary_seq]

/-- The up sequence keeps the on request. -/
theorem Chip.seqUp_req (m : Chip) (n fuel : Nat) : (m.seqUp n fuel).seq.req = m.seq.req := by
  induction fuel generalizing m n with
  | zero => exact m.seqUpEnd_req 63
  | succ fuel ih =>
    unfold Chip.seqUp
    dsimp only
    split_ifs
    · exact m.seqUpEnd_req 63
    · exact ih _ _
    · rfl
    · rfl
    · rfl
    · exact ih _ _
    · rfl
    · exact m.seqUpEnd_req n

/-- ON sets the on request in every state. -/
theorem Chip.seqOn_req (m : Chip) : m.seqOn.seq.req = true := by
  unfold Chip.seqOn
  dsimp only
  split
  · exact Chip.seqUp_req _ _ _
  · exact Chip.seqUp_req _ _ _
  · rfl

theorem Chip.seqOff_off {m : Chip} (h : m.seq.st = .off) : m.seqOff = { m with seq := { m.seq with req := false } } := by
  simp only [Chip.seqOff, h]

/-! ### Steps that wait (R71, R75, R77, R81, R83) -/

section
variable {m : Chip}

/-- A change of PG while no step waits for a good rail. -/
theorem Chip.seqPgChange_unawaited {rail : Nat} {level : Bool} (hw : m.seq.wait ≠ .good) (hl : has m.seq.pg rail ≠ level) :
    m.seqPgChange rail level = Chip.seqGood { m with seq := { m.seq with pg := putM m.seq.pg rail level } } m := by
  rw [Chip.seqPgChange, if_neg hl]
  exact if_neg (by simp [Chip.seqGood, hw])

theorem Chip.seqQualified_inTime (hw : m.seq.wait = .good) (hp : m.pgActive m.seq.wrail = true)
    (ht : m.seq.qualAt + m.stepQual m.seq.step ≤ m.seqDue) :
    m.seqQualified = (m.elapse m.seq.qualAt (m.stepQual m.seq.step)).seqStepDone := by
  rw [Chip.seqQualified, if_pos (by simp [hw, hp]), if_neg (Nat.not_lt.2 ht)]

theorem Chip.seqDelayElapsed_delay (hw : m.seq.wait = .delay) :
    m.seqDelayElapsed = (m.elapse m.seq.stepAt (m.stepQual m.seq.step)).seqStepDone := if_pos hw

theorem Chip.seqDischarged_ends (hd : m.railDischarged m.seq.wrail = true) : m.seqDischarged = m.seqDischOk := if_pos hd

theorem Chip.seqDischOk_disch (hw : m.seq.wait = .disch) : m.seqDischOk = m.seqStepDone := by
  rw [Chip.seqDischOk, hw]

theorem Chip.seqDischOk_downDisch (hw : m.seq.wait = .downDisch) : m.seqDischOk = m.seqWalkOn 0 := by
  rw [Chip.seqDischOk, hw]

theorem Chip.seqDischOk_restDisch (hw : m.seq.wait = .restDisch) : m.seqDischOk = m.seqDownEnd := by
  rw [Chip.seqDischOk, hw]

theorem Chip.seqDischOk_retryDisch (hw : m.seq.wait = .retryDisch) : m.seqDischOk = m.seqWait m.seq.step .retryDelay := by
  rw [Chip.seqDischOk, hw]

/-- A retried step other than RESET_RELEASE starts again with its rail asserted. -/
theorem Chip.seqRetryDelay_rail (hw : m.seq.wait = .retryDelay) (ht : m.stepType m.seq.step ≠ 6) :
    m.seqRetryDelay =
      Chip.seqWait { m.elapse m.seq.stepAt (m.fld .seqChatter 0 27 20 * 1000) with
        seq := { m.seq with en := setM m.seq.en (m.stepTarget m.seq.step) } } m.seq.step .good := by
  rw [Chip.seqRetryDelay, if_pos hw]
  exact if_neg ht

/-- A stretched reset output that no step waits for rises. -/
theorem Chip.stretchElapsed_released {n : Nat} (hr : m.mayRelease n = true) (ha : m.awaitsReset n = false) :
    m.stretchElapsed n =
      { m.elapse (NTab.get 0 m.seq.goodAt n) (m.stretchUs n) with seq := { m.seq with rst := setM m.seq.rst n } } := by
  have ha' : ¬(m.awaitsReset n && decide (m.seqDue < NTab.get 0 m.seq.goodAt n + m.stretchUs n)) = true := by simp [ha]
  have hn : ¬m.awaitsReset n = true := by simp [ha]
  rw [Chip.stretchElapsed, if_neg (by simp [hr]), if_neg ha']
  exact if_neg hn

/-! ### A rail lost in ON (R79) -/

/-- A mask with one bit cleared. -/
theorem has_clrM (a k n : Nat) : has (clrM a k) n = (has a n && decide (n ≠ k)) := by
  unfold has clrM
  split
  · next hk =>
    -- above bit k stands the half of the odd number a / 2 ^ k, below it the rest
    have hodd : a / 2 ^ k = 2 * (a / 2 ^ k / 2) + 1 := by
      rw [Nat.testBit_eq_decide_div_mod_eq, decide_eq_true_eq] at hk
      omega
    have hlow : a % 2 ^ k < 2 ^ k := Nat.mod_lt _ (Nat.two_pow_pos k)
    have hset : a = 2 ^ k * (2 * (a / 2 ^ k / 2) + 1) + a % 2 ^ k := by rw [← hodd, Nat.div_add_mod]
    have hclr : a - 2 ^ k = 2 ^ k * (2 * (a / 2 ^ k / 2)) + a % 2 ^ k := by
      rw [Nat.mul_succ] at hset
      omega
    rw [hclr]
    conv_rhs => rw [hset]
    rw [Nat.testBit_two_pow_mul_add _ hlow, Nat.testBit_two_pow_mul_add _ hlow]
    by_cases hn : n < k
    · simp [hn, Nat.ne_of_lt hn]
    · obtain ⟨j, rfl⟩ := Nat.exists_eq_add_of_le (Nat.not_lt.1 hn)
      cases j with
      | zero => simp
      | succ j =>
        have hhalf : (2 * (a / 2 ^ k / 2) + 1) / 2 = 2 * (a / 2 ^ k / 2) / 2 := by omega
        simp [Nat.testBit_succ, hhalf]
  · next hk =>
    by_cases hn : n = k
    · simp [hn, hk]
    · simp [hn]

theorem has_foldl_clrM (p : Nat → Bool) (l : List Nat) (a n : Nat) :
    has (l.foldl (fun a k => if p k then clrM a k else a) a) n = (has a n && !(decide (n ∈ l) && p n)) := by
  induction l generalizing a with
  | nil => simp
  | cons k l ih =>
    rw [List.foldl_cons, ih]
    by_cases hk : n = k
    · subst hk
      cases p n <;> simp [has_clrM]
    · cases p k <;> simp [has_clrM, hk]

/-- Every reset output that watches the rail is asserted, and no other. -/
def Chip.watchersAsserted (m : Chip) (rail : Nat) : Nat :=
  (List.range 4).foldl (fun a n => if m.flag .seqRstWatch n rail then clrM a n else a) m.seq.rst

theorem Chip.has_watchersAsserted (m : Chip) (rail : Nat) {n : Nat} (hn : n < 4) :
    has (m.watchersAsserted rail) n = (has m.seq.rst n && !m.flag .seqRstWatch n rail) := by
  simp [Chip.watchersAsserted, has_foldl_clrM (fun n => m.flag .seqRstWatch n rail), hn]

theorem Chip.railPgLost_on {rail : Nat} (hs : m.seq.st = .on) (he : m.seqOnRail rail = true) (hp : m.pgActive rail = false)
    (hb : m.pwr.base ≠ .shadow) :
    m.railPgLost rail =
      let x := (m.elapse (NTab.get 0 m.seq.pgAt rail) 50).raise 18 0 [wd rail]
      { x with seq := { x.seq with rst := x.watchersAsserted rail } } :=
  if_pos (by simp [hs, he, hp, hb])

/-! ### Steps that fail (R76 to R78) -/

/-- A WAIT_GOOD step that has failed with RAIL_CHATTER (1) or RAIL_TIMEOUT (2), traced and noted: it waits no more. -/
def Chip.stepFailed (m : Chip) (res : Nat) : Chip :=
  let w := (m.seqTrace res false m.seq.step).seqNote res (m.stepTarget m.seq.step)
  { w with seq := { w.seq with wait := .none } }

/-- The failed step with its fault raised. -/
def Chip.stepRaised (m : Chip) (res : Nat) : Chip := (m.stepFailed res).raise (14 + res) 0 [wd (m.stepTarget m.seq.step)]

theorem Chip.stepFailed_seq (m : Chip) (res : Nat) :
    (m.stepFailed res).seq.st = m.seq.st ∧ (m.stepFailed res).seq.step = m.seq.step ∧
      (m.stepFailed res).seq.result = if m.seq.result = 0 then res else m.seq.result := by
  by_cases h : m.seq.result = 0
  · simp [Chip.stepFailed, Chip.seqNote, Chip.seqTrace, h]
  · simp [Chip.stepFailed, Chip.seqNote, Chip.seqTrace, h]

theorem Chip.stepFailed_regs (m : Chip) (res : Nat) : (m.stepFailed res).regs = m.regs := by
  by_cases h : m.seq.result = 0
  · simp [Chip.stepFailed, Chip.seqNote, Chip.seqTrace, h]
  · simp [Chip.stepFailed, Chip.seqNote, Chip.seqTrace, h]

/-- With policy HALT a failed WAIT_GOOD step leaves the sequencer HALTED with its summary. -/
theorem Chip.seqFail_halt {res : Nat} (hs : m.seq.st = .up) (hw : m.seq.wait = .good)
    (hp : m.fld .seqStepCtl m.seq.step 7 6 = 0) (hv : m.sev (14 + res) < 3) :
    m.seqFail res =
      let w := m.stepRaised res
      Chip.seqSummary { w with seq := { w.seq with st := .halted, wait := .none } } 2 m.seq.step := by
  have hsev : (m.stepFailed res).sev (14 + res) < 3 := by
    rwa [Chip.sev, Chip.fld, Chip.get, m.stepFailed_regs]
  have hst : ¬((m.stepRaised res).seq.st != .up) = true := by
    rw [Chip.stepRaised, Chip.raise_seq _ _ hsev, (m.stepFailed_seq res).1, hs]
    decide
  have hpol : (m.stepRaised res).fld .seqStepCtl m.seq.step 7 6 = 0 := by
    rw [Chip.fld, Chip.stepRaised, Chip.get_raise _ _ hsev _ (by decide) (by decide), Chip.get, m.stepFailed_regs]
    exact hp
  rw [Chip.seqFail, hw]
  exact (if_neg hst).trans (if_pos hpol)

/-- That HALTED state: the step, its result unless an earlier one stands, and the flag of its fault. -/
theorem Chip.seqFail_halted {res : Nat} (hs : m.seq.st = .up) (hw : m.seq.wait = .good)
    (hp : m.fld .seqStepCtl m.seq.step 7 6 = 0) (hv : m.sev (14 + res) < 3) :
    (m.seqFail res).seq.st = .halted ∧ (m.seqFail res).seq.step = m.seq.step ∧
      (m.seqFail res).seq.result = (if m.seq.result = 0 then res else m.seq.result) ∧
      (m.seqFail res).flag .fltFlag (14 + res) 31 = true := by
  have hsev : (m.stepFailed res).sev (14 + res) < 3 := by
    rwa [Chip.sev, Chip.fld, Chip.get, m.stepFailed_regs]
  have hseq : (m.stepRaised res).seq = (m.stepFailed res).seq := Chip.raise_seq _ _ hsev
  have hflag : (m.stepRaised res).flag .fltFlag (14 + res) 31 = true := Chip.raise_latches _ _ hsev
  obtain ⟨-, hstep, hres⟩ := m.stepFailed_seq res
  rw [Chip.seqFail_halt hs hw hp hv]
  dsimp only
  rw [Chip.seqSummary_seq, Chip.flag, (Chip.seqSummary_notedFrom _ _ _).get _ _ (by decide)]
  exact ⟨rfl, (congrArg Seq.step hseq).trans hstep, (congrArg Seq.result hseq).trans hres, hflag⟩

/-- A timeout that comes before the qualification time fails the step. -/
theorem Chip.seqTimeout_first (hs : m.seq.st = .up) (hw : m.seq.wait = .good)
    (ht : m.seqDue < m.seq.qualAt + m.stepQual m.seq.step) : m.seqTimeout = (m.elapse m.seqDue 0).seqFail 2 := by
  rw [Chip.seqTimeout, if_pos (by simp [hs, hw]), if_neg (by simp [ht])]
  rfl

theorem Chip.seqChatter_chattered (hs : m.seq.st = .up) (hw : m.seq.wait = .good) (hc : m.chattered = true) :
    m.seqChatter = m.seqFail 1 := if_pos (by simp [hs, hw, hc])

/-- In the reverse walk a rail that does not discharge in its time is noted, and the walk goes on. -/
theorem Chip.seqNoDischarge_down (hw : m.seq.wait = .downDisch) (hd : m.railDischarged m.seq.wrail = false) :
    m.seqNoDischarge = (m.elapse m.seq.stepAt (m.railDisch m.seq.wrail)).seqStuck.seqWalkOn 3 := by
  have hwait : ¬(!m.seqDischWait) = true := by simp [Chip.seqDischWait, hw]
  have hdown : ¬m.seq.wait = .disch := by simp [hw]
  have hcharged : ¬m.railDischarged m.seq.wrail = true := by simp [hd]
  have hw' : (m.elapse m.seq.stepAt (m.railDisch m.seq.wrail)).seq.wait = .downDisch := hw
  rw [Chip.seqNoDischarge, if_neg hwait, if_neg hcharged, if_neg hdown]
  simp only [hw']

/-- RAIL_NODISCHARGE latches its flag and is noted unless an earlier fault of the sequence is. -/
theorem Chip.seqStuck_notes (hv : m.sev 17 < 3) :
    m.seqStuck.flag .fltFlag 17 31 = true ∧ m.seqStuck.seq.result = if m.seq.result = 0 then 3 else m.seq.result := by
  have hn : (m.seqNote 3 m.seq.wrail).regs = m.regs ∧
      (m.seqNote 3 m.seq.wrail).seq.result = if m.seq.result = 0 then 3 else m.seq.result := by
    by_cases h : m.seq.result = 0 <;> simp [Chip.seqNote, h]
  have hsev : (m.seqNote 3 m.seq.wrail).sev 17 < 3 := by
    rwa [Chip.sev, Chip.fld, Chip.get, hn.1]
  exact ⟨Chip.raise_latches _ _ hsev, (congrArg Seq.result (Chip.raise_seq _ _ hsev)).trans hn.2⟩

end

/-- Settles O29: each command is a granted write, and each row of a step or of a reset output acts in the state that it names. -/
theorem sequencer : Obligations.Sequencer :=
  ⟨writeRow_of (fun _ _ => rfl) targetOf_seqCmd (fun _ _ => rfl),
    writeRow_of (fun _ _ => rfl) targetOf_seqCmd (fun _ _ => rfl),
    fun n _ => writeRow_of (fun _ _ => rfl) (targetOf_seqStepCtl n) (fun _ _ => rfl),
    fun n _ => writeRow_of (fun _ _ => rfl) (targetOf_seqStepTmo n) (fun _ _ => rfl),
    Chip.seqOn_req,
    fun _ h => Chip.seqOff_off h,
    fun s rail level hw hl => completes_of (exec_seqPgChange rail level s) (Chip.seqPgChange_unawaited hw hl),
    fun s hw hp ht => completes_of (exec_seqQualified s) (Chip.seqQualified_inTime hw hp ht),
    fun s hw => completes_of (exec_seqDelayElapsed s) (Chip.seqDelayElapsed_delay hw),
    fun s hw hd => completes_of (exec_seqDischarged s) ((Chip.seqDischarged_ends hd).trans (Chip.seqDischOk_disch hw)),
    fun s hw hd => completes_of (exec_seqDischarged s) ((Chip.seqDischarged_ends hd).trans (Chip.seqDischOk_downDisch hw)),
    fun s hw hd => completes_of (exec_seqDischarged s) ((Chip.seqDischarged_ends hd).trans (Chip.seqDischOk_restDisch hw)),
    fun s hw hd => completes_of (exec_seqDischarged s) ((Chip.seqDischarged_ends hd).trans (Chip.seqDischOk_retryDisch hw)),
    fun s hw ht => completes_of (exec_seqRetryDelayElapsed s) (Chip.seqRetryDelay_rail hw ht),
    fun s n hr ha => completes_of (exec_rstStretchElapsed n s) (Chip.stretchElapsed_released hr ha),
    fun s rail hs he hp hb => ⟨_, completes_of (exec_railPgLost rail s) (Chip.railPgLost_on hs he hp hb), _, rfl, rfl,
      fun _ hn => Chip.has_watchersAsserted _ rail hn⟩,
    fun s hs hw ht hp hv => ⟨_, completes_of (exec_railTimeout s) (Chip.seqTimeout_first hs hw ht),
      Chip.seqFail_halted (m := s.m.elapse s.m.seqDue 0) hs hw hp hv⟩,
    fun s hs hw hc hp hv => ⟨_, completes_of (exec_railChatter s) (Chip.seqChatter_chattered hs hw hc),
      Chip.seqFail_halted hs hw hp hv⟩,
    fun s _ hw hd hv => ⟨_, completes_of (exec_railNodischarge s) (Chip.seqNoDischarge_down hw hd), _, rfl,
      Chip.seqStuck_notes (m := s.m.elapse s.m.seq.stepAt (s.m.railDisch s.m.seq.wrail)) hv⟩⟩

end Sys2Proof.Machine
end

section
/-!
PROOFS. The frame that boot rests on: what every operation of a block leaves of the straps, the time and the MRAM.
-/

namespace Sys2Proof.Machine

/-- What boot decides and reports by: the role strap, the level of INTLK_IN, the time and the MRAM. -/
structure Kept where
  role : Bool
  inp : Bool
  now : Nat
  nvm : Nvm

/-- A chip's part of it. -/
def Chip.kept (m : Chip) : Kept := ⟨m.pwr.role, m.spl.inp, m.now, m.nvm⟩

/-- The two straps, which not even a reset changes. -/
def Kept.straps (k : Kept) : Bool × Bool := (k.role, k.inp)

/-! ### How the frame reads records, branches and folds -/

@[simp] theorem Chip.kept_mk
    (regs now upUs levels pwr nvm seq acq cle ptn twb slk spl lay brn cnv flt sec rcd hst pol bat est thm
    upd sys vend pins resp fresh) :
    Chip.kept ⟨regs, now, upUs, levels, pwr, nvm, seq, acq, cle, ptn, twb, slk, spl, lay, brn, cnv, flt, sec, rcd, hst, pol, bat,
      est, thm, upd, sys, vend, pins, resp, fresh⟩ = ⟨pwr.role, spl.inp, now, nvm⟩ := rfl

@[simp] theorem Chip.kept_eta (m : Chip) : Kept.mk m.pwr.role m.spl.inp m.now m.nvm = m.kept := rfl

@[simp] theorem Kept.straps_mk (role inp : Bool) (now : Nat) (nvm : Nvm) : (Kept.mk role inp now nvm).straps =
    (role, inp) := rfl

@[simp] theorem Chip.straps_eta (m : Chip) : (m.pwr.role, m.spl.inp) = m.kept.straps := rfl

@[simp] theorem Chip.kept_ite (c : Prop) [Decidable c] (a b : Chip) :
    (if c then a else b).kept = if c then a.kept else b.kept := apply_ite Chip.kept c a b

@[simp] theorem Chip.kept_fst_ite {α : Type} (c : Prop) [Decidable c] (a b : Chip × α) :
    (if c then a else b).1.kept = if c then a.1.kept else b.1.kept := apply_ite (fun x => Chip.kept x.1) c a b

@[simp] theorem Kept.straps_ite (c : Prop) [Decidable c] (a b : Kept) :
    (if c then a else b).straps = if c then a.straps else b.straps := apply_ite Kept.straps c a b

@[simp] theorem Chip.foldl_kept {α : Type} (f : Chip → α → Chip) (l : List α) (m : Chip)
    (h : ∀ m a, (f m a).kept = m.kept) : (l.foldl f m).kept = m.kept := foldl_keeps Chip.kept f h l m

@[simp] theorem Chip.foldl_straps {α : Type} (f : Chip → α → Chip) (l : List α) (m : Chip)
    (h : ∀ m a, (f m a).kept.straps = m.kept.straps) : (l.foldl f m).kept.straps = m.kept.straps :=
  foldl_keeps (fun c => c.kept.straps) f h l m

@[simp] theorem Chip.when_kept (m : Chip) (b : Bool) (f : Chip → Chip) (h : ∀ m, (f m).kept = m.kept) :
    (m.when b f).kept = m.kept := by
  cases b
  · rfl
  · exact h m

@[simp] theorem Chip.eachBranch_kept (m : Chip) (f : Nat → Chip → Chip) (h : ∀ n m, (f n m).kept = m.kept) :
    (m.eachBranch f).kept = m.kept := Chip.foldl_kept _ _ _ (fun m n => h n m)

/-- An access whose effect and whose rejection leave the straps, the time and the MRAM alone. -/
structure Act.Keeps (a : Act) : Prop where
  eff : ∀ m, (a.eff m).1.kept = m.kept
  rej : ∀ st m, (a.rej st m).kept = m.kept

/-- An access whose effect and whose rejection leave the straps alone. -/
structure Act.KeepsStraps (a : Act) : Prop where
  eff : ∀ m, (a.eff m).1.kept.straps = m.kept.straps
  rej : ∀ st m, (a.rej st m).kept.straps = m.kept.straps

@[simp] theorem Act.keeps_mk (v : Verdict) (e : Chip → Chip × Status) (r : Status → Chip → Chip) :
    Act.Keeps ⟨v, e, r⟩ ↔ (∀ m, (e m).1.kept = m.kept) ∧ ∀ st m, (r st m).kept = m.kept :=
  ⟨fun h => ⟨h.eff, h.rej⟩, fun h => ⟨h.1, h.2⟩⟩

@[simp] theorem Act.keepsStraps_mk (v : Verdict) (e : Chip → Chip × Status) (r : Status → Chip → Chip) :
    Act.KeepsStraps ⟨v, e, r⟩ ↔ (∀ m, (e m).1.kept.straps = m.kept.straps) ∧ ∀ st m, (r st m).kept.straps = m.kept.straps :=
  ⟨fun h => ⟨h.eff, h.rej⟩, fun h => ⟨h.1, h.2⟩⟩

@[simp] theorem Act.keeps_ite (c : Prop) [Decidable c] (a b : Act) :
    (if c then a else b).Keeps ↔ if c then a.Keeps else b.Keeps := by split <;> rfl

@[simp] theorem Act.keepsStraps_ite (c : Prop) [Decidable c] (a b : Act) :
    (if c then a else b).KeepsStraps ↔ if c then a.KeepsStraps else b.KeepsStraps := by split <;> rfl

@[simp] theorem Act.eff_kept (a : Act) (m : Chip) (h : a.Keeps) : (a.eff m).1.kept = m.kept := h.eff m

@[simp] theorem Act.rej_kept (a : Act) (st : Status) (m : Chip) (h : a.Keeps) : (a.rej st m).kept = m.kept := h.rej st m

@[simp] theorem Act.eff_straps (a : Act) (m : Chip) (h : a.KeepsStraps) :
    (a.eff m).1.kept.straps = m.kept.straps := h.eff m

@[simp] theorem Act.rej_straps (a : Act) (st : Status) (m : Chip) (h : a.KeepsStraps) :
    (a.rej st m).kept.straps = m.kept.straps :=
  h.rej st m

@[simp] theorem Act.Keeps.straps {a : Act} (h : a.Keeps) : a.KeepsStraps :=
  ⟨fun m => congrArg Kept.straps (h.eff m), fun st m => congrArg Kept.straps (h.rej st m)⟩

/-! ### Registers, records and events -/

@[simp] theorem Chip.put_kept (m : Chip) (r : RName) (i : Nat) (w : Word) : (m.put r i w).kept = m.kept := by
  simp [Chip.put]

@[simp] theorem Chip.putF_kept (m : Chip) (r : RName) (i hi lo v : Nat) : (m.putF r i hi lo v).kept = m.kept := by
  simp [Chip.putF]

@[simp] theorem Chip.peerSend_kept (m : Chip) (f : PFrame) : (m.peerSend f).kept = m.kept := by simp [Chip.peerSend]

@[simp] theorem Chip.bump_kept (m : Chip) (r : RName) (i hi lo n : Nat) : (m.bump r i hi lo n).kept = m.kept := by
  simp [Chip.bump]

@[simp] theorem Chip.enqueue_kept (m : Chip) (r : Rec) (dv : Option Deliv) : (m.enqueue r dv).kept = m.kept := by
  simp [Chip.enqueue]

@[simp] theorem Chip.eventRecord_kept (m : Chip) (src inst : Nat) (payload : List Word) :
    (m.eventRecord src inst payload).kept = m.kept := by simp [Chip.eventRecord]

@[simp] theorem Chip.splRecord_kept (m : Chip) (src cause : Nat) : (m.splRecord src cause).kept = m.kept := by
  simp [Chip.splRecord]

@[simp] theorem Chip.splTrigger_kept (m : Chip) (cause : Nat) : (m.splTrigger cause).kept = m.kept := by
  unfold Chip.splTrigger
  split <;> simp

@[simp] theorem Chip.splFault_kept (m : Chip) (s : Nat) : (m.splFault s).kept = m.kept := by simp [Chip.splFault]

@[simp] theorem Chip.latch_kept (m : Chip) (s inst : Nat) (payload : List Word) :
    (m.latch s inst payload).kept = m.kept := by
  unfold Chip.latch
  dsimp only
  rw [Chip.kept_ite, Chip.enqueue_kept, Chip.kept_mk, Chip.kept_eta, Chip.put_kept, ite_self]

@[simp] theorem Chip.noteTrig_kept (m : Chip) (src : Nat) : (m.noteTrig src).kept = m.kept := by simp [Chip.noteTrig]

@[simp] theorem Chip.systemRecord_kept (m : Chip) (code : Nat) (payload : List Word) :
    (m.systemRecord code payload).kept = m.kept := by simp [Chip.systemRecord]

@[simp] theorem Chip.openRecord_kept (m : Chip) (code : Nat) : (m.openRecord code).kept = m.kept := by
  simp [Chip.openRecord]

@[simp] theorem Chip.modeRecord_kept (m : Chip) : m.modeRecord.kept = m.kept := by simp [Chip.modeRecord]

@[simp] theorem Chip.degrade_kept (m : Chip) : m.degrade.kept = m.kept := by simp [Chip.degrade]

/-! ### Branches and stages brought to rest -/

@[simp] theorem Chip.putBranch_kept (m : Chip) (n : Nat) (b : Branch) : (m.putBranch n b).kept = m.kept := by
  simp [Chip.putBranch]

@[simp] theorem Chip.brnTo_kept (m : Chip) (n : Nat) (st : BrnSt) (cause : Nat) :
    (m.brnTo n st cause).kept = m.kept := by simp [Chip.brnTo]

@[simp] theorem Chip.brnOff_kept (m : Chip) (n cause : Nat) : (m.brnOff n cause).kept = m.kept := by simp [Chip.brnOff]

@[simp] theorem Chip.brnSafe_kept (m : Chip) : m.brnSafe.kept = m.kept := by simp [Chip.brnSafe]

@[simp] theorem Chip.putConv_kept (m : Chip) (x : Nat) (c : Conv) : (m.putConv x c).kept = m.kept := by
  simp [Chip.putConv]

@[simp] theorem Chip.putTone_kept (m : Chip) (t : Nat) (e : Tone) : (m.putTone t e).kept = m.kept := by
  simp [Chip.putTone]

@[simp] theorem Chip.convRest_kept (m : Chip) (x : Nat) (st : StageSt) : (m.convRest x st).kept = m.kept := by
  simp [Chip.convRest]

@[simp] theorem Chip.convQuick_kept (m : Chip) (x : Nat) (st : StageSt) : (m.convQuick x st).kept = m.kept := by
  simp [Chip.convQuick]

@[simp] theorem Chip.quickStop_kept (m : Chip) (x : Nat) : (m.quickStop x).kept = m.kept := by simp [Chip.quickStop]

@[simp] theorem Chip.convSafe_kept (m : Chip) (x : Nat) : (m.convSafe x).kept = m.kept := by simp [Chip.convSafe]

/-! ### The sequencer -/

@[simp] theorem Chip.seqTrace_kept (m : Chip) (res : Nat) (down : Bool) (step : Nat) :
    (m.seqTrace res down step).kept = m.kept := by simp [Chip.seqTrace]

@[simp] theorem Chip.seqBegin_kept (m : Chip) (first : Nat) : (m.seqBegin first).kept = m.kept := by
  simp [Chip.seqBegin]

@[simp] theorem Chip.seqWait_kept (m : Chip) (n : Nat) (w : SeqWait) : (m.seqWait n w).kept = m.kept := by
  simp [Chip.seqWait]

@[simp] theorem Chip.seqDrop_kept (m : Chip) (k n : Nat) (w : SeqWait) : (m.seqDrop k n w).kept = m.kept := by
  simp [Chip.seqDrop]

@[simp] theorem Chip.wake_kept (m : Chip) (d : Dom) : (m.wake d).kept = m.kept := by simp [Chip.wake]

@[simp] theorem Chip.deliverTo_kept (m : Chip) (src d : Nat) : (m.deliverTo src d).kept = m.kept := by
  simp [Chip.deliverTo]

@[simp] theorem Chip.deliver_kept (m : Chip) (src : Nat) : (m.deliver src).kept = m.kept := by simp [Chip.deliver]

@[simp] theorem Chip.event_kept (m : Chip) (src : Nat) : (m.event src).kept = m.kept := by simp [Chip.event]

@[simp] theorem Chip.seqSummary_kept (m : Chip) (kind last : Nat) : (m.seqSummary kind last).kept = m.kept := by
  simp [Chip.seqSummary]

@[simp] theorem Chip.seqUpEnd_kept (m : Chip) (n : Nat) : (m.seqUpEnd n).kept = m.kept := by simp [Chip.seqUpEnd]

@[simp] theorem Chip.seqRelease_kept (m : Chip) (n : Nat) : (m.seqRelease n).kept = m.kept := by simp [Chip.seqRelease]

@[simp] theorem Chip.seqUp_kept (m : Chip) (n fuel : Nat) : (m.seqUp n fuel).kept = m.kept := by
  induction fuel generalizing m n with
  | zero => simp [Chip.seqUp]
  | succ fuel ih => simp [Chip.seqUp, ih]

@[simp] theorem Chip.seqStart_kept (m : Chip) : m.seqStart.kept = m.kept := by simp [Chip.seqStart]

@[simp] theorem Chip.seqFinish_kept (m : Chip) : m.seqFinish.kept = m.kept := by simp [Chip.seqFinish]

@[simp] theorem Chip.seqDownEnd_kept (m : Chip) : m.seqDownEnd.kept = m.kept := by
  unfold Chip.seqDownEnd
  split <;> simp

@[simp] theorem Chip.seqWalk_kept (m : Chip) (n : Nat) : (m.seqWalk n).kept = m.kept := by
  induction n generalizing m with
  | zero => simp [Chip.seqWalk]
  | succ n ih => simp [Chip.seqWalk, ih]

@[simp] theorem Chip.seqDown_kept (m : Chip) (unfinished : Bool) : (m.seqDown unfinished).kept = m.kept := by
  simp [Chip.seqDown]

@[simp] theorem Chip.seqOff_kept (m : Chip) : m.seqOff.kept = m.kept := by
  unfold Chip.seqOff
  dsimp only
  split <;> simp

/-! ### The reactions to a fault -/

@[simp] theorem Chip.safeReact_kept (m : Chip) : m.safeReact.kept = m.kept := by simp [Chip.safeReact]

@[simp] theorem Chip.raiseOnly_kept (m : Chip) (s inst : Nat) (payload : List Word) :
    (m.raiseOnly s inst payload).kept = m.kept := by simp [Chip.raiseOnly]

@[simp] theorem Chip.holdFence_kept (m : Chip) (sc : Scope) (inst src : Nat) :
    (m.holdFence sc inst src).kept = m.kept := by simp [Chip.holdFence]

@[simp] theorem Chip.brnFence_kept (m : Chip) (n src : Nat) : (m.brnFence n src).kept = m.kept := by
  simp [Chip.brnFence]

@[simp] theorem Chip.raiseFree_kept (m : Chip) (s inst : Nat) (payload : List Word) :
    (m.raiseFree s inst payload).kept = m.kept := by simp [Chip.raiseFree]

@[simp] theorem Chip.convFence_kept (m : Chip) (x src : Nat) : (m.convFence x src).kept = m.kept := by
  simp [Chip.convFence]

@[simp] theorem Chip.convMinPh_kept (m : Chip) (x : Nat) : (m.convMinPh x).kept = m.kept := by simp [Chip.convMinPh]

@[simp] theorem Chip.phaseFence_kept (m : Chip) (x k src : Nat) : (m.phaseFence x k src).kept = m.kept := by
  simp [Chip.phaseFence]

/-! ### Loop slots and strands under a fence -/

@[simp] theorem Chip.putLslot_kept (m : Chip) (s : Nat) (x : Slot) : (m.putLslot s x).kept = m.kept := by
  simp [Chip.putLslot]

@[simp] theorem Chip.vdonePush_kept (m : Chip) (x tag : Nat) (st : Status) :
    (m.vdonePush x tag st).kept = m.kept := by simp [Chip.vdonePush]

@[simp] theorem Chip.vcmdEnd_kept (m : Chip) (s : Nat) (st : Status) : (m.vcmdEnd s st).kept = m.kept := by
  refine Chip.foldl_kept _ _ _ (fun m x => ?_)
  split <;> simp

@[simp] theorem Chip.putLw_kept (m : Chip) (s w : Nat) (d : Word) : (m.putLw s w d).kept = m.kept := by
  simp [Chip.putLw]

@[simp] theorem Chip.putStw_kept (m : Chip) (s k j : Nat) (d : Word) : (m.putStw s k j d).kept = m.kept := by
  simp [Chip.putStw]

@[simp] theorem Chip.spTarget_kept (m : Chip) (s : Nat) (v : Word) : (m.spTarget s v).kept = m.kept := by
  simp [Chip.spTarget]

@[simp] theorem Chip.spReached_kept (m : Chip) (s : Nat) : (m.spReached s).kept = m.kept := by simp [Chip.spReached]

@[simp] theorem Chip.setSp_kept (m : Chip) (s : Nat) (v : Word) : (m.setSp s v).kept = m.kept := by simp [Chip.setSp]

@[simp] theorem Chip.putCommon_kept (m : Chip) (i : Nat) (w : Word) : (m.putCommon i w).kept = m.kept := by
  simp [Chip.putCommon]

@[simp] theorem Chip.writeDest_kept (m : Chip) (s : Nat) (v : Int) : (m.writeDest s v).kept = m.kept := by
  simp [Chip.writeDest]

@[simp] theorem Chip.actOut_kept (m : Chip) (s bit : Nat) : (m.actOut s bit).kept = m.kept := by simp [Chip.actOut]

@[simp] theorem Chip.slotFenced_kept (m : Chip) (s : Nat) : (m.slotFenced s).kept = m.kept := by simp [Chip.slotFenced]

@[simp] theorem Chip.slotFence_kept (m : Chip) (s src : Nat) : (m.slotFence s src).kept = m.kept := by
  simp [Chip.slotFence]

@[simp] theorem Chip.putStrand_kept (m : Chip) (k : Nat) (s : Strand) : (m.putStrand k s).kept = m.kept := by
  simp [Chip.putStrand]

@[simp] theorem Chip.queueDrop_kept (m : Chip) (k : Nat) : (m.queueDrop k).kept = m.kept := by simp [Chip.queueDrop]

@[simp] theorem Chip.strandEnd_kept (m : Chip) (k : Nat) (st : StrSt) (why : Nat) :
    (m.strandEnd k st why).kept = m.kept := by simp [Chip.strandEnd]

@[simp] theorem Chip.strandFence_kept (m : Chip) (k src : Nat) : (m.strandFence k src).kept = m.kept := by
  simp [Chip.strandFence]

/-! ### Transactions and paths under a fence -/

@[simp] theorem Chip.putEnt_kept (m : Chip) (e : Nat) (x : Ent) : (m.putEnt e x).kept = m.kept := by simp [Chip.putEnt]

@[simp] theorem Chip.owe_kept (m : Chip) (e p g : Nat) : (m.owe e p g).kept = m.kept := by simp [Chip.owe]

@[simp] theorem Chip.dropTxn_kept (m : Chip) (id : Nat) : (m.dropTxn id).kept = m.kept := by simp [Chip.dropTxn]

@[simp] theorem Chip.putSeg_kept (m : Chip) (n : Nat) (g : Seg) : (m.putSeg n g).kept = m.kept := by simp [Chip.putSeg]

@[simp] theorem Chip.freeFrames_kept (m : Chip) (t : Txn) : (m.freeFrames t).kept = m.kept := by simp [Chip.freeFrames]

@[simp] theorem Chip.putBus_kept (m : Chip) (n : Nat) (b : Bus) : (m.putBus n b).kept = m.kept := by simp [Chip.putBus]

@[simp] theorem Chip.busIdle_kept (m : Chip) (n : Nat) : (m.busIdle n).kept = m.kept := by simp [Chip.busIdle]

@[simp] theorem Chip.freeWire_kept (m : Chip) (id : Nat) : (m.freeWire id).kept = m.kept := by simp [Chip.freeWire]

@[simp] theorem Chip.inForce_kept (m : Chip) (e g v : Nat) : (m.inForce e g v).kept = m.kept := by simp [Chip.inForce]

@[simp] theorem Chip.restored_kept (m : Chip) (e p : Nat) : (m.restored e p).kept = m.kept := by simp [Chip.restored]

@[simp] theorem Chip.putBstr_kept (m : Chip) (n : Nat) (b : BStr) : (m.putBstr n b).kept = m.kept := by
  simp [Chip.putBstr]

@[simp] theorem Chip.identRead_kept (m : Chip) (e : Nat) (ok : Bool) (v : Nat) :
    (m.identRead e ok v).kept = m.kept := by simp [Chip.identRead]

@[simp] theorem Chip.putEstr_kept (m : Chip) (n : Nat) (x : EstStr) : (m.putEstr n x).kept = m.kept := by
  simp [Chip.putEstr]

@[simp] theorem Chip.modCountRead_kept (m : Chip) (e v : Nat) : (m.modCountRead e v).kept = m.kept := by
  simp [Chip.modCountRead]

@[simp] theorem Chip.putShare_kept (m : Chip) (e : Nat) (x : Share) : (m.putShare e x).kept = m.kept := by
  simp [Chip.putShare]

@[simp] theorem Chip.shareRead_kept (m : Chip) (e v : Nat) (own : Bool) : (m.shareRead e v own).kept = m.kept := by
  simp [Chip.shareRead]

@[simp] theorem Chip.reading_kept (m : Chip) (e item v : Nat) (own : Bool) :
    (m.reading e item v own).kept = m.kept := by simp [Chip.reading]

@[simp] theorem Chip.txnEffect_kept (m : Chip) (t : Txn) (st : Status) (v : Nat) :
    (m.txnEffect t st v).kept = m.kept := by
  unfold Chip.txnEffect
  dsimp only
  split
  · split
    · rfl
    · split <;> simp
  · simp
  · simp
  · simp
  · rfl

@[simp] theorem Chip.tokenDone_kept (m : Chip) (k e : Nat) (st : Status) (w : Word) :
    (m.tokenDone k e st w).kept = m.kept := by simp [Chip.tokenDone]

@[simp] theorem Chip.ringWrite_kept (m : Chip) (item e : Nat) (st : Status) (value : Nat) :
    (m.ringWrite item e st value).kept = m.kept := by simp [Chip.ringWrite]

@[simp] theorem Chip.join_kept (m : Chip) (t : Txn) : (m.join t).kept = m.kept := by simp [Chip.join]

@[simp] theorem Chip.acceptOn_kept (m : Chip) (legs : List Leg) (e item : Nat) (k : TxKind) (by_ : Issuer)
    (data : Nat) (desc : Word) (gen : Nat) (tent : Option (Nat × Nat)) (front : Bool) :
    (m.acceptOn legs e item k by_ data desc gen tent front).kept = m.kept := by simp [Chip.acceptOn]

@[simp] theorem Chip.accept_kept (m : Chip) (e item : Nat) (k : TxKind) (by_ : Issuer) (data : Nat) (desc : Word)
    (gen : Nat) (tent : Option (Nat × Nat)) (front : Bool) :
    (m.accept e item k by_ data desc gen tent front).kept = m.kept := by simp [Chip.accept]

@[simp] theorem Chip.readRated_kept (m : Chip) (e : Nat) : (m.readRated e).kept = m.kept := by simp [Chip.readRated]

@[simp] theorem Chip.entOutcome_kept (m : Chip) (e : Nat) (st : Status) : (m.entOutcome e st).1.kept = m.kept := by
  simp [Chip.entOutcome]

@[simp] theorem Chip.completeTxn_kept (m : Chip) (t : Txn) (st : Status) (v : Nat) :
    (m.completeTxn t st v).1.kept = m.kept := by
  unfold Chip.completeTxn
  dsimp only
  rw [Chip.entOutcome_kept, Chip.kept_ite, Chip.ringWrite_kept, ite_self]
  split <;> simp

@[simp] theorem Chip.fenceTxns_kept (m : Chip) (e : Nat) : (m.fenceTxns e).kept = m.kept := by
  unfold Chip.fenceTxns
  dsimp only
  rw [Chip.kept_mk, Chip.kept_eta, Chip.foldl_kept, Chip.foldl_kept]
  · intro m x
    split <;> simp
  · intro m t
    simp

@[simp] theorem Chip.partnerFence_kept (m : Chip) (e src : Nat) : (m.partnerFence e src).kept = m.kept := by
  simp [Chip.partnerFence]

@[simp] theorem Chip.spend_kept (m : Chip) : m.spend.kept = m.kept := by simp [Chip.spend]

@[simp] theorem Chip.drain_kept (m : Chip) (e fuel : Nat) : (m.drain e fuel).1.kept = m.kept := by
  induction fuel generalizing m with
  | zero => rfl
  | succ fuel ih =>
    unfold Chip.drain
    split
    · split
      · simp [ih]
      · rfl
    · rfl

@[simp] theorem Chip.mapTxn_kept (m : Chip) (id : Nat) (f : Txn → Txn) : (m.mapTxn id f).kept = m.kept := by
  simp [Chip.mapTxn]

@[simp] theorem Chip.decideTxn_kept (m : Chip) (id : Nat) (st : Status) (v : Nat) :
    (m.decideTxn id st v).kept = m.kept := by
  unfold Chip.decideTxn
  split <;> simp

@[simp] theorem Chip.settleLegs_kept (m : Chip) : m.settleLegs.kept = m.kept := by simp [Chip.settleLegs]

@[simp] theorem Chip.fenceLegs_kept (m : Chip) (hit : Leg → Bool) : (m.fenceLegs hit).kept = m.kept := by
  simp [Chip.fenceLegs]

@[simp] theorem Chip.busFence_kept (m : Chip) (n src : Nat) : (m.busFence n src).kept = m.kept := by
  simp [Chip.busFence]

@[simp] theorem Chip.muxFence_kept (m : Chip) (n ch src : Nat) : (m.muxFence n ch src).kept = m.kept := by
  simp [Chip.muxFence]

@[simp] theorem Chip.segFence_kept (m : Chip) (n src : Nat) : (m.segFence n src).kept = m.kept := by
  simp [Chip.segFence]

/-! ### A fault raised -/

@[simp] theorem Chip.fenceUnit_kept (m : Chip) (s inst : Nat) : (m.fenceUnit s inst).kept = m.kept := by
  unfold Chip.fenceUnit
  split <;> simp

@[simp] theorem Chip.raise_kept (m : Chip) (s inst : Nat) (payload : List Word) :
    (m.raise s inst payload).kept = m.kept := by simp [Chip.raise]

/-! ### Trims and the vendor bundle -/

@[simp] theorem Chip.bootCal_kept (m : Chip) (p : Nat) : (m.bootCal p).kept = m.kept := by simp [Chip.bootCal]

@[simp] theorem Chip.bootTrims_kept (m : Chip) : m.bootTrims.kept = m.kept := by simp [Chip.bootTrims]

@[simp] theorem Chip.storeProg_kept (m : Chip) (at_ : Nat) (ws : List Word) : (m.storeProg at_ ws).kept = m.kept := by
  simp [Chip.storeProg]

@[simp] theorem Chip.allocate_kept (m : Chip) (o : Owner) (k : Nat) (e : Nat × Nat × Nat × Word) :
    (m.allocate o k e).kept = m.kept := by simp [Chip.allocate]

@[simp] theorem Chip.queueBack_kept (m : Chip) (k : Nat) : (m.queueBack k).kept = m.kept := by simp [Chip.queueBack]

@[simp] theorem Chip.strandReady_kept (m : Chip) (k : Nat) : (m.strandReady k).kept = m.kept := by
  simp [Chip.strandReady]

@[simp] theorem Chip.strandFresh_kept (m : Chip) (k : Nat) : (m.strandFresh k).kept = m.kept := by
  simp [Chip.strandFresh]

@[simp] theorem Chip.strandStart_kept (m : Chip) (k : Nat) : (m.strandStart k).kept = m.kept := by
  simp [Chip.strandStart]

@[simp] theorem Chip.placeBundle_kept (m : Chip) (o : Owner) (ws : List Word) :
    (m.placeBundle o ws).kept = m.kept := by simp [Chip.placeBundle]

@[simp] theorem Chip.vendorBundle_kept (m : Chip) (ws : List Word) : (m.vendorBundle ws).kept = m.kept := by
  simp [Chip.vendorBundle]

@[simp] theorem Chip.libPut_kept (m : Chip) (r : RName) (i : Nat) (d : Word) : (m.libPut r i d).kept = m.kept := by
  simp [Chip.libPut]

@[simp] theorem Chip.profSeq_kept (m : Chip) : m.profSeq.kept = m.kept := by simp [Chip.profSeq]

end Sys2Proof.Machine
end

section
/-!
PROOFS. What an access to a register leaves of the straps, the time and the MRAM: all of it in a block with levels, the
straps in every block (R46, R58, R60).
-/

namespace Sys2Proof.Machine

/-! ### Faults and events -/

@[simp] theorem actNone_keeps : actNone.Keeps := by simp [actNone]

@[simp] theorem Chip.store_kept (m : Chip) (r : RName) (i : Nat) (d : Word) : (m.store r i d).kept = m.kept := by
  simp [Chip.store]

@[simp] theorem actStoreIf_keeps (v : Verdict) (r : RName) (i : Nat) (d : Word) : (actStoreIf v r i d).Keeps := by
  simp [actStoreIf]

@[simp] theorem fltSrcAct_keeps (ag : Agent) (s : Nat) (d : Word) (m : Chip) : (fltSrcAct ag s d m).Keeps := by
  simp [fltSrcAct]

@[simp] theorem actDo_keeps (v : Verdict) (f : Chip → Chip) :
    (actDo v f).Keeps ↔ ∀ m, (f m).kept = m.kept := by simp [actDo]

@[simp] theorem actDo_keepsStraps (v : Verdict) (f : Chip → Chip) :
    (actDo v f).KeepsStraps ↔ ∀ m, (f m).kept.straps = m.kept.straps := by simp [actDo]

@[simp] theorem swraiseAct_keeps (ag : Agent) (d : Word) (m : Chip) : (swraiseAct ag d m).Keeps := by
  unfold swraiseAct
  split <;> simp

@[simp] theorem evtPendAct_keeps (ag : Agent) (i : Nat) (d : Word) : (evtPendAct ag i d).Keeps := by simp [evtPendAct]

@[simp] theorem evtRouteAct_keeps (ag : Agent) (s : Nat) (d : Word) : (evtRouteAct ag s d).Keeps := by
  simp [evtRouteAct]

@[simp] theorem actStore_keeps (r : RName) (i : Nat) (d : Word) : (actStore r i d).Keeps := by simp [actStore]

@[simp] theorem fltAct_keeps (ag : Agent) (r : RName) (i : Nat) (d : Word) (m : Chip) :
    (fltAct ag r i d m).Keeps := by
  unfold fltAct
  split <;> simp

/-! ### The parameter list -/

@[simp] theorem Chip.paramStatus_kept (m : Chip) (st : Status) : (m.paramStatus st).kept = m.kept := by
  simp [Chip.paramStatus]

@[simp] theorem Chip.setList_kept (m : Chip) (l : Option (Nat × List (Nat × Word))) :
    (m.setList l).kept = m.kept := by simp [Chip.setList]

@[simp] theorem Chip.storeParams_straps (m : Chip) (p : Nat) (l : List (Nat × Word)) :
    (m.storeParams p l).kept.straps = m.kept.straps := by simp [Chip.storeParams]

@[simp] theorem Chip.paramDo_straps (m : Chip) (code p : Nat) : (m.paramDo code p).kept.straps = m.kept.straps := by
  unfold Chip.paramDo
  split
  · simp
  · split
    · split <;> simp
    · simp

@[simp] theorem paramCtlAct_keepsStraps (ag : Agent) (d : Word) (m : Chip) : (paramCtlAct ag d m).KeepsStraps := by
  simp [paramCtlAct]

@[simp] theorem paramDataAct_keeps (ag : Agent) (d : Word) (m : Chip) : (paramDataAct ag d m).Keeps := by
  simp only [paramDataAct, Act.keeps_mk, implies_true, and_true]
  intro m
  split
  · split <;> simp
  · rfl

@[simp] theorem sysAct_keepsStraps (ag : Agent) (r : RName) (i : Nat) (d : Word) (m : Chip) :
    (sysAct ag r i d m).KeepsStraps := by
  unfold sysAct
  split <;> simp

/-! ### The policy machines -/

@[simp] theorem Chip.rampStep_kept (m : Chip) : m.rampStep.kept = m.kept := by simp [Chip.rampStep]

@[simp] theorem Chip.rlimWrite_kept (m : Chip) : m.rlimWrite.kept = m.kept := by simp [Chip.rlimWrite]

@[simp] theorem Chip.hoTo_kept (m : Chip) (st : HoSt) (f : Chip → Chip) (h : ∀ m, (f m).kept = m.kept) :
    (m.hoTo st f).kept = m.kept := by simp [Chip.hoTo, h]

@[simp] theorem Chip.activate_kept (m : Chip) (s k : Nat) (g : Nat → Word) : (m.activate s k g).kept = m.kept := by
  simp [Chip.activate]

@[simp] theorem Chip.putAcc_kept (m : Chip) (s k j : Nat) (a : Sat) : (m.putAcc s k j a).kept = m.kept := by
  simp [Chip.putAcc]

@[simp] theorem Chip.putPlant_kept (m : Chip) (s k : Nat) (p : Plant) : (m.putPlant s k p).kept = m.kept := by
  simp [Chip.putPlant]

@[simp] theorem Chip.plantStart_kept (m : Chip) (s k : Nat) : (m.plantStart s k).kept = m.kept := by
  simp [Chip.plantStart]

@[simp] theorem Chip.notchSet_kept (m : Chip) (s k f0 : Nat) : (m.notchSet s k f0).kept = m.kept := by
  simp [Chip.notchSet]

@[simp] theorem Chip.prepare_kept (m : Chip) (s k : Nat) (run : Bool) : (m.prepare s k run).kept = m.kept := by
  simp [Chip.prepare]

@[simp] theorem Chip.applyBuf_kept (m : Chip) (s : Nat) : (m.applyBuf s).kept = m.kept := by simp [Chip.applyBuf]

@[simp] theorem Chip.commit_kept (m : Chip) (s mask : Nat) : (m.commit s mask).kept = m.kept := by simp [Chip.commit]

@[simp] theorem Chip.predGains_kept (m : Chip) (s : Nat) (g : Word × Word) : (m.predGains s g).kept = m.kept := by
  unfold Chip.predGains
  split <;> simp

@[simp] theorem Chip.gainsZero_kept (m : Chip) : m.gainsZero.kept = m.kept := by simp [Chip.gainsZero]

@[simp] theorem Chip.bslotSp_kept (m : Chip) (v slew : Int) : (m.bslotSp v slew).kept = m.kept := by simp [Chip.bslotSp]

@[simp] theorem Chip.forceValue_kept (m : Chip) (e : Nat) : (m.forceValue e).kept = m.kept := by simp [Chip.forceValue]

@[simp] theorem Chip.sendRetract_kept (m : Chip) (e k g : Nat) (front : Bool) :
    (m.sendRetract e k g front).kept = m.kept := by simp [Chip.sendRetract]

@[simp] theorem Chip.handoverRecord_kept (m : Chip) (cause : Nat) : (m.handoverRecord cause).kept = m.kept := by
  simp [Chip.handoverRecord]

@[simp] theorem Chip.handOver_kept (m : Chip) (st : HoSt) (cause : Nat) : (m.handOver st cause).kept = m.kept := by
  simp [Chip.handOver]

@[simp] theorem polCmdAct_keeps (d : Word) (m : Chip) : (polCmdAct d m).Keeps := by simp [polCmdAct]

@[simp] theorem Chip.gainsBack_kept (m : Chip) : m.gainsBack.kept = m.kept := by
  unfold Chip.gainsBack
  split
  · dsimp only
    split <;> split <;> simp
  · rfl

@[simp] theorem polAct_keeps (r : RName) (i : Nat) (d : Word) (m : Chip) : (polAct r i d m).Keeps := by
  unfold polAct
  split <;> simp

/-! ### Branches and stages started and stopped -/

@[simp] theorem Chip.dropFence_kept (m : Chip) (sc : Scope) (inst : Nat) : (m.dropFence sc inst).kept = m.kept := by
  simp [Chip.dropFence]

@[simp] theorem Chip.brnInrush_kept (m : Chip) (n retry : Nat) : (m.brnInrush n retry).kept = m.kept := by
  simp [Chip.brnInrush]

@[simp] theorem Chip.brnOn_kept (m : Chip) (n : Nat) : (m.brnOn n).kept = m.kept := by
  unfold Chip.brnOn
  dsimp only
  split <;> simp

@[simp] theorem brnOnAct_keeps (n : Nat) (m : Chip) : (brnOnAct n m).Keeps := by simp [brnOnAct]

@[simp] theorem Chip.brnWalk_kept (m : Chip) (l : List Nat) : (m.brnWalk l).kept = m.kept := by
  induction l generalizing m with
  | nil => simp [Chip.brnWalk]
  | cons n rest ih =>
    unfold Chip.brnWalk
    dsimp only
    split
    · simp [ih, (brnOnAct_keeps n m).rej]
    · simp [ih]

@[simp] theorem Chip.brnAutoStart_kept (m : Chip) : m.brnAutoStart.kept = m.kept := by simp [Chip.brnAutoStart]

@[simp] theorem Chip.rampFrom0_kept (m : Chip) (walkIn : Bool) : (m.rampFrom0 walkIn).kept = m.kept := by
  simp [Chip.rampFrom0]

@[simp] theorem Chip.rslotMode_kept (m : Chip) (omode : Nat) (manout : Int) :
    (m.rslotMode omode manout).kept = m.kept := by simp [Chip.rslotMode]

@[simp] theorem Chip.polSource_kept (m : Chip) : m.polSource.kept = m.kept := by simp [Chip.polSource]

@[simp] theorem Chip.convSoftIn_kept (m : Chip) (x act : Nat) : (m.convSoftIn x act).kept = m.kept := by
  simp [Chip.convSoftIn]

@[simp] theorem Chip.convSoft_kept (m : Chip) (x : Nat) : (m.convSoft x).kept = m.kept := by simp [Chip.convSoft]

@[simp] theorem Chip.slewRest_kept (m : Chip) (x : Nat) : (m.slewRest x).kept = m.kept := by simp [Chip.slewRest]

@[simp] theorem Chip.convStart_kept (m : Chip) (x : Nat) : (m.convStart x).kept = m.kept := by
  unfold Chip.convStart
  dsimp only
  split <;> simp

@[simp] theorem Chip.enterSource_kept (m : Chip) : m.enterSource.kept = m.kept := by simp [Chip.enterSource]

@[simp] theorem Chip.polHoldup_kept (m : Chip) : m.polHoldup.kept = m.kept := by simp [Chip.polHoldup]

@[simp] theorem Chip.enterHoldup_kept (m : Chip) : m.enterHoldup.kept = m.kept := by simp [Chip.enterHoldup]

@[simp] theorem Chip.start_kept (m : Chip) : m.start.kept = m.kept := by simp [Chip.start]

@[simp] theorem Chip.polLeave_kept (m : Chip) : m.polLeave.kept = m.kept := by simp [Chip.polLeave]

@[simp] theorem Chip.brnAllOff_kept (m : Chip) (cause : Nat) : (m.brnAllOff cause).kept = m.kept := by
  simp [Chip.brnAllOff]

@[simp] theorem Chip.convRamp_kept (m : Chip) (x : Nat) : (m.convRamp x).kept = m.kept := by simp [Chip.convRamp]

@[simp] theorem Chip.convStop_kept (m : Chip) (x : Nat) : (m.convStop x).kept = m.kept := by
  unfold Chip.convStop
  dsimp only
  split <;> simp

@[simp] theorem Chip.stop_kept (m : Chip) : m.stop.kept = m.kept := by simp [Chip.stop]

/-! ### The charger and the strings -/

@[simp] theorem Chip.batTick_kept (m : Chip) (frozen : Bool) : (m.batTick frozen).kept = m.kept := by
  simp [Chip.batTick]

@[simp] theorem Chip.chgCompute_kept (m : Chip) : m.chgCompute.kept = m.kept := by simp [Chip.chgCompute]

@[simp] theorem Chip.chgTo_kept (m : Chip) (p : ChgPh) (ev : Bool) : (m.chgTo p ev).kept = m.kept := by
  simp [Chip.chgTo]

@[simp] theorem Chip.chgIdle_kept (m : Chip) : m.chgIdle.kept = m.kept := by simp [Chip.chgIdle]

@[simp] theorem Chip.chgFault_kept (m : Chip) (bit : Nat) : (m.chgFault bit).kept = m.kept := by simp [Chip.chgFault]

@[simp] theorem Chip.strLeft_kept (m : Chip) : m.strLeft.kept = m.kept := by simp [Chip.strLeft]

@[simp] theorem Chip.openStrings_kept (m : Chip) : m.openStrings.kept = m.kept := by simp [Chip.openStrings]

/-! ### Time and resets -/

@[simp] theorem Chip.advance_straps (m : Chip) (d : Nat) : (m.advance d).kept.straps = m.kept.straps := by
  simp [Chip.advance]

@[simp] theorem Chip.elapse_straps (m : Chip) (t0 d : Nat) : (m.elapse t0 d).kept.straps = m.kept.straps := by
  simp [Chip.elapse]

@[simp] theorem Chip.strFault_kept (m : Chip) (n bit : Nat) : (m.strFault n bit).kept = m.kept := by
  simp [Chip.strFault]

@[simp] theorem Chip.strSwitchWeld_straps (m : Chip) (n : Nat) : (m.strSwitchWeld n).kept.straps = m.kept.straps := by
  simp [Chip.strSwitchWeld]

@[simp] theorem Chip.afterReset_straps (m : Chip) (por : Bool) (cause : Nat) (base : Base) :
    (m.afterReset por cause base).kept.straps = m.kept.straps := by simp [Chip.afterReset]

/-! ### What the recorder and the estimator have to write -/

@[simp] theorem Chip.putEstSlot_kept (m : Chip) (b : Bool) (x : EstSlot) : (m.putEstSlot b x).kept = m.kept := by
  simp [Chip.putEstSlot]

@[simp] theorem Chip.storeWrite_kept (m : Chip) (b : Bool) : (m.storeWrite b).kept = m.kept := by simp [Chip.storeWrite]

@[simp] theorem Chip.storeDue_kept (m : Chip) : m.storeDue.kept = m.kept := by simp [Chip.storeDue]

@[simp] theorem Chip.storeDone_straps (m : Chip) : m.storeDone.kept.straps = m.kept.straps := by
  unfold Chip.storeDone
  split <;> simp

@[simp] theorem Chip.storeAbandon_kept (m : Chip) : m.storeAbandon.kept = m.kept := by
  unfold Chip.storeAbandon
  split <;> simp

@[simp] theorem Chip.putCap_kept (m : Chip) (u : Nat) (c : Cap) : (m.putCap u c).kept = m.kept := by simp [Chip.putCap]

@[simp] theorem Chip.capAbandon_kept (m : Chip) (rec : Option Rec) : (m.capAbandon rec).kept = m.kept := by
  unfold Chip.capAbandon
  split <;> simp

@[simp] theorem Chip.recordAbandon_kept (m : Chip) : m.recordAbandon.kept = m.kept := by simp [Chip.recordAbandon]

@[simp] theorem Chip.ecdTrip_kept (m : Chip) : m.ecdTrip.kept = m.kept := by simp [Chip.ecdTrip]

@[simp] theorem Chip.putSlot_kept (m : Chip) (k : Nat) (s : RSlot) : (m.putSlot k s).kept = m.kept := by
  simp [Chip.putSlot]

@[simp] theorem Chip.capFill_kept (m : Chip) (u : Nat) : (m.capFill u).kept = m.kept := by simp [Chip.capFill]

@[simp] theorem Chip.capDone_kept (m : Chip) (u : Nat) (c : Cap) : (m.capDone u c).kept = m.kept := by
  simp [Chip.capDone]

@[simp] theorem Chip.capRecord_kept (m : Chip) (r : Rec) (good : Bool) : (m.capRecord r good).kept = m.kept := by
  simp [Chip.capRecord]

@[simp] theorem Chip.posOn_kept (m : Chip) (k : Nat) : (m.posOn k).kept = m.kept := by simp [Chip.posOn]

@[simp] theorem Chip.gapFirst_kept (m : Chip) (code first last detail w9 : Nat) :
    (m.gapFirst code first last detail w9).kept = m.kept := by simp [Chip.gapFirst]

@[simp] theorem Chip.recordCommit_kept (m : Chip) (good : Bool) : (m.recordCommit good).kept = m.kept := by
  unfold Chip.recordCommit
  split <;> simp

theorem Chip.nextRec_kept (m : Chip) (x : QRec × Chip) (h : m.nextRec = some x) : x.2.kept = m.kept := by
  unfold Chip.nextRec at h
  split at h
  · simp at h; simp [← h]
  · split at h
    · simp at h; simp [← h]
    · split at h
      · simp at h; simp [← h]
      · cases h

@[simp] theorem Chip.recordStart_kept (m : Chip) : m.recordStart.kept = m.kept := by
  unfold Chip.recordStart
  split
  · rfl
  · split
    · rfl
    · next q c h => simp [Chip.nextRec_kept m (q, c) h]

@[simp] theorem Chip.flushRecords_kept (m : Chip) : m.flushRecords.kept = m.kept := by simp [Chip.flushRecords]

/-! ### The commands of PWRM -/

@[simp] theorem Chip.shipCommits_straps (m : Chip) (collapse : Bool) :
    (m.shipCommits collapse).kept.straps = m.kept.straps := by simp [Chip.shipCommits]

@[simp] theorem Chip.ship_straps (m : Chip) (welded : Nat) (collapse : Bool) :
    (m.ship welded collapse).kept.straps = m.kept.straps := by simp [Chip.ship]

@[simp] theorem Chip.convThaw_kept (m : Chip) : m.convThaw.kept = m.kept := by simp [Chip.convThaw]

@[simp] theorem Chip.safeExit_kept (m : Chip) : m.safeExit.kept = m.kept := by simp [Chip.safeExit]

@[simp] theorem Chip.warmReset_straps (m : Chip) (cause : Nat) : (m.warmReset cause).kept.straps = m.kept.straps := by
  simp [Chip.warmReset]

@[simp] theorem Chip.pwrmDo_straps (m : Chip) (code welded : Nat) :
    (m.pwrmDo code welded).kept.straps = m.kept.straps := by simp [Chip.pwrmDo]

@[simp] theorem Chip.pwrmStatus_kept (m : Chip) (st : Status) (code : Nat) :
    (m.pwrmStatus st code).kept = m.kept := by simp [Chip.pwrmStatus]

@[simp] theorem pwrmCmdAct_keepsStraps (ag : Agent) (d : Word) (welded : Nat) (m : Chip) :
    (pwrmCmdAct ag d welded m).KeepsStraps := by simp [pwrmCmdAct]

@[simp] theorem pwrmAct_keepsStraps (ag : Agent) (r : RName) (i : Nat) (d : Word) (m : Chip) :
    (pwrmAct ag r i d m).KeepsStraps := by
  unfold pwrmAct
  split <;> simp

/-! ### The commands of the sequencer -/

@[simp] theorem Chip.seqOn_kept (m : Chip) : m.seqOn.kept = m.kept := by
  unfold Chip.seqOn
  dsimp only
  split <;> simp

@[simp] theorem seqCmdAct_keeps (d : Word) (m : Chip) : (seqCmdAct d m).Keeps := by
  unfold seqCmdAct
  split <;> simp

@[simp] theorem Chip.seqGood_kept (m old : Chip) : (m.seqGood old).kept = m.kept := by simp [Chip.seqGood]

@[simp] theorem seqAct_keeps (r : RName) (i : Nat) (d : Word) (m : Chip) : (seqAct r i d m).Keeps := by
  unfold seqAct
  split <;> simp

/-! ### The commands of the lay engine and its loader -/

@[simp] theorem Chip.layStatus_kept (m : Chip) (st : Status) (code : Nat) : (m.layStatus st code).kept = m.kept := by
  simp [Chip.layStatus]

@[simp] theorem Chip.strandHalt_kept (m : Chip) (k : Nat) : (m.strandHalt k).kept = m.kept := by simp [Chip.strandHalt]

@[simp] theorem Chip.strandFree_kept (m : Chip) (k : Nat) : (m.strandFree k).kept = m.kept := by simp [Chip.strandFree]

@[simp] theorem Chip.haltOwner_kept (m : Chip) (o : Owner) : (m.haltOwner o).kept = m.kept := by simp [Chip.haltOwner]

@[simp] theorem Chip.layDo_kept (m : Chip) (code k : Nat) : (m.layDo code k).kept = m.kept := by simp [Chip.layDo]

@[simp] theorem layCmdAct_keeps (ag : Agent) (d : Word) (m : Chip) : (layCmdAct ag d m).Keeps := by simp [layCmdAct]

@[simp] theorem Chip.bldStatus_kept (m : Chip) (st : Status) : (m.bldStatus st).kept = m.kept := by
  simp [Chip.bldStatus]

@[simp] theorem Chip.unallocate_kept (m : Chip) (o : Owner) : (m.unallocate o).kept = m.kept := by
  simp [Chip.unallocate]

@[simp] theorem Chip.eraseRegion_kept (m : Chip) (o : Owner) : (m.eraseRegion o).kept = m.kept := by
  simp [Chip.eraseRegion]

@[simp] theorem Chip.emptyQueues_kept (m : Chip) (lo hi : Nat) : (m.emptyQueues lo hi).kept = m.kept := by
  simp [Chip.emptyQueues]

@[simp] theorem Chip.loadBegin_kept (m : Chip) (o : Owner) : (m.loadBegin o).kept = m.kept := by simp [Chip.loadBegin]

@[simp] theorem Chip.loadEnd_kept (m : Chip) : m.loadEnd.kept = m.kept := by simp [Chip.loadEnd]

@[simp] theorem Chip.bundleCommit_kept (m : Chip) : m.bundleCommit.1.kept = m.kept := by
  unfold Chip.bundleCommit
  split <;> simp

@[simp] theorem bldCtlAct_keeps (ag : Agent) (d : Word) (m : Chip) : (bldCtlAct ag d m).Keeps := by simp [bldCtlAct]

@[simp] theorem Chip.bundleWord_kept (m : Chip) (o : Owner) (d : Word) : (m.bundleWord o d).1.kept = m.kept := by
  unfold Chip.bundleWord
  split <;> simp

@[simp] theorem bldDataAct_keeps (ag : Agent) (d : Word) (m : Chip) : (bldDataAct ag d m).Keeps := by simp [bldDataAct]

@[simp] theorem viewAct_keeps (ag : Agent) (m : Chip) (f : Strand → Strand) : (viewAct ag m f).Keeps := by simp [viewAct]

@[simp] theorem layAct_keeps (ag : Agent) (r : RName) (i : Nat) (d : Word) (m : Chip) :
    (layAct ag r i d m).Keeps := by
  unfold layAct
  split <;> simp

/-! ### The commands of the loop engine -/

@[simp] theorem Chip.cleStatus_kept (m : Chip) (s mask : Nat) (st : Status) :
    (m.cleStatus s mask st).kept = m.kept := by simp [Chip.cleStatus]

@[simp] theorem commitAct_keeps (s mask : Nat) (m : Chip) : (commitAct s mask m).Keeps := by simp [commitAct]

@[simp] theorem Chip.slotTrigger_kept (m : Chip) (s : Nat) : (m.slotTrigger s).kept = m.kept := by
  simp [Chip.slotTrigger]

@[simp] theorem cleAct_keeps (r : RName) (i : Nat) (d : Word) (m : Chip) : (cleAct r i d m).Keeps := by
  unfold cleAct
  split <;> simp

/-! ### Acquisition -/

@[simp] theorem Chip.acqStatus_kept (m : Chip) (st : Status) (code : Nat) (busy : Bool) :
    (m.acqStatus st code busy).kept = m.kept := by simp [Chip.acqStatus]

@[simp] theorem Chip.setQueue_kept (m : Chip) (q : List (Word × Word)) : (m.setQueue q).kept = m.kept := by
  simp [Chip.setQueue]

@[simp] theorem Chip.qFlush_kept (m : Chip) : m.qFlush.kept = m.kept := by simp [Chip.qFlush]

@[simp] theorem acqCmdAct_keeps (d : Word) (m : Chip) : (acqCmdAct d m).Keeps := by simp [acqCmdAct]

@[simp] theorem Chip.putUse_kept (m : Chip) (n : Nat) (u : ConvUse) : (m.putUse n u).kept = m.kept := by
  simp [Chip.putUse]

@[simp] theorem Chip.pairsClear_kept (m : Chip) (p : Nat) : (m.pairsClear p).kept = m.kept := by simp [Chip.pairsClear]

@[simp] theorem Chip.convStarts_kept (m : Chip) (n : Nat) : (m.convStarts n).kept = m.kept := by
  unfold Chip.convStarts
  dsimp only
  split
  · rw [Chip.kept_mk, Chip.kept_eta, Chip.putUse_kept]
  · split
    · rfl
    · rw [Chip.kept_mk, Chip.kept_eta, Chip.putUse_kept, Chip.putUse_kept, Chip.pairsClear_kept]

@[simp] theorem Chip.convStops_kept (m : Chip) (n : Nat) : (m.convStops n).kept = m.kept := by simp [Chip.convStops]

@[simp] theorem Chip.loopSources_kept (m old : Chip) : (m.loopSources old).kept = m.kept := by simp [Chip.loopSources]

@[simp] theorem Chip.acmCheck_kept (m : Chip) : m.acmCheck.kept = m.kept := by simp [Chip.acmCheck]

@[simp] theorem Chip.putWc_kept (m : Chip) (w : Nat) (k : Wcmp) : (m.putWc w k).kept = m.kept := by simp [Chip.putWc]

@[simp] theorem Chip.wcTouch_kept (m : Chip) (w : Nat) : (m.wcTouch w).kept = m.kept := by simp [Chip.wcTouch]

@[simp] theorem Chip.trackRebase_kept (m : Chip) : m.trackRebase.kept = m.kept := by simp [Chip.trackRebase]

@[simp] theorem acqAct_keeps (r : RName) (i : Nat) (d : Word) (m : Chip) : (acqAct r i d m).Keeps := by
  unfold acqAct
  split <;> simp

/-! ### Stages -/

@[simp] theorem vcmdAct_keeps (x : Nat) (d : Word) (m : Chip) : (vcmdAct x d m).Keeps := by
  simp only [vcmdAct, Act.keeps_mk, implies_true, and_true]
  intro m
  split
  · rfl
  · split <;> simp

@[simp] theorem cnvCmdAct_keeps (x : Nat) (d : Word) (m : Chip) : (cnvCmdAct x d m).Keeps := by
  unfold cnvCmdAct
  split <;> simp

@[simp] theorem cnvAct_keeps (r : RName) (i : Nat) (d : Word) (m : Chip) : (cnvAct r i d m).Keeps := by
  unfold cnvAct
  split <;> simp

/-! ### Branches -/

@[simp] theorem Chip.brnOffCmd_kept (m : Chip) (n : Nat) : (m.brnOffCmd n).kept = m.kept := by simp [Chip.brnOffCmd]

@[simp] theorem brnCmdAct_keeps (n : Nat) (d : Word) (m : Chip) : (brnCmdAct n d m).Keeps := by
  unfold brnCmdAct
  split <;> simp

@[simp] theorem Chip.brnHoldShared_kept (m : Chip) (r : RName) : (m.brnHoldShared r).kept = m.kept := by
  simp [Chip.brnHoldShared]

@[simp] theorem Chip.brnHold_kept (m : Chip) (r : RName) (n : Nat) : (m.brnHold r n).kept = m.kept := by
  simp [Chip.brnHold]

@[simp] theorem brnAct_keeps (r : RName) (n : Nat) (d : Word) (m : Chip) : (brnAct r n d m).Keeps := by
  unfold brnAct
  split <;> simp

/-! ### The battery path -/

@[simp] theorem Chip.batStatus_kept (m : Chip) (st : Status) (code : Nat) : (m.batStatus st code).kept = m.kept := by
  simp [Chip.batStatus]

@[simp] theorem Chip.chgDecide_kept (m : Chip) : m.chgDecide.kept = m.kept := by simp [Chip.chgDecide]

@[simp] theorem Chip.chgStringIn_kept (m : Chip) : m.chgStringIn.kept = m.kept := by
  unfold Chip.chgStringIn
  split <;> simp

@[simp] theorem Chip.batWindows_kept (m old : Chip) : (m.batWindows old).kept = m.kept := by simp [Chip.batWindows]

@[simp] theorem Chip.strClose_kept (m : Chip) (n : Nat) : (m.strClose n).kept = m.kept := by simp [Chip.strClose]

@[simp] theorem Chip.strConnect_kept (m : Chip) (n : Nat) : (m.strConnect n).kept = m.kept := by simp [Chip.strConnect]

@[simp] theorem Chip.strOpen_kept (m : Chip) (n : Nat) : (m.strOpen n).kept = m.kept := by simp [Chip.strOpen]

@[simp] theorem batCmdAct_keeps (d : Word) (m : Chip) : (batCmdAct d m).Keeps := by
  unfold batCmdAct
  dsimp only
  split <;> simp

@[simp] theorem batAct_keeps (r : RName) (i : Nat) (d : Word) (m : Chip) : (batAct r i d m).Keeps := by
  unfold batAct
  split <;> simp

/-! ### The estimator -/

@[simp] theorem Chip.estStatus_kept (m : Chip) (st : Status) (code : Nat) : (m.estStatus st code).kept = m.kept := by
  simp [Chip.estStatus]

@[simp] theorem Chip.sohCheck_kept (m : Chip) (n : Nat) : (m.sohCheck n).kept = m.kept := by simp [Chip.sohCheck]

@[simp] theorem Chip.staleCheck_kept (m : Chip) (n : Nat) : (m.staleCheck n).kept = m.kept := by simp [Chip.staleCheck]

@[simp] theorem Chip.ocvInverse_kept (m : Chip) (n : Nat) (v : Int) : (m.ocvInverse n v).1.kept = m.kept := by
  unfold Chip.ocvInverse
  split <;> simp

@[simp] theorem Chip.estEvent_kept (m : Chip) (src n : Nat) : (m.estEvent src n).kept = m.kept := by
  simp [Chip.estEvent]

@[simp] theorem Chip.capMeasure_kept (m : Chip) (n : Nat) (dsoc dq : Int) :
    (m.capMeasure n dsoc dq).kept = m.kept := by simp [Chip.capMeasure]

@[simp] theorem Chip.tightNote_kept (m : Chip) (n : Nat) : (m.tightNote n).kept = m.kept := by
  unfold Chip.tightNote
  dsimp only
  split
  · rfl
  · rw [Chip.putEstr_kept]
    split <;> simp

@[simp] theorem Chip.correct_kept (m : Chip) (n : Nat) (v : Int) (e kind : Nat) :
    (m.correct n v e kind).kept = m.kept := by simp [Chip.correct]

@[simp] theorem Chip.estInsertion_kept (m : Chip) (n : Nat) : (m.estInsertion n).kept = m.kept := by
  simp [Chip.estInsertion]

@[simp] theorem Chip.estUnknown_kept (m : Chip) (n : Nat) : (m.estUnknown n).kept = m.kept := by simp [Chip.estUnknown]

@[simp] theorem estCmdAct_keeps (d : Word) (m : Chip) : (estCmdAct d m).Keeps := by
  unfold estCmdAct
  dsimp only
  split <;> simp

@[simp] theorem estAct_keeps (r : RName) (i : Nat) (d : Word) (m : Chip) : (estAct r i d m).Keeps := by
  unfold estAct
  split <;> simp

/-! ### Partners -/

@[simp] theorem Chip.ptnStatus_kept (m : Chip) (st : Status) (code : Nat) : (m.ptnStatus st code).kept = m.kept := by
  simp [Chip.ptnStatus]

@[simp] theorem Chip.entUnfence_kept (m : Chip) (e : Nat) : (m.entUnfence e).kept = m.kept := by simp [Chip.entUnfence]

@[simp] theorem Chip.idRequest_kept (m : Chip) (d : Word) : (m.idRequest d).kept = m.kept := by simp [Chip.idRequest]

@[simp] theorem ptnCmdAct_keeps (d : Word) (m : Chip) : (ptnCmdAct d m).Keeps := by
  unfold ptnCmdAct
  dsimp only
  split <;> simp

@[simp] theorem Chip.ringRearm_kept (m : Chip) : m.ringRearm.kept = m.kept := by simp [Chip.ringRearm]

@[simp] theorem ptnAct_keeps (ag : Agent) (r : RName) (i : Nat) (d : Word) (m : Chip) :
    (ptnAct ag r i d m).Keeps := by
  unfold ptnAct
  split <;> simp

/-! ### Two-wire buses and the link -/

@[simp] theorem Chip.twbStatus_kept (m : Chip) (n code : Nat) (st : Status) :
    (m.twbStatus n code st).kept = m.kept := by simp [Chip.twbStatus]

@[simp] theorem twbCmdAct_keeps (n : Nat) (d : Word) (m : Chip) : (twbCmdAct n d m).Keeps := by
  unfold twbCmdAct
  dsimp only
  split <;> simp

@[simp] theorem twbCfgAct_keeps (n : Nat) (d : Word) : (twbCfgAct n d).Keeps := by simp [twbCfgAct]

@[simp] theorem twbAct_keeps (r : RName) (i : Nat) (d : Word) (m : Chip) : (twbAct r i d m).Keeps := by
  unfold twbAct
  split <;> simp

@[simp] theorem Chip.pathUsable_kept (m : Chip) (p : Nat) : (m.pathUsable p).kept = m.kept := by simp [Chip.pathUsable]

@[simp] theorem Chip.segUnfence_kept (m : Chip) (n : Nat) : (m.segUnfence n).kept = m.kept := by simp [Chip.segUnfence]

@[simp] theorem slkCmdAct_keeps (n : Nat) (d : Word) (m : Chip) : (slkCmdAct n d m).Keeps := by simp [slkCmdAct]

@[simp] theorem slkAct_keeps (r : RName) (i : Nat) (d : Word) (m : Chip) : (slkAct r i d m).Keeps := by
  unfold slkAct
  split <;> simp

/-! ### The host and its mailboxes -/

@[simp] theorem Chip.widthTaken_kept (m : Chip) : m.widthTaken.kept = m.kept := by simp [Chip.widthTaken]

@[simp] theorem authAct_keeps (ag : Agent) (r : RName) (d : Word) (m : Chip) : (authAct ag r d m).Keeps := by
  simp [authAct]

@[simp] theorem Chip.putMq_kept (m : Chip) (c : Nat) (ab : Bool) (ws : List Word) :
    (m.putMq c ab ws).kept = m.kept := by simp [Chip.putMq]

@[simp] theorem Chip.ring_kept (m : Chip) (e : MEnd) (c : Nat) : (m.ring e c).kept = m.kept := by
  unfold Chip.ring
  split <;> simp

@[simp] theorem Chip.mbxSend_kept (m : Chip) (c : Nat) (fromA : Bool) (w : Word) :
    (m.mbxSend c fromA w).1.kept = m.kept := by simp [Chip.mbxSend]

@[simp] theorem mbxTxAct_keeps (ag : Agent) (c : Nat) (d : Word) (m : Chip) : (mbxTxAct ag c d m).Keeps := by
  unfold mbxTxAct
  split <;> simp

@[simp] theorem hstAct_keeps (ag : Agent) (r : RName) (i : Nat) (d : Word) (m : Chip) :
    (hstAct ag r i d m).Keeps := by
  unfold hstAct
  split <;> simp

/-! ### Sensors -/

@[simp] theorem Chip.putSensor_kept (m : Chip) (k : Nat) (s : Sensor) : (m.putSensor k s).kept = m.kept := by
  simp [Chip.putSensor]

@[simp] theorem thmAct_keeps (r : RName) (i : Nat) (d : Word) (_m : Chip) : (thmAct r i d _m).Keeps := by
  unfold thmAct
  split <;> simp

/-! ### Security -/

@[simp] theorem alarmCfgAct_keeps (d : Word) (m : Chip) : (alarmCfgAct d m).Keeps := by simp [alarmCfgAct]

@[simp] theorem Chip.putKey_straps (m : Chip) (slot : Nat) (k : List Word) :
    (m.putKey slot k).kept.straps = m.kept.straps := by simp [Chip.putKey]

@[simp] theorem Chip.keyCommit_straps (m : Chip) (slot : Nat) : (m.keyCommit slot).1.kept.straps = m.kept.straps := by
  unfold Chip.keyCommit
  split <;> simp

@[simp] theorem keyCtlAct_keepsStraps (d : Word) (m : Chip) : (keyCtlAct d m).KeepsStraps := by simp [keyCtlAct]

@[simp] theorem keyDataAct_keeps (d : Word) (m : Chip) : (keyDataAct d m).Keeps := by
  unfold keyDataAct
  split <;> simp

@[simp] theorem Chip.tamperQuiet_kept (m : Chip) (k : Nat) : (m.tamperQuiet k).kept = m.kept := by
  simp [Chip.tamperQuiet]

@[simp] theorem Chip.stageDrop_kept (m : Chip) : m.stageDrop.kept = m.kept := by simp [Chip.stageDrop]

@[simp] theorem Chip.loadCancel_kept (m : Chip) (o : Owner) : (m.loadCancel o).kept = m.kept := by
  unfold Chip.loadCancel
  split <;> simp

@[simp] theorem Chip.lockdown_straps (m : Chip) : m.lockdown.kept.straps = m.kept.straps := by simp [Chip.lockdown]

@[simp] theorem Chip.sessionRecord_kept (m : Chip) (opening key : Bool) (cause : Nat) :
    (m.sessionRecord opening key cause).kept = m.kept := by simp [Chip.sessionRecord]

@[simp] theorem Chip.sessionEnd_kept (m : Chip) (cause : Nat) : (m.sessionEnd cause).kept = m.kept := by
  simp [Chip.sessionEnd]

@[simp] theorem Chip.eraseKeys_straps (m : Chip) : m.eraseKeys.kept.straps = m.kept.straps := by simp [Chip.eraseKeys]

@[simp] theorem Chip.secAlarm_straps (m : Chip) (k : Nat) : (m.secAlarm k).kept.straps = m.kept.straps := by
  simp [Chip.secAlarm]

@[simp] theorem Chip.secCondition_straps (m : Chip) (k : Nat) (present : Bool) :
    (m.secCondition k present).kept.straps = m.kept.straps := by simp [Chip.secCondition]

@[simp] theorem Chip.tamperCfg_straps (m : Chip) (d : Word) : (m.tamperCfg d).kept.straps = m.kept.straps := by
  simp [Chip.tamperCfg]

@[simp] theorem secAct_keepsStraps (r : RName) (i : Nat) (d : Word) (m : Chip) : (secAct r i d m).KeepsStraps := by
  unfold secAct
  split <;> simp

/-! ### The pair -/

@[simp] theorem Chip.sendSnapshot_kept (m : Chip) : m.sendSnapshot.kept = m.kept := by simp [Chip.sendSnapshot]

@[simp] theorem Chip.resync_kept (m : Chip) : m.resync.kept = m.kept := by simp [Chip.resync]

@[simp] theorem Chip.askBack_kept (m : Chip) : m.askBack.kept = m.kept := by simp [Chip.askBack]

@[simp] theorem splCmdAct_keeps (d : Word) (m : Chip) : (splCmdAct d m).Keeps := by simp [splCmdAct]

@[simp] theorem splAct_keeps (r : RName) (i : Nat) (d : Word) (m : Chip) : (splAct r i d m).Keeps := by
  unfold splAct
  split <;> simp

/-! ### The recorder -/

@[simp] theorem Chip.rcdStatus_kept (m : Chip) (st : Status) (code : Nat) : (m.rcdStatus st code).kept = m.kept := by
  simp [Chip.rcdStatus]

@[simp] theorem Chip.capTrigger_kept (m : Chip) (u t : Nat) : (m.capTrigger u t).kept = m.kept := by
  unfold Chip.capTrigger
  dsimp only
  split <;> simp

@[simp] theorem Chip.exportStart_kept (m : Chip) (bank : Nat) : (m.exportStart bank).kept = m.kept := by
  simp [Chip.exportStart]

@[simp] theorem rcdCmdAct_keeps (bank : Nat) (d : Word) (m : Chip) : (rcdCmdAct bank d m).Keeps := by simp [rcdCmdAct]

@[simp] theorem capCfgAct_keeps (u : Nat) (d : Word) (m : Chip) : (capCfgAct u d m).Keeps := by simp [capCfgAct]

@[simp] theorem rcdAct_keeps (bank : Nat) (r : RName) (i : Nat) (d : Word) (m : Chip) :
    (rcdAct bank r i d m).Keeps := by
  unfold rcdAct
  split <;> simp

/-! ### The update -/

@[simp] theorem Chip.updStatus_kept (m : Chip) (st : Status) (code : Nat) : (m.updStatus st code).kept = m.kept := by
  simp [Chip.updStatus]

@[simp] theorem Chip.confirm_kept (m : Chip) : m.confirm.kept = m.kept := by simp [Chip.confirm]

@[simp] theorem Chip.stageEmpty_kept (m : Chip) : m.stageEmpty.kept = m.kept := by simp [Chip.stageEmpty]

@[simp] theorem updCmdAct_keeps (d : Word) (m : Chip) : (updCmdAct d m).Keeps := by simp [updCmdAct]

@[simp] theorem updAct_keeps (r : RName) (i : Nat) (d : Word) (m : Chip) : (updAct r i d m).Keeps := by
  unfold updAct
  split <;> simp

/-! ### Any register -/

@[simp] theorem Chip.blockAct_keepsStraps (m : Chip) (ag : Agent) (r : RName) (i : Nat) (d : Word) :
    (m.blockAct ag r i d).KeepsStraps := by
  unfold Chip.blockAct
  split
  case h_2 => split <;> simp
  case h_7 => split <;> simp
  all_goals simp

@[simp] theorem Chip.regAct_keepsStraps (m : Chip) (ag : Agent) (r : RName) (i : Nat) (d : Word) :
    (m.regAct ag r i d).KeepsStraps := by
  unfold Chip.regAct
  split <;> simp

/-- An access to a register of a block with levels reaches neither the reset nor the MRAM commands. -/
theorem Chip.blockAct_keeps (m : Chip) (ag : Agent) (r : RName) (i : Nat) (d : Word) (h : r.blk.isSome = true) :
    (m.blockAct ag r i d).Keeps := by
  unfold RName.blk at h
  unfold Chip.blockAct
  generalize r.region = g at h
  split
  case h_1 => cases h
  case h_2 => split <;> simp_all
  case h_7 => split <;> simp
  case h_17 => cases h
  all_goals simp

theorem Chip.regAct_keeps (m : Chip) (ag : Agent) (r : RName) (i : Nat) (d : Word) (h : r.blk.isSome = true) :
    (m.regAct ag r i d).Keeps := by
  unfold Chip.regAct
  split
  · simp
  · simp
  · split <;> simp
  · exact m.blockAct_keeps ag r i d h

end Sys2Proof.Machine
end

section
/-!
PROOFS. What the profiles, the parameters and the scans of boot leave of the straps, the time and the MRAM (R65, R67).
-/

namespace Sys2Proof.Machine

/-! ### The profile of a block -/

theorem Chip.profileReg_kept (m : Chip) (r : RName) (i : Nat) (h : r.blk.isSome = true) : (m.profileReg r i).kept = m.kept := by
  unfold Chip.profileReg
  dsimp only
  split
  · rfl
  · exact (m.regAct_keeps .lib r i _ h).eff m

theorem Chip.profKeys_blk (m : Chip) (b : Blk) (q : RName × Nat) (h : q ∈ m.profKeys b) : q.1.blk = some b := by
  simp only [Chip.profKeys, List.mem_eraseDups, List.mem_filter, Bool.and_eq_true, decide_eq_true_eq] at h
  exact h.2.1

@[simp] theorem Chip.profileRegs_kept (m : Chip) (b : Blk) : (m.profileRegs b).1.kept = m.kept := by
  have hk := m.profKeys_blk b
  unfold Chip.profileRegs
  dsimp only
  generalize m.profKeys b = ks at hk
  have hf : ∀ c : Chip, (ks.foldl (fun m q => m.profileReg q.1 q.2) c).kept = c.kept := by
    induction ks with
    | nil => exact fun c => rfl
    | cons q ks ih =>
      intro c
      rw [List.foldl_cons, ih (fun x hx => hk x (List.mem_cons_of_mem q hx)),
        Chip.profileReg_kept c q.1 q.2 (by rw [hk q List.mem_cons_self]; rfl)]
  exact hf m

/-! ### The profiles of acquisition -/

@[simp] theorem Chip.libRun_kept (m : Chip) (n : Nat) (on : Bool) : (m.libRun n on).kept = m.kept := by
  simp [Chip.libRun]

@[simp] theorem Chip.profAcq_kept (m : Chip) (fast : List Nat) (ls : List CvLoad) :
    (m.profAcq fast ls).kept = m.kept := by simp [Chip.profAcq]

@[simp] theorem Chip.basicAcq_kept (m : Chip) : m.basicAcq.kept = m.kept := by
  unfold Chip.basicAcq
  dsimp only
  split
  · simp
  · rw [Chip.kept_ite]; simp

/-! ### The chains of the library -/

@[simp] theorem Chip.releaseOut_kept (m : Chip) (s : Nat) : (m.releaseOut s).kept = m.kept := by simp [Chip.releaseOut]

@[simp] theorem Chip.slotStopped_kept (m : Chip) (s : Nat) : (m.slotStopped s).kept = m.kept := by
  simp [Chip.slotStopped]

@[simp] theorem Chip.loopStop_kept (m : Chip) (s : Nat) : (m.loopStop s).kept = m.kept := by simp [Chip.loopStop]

@[simp] theorem Chip.dropChain_kept (m : Chip) (s : Nat) : (m.dropChain s).kept = m.kept := by simp [Chip.dropChain]

@[simp] theorem Chip.stageChain_kept (m : Chip) (s tindex decim : Nat) (sp slew : Word) (bs : List BlkWords) :
    (m.stageChain s tindex decim sp slew bs).kept = m.kept := by simp [Chip.stageChain]

@[simp] theorem Chip.bindOut_kept (m : Chip) (s : Nat) : (m.bindOut s).kept = m.kept := by simp [Chip.bindOut]

@[simp] theorem Chip.slotArm_kept (m : Chip) (s : Nat) (ctl : Word) : (m.slotArm s ctl).kept = m.kept := by
  unfold Chip.slotArm
  dsimp only
  rw [Chip.putLslot_kept, Chip.wake_kept, Chip.bindOut_kept, Chip.kept_ite, Chip.putLw_kept, ite_self]
  simp

@[simp] theorem Chip.slotRun_kept (m : Chip) (s : Nat) (ctl : Word) : (m.slotRun s ctl).1.kept = m.kept := by
  simp [Chip.slotRun]

theorem Chip.runChainLib_kept (m c : Chip) (s tkind tindex decim : Nat) (sp slew : Word) (bs : List BlkWords)
    (h : m.runChainLib s tkind tindex decim sp slew bs = some c) : c.kept = m.kept := by
  unfold Chip.runChainLib at h
  dsimp only at h
  split at h
  · split at h
    · cases h; simp
    · cases h
  · cases h

theorem Chip.polChains_kept (m c : Chip) (h : m.polChains = some c) : c.kept = m.kept := by
  unfold Chip.polChains at h
  split at h
  · simp only [Option.bind_eq_some_iff, Option.map_eq_some_iff] at h
    obtain ⟨r, -, a, ha, ⟨b, d⟩, hb, n, -, q, hq, rfl⟩ := h
    rw [Chip.put_kept]
    have hq' : q.kept = b.kept := by
      dsimp only at hq
      split at hq <;> exact Chip.runChainLib_kept _ _ _ _ _ _ _ _ _ hq
    have hb' : b.kept = a.kept := by
      split at hb
      · simp only [Option.bind_eq_some_iff, Option.map_eq_some_iff] at hb
        obtain ⟨_, -, c, hc, hbc⟩ := hb
        cases hbc
        exact Chip.runChainLib_kept _ _ _ _ _ _ _ _ _ hc
      · cases hb; rfl
    rw [hq', hb', Chip.runChainLib_kept _ _ _ _ _ _ _ _ _ ha]
    rw [Chip.kept_ite, Chip.foldl_kept _ _ _ (fun c s => c.dropChain_kept s), ite_self]
  · cases h

@[simp] theorem Chip.basicPol_kept (m : Chip) : m.basicPol.kept = m.kept := by
  have hp : ∀ c bad : Chip, bad.kept = c.kept → (c.polChains.getD bad).kept = c.kept := by
    intro c bad h
    cases hc : c.polChains with
    | none => exact h
    | some x => exact Chip.polChains_kept c x hc
  unfold Chip.basicPol
  dsimp only
  split
  · simp
  · split
    · simp
    · rw [hp] <;> simp

@[simp] theorem Chip.axcLoop_kept (m : Chip) (cap v : Nat) : (m.axcLoop cap v).kept = m.kept := by
  unfold Chip.axcLoop
  dsimp only
  split
  · split
    · next c h => simp [Chip.runChainLib_kept _ c _ _ _ _ _ _ _ h]
    · simp
  · simp

@[simp] theorem Chip.basicCnv_kept (m : Chip) : m.basicCnv.kept = m.kept := by
  unfold Chip.basicCnv
  split <;> simp

@[simp] theorem Chip.basicRegs_kept (m : Chip) (b : Blk) : (m.basicRegs b).kept = m.kept := by simp [Chip.basicRegs]

@[simp] theorem Chip.basicBat_kept (m : Chip) : m.basicBat.kept = m.kept := by
  unfold Chip.basicBat
  dsimp only
  split
  · simp
  · split
    · split
      · next c h => simp [Chip.runChainLib_kept _ c _ _ _ _ _ _ _ h]
      · simp
    · simp

@[simp] theorem Chip.basicEst_kept (m : Chip) : m.basicEst.kept = m.kept := by
  have h : ∀ (c : Chip) (n : Nat), (c.profileReg .cnvPertTone n).kept = c.kept := fun c n => c.profileReg_kept _ _ rfl
  have hc : ∀ c : Chip, (c.profileReg .cnvPertCfg 0).kept = c.kept := fun c => c.profileReg_kept _ _ rfl
  simp [Chip.basicEst, h, hc]

/-! ### Partner entries and the load of the vendor image -/

@[simp] theorem Chip.entEnable_kept (m : Chip) (e : Nat) (on : Bool) : (m.entEnable e on).kept = m.kept := by
  simp [Chip.entEnable]

@[simp] theorem Chip.libEntry_kept (m : Chip) (e : Nat) (ws : List Word) : (m.libEntry e ws).kept = m.kept := by
  simp [Chip.libEntry]

@[simp] theorem Chip.basicPtn_kept (m : Chip) : m.basicPtn.kept = m.kept := by simp [Chip.basicPtn]

@[simp] theorem Chip.applyProfile_kept (m : Chip) (b : Blk) : (m.applyProfile b).kept = m.kept := by
  unfold Chip.applyProfile
  split <;> simp

@[simp] theorem Chip.vendorLoad_kept (m : Chip) : m.vendorLoad.kept = m.kept := by simp [Chip.vendorLoad]

/-! ### Any access, answered or rejected -/

@[simp] theorem tableAct_keeps (e w : Nat) (d : Word) (m : Chip) : (tableAct e w d m).Keeps := by simp [tableAct]

@[simp] theorem Chip.slotStop_kept (m : Chip) (s : Nat) : (m.slotStop s).kept = m.kept := by simp [Chip.slotStop]

@[simp] theorem Chip.slotRelease_kept (m : Chip) (s : Nat) : (m.slotRelease s).kept = m.kept := by
  simp [Chip.slotRelease]

@[simp] theorem ctlAct_keeps (s : Nat) (d : Word) (m : Chip) : (ctlAct s d m).Keeps := by simp [ctlAct]

@[simp] theorem loopAct_keeps (s w : Nat) (d : Word) (m : Chip) : (loopAct s w d m).Keeps := by simp [loopAct]

@[simp] theorem Chip.writeAct_keepsStraps (m : Chip) (ag : Agent) (addr : Nat) (d : Word) :
    (m.writeAct ag addr d).KeepsStraps := by
  unfold Chip.writeAct
  split <;> simp

@[simp] theorem Chip.eauthPort_straps (m : Chip) (p : Nat) : (m.eauthPort p).kept.straps = m.kept.straps := by
  simp [Chip.eauthPort]

@[simp] theorem Chip.eauthNote_straps (m : Chip) (ag : Agent) : (m.eauthNote ag).kept.straps = m.kept.straps := by
  unfold Chip.eauthNote
  split
  · simp
  · simp
  · dsimp only
    split <;> simp
  · rfl

@[simp] theorem Chip.rejectWrite_straps (m : Chip) (ag : Agent) (addr : Nat) (d : Word) (st : Status) :
    (m.rejectWrite ag addr d st).kept.straps = m.kept.straps := by
  unfold Chip.rejectWrite
  split <;> simp

@[simp] theorem Chip.busWrite_straps (m : Chip) (ag : Agent) (addr : Nat) (d : Word) :
    (m.busWrite ag addr d).1.kept.straps = m.kept.straps := by
  unfold Chip.busWrite
  split <;> simp

/-! ### Levels and parameters -/

@[simp] theorem Chip.setLevel_kept (m : Chip) (b : Blk) (expert : Bool) : (m.setLevel b expert).kept = m.kept := by
  simp [Chip.setLevel]

@[simp] theorem Chip.levelTo_kept (m : Chip) (b : Blk) (expert : Bool) : (m.levelTo b expert).kept = m.kept := by
  unfold Chip.levelTo
  dsimp only
  split
  · split <;> simp
  · split <;> simp

@[simp] theorem Chip.levelNow_kept (m : Chip) (b : Blk) : (m.levelNow b).kept = m.kept := by simp [Chip.levelNow]

@[simp] theorem Chip.applyParam_straps (m : Chip) (ag : Agent) (e : Nat × Word) :
    (m.applyParam ag e).kept.straps = m.kept.straps := by
  unfold Chip.applyParam
  dsimp only
  split
  · split <;> simp
  · simp

@[simp] theorem Chip.applyParams_straps (m : Chip) : m.applyParams.kept.straps = m.kept.straps := by
  simp [Chip.applyParams]

/-! ### The scans and the last steps of boot -/

@[simp] theorem Chip.capLost_kept (m : Chip) (u : Nat) : (m.capLost u).kept = m.kept := by simp [Chip.capLost]

@[simp] theorem Chip.capScan_kept (m : Chip) : m.capScan.kept = m.kept := by simp [Chip.capScan]

@[simp] theorem Chip.storeBoot_kept (m : Chip) : m.storeBoot.kept = m.kept := by
  unfold Chip.storeBoot
  dsimp only
  generalize hc : List.foldl _ m _ = c
  have hm : c.kept = m.kept := by
    rw [← hc]
    refine Chip.foldl_kept _ _ _ (fun m b => ?_)
    simp
  split
  · simpa using hm
  · simpa using hm

@[simp] theorem Chip.bootScan_kept (m : Chip) : m.bootScan.kept = m.kept := by simp [Chip.bootScan]

@[simp] theorem Chip.bootRequests_kept (m : Chip) : m.bootRequests.kept = m.kept := by simp [Chip.bootRequests]

@[simp] theorem Chip.splInit_kept (m : Chip) : m.splInit.kept = m.kept := by simp [Chip.splInit]

end Sys2Proof.Machine
end

section
/-!
PROOFS. What a reset and a loss of supply keep and reset (R55, R58, R60, R62).
-/

namespace Sys2Proof.Machine

/-! ### The registers after a reset -/

theorem Tab.get_filter {κ α : Type} [DecidableEq κ] (dflt : κ → α) (p : κ → Bool) (t : Tab κ α) (k : κ) :
    Tab.get dflt (t.filter fun e => p e.1) k = if p k then Tab.get dflt t k else dflt k := by
  induction t with
  | nil => simp [Tab.get]
  | cons e t ih =>
    obtain ⟨j, v⟩ := e
    by_cases hk : k = j
    · subst hk
      cases hp : p k <;> simp [Tab.get, hp, ih]
    · cases hp : p j <;> simp [Tab.get, hk, hp, ih]

/-- A reset leaves the registers that it keeps and gives every other one its reset value. -/
theorem Chip.afterReset_get (m : Chip) (por : Bool) (cause : Nat) (b : Base) (r : RName) (i : Nat) :
    (m.afterReset por cause b).get r i = if keepsReg por r then m.get r i else resetWord (r, i) :=
  Tab.get_filter resetWord (fun q => keepsReg por q.1) m.regs (r, i)

theorem keepsReg_por {r : RName} (h : r ≠ .updCfg) : keepsReg true r = false := by
  simp [keepsReg, h]

/-- A power-on reset gives every register but UPD_CFG its reset value. -/
theorem Chip.afterReset_por_get (m : Chip) (cause : Nat) (b : Base) {r : RName} (i : Nat) (h : r ≠ .updCfg) :
    (m.afterReset true cause b).get r i = resetWord (r, i) := by
  rw [Chip.afterReset_get, keepsReg_por h]; rfl

theorem Chip.afterReset_get_kept (m : Chip) (cause : Nat) (b : Base) {r : RName} (i : Nat) (h : keepsReg false r = true) :
    (m.afterReset false cause b).get r i = m.get r i := by
  rw [Chip.afterReset_get, h]; rfl

theorem Chip.afterReset_get_reset (m : Chip) (cause : Nat) (b : Base) {r : RName} (i : Nat) (h : keepsReg false r = false) :
    (m.afterReset false cause b).get r i = resetWord (r, i) := by
  rw [Chip.afterReset_get, h]; rfl

/-! ### What is written when the reset comes -/

theorem Chip.kept_nvm {a b : Chip} (h : a.kept = b.kept) : a.nvm = b.nvm := congrArg Kept.nvm h

/-- The loss of the supply keeps the MRAM, enters OFF, and remembers a VKEEP lost. -/
theorem Chip.powerLost_off (m : Chip) (v : Bool) :
    (m.powerLost v).pwr.base = .off ∧ (m.powerLost v).nvm = m.nvm ∧ (v = true → (m.powerLost v).pwr.vkeepLost = true) ∧
      ∀ r i, r ≠ .updCfg → (m.powerLost v).get r i = resetWord (r, i) := by
  unfold Chip.powerLost
  dsimp only
  refine ⟨rfl, ?_, ?_, fun r i h => ?_⟩
  · exact Chip.kept_nvm (a := m.recordAbandon.capAbandon _) (by simp)
  · rintro rfl; exact Bool.or_true _
  · exact Chip.afterReset_por_get _ 0 .off i h

theorem Chip.posOn_notedFrom (m : Chip) (k : Nat) : (m.posOn k).NotedFrom m := by
  unfold Chip.posOn
  dsimp only
  split
  · exact (Chip.event_notedFrom _ _).trans (.of_regs rfl rfl)
  · exact .of_regs rfl rfl

theorem Chip.capDone_notedFrom (m : Chip) (u : Nat) (c : Cap) : (m.capDone u c).NotedFrom m :=
  (Chip.when_notedFrom _ (.of_regs rfl rfl)).trans (.of_regs rfl rfl)

theorem Chip.capRecord_notedFrom (m : Chip) (r : Rec) (good : Bool) : (m.capRecord r good).NotedFrom m := by
  unfold Chip.capRecord
  dsimp only
  split_ifs
  · exact .refl m
  · exact (Chip.event_notedFrom _ _).trans (m.capDone_notedFrom _ _)
  · exact .of_regs rfl rfl

/-- A record whose write ends well changes no registers but those of its events. -/
theorem Chip.recordCommit_notedFrom (m : Chip) : (m.recordCommit true).NotedFrom m := by
  unfold Chip.recordCommit
  split
  · exact .refl m
  · exact (Chip.capRecord_notedFrom _ _ _).trans ((Chip.posOn_notedFrom _ _).trans (.of_regs rfl rfl))

theorem not_noted_of_keepsReg {r : RName} (h : keepsReg false r = true) : r ∉ notedRegs := by
  intro hr
  simp only [notedRegs, List.mem_cons, List.not_mem_nil, or_false] at hr
  rcases hr with rfl | rfl | rfl <;> revert h <;> decide

/-- A warm reset of a powered chip, by its cause. -/
theorem Chip.warmReset_boot (m : Chip) (cause : Nat) (hs : m.pwr.base ≠ .ship) (ho : m.pwr.base ≠ .off) :
    (m.warmReset cause).pwr.base = .boot ∧ (m.warmReset cause).pwr.cause = cause ∧ (m.warmReset cause).nvm = m.nvm ∧
      (∀ r i, keepsReg false r = true → (m.warmReset cause).get r i = m.get r i) ∧
      ∀ r i, keepsReg false r = false → (m.warmReset cause).get r i = resetWord (r, i) := by
  have hw : m.warmReset cause = (m.recordCommit true).afterReset false cause .boot := by simp [Chip.warmReset, hs, ho]
  rw [hw]
  refine ⟨rfl, rfl, Chip.kept_nvm (a := m.recordCommit true) (m.recordCommit_kept true), fun r i h => ?_, fun r i h => ?_⟩
  · rw [Chip.afterReset_get_kept _ cause .boot i h, m.recordCommit_notedFrom.get r i (not_noted_of_keepsReg h)]
  · exact Chip.afterReset_get_reset _ cause .boot i h

end Sys2Proof.Machine
end

section
/-!
PROOFS. How a boot ends (R65, R67, R679, R683).
-/

namespace Sys2Proof.Machine

/-! ### The boot with nothing to copy -/

/-- What the steps of boot after the images start from. -/
def Chip.imagesGood (m : Chip) : Chip := { m with upd := { m.upd with recovery := false }, pwr := { m.pwr with recovery := false } }

theorem Chip.bootImages_good (m : Chip) (act rol copied : Nat) (hc : m.upd.copying = none) (hs : m.upd.stg ≠ .pending)
    (ht : m.upd.trial = false) (ha : bootCheck act = 0) : m.bootImages act rol copied = (m.imagesGood, true) := by
  have hx : m.imagesGood.bootCopies rol copied = (m.imagesGood, true) := by
    simp [Chip.bootCopies, Chip.imagesGood, hc, hs, ht]
  have hi : m.bootImages act rol copied =
      if !(m.imagesGood.bootCopies rol copied).2 || bootCheck act = 0 || (m.imagesGood.bootCopies rol copied).1.upd.recovery ||
        (m.imagesGood.bootCopies rol copied).1.sys.bootRoll then m.imagesGood.bootCopies rol copied
      else (m.imagesGood.bootCopies rol copied).1.activeFails (bootCheck act) rol copied := rfl
  rw [hi, hx, ha]
  simp

theorem Chip.bootComplete_good (m : Chip) (us act rol copied : Nat) (hb : m.pwr.base = .boot) (he : m.pwr.ecdFired = false)
    (hk : m.nvm.erasing = false) (hc : m.upd.copying = none) (hs : m.upd.stg ≠ .pending) (ht : m.upd.trial = false)
    (ha : bootCheck act = 0) : m.bootComplete us act rol copied = (m.advance us).imagesGood.bootRest us := by
  have hw : (m.advance us).when m.nvm.erasing Chip.eraseKeys = m.advance us := by rw [hk]; rfl
  have hi := (m.advance us).bootImages_good act rol copied hc hs ht ha
  simp [Chip.bootComplete, hb, he, hw, hi]

/-! ### The last steps of boot -/

/-- The base state, the SYS state and the pair's state. -/
def Chip.posted (m : Chip) : Base × Sys × Spl := (m.pwr.base, m.sys, m.spl)

theorem BootSame.posted {a b : Chip} (h : BootSame a b) : a.posted = b.posted := by
  unfold Chip.posted
  rw [h.base, h.sys, h.spl]

theorem Chip.seqSummary_posted (m : Chip) (k n : Nat) : (m.seqSummary k n).posted = m.posted :=
  ((Chip.event_bootSame _ _).trans (m.enqueue_bootSame _ _)).posted

theorem Chip.seqUpEnd_posted (m : Chip) (n : Nat) : (m.seqUpEnd n).posted = m.posted :=
  (Chip.seqSummary_posted { m with seq := { m.seq with st := .on, step := n, wait := .none, retry := 0 } } 0 n).trans rfl

theorem Chip.seqUp_posted (m : Chip) (n fuel : Nat) : (m.seqUp n fuel).posted = m.posted := by
  induction fuel generalizing m n with
  | zero => exact m.seqUpEnd_posted 63
  | succ fuel ih =>
    unfold Chip.seqUp
    dsimp only
    split_ifs
    · exact m.seqUpEnd_posted 63
    · exact (ih _ _).trans rfl
    · rfl
    · rfl
    · rfl
    · exact (ih _ _).trans rfl
    · rfl
    · exact m.seqUpEnd_posted n

theorem Chip.seqOn_posted (m : Chip) : m.seqOn.posted = m.posted := by
  unfold Chip.seqOn
  dsimp only
  split
  · exact (Chip.seqUp_posted _ _ _).trans rfl
  · exact (Chip.seqUp_posted _ _ _).trans rfl
  · rfl

theorem Chip.bootRequests_posted (m : Chip) : m.bootRequests.posted = m.posted := by
  unfold Chip.bootRequests
  split
  · rfl
  · have h : (if m.flag .seqCfg 0 1 then m.seqOn else m).posted = m.posted := by
      split
      · exact m.seqOn_posted
      · rfl
    exact h

/-- Whether a chip with these straps comes up alone: a primary whose INTLK_IN is low. -/
def Chip.bootsSolo (m : Chip) : Bool := !m.pwr.role && !m.spl.inp

theorem Chip.bootsSolo_congr {a b : Chip} (h : a.kept.straps = b.kept.straps) : a.bootsSolo = b.bootsSolo := by
  obtain ⟨hr, hi⟩ := Prod.mk.inj h
  have hr : a.pwr.role = b.pwr.role := hr
  have hi : a.spl.inp = b.spl.inp := hi
  rw [Chip.bootsSolo, Chip.bootsSolo, hr, hi]

/-- Boot counts the power cycle and enters the base state `b`. -/
def Chip.cycleCounted (m : Chip) (b : Base) : Chip :=
  { m with nvm := { m.nvm with pcc := satTo 0xFFFFFF (m.nvm.pcc + 1) }
           pwr := { m.pwr with base := b, pll := true, vkeepLost := false } }

/-- The chip as the scans of boot leave it. -/
def Chip.bootScanned (m : Chip) : Chip :=
  let c := (m.bootTrims.when (!m.upd.recovery) Chip.vendorLoad).cycleCounted m.bootBase
  (if c.upd.recovery then c else c.applyParams).bootScan.storeBoot.capScan

/-- Boot notes the base state `b`, its last step and its time. -/
def Chip.bootNoted (m : Chip) (b : Base) (us : Nat) : Chip :=
  { m with upd := { m.upd with trialAt := m.now }
           pwr := { m.pwr with base := b }
           sys := { m.sys with bootStep := 10, bootMs := satTo 65535 (us / 1000) } }

theorem Chip.bootRest_eq (m : Chip) (us : Nat) :
    m.bootRest us = (m.bootScanned.bootNoted m.bootBase us).splInit.bootRequests := by
  unfold Chip.bootRest Chip.bootNoted Chip.bootScanned Chip.cycleCounted
  dsimp only

@[simp] theorem Chip.cycleCounted_straps (m : Chip) (b : Base) : (m.cycleCounted b).kept.straps = m.kept.straps := rfl

@[simp] theorem Chip.bootNoted_kept (m : Chip) (b : Base) (us : Nat) : (m.bootNoted b us).kept = m.kept := rfl

theorem Chip.bootScanned_straps (m : Chip) : m.bootScanned.kept.straps = m.kept.straps := by
  simp [Chip.bootScanned]

theorem Chip.bootRest_posted (m : Chip) (us : Nat) :
    (m.bootRest us).pwr.base = m.bootBase ∧ (m.bootRest us).sys.bootStep = 10 ∧ (m.bootRest us).spl.out = m.bootsSolo ∧
      (m.bootRest us).spl.st = if m.bootsSolo then .solo else .sync := by
  have hs : m.bootScanned.bootsSolo = m.bootsSolo := Chip.bootsSolo_congr m.bootScanned_straps
  rw [m.bootRest_eq us]
  generalize m.bootScanned = c at hs
  have h := Chip.bootRequests_posted (c.bootNoted m.bootBase us).splInit
  obtain ⟨hb, hy⟩ := Prod.mk.inj h
  obtain ⟨hy, hp⟩ := Prod.mk.inj hy
  refine ⟨hb, congrArg Sys.bootStep hy, ?_, ?_⟩
  · rw [hp, ← hs]; rfl
  · rw [hp, ← hs]; rfl

/-! ### The power cycle counted -/

/-- The power cycle counted in what boot keeps. -/
def Kept.counted (k : Kept) : Kept := { k with nvm := { k.nvm with pcc := satTo 0xFFFFFF (k.nvm.pcc + 1) } }

theorem Chip.cycleCounted_kept (m : Chip) (b : Base) : (m.cycleCounted b).kept = m.kept.counted := rfl

/-- With no parameters in MRAM, boot keeps the straps, the time and the MRAM, but for the power cycle it counts. -/
theorem Chip.bootRest_kept (m : Chip) (us : Nat) (hp : m.nvm.params = []) : (m.bootRest us).kept = m.kept.counted := by
  have hc : ((m.bootTrims.when (!m.upd.recovery) Chip.vendorLoad).cycleCounted m.bootBase).kept = m.kept.counted := by
    rw [Chip.cycleCounted_kept]; simp
  have hs : m.bootScanned.kept = m.kept.counted := by
    unfold Chip.bootScanned
    generalize (m.bootTrims.when (!m.upd.recovery) Chip.vendorLoad).cycleCounted m.bootBase = c at hc
    have hn : c.nvm.params = [] := (congrArg Nvm.params (congrArg Kept.nvm hc)).trans hp
    have ha : c.applyParams = c := by simp [Chip.applyParams, hn]
    dsimp only
    rw [Chip.capScan_kept, Chip.storeBoot_kept, Chip.bootScan_kept, ha, ite_self, hc]
  rw [m.bootRest_eq us, Chip.bootRequests_kept, Chip.splInit_kept, Chip.bootNoted_kept, hs]

end Sys2Proof.Machine
end

section
/-!
PROOFS. Supply losses, resets and boot (R46, R55, R58, R60, R62, R65, R67, R392, R679, R683, R701).
-/

namespace Sys2Proof.Machine

theorem Chip.supplyLoss_powered (m : Chip) (hs : m.pwr.base ≠ .ship) (ho : m.pwr.base ≠ .off) :
    m.supplyLoss = m.powerLost false := by
  simp [Chip.supplyLoss, hs, ho]

theorem Chip.supplyLoss_ship (m : Chip) (hs : m.pwr.base = .ship) :
    m.supplyLoss = { m with pwr := { m.pwr with supLow := true } } := by
  simp [Chip.supplyLoss, hs]

theorem Chip.porRelease_held (m : Chip) (role refsel : Bool) (hs : m.pwr.base = .ship) (hw : m.pwr.wakeDue ≠ 0) :
    m.porRelease role refsel = m.shipWake m.pwr.wakeDue := by
  simp [Chip.porRelease, hs, hw]

theorem Chip.porRelease_off (m : Chip) (role refsel : Bool) (ho : m.pwr.base = .off) :
    m.porRelease role refsel =
      { m.afterReset true 0 .boot with pwr := { (m.afterReset true 0 .boot).pwr with role := role, refsel := refsel } } := by
  simp [Chip.porRelease, ho]

theorem Chip.bootBase_good (m : Chip) (us : Nat) :
    (m.advance us).imagesGood.bootBase = if m.pwr.role = false ∧ m.spl.inp = false then .standby else .shadow := by
  simp [Chip.bootBase, Chip.imagesGood, Chip.advance]

theorem Chip.bootsSolo_iff (m : Chip) : m.bootsSolo = true ↔ m.pwr.role = false ∧ m.spl.inp = false := by
  simp [Chip.bootsSolo]

/-- The chip after its first power-on, with its straps and no vendor bundle. -/
def firstBoot (role inp : Bool) : Chip :=
  { State.reset.m with vend := Vendor.init, pwr := { State.reset.m.pwr with role := role }, spl := { State.reset.m.spl with inp := inp } }

theorem firstBoot_kept (role inp : Bool) (us : Nat) :
    ((firstBoot role inp).advance us).imagesGood.kept = ⟨role, inp, us, Nvm.init⟩ := by
  have hn : (0 : Nat) + us = us := Nat.zero_add us
  exact congrArg (fun n => (⟨role, inp, n, Nvm.init⟩ : Kept)) hn

theorem Nvm.init_params : Nvm.init.params = [] := by decide

/-- The first boot counts one power cycle and takes the time given. -/
theorem firstBoot_counted (role inp : Bool) (us : Nat) :
    (((firstBoot role inp).advance us).imagesGood.bootRest us).nvm.pcc = 1 ∧
      (((firstBoot role inp).advance us).imagesGood.bootRest us).now = us := by
  have hk := ((firstBoot role inp).advance us).imagesGood.bootRest_kept us Nvm.init_params
  rw [firstBoot_kept] at hk
  exact ⟨congrArg (fun k => k.nvm.pcc) hk, congrArg Kept.now hk⟩

/-- Settles O20: a reset filters the registers by whether it keeps them, and what boot does after the images, up to the
parameters' writes and resets, keeps the straps that its last steps decide by. -/
theorem resetsPowerOnAndBoot : Obligations.ResetsPowerOnAndBoot := by
  unfold Obligations.ResetsPowerOnAndBoot
  refine ⟨?_, ?_, ?_, ?_, ?_, ?_, ?_, ?_⟩
  · intro s hs ho
    obtain ⟨hb, hn, -, hr⟩ := s.m.powerLost_off false
    exact ⟨_, completes_of (exec_supplyLoss s) (s.m.supplyLoss_powered hs ho), hb, hn, hr⟩
  · intro s hs
    exact completes_of (exec_supplyLoss s) (s.m.supplyLoss_ship hs)
  · intro s role refsel hs hw
    refine ⟨_, completes_of (exec_powerOnResetRelease role refsel s) (s.m.porRelease_held role refsel hs hw), rfl, rfl, rfl, rfl,
      rfl, rfl, fun r i h => ?_, fun r i h => ?_⟩
    · exact s.m.afterReset_get_kept 4 .boot i h
    · exact s.m.afterReset_get_reset 4 .boot i h
  · intro s
    obtain ⟨hb, hn, hv, hr⟩ := s.m.powerLost_off true
    exact ⟨_, completes_of (exec_vkeepLoss s) rfl, hb, hv rfl, hn, hr⟩
  · intro s role refsel ho
    exact ⟨_, completes_of (exec_powerOnResetRelease role refsel s) (s.m.porRelease_off role refsel ho), rfl, rfl, rfl, rfl, rfl,
      fun r i h => s.m.afterReset_por_get 0 .boot i h⟩
  · intro s hs ho
    exact ⟨_, completes_of (exec_warmReset s) rfl, s.m.warmReset_boot 1 hs ho⟩
  · intro s us copied act rol hb he hk hc hs ht ha
    obtain ⟨hbase, hstep, hout, -⟩ := (s.m.advance us).imagesGood.bootRest_posted us
    refine ⟨_, completes_of (exec_bootComplete us act (rol, copied) s)
      (s.m.bootComplete_good us act rol copied hb he hk hc hs ht ha), ?_, hstep, ?_⟩
    · rw [hbase, s.m.bootBase_good us]
    · rw [hout]; exact s.m.bootsSolo_iff
  · intro role inp
    obtain ⟨hbase, -, -, hst⟩ := ((firstBoot role inp).advance 250000).imagesGood.bootRest_posted 250000
    obtain ⟨hpcc, hnow⟩ := firstBoot_counted role inp 250000
    refine ⟨_, completes_of (exec_bootComplete 250000 0 (0, 0) _)
      ((firstBoot role inp).bootComplete_good 250000 0 0 0 rfl rfl rfl rfl (show Upd.init.stg ≠ .pending by decide) rfl rfl), ?_, hpcc, hnow, ?_⟩
    · rw [hbase, (firstBoot role inp).bootBase_good 250000]; rfl
    · rw [hst]
      exact if_congr (firstBoot role inp).bootsSolo_iff rfl rfl

end Sys2Proof.Machine
end
